-- ==== Sys2Proof/Word.lean ====
section
/-!
DEFINITION. Sys2Proof/Word.lean: the word types of Breta and their plainest arithmetic. Everything a rule could
show wrong (bit fields, byte order, checksums) stands in Machine/Ops.lean instead, where it can be mended.
-/
namespace Sys2Proof

/-- One byte. -/
abbrev Byte := BitVec 8
/-- A 16-bit halfword (route targets, larder counts, ring CRC). -/
abbrev Half := BitVec 16
/-- A 32-bit word, the width of every register location. -/
abbrev Word := BitVec 32
/-- A 64-bit word (Sundial times, the shift register SH). -/
abbrev DWord := BitVec 64

end Sys2Proof
end

