-- ==== Sys2Proof/Syntax.lean ====
section
/-!
DEFINITION. Sys2Proof/Syntax.lean: the commands Breta takes, one constructor per row of spec/opcode_table.json. A command is
an event from outside (a register access, a pin, a cell, a message) or one indivisible step of a part of Breta.
-/
namespace Sys2Proof

/-- Who reads or writes a register: the host; a ring command (R487) from a node; a Steward core, with the FREEZE
and SAFE bits of the key it used and the SYS bit of its PCK (R389). -/
inductive Who where
  | host
  | ring (node : BitVec 5)
  | steward (c : Fin 4) (freeze safe sys : Bool)
  deriving DecidableEq, Repr

/-- What an ECC check finds in the word or words a step reads: nothing, an error it corrects, an error it cannot. -/
inductive Ecc where
  | ok
  | ce
  | ue
  deriving DecidableEq, Repr

/-- What the seal unit finds (R321, R325): no error, a corrected or an uncorrectable error in the record at a Cellar
address, an uncorrectable error in the stored seal key. -/
inductive SealEcc where
  | ok
  | ce (addr : BitVec 23)
  | ue (addr : BitVec 23)
  | key
  deriving DecidableEq, Repr

/-- What the reads of a row's copy meet (R324, R325, R327): the words of the row with a corrected and with an uncorrectable error. -/
structure RowCopy where
  bank : Fin 16
  ce : List (BitVec 7)
  ue : List (BitVec 7)
  deriving DecidableEq, Repr

/-- A window of the node on ring A or B (R500), with what the reads of a worker's drain meet in it (R324, R325): the bytes of corrected
words, and the bin and record with an uncorrectable one. -/
structure Slot where
  ring : Bool
  ce : List (BitVec 23)
  ue : Option (Byte × Word)
  deriving DecidableEq, Repr

/-- How a received cell ended on the wire (R483): clean, with an invalid block, or with the stomp code. -/
inductive CellEnd where
  | clean
  | bad
  | stomped
  deriving DecidableEq, Repr

/-- The status of a completion (R549): successful, Unsupported Request, Completer Abort. -/
inductive CplStatus where
  | sc
  | ur
  | ca
  deriving DecidableEq, Repr

/-- The errors of R549 that are detected outside Breta's own request handling, and the Unsupported Requests of R544 that no
other row brings, with their KIND, window and offset. -/
inductive PcieErr where
  | receiver
  | badTlp
  | badDllp
  | replayRollover
  | replayTimeout
  | dlProtocol
  | poisoned
  | flowControl
  | unexpected
  | overflow
  | malformed
  | unsupported (kind : BitVec 4) (posted : Bool) (window : BitVec 2) (offset : BitVec 24)
  deriving DecidableEq, Repr

/-- What a read or a write addresses: BAR0 registers, BAR2, the expansion ROM, the configuration space (R543, R533). -/
inductive Space where
  | bar0
  | bar2
  | rom
  | config
  deriving DecidableEq, Repr

/-- The TAP instructions (R646). -/
inductive TapInstr where
  | bypass
  | sample
  | preload
  | extest
  | clamp
  | highz
  deriving DecidableEq, Repr

/-- What starts a W reset (R447): watchdog WD4, a command (R602), a ring command, a full load (R73). -/
inductive WCause where
  | wd4
  | command
  | ring
  | fullLoad
  deriving DecidableEq, Repr

/-- The commands of Breta, one constructor for each row of the table of operations and events. -/
inductive Instr where
  /-- P_RESET (R594): A supply out of range, PERST_N low or RESET_N low starts a P reset, which clears all state except the root cellar. -/
  | pReset (cause : BitVec 2)
  /-- P_RESET_END (R596): When no P reset source is active, Breta samples ROLE and BIST_AT_START and starts its PLLs. -/
  | pResetEnd (role : BitVec 2) (bistAtStart : Bool)
  /-- CORE_PLL_LOCK (R231): The core PLL reports lock; TB_NOW starts counting and the memory clears begin. -/
  | corePllLock
  /-- MEMORY_CLEAR_END (R287): The start-up clear of the Cellar, control stores, scratch and Steward memories ends, and INITDONE reads 1. -/
  | memoryClearEnd
  /-- FCLK_LOSS_OF_LOCK (R29): The core PLL lock detector reports loss of lock; FCLK_LOL is set and the clock-fault event is raised. -/
  | fclkLossOfLock
  /-- RING_PLL_LOSS_OF_LOCK (R48): The ring PLL loses lock and RING_LOL is set. -/
  | ringPllLossOfLock
  /-- REFCLK_STOP (R28): REFCLK stops and every fclk domain stops, watchdogs included, without detection by Breta. -/
  | refclkStop
  /-- VDD_AON_LOSS (R449): VDD_AON falls below 0.60 V and every root-cellar byte becomes 0. -/
  | vddAonLoss
  /-- VDDA_SER_LOSS (R638): VDDA_SER falls below 1.50 V and the package bypass closes within 1 µs. -/
  | vddaSerLoss
  /-- BANK_SUPPLY_LOSS (R198): A bank supply leaves its window; its lanes hold their levels, stop driving and set BANK_PWR. -/
  | bankSupplyLoss (k : Fin 8)
  /-- BANK_SUPPLY_RETURN (R198): A bank supply returns to its window; its lanes follow the pins again after the filter. -/
  | bankSupplyReturn (k : Fin 8)
  /-- W_RESET (R600): A W reset stops the acquisition and supervisory planes, empties larders and queues, ends bins and ends freezes. -/
  | wReset (cause : WCause)
  /-- W_RESET_END (R600): 6,000 clk after it starts, the W reset ends with STATE EMPTY, or LOADING after a full-load start. -/
  | wResetEnd
  /-- RSTCMD (R602): A word write of CONFIRM 0x3A5C with GO to SYS_RSTCMD starts a W reset; any other write is counted as rejected. -/
  | rstcmd (who : Who) (v : Word) (be : BitVec 4)
  /-- HOT_RESET (R562): A hot reset resets the host interface fields, ends a Trellis load in progress and discards old completions. -/
  | hotReset
  /-- DL_DOWN (R558): The data link goes down outside a P reset; an H reset acts, WIRE becomes 0 and LINKDOWN increments. -/
  | dlDown
  /-- INIT_FLR (R560): A configuration write of INIT_FLR starts a Function Level Reset of the host interface. -/
  | initFlr (v : Word) (be : BitVec 4)
  /-- FLR_END (R560): The FLR completes; FLR_BUSY and TRANS_PEND read 0 and configuration requests complete normally. -/
  | flrEnd
  /-- TRL_START (R72): TRL_CTRL.START begins a load of the kind in MODE, with a W reset for a full load. -/
  | trlStart (who : Who) (v : Word) (be : BitVec 4)
  /-- TRL_ABORT (R101): TRL_CTRL.ABORT ends a load in progress with code 0x34. -/
  | trlAbort (who : Who) (v : Word) (be : BitVec 4)
  /-- TRL_FIFO_WRITE (R75): A host write to TRL_FIFO appends its DWORDs to the image being loaded. -/
  | trlFifoWrite (who : Who) (ws : List (Word × BitVec 4)) (poison ue : Bool)
  /-- TRL_DMA_CHUNK (R78): A write to TRL_DMA_LEN starts a DMA read of that many image bytes from host memory. -/
  | trlDmaChunk (who : Who) (v : Word) (be : BitVec 4)
  /-- TRL_COMMIT (R88): TRL_CTRL.COMMIT in VALIDATED commits the image: routing, bins and lanes start and CMP0 is armed for Tfirst. -/
  | trlCommit (who : Who) (v : Word) (be : BitVec 4)
  /-- WORKER_IMAGE_RESULT (R94): A worker's verdict on its nested image arrives and sets its TRL_WSTAT and TRL_WOFF. -/
  | workerImageResult (node : BitVec 5) (code : Byte) (off : Word)
  /-- CELLAR_BANK_POWER_UP (R288): The clear of a bank powered up for a partial BINS ends, and the partial image applies at the next boundary. -/
  | cellarBankPowerUp (k : Fin 16)
  /-- TICK_BOUNDARY (R20): CMP0 matches and Breta performs the eight boundary actions in order. -/
  | tickBoundary
  /-- TICK_OUT_FALL (R20): TICK_OUT falls 64 clk after it rose. -/
  | tickOutFall
  /-- BUDGET_OVERRUN (R129): A TICKED engine reaches the end of budget clk BUDGET without yielding and OVERRUN latches. -/
  | budgetOverrun (e : Fin 32)
  /-- STALL_LIMIT (R132): A STREAM engine's STALLCNT would exceed its STALL value at a boundary, and the engine is frozen. -/
  | stallLimit (e : Fin 32)
  /-- RES_TIMEOUT (R306): A reservation reaches its RES_TIMEOUT boundary without COMMIT or VOID and is voided with LOST set. -/
  | resTimeout (b : Fin 256) (slot : Fin 8)
  /-- GRACE_EXPIRED (R180): GRACE boundaries pass without a graceful swap; the replant escalates to FORCE or is cancelled. -/
  | graceExpired (e : Fin 32)
  /-- PRECOPY_END (R184): The transplant precopy of both banks ends, or ends with CS_UE at an uncorrectable word. -/
  | precopyEnd (e : Fin 32) (ecc : Ecc)
  /-- CUTOVER_END (R185): The cutover completes; held occurrences reach the target, the source becomes VACATED and the engine-moved event is raised. -/
  | cutoverEnd (e : Fin 32)
  /-- FAULT (R110): SEQOP FAULT freezes the engine with cause FAULT and detail AUX. -/
  | fault (e : Fin 32) (cs scr : Ecc)
  /-- NEXT (R110): SEQOP NEXT executes the microword's fields and continues at PC + 1. -/
  | next (e : Fin 32) (cs scr : Ecc)
  /-- JUMP (R110): SEQOP JUMP continues at NADDR. -/
  | jump (e : Fin 32) (cs scr : Ecc)
  /-- BR2 (R110): SEQOP BR2 branches two ways on condition A. -/
  | br2 (e : Fin 32) (cs scr : Ecc)
  /-- BR4 (R111): SEQOP BR4 branches four ways on conditions B and A, taking 2 clk. -/
  | br4 (e : Fin 32) (cs scr : Ecc)
  /-- SEQ_CALL (R114): SEQOP CALL pushes PC + 1 onto the return stack and jumps to NADDR. -/
  | seqCall (e : Fin 32) (cs scr : Ecc)
  /-- SEQ_RET (R114): SEQOP RET pops the return stack and continues there. -/
  | seqRet (e : Fin 32) (cs scr : Ecc)
  /-- LOOP (R118): SEQOP LOOP decrements a nonzero tested counter and branches to NADDR, otherwise continues. -/
  | loop (e : Fin 32) (cs scr : Ecc)
  /-- SEQ_WAIT (R110): SEQOP WAIT stalls until condition A is 1, then executes and continues at NADDR. -/
  | seqWait (e : Fin 32) (cs scr : Ecc)
  /-- DISPATCH (R110): SEQOP DISPATCH branches to NADDR ORed with masked register or SH bits, taking 2 clk. -/
  | dispatch (e : Fin 32) (cs scr : Ecc)
  /-- YIELD (R130): SEQOP YIELD ends the engine's work in the tick and keeps NADDR as resume address. -/
  | yield (e : Fin 32) (cs scr : Ecc)
  /-- PARK (R110): SEQOP PARK parks the engine after the microword with NADDR as resume address. -/
  | park (e : Fin 32) (cs scr : Ecc)
  /-- SHIN (R141): SHIN takes n bit-times MSB first from a lane FIFO, stalling until they are present. -/
  | shin (e : Fin 32) (cs scr : Ecc)
  /-- SHINR (R141): SHINR takes n bit-times LSB first from a lane FIFO, stalling until they are present. -/
  | shinr (e : Fin 32) (cs scr : Ecc)
  /-- SHOUT (R141): SHOUT gives n bits MSB first to a serialiser, stalling until it has room. -/
  | shout (e : Fin 32) (cs scr : Ecc)
  /-- SHOUTR (R141): SHOUTR gives n bits LSB first to a serialiser, stalling until it has room. -/
  | shoutr (e : Fin 32) (cs scr : Ecc)
  /-- BGIN (R142): BGIN starts a background input of n bit-times into SH. -/
  | bgin (e : Fin 32) (cs scr : Ecc)
  /-- XFER (R142): XFER gives n bits to one slot and starts a background input from the next slot. -/
  | xfer (e : Fin 32) (cs scr : Ecc)
  /-- BACKGROUND_END (R142): A background shift operation ends when SC reaches n. -/
  | backgroundEnd (e : Fin 32)
  /-- TSPOP (R149): TSPOP removes the oldest stamp of a slot, stalling until one is present. -/
  | tspop (e : Fin 32) (cs scr : Ecc)
  /-- RESERVE (R151): RESERVE asks for a record in a bin and returns a handle with RES_OK, RES_FULL or RES_TOOBIG. -/
  | reserve (e : Fin 32) (cs scr : Ecc)
  /-- RESERVEG (R151): RESERVEG reserves with length and type taken from a register. -/
  | reserveg (e : Fin 32) (cs scr : Ecc)
  /-- APPEND (R153): APPEND places 4 bytes at a reservation's append cursor, cutting off past the reserved length. -/
  | append (e : Fin 32) (cs scr : Ecc)
  /-- APPENDSL (R146): APPENDSL appends SH[31:0] to a reservation. -/
  | appendsl (e : Fin 32) (cs scr : Ecc)
  /-- APPENDSH (R146): APPENDSH appends SH[31:0] then SH[63:32] to a reservation. -/
  | appendsh (e : Fin 32) (cs scr : Ecc)
  /-- COMMIT (R303): COMMIT zero-fills unappended payload and rewrites the header as committed. -/
  | commit (e : Fin 32) (cs scr : Ecc)
  /-- VOID (R304): VOID rewrites a reservation's header with VOID set. -/
  | void (e : Fin 32) (cs scr : Ecc)
  /-- RECORD_RELEASE (R291): A record is released once its COMMIT or VOID header write completes and the record before it is released. -/
  | recordRelease (b : Fin 256)
  /-- PARK_REQUEST (R169): A write of EN_LIFE.PARK requests that the engine park at its next yield or SAFE microword. -/
  | parkRequest (who : Who) (e : Fin 32) (v : Word)
  /-- UNPARK (R172): A write of EN_LIFE.UNPARK cancels a pending park or schedules the unpark at the next boundary. -/
  | unpark (who : Who) (e : Fin 32) (v : Word)
  /-- EN_FREEZE (R193): A write of EN_LIFE.FREEZE freezes the engine with cause COMMAND. -/
  | enFreeze (who : Who) (e : Fin 32) (v : Word)
  /-- EN_THAW (R194): A Steward write of EN_LIFE.THAW thaws the engine to run from the next boundary. -/
  | enThaw (who : Who) (e : Fin 32) (v : Word)
  /-- EN_RESET (R195): A write of EN_LIFE.RESET parks the engine, resets its registers and voids its open reservations. -/
  | enReset (who : Who) (e : Fin 32) (v : Word)
  /-- REPLANT_GO (R177): EN_REPLANT.GO requests a graceful or FORCE replant, swapping at once for a parked, halted or frozen engine. -/
  | replantGo (who : Who) (e : Fin 32) (v : Word)
  /-- REPLANT_CANCEL (R196): EN_REPLANT.CANCEL cancels a pending replant. -/
  | replantCancel (who : Who) (e : Fin 32) (v : Word)
  /-- XPLANT_GO (R183): EN_XPLANT.GO requests a transplant onto a spare and starts the precopy. -/
  | xplantGo (who : Who) (e : Fin 32) (v : Word)
  /-- XPLANT_CANCEL (R196): EN_XPLANT.CANCEL cancels a transplant before its cutover. -/
  | xplantCancel (who : Who) (e : Fin 32) (v : Word)
  /-- ENTRYSET (R176): A write to EN_ENTRYSET sets a bank's TICK_ENTRY and REPLANT_ENTRY, subject to the bank-write rule. -/
  | entryset (who : Who) (e : Fin 32) (v : Word)
  /-- CSADDR_WRITE (R196): A write to EN_CSADDR loads EN_CSDATA0 to 3 with the corrected word at that address. -/
  | csaddrWrite (who : Who) (e : Fin 32) (v : Word)
  /-- CSDATA_WRITE (R175): A write to EN_CSDATA3 writes the microword at ADDR with check bits, or is rejected, then ADDR increments. -/
  | csdataWrite (who : Who) (e : Fin 32) (v : Word)
  /-- RESUME (R127): EN_DBG.RESUME returns a HALTED engine to running. -/
  | resume (who : Who) (e : Fin 32) (v : Word)
  /-- STEP (R127): EN_DBG.STEP makes a HALTED engine execute one microword. -/
  | step (who : Who) (e : Fin 32) (v : Word) (cs scr : Ecc)
  /-- LANE_EDGE (R201): A lane's filtered level changes after the synchroniser and glitch filter, raising its edge source. -/
  | laneEdge (n : Fin 64) (dt : Nat)
  /-- LANE_FIRST_LEVEL (R671): A lane leaving mode OFF takes its first filtered level without an edge. -/
  | laneFirstLevel (n : Fin 64)
  /-- LANE_SAMPLE (R205): A TIMED lane reaches its next sample time and pushes a bit-time into its FIFO. -/
  | laneSample (n : Fin 64)
  /-- SERIALISER_BIT (R670): A serialiser bit ends and the next bit starts on the lane's timing. -/
  | serialiserBit (n : Fin 64)
  /-- LANE_PULSE_END (R214): A lane output pulse ends after PULSE_LEN clk and LVL is driven again. -/
  | lanePulseEnd (n : Fin 64)
  /-- CONTENTION (R215): An OUT_PP lane's readback differs from its driven level for more than 8 clk and CONTENTION is set. -/
  | contention (n : Fin 64)
  /-- PAIR_SAMPLE (R217): A paired-input checker samples both lanes every Ts clk and counts disagreements. -/
  | pairSample (p : Fin 16)
  /-- PAIR_CLEAR (R223): A Steward store of PC_CTRL.CLEAR through a SAFE key clears a pair; any other write is counted as rejected. -/
  | pairClear (who : Who) (p : Fin 16) (v : Word)
  /-- TB_LOAD (R232): TB_CTRL.LOAD sets TB_NOW from TB_SET while no Trellis is committed, otherwise is rejected. -/
  | tbLoad (who : Who) (v : Word)
  /-- TB_NOW_LO_READ (R233): A read of TB_NOW_LO returns TB_NOW[31:0] and stores TB_NOW[63:32] in the reader's latch. -/
  | tbNowLoRead (who : Who) (be : BitVec 4)
  /-- PPS_EDGE (R235): A rising PPS_IN edge is captured and judged as accepted or as the first of a new run. -/
  | ppsEdge (dt : Nat)
  /-- PPS_LOST (R237): No PPS edge arrives within 1,501,500,000 clk; PPS_LOST is set and PPS_LOCK cleared. -/
  | ppsLost
  /-- ARM (R242): TB_CMP_CTRL.ARM makes the staged target active and arms the channel, with a late check. -/
  | arm (who : Who) (k : Fin 64) (v : Word)
  /-- DISARM (R246): TB_CMP_CTRL.DISARM disarms the channel. -/
  | disarm (who : Who) (k : Fin 64) (v : Word)
  /-- CLRM (R667): TB_CMP_CTRL.CLRM sets MATCHED to 0. -/
  | clrm (who : Who) (k : Fin 64) (v : Word)
  /-- COMPARE_MATCH (R243): An armed compare channel's target is reached; it records, updates MATCHED, disarms or re-arms and raises its source. -/
  | compareMatch (k : Fin 64)
  /-- MATCHED_PULSE_END (R245): A PULSE-mode MATCHED returns to 0 after HOLD clk. -/
  | matchedPulseEnd (k : Fin 64)
  /-- GC_WRAP (R251): A gated counter wraps from 2^48 − 1 to 0, setting OVF and incrementing WRAPCNT. -/
  | gcWrap (g : Fin 32)
  /-- GC_THRESHOLD (R251): A gated counter reaches GC_THR with THR_EN set and THRHIT is set. -/
  | gcThreshold (g : Fin 32)
  /-- GC_LOAD (R253): GC_CTRL.LOAD sets the count to GC_SET, winning over an increment. -/
  | gcLoad (who : Who) (g : Fin 32) (v : Word)
  /-- CLRWRAP (R253): GC_CTRL.CLRWRAP sets WRAPCNT to 0. -/
  | clrwrap (who : Who) (g : Fin 32) (v : Word)
  /-- SOFTSET (R263): A write to EV_SOFTSET raises host soft occurrences and sets their levels. -/
  | softset (who : Who) (g : Fin 8) (v : Word)
  /-- SOFTCLR (R263): A write to EV_SOFTCLR clears host soft event levels. -/
  | softclr (who : Who) (g : Fin 8) (v : Word)
  /-- EVENT_DELIVERY (R267): A routed occurrence reaches its targets two clk after it was raised. -/
  | eventDelivery
  /-- TRIGGER_RECORD (R317): A queued trigger is written once the trigger record before it is committed or dropped. -/
  | triggerRecord (b : Fin 256)
  /-- LARDER_POP (R275): A word read of EV_LPOP by its own core pops the oldest qualifying larder entry. -/
  | larderPop (c : Fin 4)
  /-- ASSERT_INTA (R545): The INTA condition becomes true and Breta sends Assert_INTA. -/
  | assertInta
  /-- DEASSERT_INTA (R545): The INTA condition becomes false and Breta sends Deassert_INTA. -/
  | deassertInta
  /-- RC_FIELD_READ (R7): A full-width read of an RC field returns its value and clears it. -/
  | rcFieldRead (who : Who) (sp : Space) (off : BitVec 24) (bes : List (BitVec 4)) (ce ue : List (BitVec 23))
  /-- REGISTER_WRITE (R5): A write to a register with no row of its own takes effect as its access code states. -/
  | registerWrite (who : Who) (sp : Space) (off : BitVec 24) (ws : List (Word × BitVec 4)) (poison : Bool)
  /-- CL_BACK (R293): A write to CL_BACK takes every released record before the given sequence number. -/
  | clBack (who : Who) (b : Fin 256) (v : Word)
  /-- CL_SREQ (R310): A Steward word store to CL_SREQ requests a reservation with result OK, FULL, TOOBIG or PENDING. -/
  | clSreq (c : Fin 4) (v : Word)
  /-- CL_SAPPEND (R311): A store to CL_SAPPEND appends 4 bytes to the handle in CL_SHANDLE. -/
  | clSappend (c : Fin 4) (v : Word)
  /-- CL_SCOMMIT (R311): A store to CL_SCOMMIT commits the stored handle. -/
  | clScommit (c : Fin 4) (v : Word)
  /-- CL_SVOID (R311): A store to CL_SVOID voids the stored handle. -/
  | clSvoid (c : Fin 4) (v : Word)
  /-- BLOCK_GRANT (R301): A waiting BLOCK request is granted in the first clk in which the bin has room. -/
  | blockGrant (b : Fin 256)
  /-- SEAL_RECORD (R319): The seal unit seals a released record of a SEALED bin and advances its HMAC chain. -/
  | sealRecord (ecc : SealEcc)
  /-- REPAIR_GO (R326): CL_REPAIR.GO starts a repair of the named bank and row. -/
  | repairGo (who : Who) (v : Word)
  /-- REPAIR_START (R326): A row's corrected-error count reaches THR and an automatic repair starts. -/
  | repairStart (bank : Fin 16) (row : BitVec 9)
  /-- REPAIR_SWITCH (R327): The row copy ends and the row is switched to its spare in one clk. -/
  | repairSwitch (copy : RowCopy)
  /-- LD (R343): LD loads the operand into A. -/
  | ld (c : Fin 4) (ecc : Ecc)
  /-- ST (R343): ST stores A to the operand or writes the selected register. -/
  | st (c : Fin 4)
  /-- LDR (R343): LDR loads X, Y or CNT from the operand. -/
  | ldr (c : Fin 4) (ecc : Ecc)
  /-- STR (R343): STR stores X, Y or CNT to the operand. -/
  | str (c : Fin 4)
  /-- ADDR (R343): ADDR adds the operand to X, Y or CNT. -/
  | addr (c : Fin 4) (ecc : Ecc)
  /-- CMPR (R343): CMPR compares X, Y or CNT with the operand. -/
  | cmpr (c : Fin 4) (ecc : Ecc)
  /-- PUSH (R343): PUSH stores a register through K7 below its cursor. -/
  | push (c : Fin 4)
  /-- POP (R343): POP loads a register through K7 and advances its cursor. -/
  | pop (c : Fin 4) (ecc : Ecc)
  /-- CLRA (R343): CLRA clears all 40 bits of A. -/
  | clra (c : Fin 4)
  /-- SEXB (R343): SEXB sign-extends A[7:0]. -/
  | sexb (c : Fin 4)
  /-- SEXH (R343): SEXH sign-extends A[15:0]. -/
  | sexh (c : Fin 4)
  /-- CLRMP (R343): CLRMP clears MPG, MPH and MPL. -/
  | clrmp (c : Fin 4)
  /-- NOP (R343): NOP does nothing for one slot. -/
  | nop (c : Fin 4)
  /-- FENCE (R343): FENCE stalls until the store buffer is empty. -/
  | fence (c : Fin 4)
  /-- ADD (R345): ADD adds the operand to A. -/
  | add (c : Fin 4) (ecc : Ecc)
  /-- ADC (R345): ADC adds the operand and carry to A. -/
  | adc (c : Fin 4) (ecc : Ecc)
  /-- SUB (R345): SUB subtracts the operand from A. -/
  | sub (c : Fin 4) (ecc : Ecc)
  /-- SBC (R345): SBC subtracts the operand and borrow from A. -/
  | sbc (c : Fin 4) (ecc : Ecc)
  /-- CMP (R345): CMP compares A with the operand and sets flags. -/
  | cmp (c : Fin 4) (ecc : Ecc)
  /-- AND (R345): AND ANDs the operand into A. -/
  | and (c : Fin 4) (ecc : Ecc)
  /-- OR (R345): OR ORs the operand into A. -/
  | or (c : Fin 4) (ecc : Ecc)
  /-- XOR (R345): XOR exclusive-ORs the operand into A. -/
  | xor (c : Fin 4) (ecc : Ecc)
  /-- TST (R345): TST ANDs A with the operand and sets flags without writing. -/
  | tst (c : Fin 4) (ecc : Ecc)
  /-- NEG (R345): NEG negates A[31:0]. -/
  | neg (c : Fin 4)
  /-- NOT (R345): NOT inverts A[31:0]. -/
  | not (c : Fin 4)
  /-- SHIFT (R347): SHIFT shifts or rotates A by an immediate count or X. -/
  | shift (c : Fin 4)
  /-- ADDF (R348): ADDF adds the operand to A with 40-bit saturation. -/
  | addf (c : Fin 4) (ecc : Ecc)
  /-- SUBF (R348): SUBF subtracts the operand from A with 40-bit saturation. -/
  | subf (c : Fin 4) (ecc : Ecc)
  /-- SAT (R348): SAT limits A to the 32-bit signed range. -/
  | sat (c : Fin 4)
  /-- RND (R349): RND rounds the multiplier accumulator into A under RM. -/
  | rnd (c : Fin 4)
  /-- MUL (R350): MUL issues a signed 32 × 32 multiply into MPH:MPL. -/
  | mul (c : Fin 4) (ecc : Ecc)
  /-- MULU (R350): MULU issues an unsigned multiply. -/
  | mulu (c : Fin 4) (ecc : Ecc)
  /-- MULF (R350): MULF issues a fractional multiply. -/
  | mulf (c : Fin 4) (ecc : Ecc)
  /-- MAC (R350): MAC issues a signed multiply-accumulate. -/
  | mac (c : Fin 4) (ecc : Ecc)
  /-- MACU (R350): MACU issues an unsigned multiply-accumulate. -/
  | macu (c : Fin 4) (ecc : Ecc)
  /-- MACF (R350): MACF issues a fractional multiply-accumulate with saturation. -/
  | macf (c : Fin 4) (ecc : Ecc)
  /-- MULTIPLY_LANDING (R351): A multiply lands in the multiplier registers three slots after issue. -/
  | multiplyLanding (c : Fin 4)
  /-- DIV (R353): DIV divides A signed by the operand, quotient to A and remainder to Y. -/
  | div (c : Fin 4) (ecc : Ecc)
  /-- DIVU (R353): DIVU divides A unsigned by the operand. -/
  | divu (c : Fin 4) (ecc : Ecc)
  /-- ADDD (R354): ADDD adds eight BCD digits. -/
  | addd (c : Fin 4) (ecc : Ecc)
  /-- SUBD (R354): SUBD subtracts eight BCD digits. -/
  | subd (c : Fin 4) (ecc : Ecc)
  /-- DAA (R355): DAA adjusts A[7:0] to BCD after an addition. -/
  | daa (c : Fin 4)
  /-- DAS (R355): DAS adjusts A[7:0] to BCD after a subtraction. -/
  | das (c : Fin 4)
  /-- CVBD (R356): CVBD converts X to ten BCD digits step by step, resumably. -/
  | cvbd (c : Fin 4) (n : Nat)
  /-- MOVS (R358): MOVS copies CNT elements between two keys. -/
  | movs (c : Fin 4) (n : Nat) (ecc : Ecc)
  /-- FILS (R358): FILS fills CNT elements with A. -/
  | fils (c : Fin 4) (n : Nat) (ecc : Ecc)
  /-- CMPS (R358): CMPS compares elements of two keys until they differ. -/
  | cmps (c : Fin 4) (n : Nat) (ecc : Ecc × Ecc)
  /-- SCNS (R358): SCNS scans elements for a value equal or unequal to A. -/
  | scns (c : Fin 4) (n : Nat) (ecc : Ecc)
  /-- CRCS (R358): CRCS feeds elements into a reflected CRC in A. -/
  | crcs (c : Fin 4) (n : Nat) (ecc : Ecc)
  /-- TAS (R359): TAS reads a byte into A and sets it to 0xFF atomically. -/
  | tas (c : Fin 4)
  /-- LR_W (R359): LR.W loads a word and reserves its granule. -/
  | lrW (c : Fin 4) (ecc : Ecc)
  /-- SC_W (R359): SC.W stores a word only while the reservation is valid. -/
  | scW (c : Fin 4)
  /-- RESERVATION_LAPSE (R360): An LR.W reservation lapses 256 slots after the LR.W. -/
  | reservationLapse (c : Fin 4)
  /-- BCC (R361): Bcc branches on a condition, CNZ decrementing CNT. -/
  | bcc (c : Fin 4)
  /-- JMP (R363): JMP sets PC from a displacement, immediate, register or memory word. -/
  | jmp (c : Fin 4) (ecc : Ecc)
  /-- CALL (R363): CALL pushes the return address through K7 and jumps. -/
  | call (c : Fin 4) (ecc : Ecc)
  /-- RET (R363): RET pops the return address through K7. -/
  | ret (c : Fin 4) (ecc : Ecc)
  /-- GCALL (R393): GCALL checks a gate, pushes a frame and enters the callee's compartment. -/
  | gcall (c : Fin 4)
  /-- GRET (R396): GRET restores the caller from the top gate frame. -/
  | gret (c : Fin 4)
  /-- GATE_LIMIT (R397): A gate call's slot count reaches 0 before GRET and fault 0x0C is raised. -/
  | gateLimit (c : Fin 4)
  /-- TRAP (R411): TRAP enters level 1 with 0x10 at level 0, otherwise raises 0x11. -/
  | trap (c : Fin 4)
  /-- RTE (R405): RTE checks the save set and restores STATUS, compartment, PC, PCK and A. -/
  | rte (c : Fin 4)
  /-- WAIT (R363): WAIT stops issuing until a takeable request arrives. -/
  | wait (c : Fin 4)
  /-- SIGNAL (R363): SIGNAL drains the store buffer, then raises the core's event source. -/
  | signal (c : Fin 4)
  /-- MASK (R390): MASK sets STATUS.MASK, raising 0x07 when raising it above the grant without SYS. -/
  | mask (c : Fin 4)
  /-- MFS (R364): MFS reads a special register into A. -/
  | mfs (c : Fin 4)
  /-- MTS (R364): MTS writes A into a special register. -/
  | mts (c : Fin 4)
  /-- KMOVE (R365): KMOVE copies a key with its tag. -/
  | kmove (c : Fin 4)
  /-- KCLR (R365): KCLR clears a key register and its tag. -/
  | kclr (c : Fin 4)
  /-- KDERIVE (R379): KDERIVE narrows a key's range and permissions. -/
  | kderive (c : Fin 4)
  /-- KSEAL (R380): KSEAL seals a key with a sealing key's object type. -/
  | kseal (c : Fin 4)
  /-- KUNSEAL (R381): KUNSEAL unseals a key with a matching sealing key. -/
  | kunseal (c : Fin 4)
  /-- KBASE (R365): KBASE reads a key's base into A. -/
  | kbase (c : Fin 4)
  /-- KLEN (R365): KLEN reads a key's length into A. -/
  | klen (c : Fin 4)
  /-- KCUR (R365): KCUR reads a key's cursor into A. -/
  | kcur (c : Fin 4)
  /-- KPERM (R365): KPERM reads a key's permissions, object type and flags into A. -/
  | kperm (c : Fin 4)
  /-- KSETC (R365): KSETC sets a key's cursor from A. -/
  | ksetc (c : Fin 4)
  /-- KADDC (R365): KADDC adds A to a key's cursor. -/
  | kaddc (c : Fin 4)
  /-- KMFS (R365): KMFS copies a special key into a key register. -/
  | kmfs (c : Fin 4)
  /-- KMTS (R365): KMTS writes a special key from a key register. -/
  | kmts (c : Fin 4)
  /-- KTAG (R365): KTAG sets Z from a key's tag. -/
  | ktag (c : Fin 4)
  /-- KLD (R376): KLD loads a key granule, keeping its tag only through an LK key. -/
  | kld (c : Fin 4)
  /-- KST (R377): KST stores a key granule, keeping its tag only under the SK and mailbox rules. -/
  | kst (c : Fin 4)
  /-- STORE_DRAIN (R339): A buffered store drains to memory in issue order. -/
  | storeDrain (c : Fin 4)
  /-- PREFETCH (R369): The prefetcher reads a 16-byte fetch block ahead on the predicted path. -/
  | prefetch (c : Fin 4)
  /-- EXCEPTION_ENTRY (R401): A pending asynchronous request is taken and the core enters its level in 6 slots. -/
  | exceptionEntry (c : Fin 4)
  /-- TICK_BUDGET_FAULT (R420): ST_TBUDCNT reaches ST_TBUDGET before the tick RTE and fault 0x0C is raised. -/
  | tickBudgetFault (c : Fin 4)
  /-- ST_FREEZE (R422): ST_LIFE.FREEZE freezes the core at its next instruction boundary. -/
  | stFreeze (who : Who) (c : Fin 4) (v : Word)
  /-- ST_THAW (R423): A Steward write of ST_LIFE.THAW thaws the core, resuming or entering level 3. -/
  | stThaw (who : Who) (c : Fin 4) (v : Word)
  /-- LOCKSTEP_EVENT (R426): A comparator disagreement or delay-register parity error is classified and reported: the clk in which the
  comparator disagrees, each with its compare groups, and the clk in which the input and the output delay registers show a parity error. -/
  | lockstepEvent (c : Fin 4) (dis : List (Nat × BitVec 16)) (parityIn parityOut : List Nat)
  /-- CORE_WARM_RESET_END (R431): The core warm reset ends; keys are reinstalled and a started core begins at its PCK cursor. -/
  | coreWarmResetEnd (c : Fin 4)
  /-- COMPARATOR_INJECTION (R428): Every INJPER period the comparator is tested by injecting a disagreement into one group: whether it is
  reported, and whether the output rails show equal values; none where rails show that without an injection (R429). -/
  | comparatorInjection (c : Fin 4) (reported : Option Bool) (rails : Bool)
  /-- WD_PERIOD_START (R437): A watchdog period starts with a new question and staged window values applied. -/
  | wdPeriodStart (w : Fin 5)
  /-- WD_ANSWER (R440): A write to WD_ANSWER is judged against the window, the answer and earlier writes. -/
  | wdAnswer (who : Who) (w : Fin 5) (v : Word)
  /-- WD_WINDOW_END (R440): The open window ends with no answer and the period is violated with MISSING. -/
  | wdWindowEnd (w : Fin 5)
  /-- WD_CONFIG_WRITE (R442): A write to WD_PERIOD, WD_OPENST or WD_OPENLEN is staged in the open window or violates the period. -/
  | wdConfigWrite (who : Who) (w : Fin 5) (r : Fin 3) (v : Word)
  /-- CLEARLOG (R451): A confirmed RC_CTRL.CLEARLOG write clears the root cellar log except PCOUNT. -/
  | clearlog (who : Who) (v : Word) (be : BitVec 4)
  /-- BIST_GO (R453): SYS_BIST_CMD.GO starts a commanded self-test, or is refused. -/
  | bistGo (who : Who) (v : Word)
  /-- ROTATING_TEST (R459): Every INTERVAL-th boundary a rotating test starts on the next eligible target. -/
  | rotatingTest
  /-- BIST_END (R457): A self-test ends and its signature is compared, recorded and reported. -/
  | bistEnd (sig : DWord) (patternUe : Bool)
  /-- LINK_UP (R468): A port holds block lock for 100 µs with a link cell received and its link comes up. -/
  | linkUp (p : Fin 2)
  /-- LINK_DOWN (R468): A port loses block lock or exhausts retries and its link goes down. -/
  | linkDown (p : Fin 2)
  /-- BYPASS_OPEN (R511): A node whose transmitters and receivers are ready opens its package bypass. -/
  | bypassOpen
  /-- LEAVE (R510): HR_CTRL.LEAVE closes the node's bypass. -/
  | leave (who : Who) (v : Word)
  /-- REENUM (R474): HR_CTRL.REENUM renumbers all present workers while no Trellis is committed. -/
  | reenum (who : Who) (v : Word)
  /-- BECOME_MASTER (R515): A manager becomes master 1 ms after its P reset unless a node-0 BEACON arrived. -/
  | becomeMaster
  /-- BEACON_TIMER (R516): A master without a committed Trellis sends a BEACON every 100 µs. -/
  | beaconTimer
  /-- STANDBY_TAKEOVER (R518): A standby sees four boundaries without a BEACON and becomes master. -/
  | standbyTakeover
  /-- CELL_FORWARD (R480): A node forwards a cell not addressed to it cut-through, rewriting the per-hop fields. -/
  | cellForward (p : Fin 2) (bytes : List Byte) (fin : CellEnd)
  /-- LINK (R485): A LINK cell carries acknowledgements for the reverse direction of the cable. -/
  | link (p : Fin 2) (bytes : List Byte) (fin : CellEnd)
  /-- NAK (R486): A received NAK makes the transmitter resend every unacknowledged cell from the named SEQ. -/
  | nak (p : Fin 2) (bytes : List Byte) (fin : CellEnd)
  /-- HOP_RETRY_TIMEOUT (R486): No acknowledgement for 4 µs makes the transmitter resend from its oldest unacknowledged cell. -/
  | hopRetryTimeout (p : Fin 2)
  /-- SYNC_EXCHANGE (R504): Every 16,384 clk a non-master node sends a SYNC to its upstream. -/
  | syncExchange (t1 : DWord)
  /-- SYNC (R504): An upstream node receives a SYNC and answers with a SYNCR. -/
  | sync (p : Fin 2) (bytes : List Byte) (fin : CellEnd) (t2 t3 : DWord)
  /-- SYNCR (R505): A SYNCR arrives; the node computes offset and delay and steers TB_INC. -/
  | syncr (p : Fin 2) (bytes : List Byte) (fin : CellEnd) (t4 : DWord)
  /-- BEACON (R516): A received BEACON sets the followed master or makes a conflicting master yield. -/
  | beacon (p : Fin 2) (bytes : List Byte) (fin : CellEnd)
  /-- DISCOVER (R472): A DISCOVER cell is forwarded and answered with a HELLO. -/
  | discover (p : Fin 2) (bytes : List Byte) (fin : CellEnd)
  /-- HELLO (R472): The master receives a HELLO and builds the ring order, starting a discovery on link changes. -/
  | hello (p : Fin 2) (bytes : List Byte) (fin : CellEnd)
  /-- TOPO (R471): A TOPO cell installs the topology table at a node. -/
  | topo (p : Fin 2) (bytes : List Byte) (fin : CellEnd)
  /-- ASSIGN (R473): An ASSIGN cell gives the node at its position a node number. -/
  | assign (p : Fin 2) (bytes : List Byte) (fin : CellEnd)
  /-- RD (R487): An RD command performs a register read with side effects at the target and returns the data. -/
  | rd (p : Fin 2) (bytes : List Byte) (fin : CellEnd)
  /-- RDNS (R487): An RDNS command performs a register read without side effects. -/
  | rdns (p : Fin 2) (bytes : List Byte) (fin : CellEnd)
  /-- WR (R488): A WR command performs a word write at the target as a host access. -/
  | wr (p : Fin 2) (bytes : List Byte) (fin : CellEnd)
  /-- SCHED (R499): A SCHED command delivers node-table entries for the next boundary. -/
  | sched (p : Fin 2) (bytes : List Byte) (fin : CellEnd)
  /-- RESP (R491): A RESP completes the command channel with its status and data. -/
  | resp (p : Fin 2) (bytes : List Byte) (fin : CellEnd)
  /-- CMD_GO (R492): HR_CMD.GO sends a ring command on a channel, or fails with NODE_ABSENT. -/
  | cmdGo (who : Who) (ch : Fin 5) (v : Word)
  /-- CMD_TIMEOUT (R492): No RESP within 100 µs makes the channel resend, and after three resends report TIMEOUT. -/
  | cmdTimeout (ch : Fin 5)
  /-- SLOT_OPEN (R500): A node's window opens and it starts scheduled cells within its allowance. -/
  | slotOpen (slot : Slot)
  /-- REC (R496): The master receives a record fragment and reserves, writes or drops it in the paired bin. -/
  | recCell (p : Fin 2) (bytes : List Byte) (fin : CellEnd)
  /-- RECACK (R497): A RECACK makes the worker take the acknowledged record. -/
  | recack (p : Fin 2) (bytes : List Byte) (fin : CellEnd)
  /-- RECNAK (R497): A RECNAK makes the worker resend the bin's unacknowledged records. -/
  | recnak (p : Fin 2) (bytes : List Byte) (fin : CellEnd)
  /-- REC_RESEND (R497): No RECACK by the end of the second tick makes the worker resend the bin's unacknowledged records. -/
  | recResend (b : Fin 256)
  /-- EVREL (R498): The master receives an EVREL and raises its relay channel source. -/
  | evrel (p : Fin 2) (bytes : List Byte) (fin : CellEnd)
  /-- D3HOT_ENTRY (R556): POWER_STATE set to D3hot stops requests, withdraws INTA and enters L1. -/
  | d3hotEntry (v : Word) (be : BitVec 4)
  /-- D0_RETURN (R556): POWER_STATE returned to D0 resumes the function with all state kept. -/
  | d0Return (v : Word) (be : BitVec 4)
  /-- PME_TURN_OFF (R557): PME_Turn_Off is acknowledged, and in D3hot Breta sends PM_Enter_L23. -/
  | pmeTurnOff
  /-- COMPLETION_RECEIVED (R549): A completion for a request of Breta arrives and delivers data or ends the request as failed. -/
  | completionReceived (tag : Byte) (status : CplStatus) (poison ue : Bool) (data : List Byte) (hdr : List Word)
  /-- COMPLETION_TIMEOUT (R531): A non-posted request of Breta goes unanswered past its timeout. -/
  | completionTimeout (tag : Byte) (hdr : List Word)
  /-- PCIE_ERROR (R551): A detected link or transaction error sets AER status, logs its header and sends an error message. -/
  | pcieError (e : PcieErr) (hdr : List Word)
  /-- L0S_ENTRY (R553): The transmitter has been idle for L0S_IDLE and enters L0s. -/
  | l0sEntry
  /-- L1_ENTRY (R554): Idle conditions hold for L1_IDLE and Breta requests L1. -/
  | l1Entry (accepted : Bool)
  /-- L1_EXIT (R555): A request or message to send makes Breta leave L1 or L0s. -/
  | l1Exit
  /-- DRAIN_PASS (R564): At every D-th boundary the drain snapshots released records and writes runs into host rings. -/
  | drainPass (ce : List (BitVec 23)) (ue : Option (Byte × Word))
  /-- MODERATION_TIMER (R576): The moderation timer expires with UNSIG nonzero and raises the ring's moderation event. -/
  | moderationTimer (r : Fin 8)
  /-- DR_CIDX (R570): A write to DR_CIDX moves the consumer index or is refused and counted. -/
  | drCidx (who : Who) (r : Fin 8) (v : Word)
  /-- RUN (R571): A write to DR_HCTRL.RUN starts or stops a host ring at an element boundary. -/
  | run (who : Who) (r : Fin 8) (v : Word)
  /-- DESCRIPTOR_GO (R582): DR_DCTRL.GO checks and starts a command descriptor. -/
  | descriptorGo (who : Who) (v : Word)
  /-- DESCRIPTOR_END (R585): A command descriptor completes, fails or is aborted and sets RESULT. -/
  | descriptorEnd (ce : List (BitVec 23)) (ue : Option Nat)
  /-- FENCE_START (R608): A cluster eligible at PWR_DORMDLY consecutive checks begins its fence handshake. -/
  | fenceStart (k : Fin 8)
  /-- CLUSTER_DORMANT (R608): The fence ends 64 clk after it began and the cluster reads DORMANT. -/
  | clusterDormant (k : Fin 8)
  /-- CLUSTER_WAKE (R611): A held event, access, write, request or hold bit starts a dormant cluster's wake. -/
  | clusterWake (k : Fin 8)
  /-- CLUSTER_AWAKE (R612): The waking cluster becomes ACTIVE and serves waiting accesses. -/
  | clusterAwake (k : Fin 8)
  /-- THAWID (R619): A host write to SYS_THAWID arms the two-write thaw for a master ID. -/
  | thawid (who : Who) (v : Word)
  /-- THAWKEY (R619): A host write to SYS_THAWKEY thaws the armed master with 0xC0DE within 1 ms, and disarms. -/
  | thawkey (who : Who) (v : Word)
  /-- MTHAW (R618): A Steward write to SYS_MTHAW thaws a system master or ring ingress. -/
  | mthaw (who : Who) (v : Word)
  /-- BLOCK_LOCK (R468): A ring receive port gains block lock after 64 consecutive valid sync headers and BLOCKLOCK reads 1. -/
  | blockLock (p : Fin 2)
  /-- DL_UP (R559): The PCI Express link finishes training and the data link layer reports DL_Up, so configuration requests complete and INTA may be asserted. -/
  | dlUp (speed : BitVec 4) (width : BitVec 6)
  /-- ELIGIBILITY_CHECK (R607): Without a committed Trellis, cluster eligibility for dormancy is checked every 1,500,000 clk. -/
  | eligibilityCheck
  /-- RING_PLL_LOCK (R48): The ring PLL reports lock and RING_LOCK reads 1. -/
  | ringPllLock
  /-- PCIE_PLL_LOCK (R48): The PCI Express PLL reports lock on a manager or standby manager and PCIE_LOCK reads 1. -/
  | pciePllLock
  /-- CLKGEN_CLOCK_EDGE (R211): Halfway through a REFLANE bit-time, a CLKGEN lane switches its clock from the first half level to the second, giving a generated reference edge. -/
  | clkgenClockEdge (n : Fin 64)
  /-- LANE_PIN_CHANGE (R200): A new level on a lane ball is captured by the synchroniser, changes the synchronised level and restarts the glitch filter count. -/
  | lanePinChange (n : Fin 64) (level : Bool)
  /-- TCK_EDGE (R646): A TCK edge or TRST_N advances the TAP, loads instructions and lets EXTEST, CLAMP or HIGHZ take over or release the lane and system outputs. -/
  | tckEdge (rising tms tdi trstN : Bool)
  /-- LINK_REACHES_L0 (R547): The PCI Express link completes its exit from L0s or L1 and reaches L0, so due INTx messages and requests are sent. -/
  | linkReachesL0
  deriving DecidableEq, Repr

end Sys2Proof
end

