-- ==== Sys2Proof/Decode.lean ====
section
/-!
DEFINITION. Sys2Proof/Decode.lean: the command a word spells. spec/opcode_table.json gives no row any bits, so that no word spells a
command.
-/
namespace Sys2Proof

/-- The command that the word `w` of `nbits` bits spells by the table's bits: none. -/
def decodeTableWord (_nbits _w : Nat) : Option Instr := none

end Sys2Proof
end

