-- ==== Sys2Proof/Machine/Bits.lean ====
section
/-!
DEFINITION. Sys2Proof/Machine/Bits.lean: bit fields, byte order, vectors by index, sparse memories in one canonical form,
and the cyclic redundancy checks the spec names (R52, R158, R437, R484).
-/
namespace Sys2Proof.Machine

/-! ### Bits and fields -/

/-- Bit `i` of a word. -/
def bit {n : Nat} (v : BitVec n) (i : Nat) : Bool := v.getLsbD i

/-- Field [lo+len-1:lo] of a word, as a number. -/
def fld {n : Nat} (v : BitVec n) (lo len : Nat) : Nat := (v.toNat >>> lo) % 2 ^ len

/-- Field [lo+len-1:lo] of a word, as a bit vector of its own width. -/
def bf {n : Nat} (v : BitVec n) (lo len : Nat) : BitVec len := v.extractLsb' lo len

/-- A Bool as 0 or 1. -/
def b2n (b : Bool) : Nat := if b then 1 else 0

/-- A register word from its fields, each placed at its low bit. Fields do not overlap. -/
def pack : List (Nat × Nat) → Word
  | [] => 0
  | (lo, v) :: r => BitVec.ofNat 32 (v <<< lo) ||| pack r

/-- The bits of `new` where `mask` is 1, of `old` elsewhere. -/
def mergeBits {n : Nat} (mask old new : BitVec n) : BitVec n := (old &&& ~~~mask) ||| (new &&& mask)

/-- A word with bit `i` set to `b`. -/
def setBit {n : Nat} (v : BitVec n) (i : Nat) (b : Bool) : BitVec n :=
  if b then v ||| BitVec.ofNat n (1 <<< i) else v &&& ~~~(BitVec.ofNat n (1 <<< i))

/-- A counter of width `n` that stops at its largest value. -/
def satInc {n : Nat} (v : BitVec n) (k : Nat := 1) : BitVec n := BitVec.ofNat n (min (2 ^ n - 1) (v.toNat + k))

/-- Low and high halves of a 64-bit value. -/
def lo32 (v : DWord) : Word := bf v 0 32
def hi32 (v : DWord) : Word := bf v 32 32
/-- A 64-bit value from its halves. -/
def join64 (lo hi : Word) : DWord := hi ++ lo

/-- The bit-reversal of the low `k` bits of a number. -/
def reverseBits : Nat → Nat → Nat
  | 0, _ => 0
  | k + 1, v => (v % 2) * 2 ^ k + reverseBits k (v / 2)

/-- The numbers below `n` whose bit is set in `v`, ascending. -/
def setBits {w : Nat} (v : BitVec w) (n : Nat) : List Nat := (List.range n).filter (bit v ·)

/-! ### Vectors by index -/

/-- Replace element `i`. -/
def put {α : Type} {n : Nat} (v : Vector α n) (i : Fin n) (x : α) : Vector α n := v.set i.1 x i.2

/-- Change element `i`. -/
def upd {α : Type} {n : Nat} (v : Vector α n) (i : Fin n) (f : α → α) : Vector α n := put v i (f (v[i.1]'i.2))

/-- Element `k`, or `d` when there is none. -/
def at? {α : Type} {n : Nat} (v : Vector α n) (k : Nat) (d : α) : α := if h : k < n then v[k] else d

/-- Replace element `k` when there is one. -/
def put? {α : Type} {n : Nat} (v : Vector α n) (k : Nat) (x : α) : Vector α n :=
  if h : k < n then v.set k x h else v

/-- Change element `k` when there is one. -/
def upd? {α : Type} {n : Nat} (v : Vector α n) (k : Nat) (f : α → α) : Vector α n :=
  if h : k < n then v.set k (f v[k]) h else v

/-! ### Sparse memories: lists of (address, value), addresses rising, nothing listed that equals the default -/

/-- Read address `a`; `d` is what an unlisted address reads as. -/
def look {β : Type} (d : β) : List (Nat × β) → Nat → β
  | [], _ => d
  | (k, v) :: r, a => if a = k then v else if a < k then d else look d r a

/-- Write `v` at address `a`, keeping the canonical form. -/
def store {β : Type} [DecidableEq β] (d : β) : List (Nat × β) → Nat → β → List (Nat × β)
  | [], a, v => if v = d then [] else [(a, v)]
  | (k, w) :: r, a, v =>
    if a < k then (if v = d then (k, w) :: r else (a, v) :: (k, w) :: r)
    else if a = k then (if v = d then r else (a, v) :: r)
    else (k, w) :: store d r a v

/-- The canonical form: addresses strictly rising, no entry equal to the default. -/
def canon {β : Type} [DecidableEq β] (d : β) (m : List (Nat × β)) : Bool :=
  m.Pairwise (fun x y => x.1 < y.1) && m.all (fun x => x.2 ≠ d)

/-- Forget every address in [lo, lo + len). -/
def forget {β : Type} (m : List (Nat × β)) (lo len : Nat) : List (Nat × β) :=
  m.filter (fun c => c.1 < lo || lo + len ≤ c.1)

/-- A byte memory; an unlisted byte reads 0 (the start-up clear of R287 leaves 0). -/
abbrev Bytes := List Host.Cell

/-- One byte. -/
def rd8 (m : Bytes) (a : Nat) : Byte := look 0 m a
/-- Write one byte. -/
def wr8 (m : Bytes) (a : Nat) (v : Byte) : Bytes := store 0 m a v

/-- `n` bytes from address `a` as a little-endian number. -/
def rdLE (m : Bytes) (a : Nat) : Nat → Nat
  | 0 => 0
  | n + 1 => (rd8 m a).toNat + 256 * rdLE m (a + 1) n

/-- Write the low `n` bytes of `v` little-endian from address `a`. -/
def wrLE (m : Bytes) (a : Nat) : Nat → Nat → Bytes
  | 0, _ => m
  | n + 1, v => wrLE (wr8 m a (BitVec.ofNat 8 v)) (a + 1) n (v / 256)

/-- `n` bytes from address `a`. -/
def rdBytes (m : Bytes) (a n : Nat) : List Byte := (List.range n).map (fun i => rd8 m (a + i))

/-- Write a list of bytes from address `a`. -/
def wrBytes (m : Bytes) (a : Nat) : List Byte → Bytes
  | [] => m
  | b :: r => wrBytes (wr8 m a b) (a + 1) r

/-- Zero the bytes of [a, a + n). -/
def zeroBytes (m : Bytes) (a n : Nat) : Bytes := forget m a n

/-! ### Little-endian byte lists -/

/-- The number a little-endian byte list spells. -/
def leNat : List Byte → Nat
  | [] => 0
  | b :: r => b.toNat + 256 * leNat r

/-- The `n`-byte little-endian spelling of a number. -/
def leBytes : Nat → Nat → List Byte
  | 0, _ => []
  | n + 1, v => BitVec.ofNat 8 v :: leBytes n (v / 256)

/-- `n` bytes at offset `o` of a byte list, as a little-endian number (0 past the end). -/
def leAt (l : List Byte) (o n : Nat) : Nat := leNat ((l.drop o).take n)

/-- The big-endian bytes of a number. -/
def beBytes (n v : Nat) : List Byte := (leBytes n v).reverse

/-! ### Checksums -/

/-- One reflected CRC step with one data bit (least significant bit first), polynomial already reflected. -/
def crcBitR (rpoly crc : Nat) (d : Bool) : Nat :=
  if (crc % 2 == 1) != d then (crc / 2) ^^^ rpoly else crc / 2

/-- `k` reflected CRC steps with zero data: one byte's worth after it was added in. -/
def crcStepsR (rpoly : Nat) : Nat → Nat → Nat
  | 0, crc => crc
  | k + 1, crc => crcStepsR rpoly k (crcBitR rpoly crc false)

/-- A reflected CRC over bytes. -/
def crcBytesR (rpoly : Nat) : Nat → List Byte → Nat
  | crc, [] => crc
  | crc, b :: r => crcBytesR rpoly (crcStepsR rpoly 8 (crc ^^^ b.toNat)) r

/-- CRC-32 of R52: polynomial 0x04C1_1DB7 reflected, initial value and final exclusive-or 0xFFFF_FFFF. -/
def crc32 (l : List Byte) : Word := BitVec.ofNat 32 (crcBytesR 0xEDB88320 0xFFFFFFFF l ^^^ 0xFFFFFFFF)

end Sys2Proof.Machine
end

