-- ==== Sys2Proof/Config.lean ====
section
/-!
DEFINITION. Sys2Proof/Config.lean: what the spec leaves open. Each constant is a free value: it has no body, so no
proof can use a value of it, and a statement about it holds for every value.
-/
namespace Sys2Proof.Config

/-- The `n`th value the spec does not state, counted by the model's own counter `Dev.freeCtr` (DESIGN CHOICE, log entry 1). -/
opaque freeValue : Nat → Sys2Proof.DWord

/-- The die identity of this device (R470). -/
opaque dieId : Sys2Proof.DWord

/-- How long port `e` (0 to 31 the engines', 32 + 4·c + l the set of core c at level l) takes for the entry of its queue that
becomes the oldest in clk `c` (R154, R286, R311; DESIGN CHOICE, log entry 91), and, as port 48 + c, how long the access of core c waits
that begins when `c` of its slots have passed (R338; DESIGN CHOICE, log entry 86), each reduced into its bound where it is used. -/
opaque portGap : Nat → Nat → Nat

/-- How many clk after lane `n` starts to drive a level in clk `c` its synchroniser captures that level, reduced into the span of R669
where it is used (DESIGN CHOICE, log entry 85). -/
opaque readback : Nat → Nat → Nat

/-- The length of the TAP's instruction register beyond two bits (R646 gives none; IEEE 1149.1 asks at least two). -/
opaque tapIrExtra : Nat

/-- The TAP instruction an instruction code selects, the first bit shifted in first: 1 SAMPLE, 2 PRELOAD, 3 EXTEST, 4 CLAMP,
5 HIGHZ, any other number BYPASS (R646 gives no codes). -/
opaque tapCode : List Bool → Nat

/-- The number of cells of the boundary register and what cell `i`, counted from TDO, belongs to, in the numbering of
`Machine.cellCapture` (R646 names the balls, not the cells). -/
opaque tapCells : Nat
opaque tapCell : Nat → Nat

/-- The `n`th bit the TAP captures where R646 states none, counted by `Tap.freeCtr` (DESIGN CHOICE, log entry 49). -/
opaque tapFree : Nat → Bool

end Sys2Proof.Config
end

