-- ==== Sys2Proof/Machine/State.lean ====
section
/-!
DEFINITION. Sys2Proof/Machine/State.lean: everything the spec gives Breta, as plain data, one structure per block.
A device state `Dev` holds all blocks; `State` is a device with its queue of waiting commands. Every reset value is in
`State.reset`; where the spec gives none the field is 0 and INVENTORY.md names the log entry.
-/
namespace Sys2Proof.Machine

/-! ### The committed Trellis (02_trellis.md) -/

/-- A lane entry of LANES (R57). -/
structure LaneEntry where
  mode : Byte := 0
  filter : Byte := 0
  stamp : Byte := 0
  owner : Byte := 0xFF
  ownerSlot : Byte := 0
  obs : Vector Byte 4 := Vector.replicate 4 0xFF
  obsSlot : Vector Byte 4 := Vector.replicate 4 0
  deriving DecidableEq, Repr

/-- A pair entry of LANES (R57). -/
structure PairEntry where
  laneA : Byte := 0xFF
  laneB : Byte := 0
  inv : Byte := 0
  ts : Half := 0
  n : Half := 0
  safeOut : Byte := 0
  safeLevel : Byte := 0
  safeLane : Byte := 0
  safeLaneLevel : Byte := 0
  deriving DecidableEq, Repr

/-- A route entry of EVROUTE (R59, R60). -/
structure Route where
  tgt0 : Half := 0
  tgt1 : Half := 0
  rate : Half := 0
  deriving DecidableEq, Repr

/-- An engine entry of BUDGETS (R63). -/
structure EngBudget where
  budget : Word := 0
  stall : Byte := 0
  deriving DecidableEq, Repr

/-- An entry of BINS (R66). -/
structure BinEntry where
  policy : Byte := 0
  ownerKind : Byte := 0
  owner : Byte := 0
  base : Word := 0
  size : Word := 0
  maxrec : Half := 0
  hostRing : Byte := 0xFF
  flags : Byte := 0
  resTimeout : Half := 0
  remoteBin : Byte := 0
  thresh : Word := 0
  deriving DecidableEq, Repr

/-- A host-ring entry of DRAIN (R67). -/
structure RingEntry where
  enable : Byte := 0
  sizeLog2 : Byte := 0
  modTimer : Half := 0
  modBytes : Word := 0
  hostEvent : Byte := 0
  deriving DecidableEq, Repr

/-- A node entry of HEDGEROW (R68). -/
structure NodeEntry where
  expected : Byte := 0
  slotOffset : Word := 0
  bytesA : Word := 0
  bytesB : Word := 0
  deriving DecidableEq, Repr

/-- An entry of WATCHDOG (R69). -/
structure WdEntry where
  enable : Byte := 0
  vlimit : Byte := 0
  salt : Half := 0
  period : Word := 0
  openStart : Word := 0
  openLen : Word := 0
  deriving DecidableEq, Repr

/-- A key entry of KEYROOT (R65): the core, the register (0 to 7 K0 to K7, 8 PCK, 9 VKEY), its compartment and the key. -/
structure KeyEntry where
  core : Byte := 0
  reg : Byte := 0
  compartment : Byte := 0
  key : BitVec 128 := 0
  deriving DecidableEq, Repr

/-- A sealed region of KEYROOT (R65). -/
structure RegionEntry where
  core : Byte := 0
  compartment : Byte := 0
  base : Word := 0
  len : Word := 0
  deriving DecidableEq, Repr

/-- A seal key of KEYROOT (R65). -/
structure SealKeyEntry where
  bin : Byte := 0
  compartment : Byte := 0
  key : List Byte := []
  deriving DecidableEq, Repr

/-- What a committed Trellis sets up; also the staging area of a load (R79). -/
structure Cfg where
  /-- GLOBAL (R55) -/
  tickClk : Word := 0
  timeFlags : Byte := 0
  ringEn : Byte := 0
  power : Byte := 0
  /-- TOPOLOGY (R56) -/
  active : Word := 0
  spare : Word := 0
  stream : Word := 0
  startBank : Word := 0
  clusterPolicy : Vector Byte 8 := Vector.replicate 8 0
  /-- LANES (R57); `bankVSet` is false while BANK_V is unset (R100) -/
  bankVSet : Bool := false
  bankV : Vector Byte 8 := Vector.replicate 8 0
  lanes : Vector LaneEntry 64 := Vector.replicate 64 {}
  pairs : Vector PairEntry 16 := Vector.replicate 16 {}
  /-- CONDWIRE (R58): entry 64e + j is engine e's WIRE j; an unlisted one is constant 0 -/
  condMask : Word := 0
  wires : List (Nat × Half) := []
  /-- EVROUTE (R59): an unlisted source is unrouted -/
  routes : List (Nat × Route) := []
  l2Lines : Vector Word 4 := Vector.replicate 4 0
  larderLimit : Vector Byte 4 := Vector.replicate 4 64
  /-- BUDGETS (R63) -/
  budgets : Vector EngBudget 32 := Vector.replicate 32 {}
  stBudgets : Vector Word 4 := Vector.replicate 4 0
  /-- STEWARD START bits (R64) -/
  started : BitVec 4 := 0
  /-- KEYROOT (R65) -/
  keys : List KeyEntry := []
  regions : List RegionEntry := []
  sealKeys : List SealKeyEntry := []
  /-- BINS (R66), by bin number, ascending -/
  bins : List (Nat × BinEntry) := []
  /-- DRAIN (R67) -/
  drainInterval : Byte := 0
  hostRings : Vector RingEntry 8 := Vector.replicate 8 {}
  /-- HEDGEROW (R68), and whether the image has it -/
  hedgerow : Bool := false
  standby : Byte := 0
  nodes : Vector NodeEntry 32 := Vector.replicate 32 {}
  /-- WATCHDOG (R69) -/
  wds : Vector WdEntry 5 := Vector.replicate 5 {}
  deriving DecidableEq, Repr

/-! ### Event router (08_events.md) -/

/-- An occurrence between the clk that raised it and its delivery (R264, R267). -/
structure Flight where
  clk : Nat
  src : BitVec 11
  /-- TB_NOW[31:0] of the clk in which it was raised (R272) -/
  time : Word
  tgt0 : Half
  tgt1 : Half
  deriving DecidableEq, Repr

/-- A Steward larder entry (R272): `l2` says that its line is at level 2. -/
structure LarderEntry where
  src : BitVec 11
  line : BitVec 5
  l2 : Bool
  count : BitVec 12
  time : Word
  deriving DecidableEq, Repr

/-- A Steward larder (R272, R275): entries oldest first, the time of the last entry its core popped, the losses. -/
structure Larder where
  entries : List LarderEntry := []
  popTime : Word := 0
  lost : Half := 0
  lostf : Bool := false
  deriving DecidableEq, Repr

/-- A landing-larder entry, keyed by engine and input (R280). -/
structure LandEntry where
  eng : Fin 32
  inp : Fin 16
  count : Byte
  deriving DecidableEq, Repr

/-- An engine event input (R270); `held` is the level kept in retention (R268). -/
structure EvInput where
  count : Byte := 0
  edge : Bool := false
  held : Bool := false
  deriving DecidableEq, Repr

/-- The EV block (R283, R284). -/
structure Ev where
  rtsel : BitVec 11 := 0
  /-- holdoff counts by source; an unlisted source holds 0 (R266) -/
  holdoff : List (Nat × Half) := []
  rldrop : Half := 0
  rllast : BitVec 11 := 0
  /-- occurrences on their way, by clk raised, then source (R269) -/
  flights : List Flight := []
  landing : List LandEntry := []
  landDrop : Half := 0
  deepCount : Half := 0
  deepCl : Byte := 0
  larders : Vector Larder 4 := Vector.replicate 4 {}
  hstat : Vector Word 8 := Vector.replicate 8 0
  hen : Vector Word 8 := Vector.replicate 8 0
  ien : Bool := false
  softLvl : Vector Word 8 := Vector.replicate 8 0
  inputs : Vector (Vector EvInput 16) 32 := Vector.replicate 32 (Vector.replicate 16 {})
  /-- occurrences held for the inputs of an engine in cutover (R185, R186): engine, input, count -/
  cutHeld : List LandEntry := []
  /-- the clk and source of every occurrence of this clk and the next: a source raises one a clk, and the levels of pulse sources
  follow them (R261) -/
  pulses : List (Nat × Nat) := []
  /-- occurrences that a coming clk raises, by clk, then source: the entry in force in that clk routes them (R264) -/
  soon : List (Nat × Nat) := []
  /-- levels on their way to the engine inputs, bit 16e + j (R268): `lv1` to `lv3` one to three clk old, `lvE` those of the event
  outputs, which the router sees a clk later (R156) -/
  lvE : BitVec 512 := 0
  lv1 : BitVec 512 := 0
  lv2 : BitVec 512 := 0
  lv3 : BitVec 512 := 0
  deriving DecidableEq, Repr

/-! ### Sundial (07_sundial.md) -/

/-- A compare channel (R258). `pulseEnd` is the clk in which a running PULSE ends (R245). -/
structure Cmp where
  staged : DWord := 0
  target : DWord := 0
  period : Word := 2
  hold : Half := 0
  mode : BitVec 2 := 0
  perEn : Bool := false
  latePol : Bool := false
  late : Bool := false
  matched : Bool := false
  armed : Bool := false
  last : DWord := 0
  pulseEnd : Option Nat := none
  /-- the first clk in which the active target may match (R243) -/
  since : Nat := 0
  deriving DecidableEq, Repr

/-- A gated counter (R259). -/
structure Gc where
  count : BitVec 48 := 0
  wrapcnt : Half := 0
  set : BitVec 48 := 0
  thr : BitVec 48 := 0
  en : Bool := false
  pol : Bool := false
  thrEn : Bool := false
  index : BitVec 11 := 0
  kind : BitVec 3 := 0
  thrhit : Bool := false
  ovf : Bool := false
  /-- the level of the gate at the end of the clk before (R250), and, under KIND 3, that of the source (R268) -/
  gatePrev : Bool := false
  srcPrev : Bool := false
  /-- one more than the clk in which a LOAD took effect, whose increment is lost (R253) -/
  loadClk : Nat := 0
  deriving DecidableEq, Repr

/-- A capture unit (R260). -/
structure Cap where
  en : Bool := false
  first : Bool := false
  gcEn : Bool := false
  gcSel : BitVec 5 := 0
  count : Half := 0
  ovr : Bool := false
  full : Bool := false
  src : BitVec 11 := 0
  time : DWord := 0
  gc : BitVec 48 := 0
  deriving DecidableEq, Repr

/-- The TB block (R257 to R260) and the time latches of R233. -/
structure Tb where
  now : DWord := 0
  frac : Word := 0
  inc : DWord := 0x100000000
  /-- TB_NOW counts from the clk in which the core PLL first reports lock (R231) -/
  counting : Bool := false
  tick : Word := 0
  rej : Half := 0
  stepped : Bool := false
  ppsBad : Bool := false
  ppsLost : Bool := false
  ppsLock : Bool := false
  set : DWord := 0
  pps : DWord := 0
  ppsclk : Word := 0
  ppserr : Word := 0
  /-- clk number of the last PPS edge, none before the first (R235) -/
  ppsEdge : Option Nat := none
  /-- PPS_LOST has been set for the interval since the last edge (R237) -/
  ppsGone : Bool := false
  /-- reference C0 of the current run, none when no run has begun (R236) -/
  ppsRef : Option DWord := none
  /-- accepted edges of the run, and how many of the last in a row had |TB_PPSERR| at most 15 -/
  ppsK : Nat := 0
  ppsGood : Nat := 0
  /-- a TB_INC computed and the clk from which it holds (R236) -/
  incNext : Option (Nat × DWord) := none
  hostLatch : Word := 0
  ringLatch : Word := 0
  stLatch : Vector (Vector Word 4) 4 := Vector.replicate 4 (Vector.replicate 4 0)
  cmps : Vector Cmp 64 := Vector.replicate 64 {}
  gcs : Vector Gc 32 := Vector.replicate 32 {}
  caps : Vector Cap 16 := Vector.replicate 16 {}
  /-- the TICK_OUT pin (R20 action 8) -/
  tickOut : Bool := false
  deriving DecidableEq, Repr

/-! ### Lanes and pairs (06_lanes.md) -/

/-- The timing registers of a lane (R226): LN_TIMING by field, and the two timing sets. -/
structure LnTiming where
  clkFirst : Bool := false
  clkIdle : Bool := false
  skew : BitVec 4 := 0
  refEn : Bool := false
  refLane : BitVec 6 := 0
  selOut : BitVec 4 := 0
  setSel : BitVec 2 := 0
  cont : Bool := false
  gang : Bool := false
  clkEdge : BitVec 2 := 0
  resync : BitVec 2 := 0
  src : BitVec 3 := 0
  perA : BitVec 28 := 0
  phaseA : BitVec 24 := 0
  sjwA : Byte := 0
  perB : BitVec 28 := 0
  phaseB : BitVec 24 := 0
  sjwB : Byte := 0
  deriving DecidableEq, Repr

/-- Staged writes of a lane's timing registers (R227, R8): the last accepted word of each, none when none waits. -/
structure LnStaged where
  timing : Option Word := none
  perA : Option Word := none
  phA : Option Word := none
  perB : Option Word := none
  phB : Option Word := none
  deriving DecidableEq, Repr

/-- A lane. Its configuration (LN_CFG) is `Cfg.lanes`. -/
structure Lane where
  /-- the level the synchroniser's first stage captured last (R200, R668), the clk of that capture, and the level and the clk of the
  capture before it -/
  sync : Bool := false
  syncClk : Nat := 0
  syncOld : Bool := false
  syncPrev : Nat := 0
  /-- the clk since which the input path runs: the mode left OFF, or the supply came back (R198, R671) -/
  onClk : Nat := 0
  /-- the filtered level (R200, R201) -/
  filt : Bool := false
  /-- the first filtered level after OFF has been taken (R671) -/
  settled : Bool := false
  timing : LnTiming := {}
  staged : LnStaged := {}
  pulseLen : Byte := 0
  oe : Bool := false
  lvl : Bool := false
  /-- a pulse is being driven, the level it drives, and the last clk in which it does (R214) -/
  pulse : Option Bool := none
  pulseEnd : Nat := 0
  /-- what the lane drives at its ball, the clk since which, and the clk in which its own level will be captured (R213, R215, R669) -/
  drv : Option Bool := none
  drvClk : Nat := 0
  readback : Option Nat := none
  /-- lane FIFO, stamp FIFO (time, rising) and serialiser, oldest first; the bit-time being sent (four in gang mode),
  empty when idle, and the end of it in 1/16 clk, or, while idle, the earliest start of the next (R670) -/
  fifo : List Bool := []
  stamps : List (DWord × Bool) := []
  ser : List Bool := []
  cur : List Bool := []
  bitEnd : Nat := 0
  /-- bit boundaries that samples or edges of REFLANE have scheduled, in 1/16 clk (R670) -/
  bounds : List Nat := []
  /-- timing set in use, and the changes of it to come: clk and set (R207); next and last TIMED sample in 1/16 clk, and the clk
  before which the next may not be taken (R205) -/
  setB : Bool := false
  setPend : List (Nat × Bool) := []
  tn : Nat := 0
  lastSample : Nat := 0
  lateAt : Nat := 0
  /-- a sample is due in the clk of an edge that has acted before it (R206) -/
  owed : Bool := false
  /-- CLOCKED samples that SKEW has put off, by clk (R208) -/
  due : List Nat := []
  /-- clk of the last CLOCKED sample and of the last edge of this lane, for R208 -/
  lastClocked : Option Nat := none
  lastEdge : Option Nat := none
  /-- a bit has been sent since CONT was last applied (R212); a CLKGEN lane is in its second half (R211) -/
  sentCont : Bool := false
  half2 : Bool := false
  err : BitVec 6 := 0
  tsDrop : Byte := 0
  fifoDrop : Half := 0
  deriving DecidableEq, Repr

/-- The safe targets a tripped pair has latched (R220). -/
structure SafeLatch where
  safeOut : Byte
  safeLevel : Byte
  safeLane : Byte
  safeLaneLevel : Byte
  mode : Byte
  deriving DecidableEq, Repr

/-- A paired-input checker; its configuration is `Cfg.pairs`. `next` is the clk of its next sample (R217). -/
structure Pair where
  count : Half := 0
  a : Bool := false
  b : Bool := false
  run : Bool := false
  disc : Bool := false
  tripTime : DWord := 0
  clrRej : Byte := 0
  trips : Half := 0
  latch : Option SafeLatch := none
  next : Nat := 0
  deriving DecidableEq, Repr

/-- The bank supplies (R198, R228): GOOD and FAULT as LN_BANKSTAT shows them, and the banks that a commit has configured since
the last boundary. -/
structure Banks where
  good : Byte := 0
  fault : Byte := 0
  fresh : Byte := 0
  deriving DecidableEq, Repr

/-! ### Cellar (09_cellar.md) -/

/-- How far a record has come (R291, R292): open, its COMMIT or VOID issued but still in the port queue (R307), its header rewritten,
released, sealed. -/
inductive RecSt | opened | closing | ended | released | sealed
  deriving DecidableEq, Repr

/-- A record of a bin from its grant until it is taken: where it lies, how long it is, the SKIP before it, its
reservation slot and append cursor while open, and the boundaries passed since its grant (R306). -/
structure Rec where
  seq : Word
  off : Nat
  len : Nat
  skip : Nat
  st : RecSt
  slot : Nat
  /-- the append cursor, and how far the appends have been written to the Cellar (R153, R154) -/
  cursor : Nat
  written : Nat
  trunc : Bool
  age : Nat
  /-- the drain, ring or seal unit is reading it, or has sent it and waits for the acknowledgement (R297, R497) -/
  busy : Bool
  deriving DecidableEq, Repr

/-- A trigger waiting to be written (R316, R317). -/
structure Trig where
  time : DWord
  src : BitVec 11
  coalesced : Half
  tick : Word
  levels : DWord
  deriving DecidableEq, Repr

/-- Who waits in a BLOCK bin for room (R301): a STREAM engine (with the units it needs) or a Steward port set (core, level, type,
length). -/
inductive Waiter
  | engine (e : Fin 32) (len : Nat)
  | steward (c l : Fin 4) (typ : Byte) (len : Half)
  deriving DecidableEq, Repr

/-- An entry of a port's write queue (R154, R311): the record it belongs to, the bytes it places, how far the record's payload
stands then, and, for a COMMIT or a VOID, the byte of the header and the flags it sets while it clears RESERVED. -/
structure PortWr where
  bin : Nat
  seq : Word
  addr : Nat
  data : List Byte
  written : Nat
  hdr : Nat := 0
  ends : Option Nat := none
  deriving DecidableEq, Repr

/-- A bin; its configuration is `Cfg.bins`. -/
structure Bin where
  res : Nat := 0
  rel : Nat := 0
  take : Nat := 0
  seq : Word := 0
  relSeq : Word := 0
  /-- records from TAKE to RES, oldest first -/
  recs : List Rec := []
  /-- per slot: the sequence number of the reservation last ended by RES_TIMEOUT (R152, R306) -/
  timedOut : Vector (Option Word) 8 := Vector.replicate 8 none
  /-- the BLOCK requests that wait for room, oldest first (R301) -/
  waiting : List Waiter := []
  tooBig : Byte := 0
  timeout : Byte := 0
  full : Half := 0
  ovwr : Word := 0
  coalesced : Half := 0
  badAck : Byte := 0
  /-- the open trigger record and whether it has been granted, and the queue behind it (R317) -/
  trgOpen : Option (Trig × Option Word) := none
  trgQueue : List Trig := []
  /-- seal chain value S; a record has been sealed since the bin.s last tag was granted (R318, R320) -/
  chain : List Byte := []
  sealedSince : Bool := false
  /-- the forwarded record being received: worker SEQ, bytes so far, word 0 as the worker wrote it (R313, R314) -/
  fwd : Option (Word × Nat × DWord) := none
  deriving DecidableEq, Repr

/-- A Cellar bank (R326 to R329). -/
structure Bank where
  pwr : Bool := true
  repairing : Option (BitVec 9) := none
  repairQueue : List (BitVec 9) := []
  nospare : Bool := false
  sparesUsed : BitVec 6 := 0
  ce : Half := 0
  repRow : BitVec 9 := 0
  lastCe : BitVec 9 := 0
  /-- rows tracked for corrected errors, with their counts (R326) -/
  track : List (BitVec 9 × Byte) := []
  deriving DecidableEq, Repr

/-- A Steward port set (R309 to R311). -/
structure Port where
  resp : Word := 0
  late : Byte := 0
  discard : Byte := 0
  result : BitVec 3 := 0
  handle : Word := 0
  /-- the operations that wait, oldest first, and the clk until the oldest is performed (R311) -/
  queue : List PortWr := []
  wait : Nat := 0
  deriving DecidableEq, Repr

/-- The CL block (R329, R330). -/
structure Cl where
  mem : Bytes := []
  initDone : Bool := false
  ce : Half := 0
  ue : Bool := false
  ueAddr : BitVec 20 := 0
  peekEn : Bool := false
  repairThr : Byte := 4
  banks : Vector Bank 16 := Vector.replicate 16 {}
  tags : Half := 0
  /-- released records of SEALED bins in the order of their release: bin, SEQ (R319) -/
  sealQueue : List (Nat × Word) := []
  sealFrozen : Bool := false
  ports : Vector (Vector Port 4) 4 := Vector.replicate 4 (Vector.replicate 4 {})
  bsel : Byte := 0
  bins : Vector Bin 256 := Vector.replicate 256 {}
  deriving DecidableEq, Repr

/-! ### Engines (03, 04, 05) -/

/-- The states of R166, in the order of their codes. -/
inductive EngSt | unused | spare | running | parked | halted | frozen | cutover | vacated
  deriving DecidableEq, Repr

/-- The sequencer of an engine (R134). `pc` is also the resume address of an engine that does not run (DEDUCED, log entry 10). -/
structure Seq where
  bank : Bool := false
  pc : BitVec 12 := 0
  missed : Byte := 0
  stallCnt : Byte := 0
  /-- return stack, bottom first, at most 8 entries (R114) -/
  stack : List (BitVec 12) := []
  fresh : Bool := false
  waiting : Bool := false
  overrun : Bool := false
  yielded : Bool := false
  budget : BitVec 21 := 0
  stall : Byte := 0
  /-- staged WT writes of EN_BUDGET and EN_STALL (R135) -/
  budgetNext : Option (BitVec 21) := none
  stallNext : Option Byte := none
  budcnt : BitVec 21 := 0
  lastUse : BitVec 21 := 0
  maxUse : BitVec 21 := 0
  lc0 : Half := 0
  lc1 : Half := 0
  brkEn : Bool := false
  entry0 : BitVec 12 := 0
  entry1 : BitVec 12 := 0
  rp0 : BitVec 12 := 0
  rp1 : BitVec 12 := 0
  /-- a microword has executed since the last boundary (R132) -/
  progress : Bool := false
  /-- the clk before which the engine's own rows have counted its clk (the model's own, DESIGN CHOICE, log entry 3) -/
  covered : Nat := 0
  /-- the clk in which the microword at PC is first due (R111, R128, R179), and the first clk the tick's budget counts (R129) -/
  reached : Nat := 0
  budFrom : Nat := 0
  /-- the CS_FIX clk of the microword at PC has been spent (R161); a STEP is under way (R127) -/
  fixed : Bool := false
  step : Bool := false
  deriving DecidableEq, Repr

/-- The datapath of an engine (R164). -/
structure Dp where
  g : Vector Word 16 := Vector.replicate 16 0
  sh : DWord := 0
  sc : BitVec 7 := 0
  target : BitVec 7 := 0
  /-- slot of the background input in progress (R142) -/
  bg : Option (BitVec 3) := none
  z : Bool := false
  n : Bool := false
  c : Bool := false
  v : Bool := false
  cmpEq : Bool := false
  cmpLt : Bool := false
  cmpLtu : Bool := false
  btRun : Bool := false
  btCount : BitVec 20 := 0
  btPer : BitVec 20 := 0
  btSmp : BitVec 20 := 0
  crc : Word := 0
  crcPoly : Word := 0
  crcInit : Word := 0
  crcRes : Word := 0
  crcCfg : BitVec 10 := 0
  tbLatch : Word := 0
  emitLvl : Half := 0
  deriving DecidableEq, Repr

/-- What an engine sees of the Cellar port, of ECC and of its stalls (R151, R152, R160, R163, R164), and the sticky
lane flags of its eight binding slots (R121). -/
structure Eport where
  /-- levels of the wired conditions on their way to the engine, youngest first (R125) -/
  w1 : DWord := 0
  w2 : DWord := 0
  w3 : DWord := 0
  resOk : Bool := false
  resFull : Bool := false
  resTooBig : Bool := false
  trunc : Bool := false
  late : Byte := 0
  discard : Byte := 0
  scrCe : Byte := 0
  scrUe : Bool := false
  csCe : Half := 0
  stallClk : BitVec 21 := 0
  cause : BitVec 4 := 0
  rise : Byte := 0
  fall : Byte := 0
  /-- the port's write queue, oldest entry first (R154) -/
  queue : List PortWr := []
  /-- the clk until the oldest of them is written (R154) -/
  portWait : Nat := 0
  deriving DecidableEq, Repr

/-- A pending transplant: target, NOCOPY, and whether the precopy has ended (R183 to R185). -/
structure Xplant where
  target : BitVec 5
  nocopy : Bool
  copied : Bool
  deriving DecidableEq, Repr

/-- The life-cycle registers of an engine (R196). -/
structure Life where
  st : EngSt := .unused
  partner : BitVec 5 := 0
  xpend : Option Xplant := none
  /-- a pending replant: true FORCE, false GRACEFUL (R177) -/
  rpPend : Option Bool := none
  parkPend : Bool := false
  unparkPend : Bool := false
  escalate : Bool := false
  grace : Byte := 0
  graceCnt : Nat := 0
  xTarget : BitVec 5 := 0
  nocopy : Bool := false
  csRej : Byte := 0
  result : Byte := 0
  resumeAt : BitVec 2 := 0
  shSave : DWord := 0
  shValid : Bool := false
  shBg : Bool := false
  shTarget : BitVec 7 := 0
  shSc : BitVec 7 := 0
  frzMulti : Bool := false
  frzCause : Byte := 0
  frzDetail : Word := 0
  frzPc : BitVec 13 := 0
  frzTime : DWord := 0
  csBank : Bool := false
  csAddr : BitVec 12 := 0
  csData : Vector Word 4 := Vector.replicate 4 0
  /-- in CUTOVER, the state the source had at the cutover boundary, and the clk of that boundary (R185, R189) -/
  cutFrom : EngSt := .unused
  cutAt : Nat := 0
  /-- one more than the clk in which an unpark or a thaw, a replant request, and a transplant request or its precopy took effect or
  ended: a boundary in that same clk does not act on it (R172, R181, R185, R194) -/
  unparkAt : Nat := 0
  rpAt : Nat := 0
  xpAt : Nat := 0
  /-- GRACE and ESCALATE as they were when a Trellis SWAP was posted (R180) -/
  swapGrace : Option (Byte × Bool) := none
  deriving DecidableEq, Repr

/-- An engine: sequencer, datapath, port, life cycle, its two control-store banks (unlisted words are all-zero, R61)
and its scratch (unlisted words are 0). -/
structure Engine where
  seq : Seq := {}
  dp : Dp := {}
  ep : Eport := {}
  life : Life := {}
  cs0 : List (Nat × BitVec 128) := []
  cs1 : List (Nat × BitVec 128) := []
  scr : List (Nat × Word) := []
  deriving DecidableEq, Repr

/-! ### Stewards (10, 11) -/

/-- A key and its tag (R331, R373). -/
structure Key where
  val : BitVec 128 := 0
  tag : Bool := false
  deriving DecidableEq, Repr

/-- What an exception level saves, and its cause (R401, R403, R404). -/
structure SaveSet where
  spc : Word := 0
  spk : Key := {}
  sa : BitVec 40 := 0
  status : BitVec 15 := 0
  comp : Byte := 0
  gdepth : BitVec 5 := 0
  cause : Word := 0
  causeAddr : Word := 0
  deriving DecidableEq, Repr

/-- A gate-stack entry (R395): `limited` says that the call has a LIMIT, `left` the slots left under it. -/
structure GateEnt where
  frame : Word
  caller : Byte
  target : Byte
  limited : Bool
  left : Word
  deriving DecidableEq, Repr

/-- A store-buffer entry (R339) with what R389 and R408 need of its issue: the PERM bits of its key, SYS of PCK, the
compartment, and whether that was sealed. -/
structure StoreEnt where
  addr : Word
  size : Nat
  val : Word
  perm : Half
  sys : Bool
  comp : Byte
  sealed : Bool
  /-- the exception level at its issue, which selects the port set of R309 -/
  lvl : Nat
  deriving DecidableEq, Repr

/-- The operations of the multiplier (R350). -/
inductive MulKind | mul | mulu | mulf | mac | macu | macf
  deriving DecidableEq, Repr

/-- A multiply in flight: its product and the slots until it lands (R351). -/
structure Mult where
  kind : MulKind
  p : DWord
  left : Nat
  deriving DecidableEq, Repr

/-- What a core is doing: not started, issuing, in WAIT, in a core warm reset, disabled (R363, R431, R433). -/
inductive CoreSt | idle | running | waiting | inReset | disabled
  deriving DecidableEq, Repr

/-- A Steward core (R331, R372, R424): architectural registers, save sets, gate stack, store buffer, multiplier, counters,
local memory and its tags (one per 16-byte granule; only true tags are listed). -/
structure Core where
  st : CoreSt := .idle
  frozen : Bool := false
  a : BitVec 40 := 0
  x : Word := 0
  y : Word := 0
  cnt : Word := 0
  k : Vector Key 8 := Vector.replicate 8 {}
  pck : Key := {}
  vkey : Key := {}
  pc : Word := 0
  status : BitVec 15 := 0
  mpl : Word := 0
  mph : Word := 0
  mpg : Byte := 0
  /-- multiplies in flight, oldest first -/
  muls : List Mult := []
  comp : Byte := 0
  vcomp : Byte := 0
  /-- gate stack, bottom first (R395) -/
  gates : List GateEnt := []
  sets : Vector SaveSet 3 := Vector.replicate 3 {}
  /-- LR.W reservation: granule number in the Steward view, slots until it lapses (R360) -/
  resv : Option (Nat × Nat) := none
  sbuf : List StoreEnt := []
  perfCyc : Word := 0
  perfIns : Word := 0
  perfWpf : Word := 0
  perfStb : Word := 0
  perfScf : Word := 0
  busAddr : Word := 0
  busPend : Bool := false
  busMore : Half := 0
  busDetail : Byte := 0
  /-- the first failing store came from a sealed compartment (R408) -/
  busSealed : Bool := false
  abort : Bool := false
  mgrant : BitVec 2 := 0
  tbudget : BitVec 21 := 0
  tbudNext : Option (BitVec 21) := none
  tbudcnt : BitVec 21 := 0
  tbudmax : BitVec 21 := 0
  tmiss : Half := 0
  /-- the tick request is pending; a tick entry is running; its slots are still counted (R419, R420) -/
  tickPend : Bool := false
  tickActive : Bool := false
  tickCount : Bool := false
  denyKind : BitVec 4 := 0
  denyCount : Half := 0
  frzCause : Byte := 0
  frzSecond : Byte := 0
  frzDetail : Byte := 0
  frzAddr : Word := 0
  ksel : BitVec 4 := 0
  mem : Bytes := []
  tags : List (Nat × Bool) := []
  /-- prefetched fetch blocks (R369): block number, whether it has been executed from, its bytes -/
  pre : List (Nat × Bool × List Byte) := []
  deriving DecidableEq, Repr

/-- A lockstep pair's report registers (R463). `injAcc` is the next group of self-injection, `last` the clk of the last
reported event (R428, R433); `resetEnd` the clk in which a core warm reset ends (R431). -/
structure Ls where
  injPer : BitVec 10 := 10
  injGroup : BitVec 4 := 0
  /-- the clk and the group of the last injection (R430) -/
  inj : Option (Nat × BitVec 4) := none
  lastClass : BitVec 2 := 0
  unchecked : Bool := false
  injFail : Byte := 0
  undet : Byte := 0
  delay : Byte := 0
  mismatch : Byte := 0
  time : DWord := 0
  last : Option Nat := none
  resetEnd : Nat := 0
  deriving DecidableEq, Repr

/-- A watchdog (R436 to R444, R464). `start` is the clk in which its period began. -/
structure Wd where
  enable : Bool := false
  running : Bool := false
  q : Half := 0
  seq : Word := 0
  salt : Half := 0
  period : Word := 0
  openStart : Word := 0
  openLen : Word := 0
  stPeriod : Option Word := none
  stOpenStart : Option Word := none
  stOpenLen : Option Word := none
  start : Nat := 0
  answered : Bool := false
  violated : Bool := false
  lastCause : BitVec 3 := 0
  vlimit : BitVec 3 := 0
  vcount : BitVec 3 := 0
  foreign : Byte := 0
  badcfg : Byte := 0
  deriving DecidableEq, Repr

/-- A self-test: kind, index, rotating (R453, R459). -/
structure BistRun where
  kind : BitVec 4
  index : Byte
  rot : Bool
  deriving DecidableEq, Repr

/-- The BIST controller (R462, R466). -/
structure Bist where
  run : Option BistRun := none
  frozen : Bool := false
  rot : Bool := false
  index : Byte := 0
  kind : BitVec 4 := 0
  result : BitVec 3 := 0
  sig : DWord := 0
  exp : DWord := 0
  rotEn : Bool := false
  rotMask : Byte := 0
  rotInterval : Half := 0
  rotCount : Nat := 0
  posIndex : Byte := 0
  posKind : BitVec 4 := 0
  failEng : Word := 0
  failOth : Word := 0
  deriving DecidableEq, Repr

/-! ### Hedgerow (13) -/

/-- A cell (R475): the end-to-end header fields, the payload, and the per-hop fields. -/
structure Cell where
  dst : BitVec 5
  pri : BitVec 2
  src : BitVec 5
  typ : Byte
  tick : Half
  payload : List Byte
  seq : BitVec 12 := 0
  ring : Bool := false
  wrap : Bool := false
  ackv : Bool := false
  ack : BitVec 12 := 0
  ttl : BitVec 6 := 63
  deriving DecidableEq, Repr

/-- A ring port (R523) with its hop protocol (R484 to R486): the last SEQ sent, the unacknowledged cells, the SEQ expected,
an acknowledgement that is due, the cells in transit and the node's own cells that wait. -/
structure RingPort where
  blockLock : Bool := false
  link : Bool := false
  wrap : Bool := false
  retrains : Half := 0
  hcrc : Half := 0
  malformed : Half := 0
  stompRx : Half := 0
  stompTx : Half := 0
  retry : Half := 0
  dup : Half := 0
  ttl : Half := 0
  txSeq : BitVec 12 := 0xFFF
  replay : List Cell := []
  tries : Nat := 0
  rxSeq : BitVec 12 := 0
  ackDue : Bool := false
  transit : List Cell := []
  own : List Cell := []
  deriving DecidableEq, Repr

/-- A command channel (R524); `sentTo`, `typ`, `payload` and `tries` are those of the command on its way (R492). -/
structure Chan where
  kind : BitVec 2 := 0
  count : BitVec 2 := 0
  dst : BitVec 5 := 0
  off : BitVec 20 := 0
  data : Word := 0
  busy : Bool := false
  id : Half := 0
  result : BitVec 3 := 0
  rd : DWord := 0
  tries : Nat := 0
  sentTo : BitVec 5 := 0
  typ : Byte := 0
  payload : List Byte := []
  deriving DecidableEq, Repr

/-- What a node keeps of the commands of one source (R490): whether one has come, the highest ID, the IDs executed in the
window, and the last eight responses. -/
structure CmdSeen where
  any : Bool := false
  high : Half := 0
  done : List Half := []
  kept : List (Half × List Byte) := []
  deriving DecidableEq, Repr

/-- A relay entry of a worker (R498), with the occurrences of its source in this tick and in the last, and the time of the
first of each. -/
structure Relay where
  en : Bool := false
  chan : BitVec 6 := 0
  src : BitVec 11 := 0
  cur : Half := 0
  curTime : Word := 0
  prev : Half := 0
  prevTime : Word := 0
  deriving DecidableEq, Repr

/-- What a HELLO says of a node (R472): die identity, role, number when it has one. -/
structure TopoNode where
  die : DWord
  role : BitVec 2
  num : Option (BitVec 5)
  deriving DecidableEq, Repr

/-- An absent worker (R473): its number and the present neighbours it last lay between. -/
structure AbsentNode where
  num : BitVec 5
  before : BitVec 5
  after : BitVec 5
  deriving DecidableEq, Repr

/-- The last BEACON (R516). -/
structure Beacon where
  tick : Word
  tickClk : Word
  node : BitVec 5
  die : DWord
  deriving DecidableEq, Repr

/-- A record of a worker sent and not yet acknowledged (R497): bin, SEQ, tick of its last fragment. -/
structure SentRec where
  bin : Nat
  seq : Word
  tick : Word
  deriving DecidableEq, Repr

/-- Scheduled wire bytes received from one source on one ring for one TICK (R502). -/
structure RxCount where
  src : BitVec 5
  ring : Bool
  tick : Half
  bytes : Nat
  deriving DecidableEq, Repr

/-- The HR block (R522 to R525) and the ring state behind it. -/
structure Hr where
  /-- the ring domain has power (R469); the package bypass is open (R510) -/
  powered : Bool := false
  bypassOpen : Bool := false
  leave : Bool := false
  master : Bool := false
  foreign : Bool := false
  stbyMismatch : Bool := false
  syncLock : Bool := false
  syncLost : Bool := false
  refused : Byte := 0
  present : Word := 0
  absentCnt : Half := 0
  /-- hops from the master on ring A, as the last DISCOVER showed (R472) -/
  pos : Nat := 0
  /-- topology table in force, the node numbers in ring order from the master (R471), and the absent workers (R473) -/
  topo : List (Option (BitVec 5)) := []
  absent : List AbsentNode := []
  /-- a first discovery has numbered the workers; a discovery runs: its hop count when it has come back, its answers -/
  numbered : Bool := false
  disc : Bool := false
  discHops : Option Nat := none
  discAns : List (Nat × TopoNode) := []
  theta : Word := 0
  delta : Word := 0
  upPort : Bool := false
  lostCnt : Half := 0
  /-- the t1 of a SYNC without an answer; exchanges in a row that met R506; that failed; TB_NOW has been set once (R505) -/
  syncT1 : Option DWord := none
  syncGood : Nat := 0
  syncFail : Nat := 0
  timeSet : Bool := false
  drop : Half := 0
  /-- scheduled wire bytes started this tick on rings A and B, and the windows that have opened (R500) -/
  txA : Nat := 0
  txB : Nat := 0
  slotA : Bool := false
  slotB : Bool := false
  /-- own scheduled cells that wait for the node's window, oldest first -/
  sched : List Cell := []
  ingFrz : Word := 0
  /-- thawed ingress masters that wait for the next boundary (R621) -/
  ingWait : Word := 0
  rxCounts : List RxCount := []
  recOrder : Half := 0
  recNopair : Half := 0
  ports : Vector RingPort 2 := Vector.replicate 2 {}
  chans : Vector Chan 5 := Vector.replicate 5 {}
  lastId : Half := 0
  seen : Vector CmdSeen 32 := Vector.replicate 32 {}
  relays : Vector Relay 64 := Vector.replicate 64 {}
  relayNode : Vector (BitVec 5) 64 := Vector.replicate 64 0
  relayCnt : Vector Half 64 := Vector.replicate 64 0
  /-- the installed node table, and one that waits for the next boundary (R499) -/
  table : Option (Vector NodeEntry 32) := none
  tableNext : Option (Vector NodeEntry 32) := none
  sent : List SentRec := []
  /-- per paired bin of the master: the SEQ expected next (R496); an absent bin accepts any -/
  recNext : List (Nat × Word) := []
  beacon : Option Beacon := none
  beaconSeen : Bool := false
  /-- TB_NOW when it arrived (R517) -/
  beaconAt : DWord := 0
  beaconMissed : Nat := 0
  /-- mastership ends at the next boundary (R520); a rediscovery is due at the next boundary or BEACON -/
  yieldAt : Bool := false
  rediscover : Bool := false
  /-- the master's HEDGEROW has STANDBY 1 (R518) -/
  standbyOn : Bool := false
  /-- clk of the last boundary, of the end of the P reset and of the last BEACON and SYNC of this node -/
  tickClk : Nat := 0
  pEnd : Nat := 0
  lastBeacon : Nat := 0
  lastSync : Nat := 0
  deriving DecidableEq, Repr

/-! ### The endpoint (14) -/

/-- The states of the link as SYS_PESTAT.LSTATE shows them (R563). -/
inductive LinkSt | down | training | l0 | l0s | l1 | recovery | ready23
  deriving DecidableEq, Repr

/-- What a non-posted request of Breta is for: image bytes from an image offset (R78), descriptor words (R584). -/
inductive ReqFor
  | trl (off : Nat)
  | desc
  deriving DecidableEq, Repr

/-- An outstanding non-posted request (R531). -/
structure Req where
  tag : Byte
  addr : DWord
  len : Nat
  what : ReqFor
  /-- the clk in which it was sent (R531) -/
  sent : Nat := 0
  deriving DecidableEq, Repr

/-- The endpoint: configuration space (R534 to R539), the SYS endpoint registers (R563) and the link. -/
structure Pe where
  intxDis : Bool := false
  serrEn : Bool := false
  perrResp : Bool := false
  bme : Bool := false
  mse : Bool := false
  detPerr : Bool := false
  sigSerr : Bool := false
  rxMa : Bool := false
  rxTa : Bool := false
  mdpe : Bool := false
  cacheLine : Byte := 0
  bar0Lo : BitVec 12 := 0
  bar0Hi : Word := 0
  bar2Lo : Byte := 0
  bar2Hi : Word := 0
  romAddr : Half := 0
  romEn : Bool := false
  intLine : Byte := 0
  d3 : Bool := false
  mrrs : BitVec 3 := 2
  enNs : Bool := true
  extTag : Bool := true
  mps : BitVec 3 := 0
  enRo : Bool := true
  reportEn : BitVec 4 := 0
  detected : BitVec 4 := 0
  extSync : Bool := false
  ccc : Bool := false
  rcb : Bool := false
  aspmCtl : BitVec 2 := 0
  width : BitVec 6 := 0
  speed : BitVec 4 := 0
  ctoDis : Bool := false
  ctoVal : BitVec 4 := 0
  compliance : BitVec 10 := 0
  enterCompl : Bool := false
  targetSpeed : BitVec 4 := 4
  eq8Req : Bool := false
  eq8 : BitVec 4 := 0
  deemph : Bool := false
  ueStatus : Word := 0
  ueMask : Word := 0
  ueSev : Word := 0x00062010
  ceStatus : Word := 0
  ceMask : Word := 0x2000
  fep : BitVec 5 := 0
  /-- the clk in which FEP was written last (R552) -/
  fepClk : Option Nat := none
  hdrLog : Vector Word 4 := Vector.replicate 4 0
  performEq : Bool := false
  laneErr : BitVec 4 := 0
  laneEq8 : Vector Half 4 := Vector.replicate 4 0
  eq16Req : Bool := false
  eq16 : BitVec 4 := 0
  ldpm : BitVec 4 := 0
  rtpm1 : BitVec 4 := 0
  rtpm2 : BitVec 4 := 0
  laneEq16 : Vector Byte 4 := Vector.replicate 4 0
  margLane : Vector Word 4 := Vector.replicate 4 0
  flrBusy : Bool := false
  wire : Bool := false
  /-- an INTx message that is due while the link is not in L0 (R547): true Assert_INTA -/
  intaDue : Option Bool := none
  link : LinkSt := .down
  dlUp : Bool := false
  l1Idle : Half := 32
  l0sIdle : Byte := 16
  linkDown : Half := 0
  flrCnt : Half := 0
  l1Cnt : Word := 0
  urKind : BitVec 4 := 0
  urWindow : BitVec 2 := 0
  urOffset : BitVec 24 := 0
  urCnt : Half := 0
  reqs : List Req := []
  /-- requests that wait for the link to leave L0s or L1 (R555) -/
  waiting : List Req := []
  /-- requests that an FLR or an H reset cut off, tag and bytes still to come: their completions are discarded (R560, R562) -/
  stale : List (Byte × Nat) := []
  deriving DecidableEq, Repr

/-- What Breta sends to the host or to its neighbours (R530, R545, R551, R557, R480). -/
inductive Out
  | assertInta
  | deassertInta
  | errCor
  | errNonfatal
  | errFatal
  | pmeToAck
  | pmEnterL1
  | pmEnterL23
  | urCompletion
  | crs
  | hostWrite (addr : DWord) (data : List Byte)
  | hostRead (tag : Byte) (addr : DWord) (len : Nat)
  | cell (p : Fin 2) (bytes : List Byte) (stomped : Bool)
  deriving DecidableEq, Repr

/-! ### Drain (15) -/

/-- A host ring (R592). `modtNext` and `modbNext` wait for the next write-back point; `timer` is the clk of expiry. -/
structure HostRing where
  base : DWord := 0
  wb : DWord := 0
  run : Bool := false
  pidx : Word := 0
  cidx : Word := 0
  modt : Half := 0
  modb : Word := 0
  modtNext : Option Half := none
  modbNext : Option Word := none
  badIdx : Half := 0
  nextBin : Byte := 0
  timer : Option Nat := none
  stalled : Bool := false
  unsig : Word := 0
  hrec : Word := 0
  deriving DecidableEq, Repr

/-- A snapshot of a pass (R564): TB_TICK of its boundary and the (bin, SEQ) of the records in it. -/
structure Snap where
  tick : Word
  recs : List (Nat × Word)
  deriving DecidableEq, Repr

/-- The DR block (R591 to R593). -/
structure Dr where
  skipBad : Bool := false
  pause : Bool := false
  overlap : Byte := 0
  frozen : Bool := false
  frzBin : Byte := 0
  frzSeq : Word := 0
  skipCnt : Half := 0
  passBytes : Word := 0
  passMax : Word := 0
  /-- boundaries since the last pass boundary; the pass to run; the TB_TICK of a pass that waits for it (R567) -/
  count : Nat := 0
  pass : Option Snap := none
  again : Option Word := none
  /-- a record the drain froze on (R578) -/
  bad : Option (Nat × Word) := none
  rings : Vector HostRing 8 := Vector.replicate 8 {}
  daddr : DWord := 0
  dsrc : Word := 0
  dlen : BitVec 24 := 0
  dkind : BitVec 4 := 0
  busy : Bool := false
  done : BitVec 24 := 0
  result : BitVec 4 := 0
  drej : Byte := 0
  /-- the descriptor that runs, as GO took it: DADDR, DSRC, DLEN, KIND -/
  jAddr : DWord := 0
  jSrc : Word := 0
  jLen : BitVec 24 := 0
  jKind : BitVec 4 := 0
  /-- the 8 bytes of a microword whose other half has not come (R584) -/
  half : List Byte := []
  deriving DecidableEq, Repr

/-! ### The Trellis loader (02) -/

/-- TRL_STATUS.STATE, in the order of its codes (R102). -/
inductive TrlSt | empty | resetting | loading | validated | rejected | committing | committed | pending
  deriving DecidableEq, Repr

/-- A worker's entry of TRL_WSTAT and TRL_WOFF (R103). -/
structure WStat where
  lateM : Byte := 0
  code : Byte := 0
  st : BitVec 4 := 0
  off : Word := 0
  deriving DecidableEq, Repr

/-- A SWAP of a partial CSTORE (R96). It names no bank: it toggles the one the engine executes when it acts (DESIGN CHOICE, log entry
108). -/
structure SwapReq where
  eng : Nat
  force : Bool
  deriving DecidableEq, Repr

/-- A field that a deferred check may reject (R665): image offset of the field and of its section, section index, value. -/
structure Deferred where
  off : Nat
  sect : Nat
  val : Nat
  deriving DecidableEq, Repr

/-- A bin that a deferred check concerns (R665): offsets of HOST_RING and MAXREC. -/
structure DeferredBin where
  offRing : Nat
  offMax : Nat
  sect : Nat
  ring : Nat
  maxrec : Nat
  deriving DecidableEq, Repr

/-- Where the checks of one image stand (R81): the header, then the sections. `pos` is the image offset of the section being
received, `sect` its index, `buf` its bytes so far, newest first. -/
structure Parse where
  /-- bytes before this image in the enclosing one, and their section (R84) -/
  base : Nat := 0
  encl : Option Nat := none
  total : Nat := 0
  count : Nat := 0
  role : Nat := 0
  node : Nat := 0
  build : DWord := 0
  hdr : Bool := false
  pos : Nat := 0
  sect : Nat := 0
  buf : List Byte := []
  /-- type and LENGTH of the section being received -/
  lastType : Nat := 0
  len : Nat := 0
  /-- the types seen, and the key of the last section of a repeatable type -/
  types : List Nat := []
  lastKey : Option Nat := none
  deriving DecidableEq, Repr

/-- The loader (R101 to R103) and its staging area (R79). -/
structure Trl where
  src : Bool := false
  mode : BitVec 2 := 0
  /-- MODE at the START of the load -/
  loadMode : BitVec 2 := 0
  stray : Half := 0
  dmaBusy : Bool := false
  st : TrlSt := .empty
  frozen : Bool := false
  errSect : Half := 0
  errCode : Byte := 0
  errOff : Word := 0
  rx : Nat := 0
  dmaAddr : DWord := 0
  /-- next host address and bytes left of the running chunk (R78); `dmaDead` discards what is still on its way -/
  dmaNext : DWord := 0
  dmaLeft : Nat := 0
  dmaDead : Bool := false
  first : DWord := 0
  build : DWord := 0
  ws : Vector WStat 31 := Vector.replicate 31 {}
  /-- bytes of a DWORD stream that have not yet made a DWORD are none: writes come in DWORDs (R75) -/
  p : Parse := {}
  nested : Option Parse := none
  /-- the first failure inside the nested image: code and offset in the enclosing section, reported once that section's SCRC has
  passed (R82) -/
  nestedBad : Option (Nat × Nat) := none
  cfg : Cfg := {}
  /-- sections present in the staging area that a partial load applies -/
  lanesIn : Bool := false
  routesIn : List (Nat × Route) := []
  binsIn : List (Nat × BinEntry) := []
  swaps : List SwapReq := []
  /-- ranges already loaded into a target by SCRATCH or STEWARD: type, target, start, end -/
  ranges : List (Nat × Nat × Nat × Nat) := []
  /-- the engine, bank, TICK_ENTRY and REPLANT_ENTRY of each CSTORE (R61, R134) -/
  entries : List (Nat × Nat × BitVec 12 × BitVec 12) := []
  defRoutes : List Deferred := []
  defBins : List DeferredBin := []
  /-- workers whose image this load carries (R92), with the offset of the nested image in the enclosing one -/
  workers : List (Nat × Nat) := []
  /-- commit commands that await their RESP: ID and worker (R95, R655) -/
  commits : List (Half × BitVec 5) := []
  /-- LOADING follows the W reset that runs (R73) -/
  afterReset : Bool := false
  deriving DecidableEq, Repr

/-! ### The device -/

/-- The SYS block's own registers (01, 16): role, clock status, reset status, thaw sequence, alert enables. -/
structure Sys where
  role : BitVec 2 := 0
  nodeValid : Bool := false
  nodeId : BitVec 5 := 0
  bistAtStart : Bool := false
  ringLol : Bool := false
  fclkLol : Bool := false
  pcieLock : Bool := false
  ringLock : Bool := false
  fclkLock : Bool := false
  /-- fclk runs (R28): REFCLK is present and the core PLL has locked since the P reset -/
  fclkOn : Bool := false
  /-- a P reset holds (R595), and its cause (R447) -/
  inP : Bool := true
  pCause : Byte := 1
  /-- TB_NOW in the last clk before the P reset, for its history entry (R447) -/
  pTime : DWord := 0
  /-- a W reset runs, to this clk (R600) -/
  wEnd : Option Nat := none
  rstKind : Byte := 1
  rstCause : Byte := 1
  rstRej : Byte := 0
  thawId : Byte := 0
  thawArmed : Option Nat := none
  thawResult : BitVec 3 := 0
  badKeys : Byte := 0
  alertDis : Bool := false
  alertSys : BitVec 4 := 0
  alertCore : BitVec 4 := 0
  alertEng : Word := 0
  rcRej : Byte := 0
  deriving DecidableEq, Repr

/-- The power states of a cluster (R606), in the order of their codes. -/
inductive ClSt | active | fencing | dormant | waking
  deriving DecidableEq, Repr

/-- A cluster (R623): consecutive eligible checks, clk in which the fence began, clk of the cause of its wake. -/
structure Cluster where
  st : ClSt := .active
  wakeReq : Bool := false
  checks : Nat := 0
  fence : Nat := 0
  cause : Nat := 0
  wakes : Half := 0
  lastWake : Half := 0
  deriving DecidableEq, Repr

/-- The PWR block (R623). -/
structure Pwr where
  cls : Vector Cluster 8 := Vector.replicate 8 {}
  dormDly : Half := 4
  hold : Byte := 0
  lastCheck : Nat := 0
  deriving DecidableEq, Repr

/-- The sixteen states of the TAP controller (R646, IEEE 1149.1). -/
inductive TapSt
  | reset | idle | selDr | capDr | shDr | ex1Dr | pauseDr | ex2Dr | updDr | selIr | capIr | shIr | ex1Ir | pauseIr | ex2Ir | updIr
  deriving DecidableEq, Repr

/-- The TAP: the level of TCK, state, instruction shift register and instruction, data shift register, boundary latches, TDO, and
its own counter of free values (DESIGN CHOICE, log entry 49). -/
structure Tap where
  tck : Bool := false
  st : TapSt := .reset
  irShift : List Bool := []
  instr : TapInstr := .bypass
  shift : List Bool := []
  latch : List Bool := []
  tdo : Option Bool := none
  freeCtr : Nat := 0
  deriving DecidableEq, Repr

/-- The device: every block, the clk count since the core PLL locked, the free-value counter (DESIGN CHOICE, log entry 1), the data the last
read returned and the trace of what Breta has sent (DESIGN CHOICE, log entry 5). -/
structure Dev where
  clk : Nat := 0
  freeCtr : Nat := 0
  rdata : List Byte := []
  /-- the payload bytes of the completions that carried it to the host (R532) -/
  rcpl : List Nat := []
  out : List Out := []
  committed : Bool := false
  cfg : Cfg := {}
  sys : Sys := {}
  rc : Bytes := []
  ev : Ev := {}
  tb : Tb := {}
  lanes : Vector Lane 64 := Vector.replicate 64 {}
  pairs : Vector Pair 16 := Vector.replicate 16 {}
  bank : Banks := {}
  cl : Cl := {}
  hr : Hr := {}
  pe : Pe := {}
  dr : Dr := {}
  trl : Trl := {}
  pwr : Pwr := {}
  engines : Vector Engine 32 := Vector.replicate 32 {}
  cores : Vector Core 4 := Vector.replicate 4 {}
  /-- the mailbox and its tags (R375), one per 16-byte granule -/
  mbox : Bytes := []
  mtags : List (Nat × Bool) := []
  ls : Vector Ls 4 := Vector.replicate 4 {}
  wd : Vector Wd 5 := Vector.replicate 5 {}
  bist : Bist := {}
  deriving DecidableEq, Repr

/-! ### Faults, refusals, the machine -/

/-- A block takes no exception and no command of Breta faults: the type is empty. -/
inductive Fault
  deriving DecidableEq, Repr

/-- Why a command is refused. -/
inductive Refusal
  /-- Raised by an arm of `exec` whose command has no meaning yet; safe. -/
  | notModelled (mnemonic : String)
  deriving DecidableEq, Repr

/-- The machine: the device, the test access port, which runs on its own clock, and the commands that wait, first in, first out. -/
structure State where
  dev : Dev := {}
  tap : Tap := {}
  pending : List Instr := []
  deriving DecidableEq, Repr

/-- Right after power-on: a P reset holds (R594, R632), every field at its P value, no command waits. -/
def State.reset : State := {}

end Sys2Proof.Machine
end

