-- ==== Sys2Proof/Machine/Ops.lean ====
section
/-!
DEFINITION. Sys2Proof/Machine/Ops.lean: the operations every block shares: raising an occurrence, freezing a master, the
free values, and the passing of clk with all that goes on in it: the Sundial and its counters, lanes, engines and their write queues,
deliveries to come, the slots of cores and the multiplier's landing.
-/
namespace Sys2Proof.Machine

/-! ### Free values -/

/-- The next free value, and the device with the counter advanced (DESIGN CHOICE, log entry 1). -/
def takeFree (d : Dev) : DWord × Dev := (Config.freeValue d.freeCtr, { d with freeCtr := d.freeCtr + 1 })

/-! ### Reading the committed configuration -/

/-- The LANES entry of lane `n`. -/
def laneCfg (d : Dev) (n : Nat) : LaneEntry := at? d.cfg.lanes n {}
/-- Lane `n`. -/
def lane (d : Dev) (n : Nat) : Lane := at? d.lanes n {}
/-- Engine `e`. -/
def engine (d : Dev) (e : Nat) : Engine := at? d.engines e {}
/-- Bin `b`. -/
def bin (d : Dev) (b : Nat) : Bin := at? d.cl.bins b {}
/-- The BINS entry of bin `b`, none when the bin does not exist. -/
def binCfg? (d : Dev) (b : Nat) : Option BinEntry := (d.cfg.bins.find? (·.1 == b)).map (·.2)
/-- The route entry of a source; an unlisted source is unrouted (R54). -/
def routeOf (d : Dev) (s : Nat) : Route := look {} d.cfg.routes s

/-- Change lane `n`. -/
def updLane (n : Nat) (f : Lane → Lane) (d : Dev) : Dev := { d with lanes := upd? d.lanes n f }
/-- Change engine `e`. -/
def updEng (e : Nat) (f : Engine → Engine) (d : Dev) : Dev := { d with engines := upd? d.engines e f }
def updSeq (e : Nat) (f : Seq → Seq) : Dev → Dev := updEng e fun g => { g with seq := f g.seq }
def updDp (e : Nat) (f : Dp → Dp) : Dev → Dev := updEng e fun g => { g with dp := f g.dp }
def updEp (e : Nat) (f : Eport → Eport) : Dev → Dev := updEng e fun g => { g with ep := f g.ep }
def updLife (e : Nat) (f : Life → Life) : Dev → Dev := updEng e fun g => { g with life := f g.life }
/-- Change bin `b`. -/
def updBin (b : Nat) (f : Bin → Bin) (d : Dev) : Dev := { d with cl := { d.cl with bins := upd? d.cl.bins b f } }
/-- Change the Sundial. -/
def updTb (f : Tb → Tb) (d : Dev) : Dev := { d with tb := f d.tb }
/-- Change the event router. -/
def updEv (f : Ev → Ev) (d : Dev) : Dev := { d with ev := f d.ev }

/-- FILL of a bin: the bytes of the records it holds and of their SKIPs (R289). -/
def Bin.fill (b : Bin) : Nat := b.recs.foldl (fun a r => a + r.skip + 8 * r.len) 0

/-- The open reservations of a bin that its owner holds: all but a trigger record, which Breta writes (R306, R316). -/
def Bin.ownerRecs (b : Bin) : List Rec :=
  b.recs.filter fun r => r.st == .opened && !(b.trgOpen.any fun t => t.2 == some r.seq)

/-! ### Source levels (R262) -/

/-- Source `s` raises an occurrence in this clk (R261). -/
def pulsing (d : Dev) (s : Nat) : Bool := d.ev.pulses.contains (d.clk, s)

/-- The level of event output `j` of engine `e` (R155, R156). -/
def emitLevel (d : Dev) (e j : Nat) : Bool := bit (engine d e).dp.emitLvl j || pulsing d (0x200 + 16 * e + j)

/-- The level of source `s` (R262): a source of the kind "pulse" has level 1 in each clk in which it raises an occurrence. -/
def srcLevel (d : Dev) (s : Nat) : Bool :=
  if s < 0x100 then
    let l := lane d (s / 4)
    if s % 4 = 0 then l.filt else if s % 4 = 1 then !l.filt
    else if s % 4 = 2 then 8 ≤ l.stamps.length else l.err ≠ 0
  else if s < 0x140 then (at? d.tb.cmps (s - 0x100) {}).matched
  else if s < 0x160 then (at? d.tb.gcs (s - 0x140) {}).thrhit || (at? d.tb.gcs (s - 0x140) {}).ovf
  else if s < 0x170 then (at? d.pairs (s - 0x160) {}).disc
  else if s < 0x180 then (at? d.tb.caps (s - 0x170) {}).full
  else if s < 0x200 then false
  else if s < 0x400 then emitLevel d ((s - 0x200) / 16) (s % 16)
  else if s < 0x480 then pulsing d s
  else if s < 0x580 then
    match binCfg? d (s - 0x480) with
    | some c => c.thresh ≠ 0 && c.thresh.toNat ≤ (bin d (s - 0x480)).fill
    | none => false
  else if s < 0x5A0 then bit d.hr.present (s - 0x580)
  else if s = 0x5A0 then d.hr.ports[0].link
  else if s = 0x5A1 then d.hr.ports[1].link
  else if s = 0x5A2 then d.hr.ports[0].wrap || d.hr.ports[1].wrap
  else if s = 0x5A4 then d.hr.syncLost
  else if s = 0x602 then d.sys.fclkLol || d.sys.ringLol
  else if s = 0x605 then (List.range 4).any fun c => (at? d.ev.larders c {}).lostf
  else if 0x700 ≤ s ∧ s < 0x800 then bit (at? d.ev.softLvl ((s - 0x700) / 32) 0) (s % 32)
  else pulsing d s

/-! ### The timebase (R229, R236) -/

/-- TB_NOW and its fraction after `n` additions of TB_INC, modulo 2^96 (R229). -/
def tbAdd (n : Nat) (t : Tb) : Tb :=
  let v := (t.now.toNat * 2 ^ 32 + t.frac.toNat + n * t.inc.toNat) % 2 ^ 96
  { t with now := BitVec.ofNat 64 (v / 2 ^ 32), frac := BitVec.ofNat 32 v }

/-- `n` clk of the timebase that start at clk `c`: a TB_INC computed from PPS takes effect in its clk (R236). -/
def tbPass (c n : Nat) (t : Tb) : Tb :=
  if !t.counting then t else
  match t.incNext with
  | some (k, v) =>
    if k ≤ c + n then
      tbAdd (c + n - max c k) { tbAdd (k - c) t with inc := v, incNext := none }
    else tbAdd n t
  | none => tbAdd n t

/-! ### Raising an occurrence (R264 to R267) -/

/-- Place an occurrence among those on their way, by clk raised, then source (R269). -/
def insertFlight (f : Flight) : List Flight → List Flight
  | [] => [f]
  | g :: r => if f.clk < g.clk ∨ (f.clk = g.clk ∧ f.src.toNat < g.src.toNat) then f :: g :: r else g :: insertFlight f r

/-- Count an occurrence for the enabled relays that name its source (R498). -/
def relayCount (time : Word) (s : Nat) (d : Dev) : Dev :=
  if d.hr.relays.any fun r => r.en && r.src.toNat == s then
    { d with hr := { d.hr with relays := d.hr.relays.map fun r =>
      if r.en && r.src.toNat == s then
        { r with cur := satInc r.cur, curTime := if r.cur = 0 then time else r.curTime }
      else r } }
  else d

/-- An occurrence of source `s` raised in clk `x`, in which TB_NOW[31:0] is `time`: the rate limit of R266, then the route in force
(R264). Nothing is routed while no Trellis is committed (R13). -/
def raiseAt (x : Nat) (time : Word) (s : Nat) (d0 : Dev) : Dev :=
  if !d0.committed then d0 else
  let d := relayCount time s d0
  let r := routeOf d s
  let h := look 0 d.ev.holdoff s
  if r.rate ≠ 0 ∧ h ≠ 0 then
    { d with ev := { d.ev with rldrop := satInc d.ev.rldrop, rllast := BitVec.ofNat 11 s } }
  else
    let ho := if r.rate ≠ 0 then store 0 d.ev.holdoff s r.rate else d.ev.holdoff
    let f : Flight := { clk := x, src := BitVec.ofNat 11 s, time := time, tgt0 := r.tgt0, tgt1 := r.tgt1 }
    let fl := if fld r.tgt0 12 4 = 0 ∧ fld r.tgt1 12 4 = 0 then d.ev.flights else insertFlight f d.ev.flights
    { d with ev := { d.ev with holdoff := ho, flights := fl } }

/-- Place an occurrence among those that coming clk raise, by clk, then source. -/
def insertSoon (x : Nat × Nat) : List (Nat × Nat) → List (Nat × Nat)
  | [] => [x]
  | y :: r => if x.1 < y.1 ∨ (x.1 = y.1 ∧ x.2 < y.2) then x :: y :: r else y :: insertSoon x r

/-- Raise an occurrence of source `s` in the clk that is `k` clk away, one at most in any clk (R261). -/
def raiseIn (k s : Nat) (d : Dev) : Dev :=
  if d.ev.pulses.contains (d.clk + k, s) then d else
  let v : Ev := { d.ev with pulses := (d.clk + k, s) :: d.ev.pulses.filter fun x => d.clk ≤ x.1 }
  if k = 0 then raiseAt d.clk (lo32 d.tb.now) s { d with ev := v }
  else { d with ev := { v with soon := insertSoon (d.clk + k, s) v.soon } }

/-- The occurrences of the coming `n` clk are raised, each in its clk. -/
def raiseSoon (n : Nat) (d : Dev) : Dev :=
  (d.ev.soon.filter (·.1 ≤ d.clk + n)).foldl (fun e x => raiseAt x.1 (lo32 (tbPass d.clk (x.1 - d.clk) d.tb).now) x.2 e)
    { d with ev := { d.ev with soon := d.ev.soon.filter (d.clk + n < ·.1) } }

/-- Raise an occurrence of source `s` now. -/
def raise (s : Nat) : Dev → Dev := raiseIn 0 s

/-- Raise source `s` when `b`. -/
def raiseIf (b : Bool) (s : Nat) (d : Dev) : Dev := if b then raise s d else d

/-- Raise source `s` in the following clk, always or when `b`. -/
def raiseNext (s : Nat) : Dev → Dev := raiseIn 1 s
def raiseNextIf (b : Bool) (s : Nat) (d : Dev) : Dev := if b then raiseNext s d else d

/-! ### Root cellar counts and freeze records (R38, R446, R448, R614) -/

/-- Add 1 to an `n`-byte root-cellar count, which saturates (R446). -/
def rcCount (off n : Nat) (d : Dev) : Dev :=
  { d with rc := wrLE d.rc off n (min (256 ^ n - 1) (rdLE d.rc off n + 1)) }

/-- Write a freeze record into slot FRZ_NEXT, advance the index and raise the master-frozen event (R38, R448, R614). -/
def freezeRecord (master cause : Nat) (multi boundary : Bool) (detail whre : Nat) (d : Dev) : Dev :=
  let i := (rd8 d.rc 0x00E).toNat % 4
  let a := 0x100 + 32 * i
  let bytes := leBytes 8 d.tb.now.toNat ++ leBytes 1 master ++ leBytes 1 cause ++ leBytes 1 (b2n multi + 2 * b2n boundary) ++
    leBytes 1 d.sys.nodeId.toNat ++ leBytes 4 detail ++ leBytes 4 whre ++ leBytes 4 d.tb.tick.toNat ++ leBytes 7 0 ++ leBytes 1 1
  raise 0x601 { d with rc := wr8 (wrBytes d.rc a bytes) 0x00E (BitVec.ofNat 8 ((i + 1) % 4)) }

/-- Write a reset-history entry into slot HIST_NEXT and advance the index (R447, R448). -/
def history (kind cause source : Nat) (time : DWord) (d : Dev) : Dev :=
  let i := (rd8 d.rc 0x00D).toNat % 8
  let bytes := leBytes 8 time.toNat ++ leBytes 1 kind ++ leBytes 1 cause ++ leBytes 2 source ++ leBytes 3 0 ++ leBytes 1 1
  { d with rc := wr8 (wrBytes d.rc (0x20 + 16 * i) bytes) 0x00D (BitVec.ofNat 8 ((i + 1) % 8)) }

/-! ### Lanes as the passing of clk sees them (R197, R200, R207, R209 to R215) -/

/-- The engine and slot that own lane `n`. -/
def laneOwner (d : Dev) (n : Nat) : Option (Nat × Nat) :=
  let c := laneCfg d n
  if c.owner = 0xFF then none else some (c.owner.toNat, c.ownerSlot.toNat)

/-- Every (engine, slot) bound to lane `n`: the owner, then the observers. -/
def laneBindings (d : Dev) (n : Nat) : List (Nat × Nat) :=
  let c := laneCfg d n
  (laneOwner d n).toList ++
    (List.range 4).filterMap fun i => if at? c.obs i 0xFF = 0xFF then none else some ((at? c.obs i 0).toNat, (at? c.obsSlot i 0).toNat)

/-- The lane in binding slot `s` of engine `e`, and whether the engine owns it. -/
def slotLane (d : Dev) (e s : Nat) : Option (Nat × Bool) :=
  match (List.range 64).find? fun n => (laneBindings d n).contains (e, s) with
  | some n => some (n, laneOwner d n == some (e, s))
  | none => none

/-- The supply of the lane's bank is good (R198). -/
def laneGood (d : Dev) (n : Nat) : Bool := bit d.bank.good (n / 8)

/-- The synchronised level of a lane at the end of clk `c`: a level captured in clk t shows at the end of clk t + 1 (R200). -/
def Lane.synced (l : Lane) (c : Nat) : Bool := if c ≤ l.syncClk then l.syncOld else l.sync

/-- The clk in which the level that shows at the end of clk `c` was captured (R200). -/
def Lane.syncSince (l : Lane) (c : Nat) : Nat := if c ≤ l.syncClk then l.syncPrev else l.syncClk

/-- The synchronised level of lane `n` at the end of clk `c`; in mode OFF no input path runs and it reads 0 (R197, R226). -/
def laneSynced (d : Dev) (n c : Nat) : Bool := (laneCfg d n).mode != 0 && (lane d n).synced c

/-- The synchroniser captures level `v` in clk `c` (R200). -/
def Lane.capture (v : Bool) (c : Nat) (l : Lane) : Lane :=
  if v = l.sync then l else { l with sync := v, syncClk := c, syncOld := l.sync, syncPrev := l.syncClk }

/-- The level of a CLKGEN lane (R211). -/
def clkgenLevel (d : Dev) (n : Nat) : Bool :=
  let l := lane d n
  if (lane d l.timing.refLane.toNat).cur = [] then l.timing.clkIdle
  else l.timing.clkIdle != (l.half2 != l.timing.clkFirst)

/-- The gang lane that drives lane `n`, and the place of `n` in it (R209). -/
def gangOf (d : Dev) (n : Nat) : Option (Nat × Nat) :=
  let k := n / 4 * 4
  if (lane d k).timing.gang then some (k, n - k) else none

/-- The bit a serialiser is sending on lane `n`. -/
def sending (d : Dev) (n : Nat) : Option Bool :=
  match gangOf d n with
  | some (k, i) => (lane d k).cur[i]?
  | none => (lane d n).cur.head?

/-- The latched safe targets of the lowest-numbered tripped pair that holds lane `n` (R213 order 1, R220). -/
def safeHeld (d : Dev) (n : Nat) : Option SafeLatch :=
  ((List.range 16).findSome? fun p =>
    match (at? d.pairs p {}).latch with
    | some s => if s.safeLane.toNat = n then some s else none
    | none => none)

/-- Drive a level in a driver type: push-pull and enabled tri-state drive both levels, open drain drives low only. -/
def driveAs (mode : Byte) (b : Bool) : Option Bool := if (mode = 3 ∨ mode = 5) ∧ b then none else some b

/-- What lane `n` drives at its ball, none for high impedance (R198, R213). -/
def laneDrive (d : Dev) (n : Nat) : Option Bool :=
  let l := lane d n
  let m := (laneCfg d n).mode
  if !laneGood d n then none else
  match safeHeld d n with
  | some s => driveAs s.mode (s.safeLaneLevel != 0)
  | none =>
    if m = 0 ∨ m = 1 then none
    else if m = 4 ∧ !l.oe ∧ sending d n = none then none
    else if l.timing.src = 3 then driveAs m (clkgenLevel d n)
    else match sending d n with
      | some b => driveAs m b
      | none => driveAs m (l.pulse.getD l.lvl)

/-- PERIOD of a set, in 1/16 clk. -/
def LnTiming.period (t : LnTiming) (b : Bool) : Nat := if b then t.perB.toNat else t.perA.toNat

/-- The lane uses another set from clk `x.1` on: the running interval keeps its origin, unless it would have ended by that clk (R207;
DEDUCED, log entry 14). -/
def Lane.changeSet (x : Nat × Bool) (l : Lane) : Lane :=
  let t := l.lastSample + l.timing.period x.2
  if x.2 = l.setB then l else { l with setB := x.2, tn := if t ≤ 16 * x.1 then l.tn else t }

/-- The changes of timing set due up to clk `c` take effect (R207). -/
def Lane.settleSet (c : Nat) (l : Lane) : Lane :=
  l.setPend.foldl (fun l x => if c < x.1 then { l with setPend := l.setPend ++ [x] } else l.changeSet x) { l with setPend := [] }

/-- The clk of the capture of a level that lane `n` drives from clk `c` on: 10 to 46 clk later, which is open (R669, log entry 85). -/
def readbackAt (n c : Nat) : Nat := c + 10 + Config.readback n c % 37

/-- A lane over `n` clk: a change of the level it drives begins in the clk after the rows that made it (R213), the level is captured
by its own input path (R669), and changes of timing set take effect. -/
def lanePass (n : Nat) (d : Dev) (i : Nat) (l0 : Lane) : Lane :=
  let v := laneDrive d i
  let l1 := if v = l0.drv then l0 else
    { l0 with drv := v, drvClk := d.clk + 1, readback := v.map fun _ => readbackAt i (d.clk + 1) }
  let l2 := match l1.readback, l1.drv with
    | some r, some b => if r < d.clk + n then { l1.capture b r with readback := none } else l1
    | _, _ => l1
  if l2.setPend.isEmpty then l2 else l2.settleSet (d.clk + n)

/-! ### Engines over clk in which they execute nothing (R129, R142, R145, R159) -/

/-- The engine is STREAM (R56). -/
def isStream (d : Dev) (e : Nat) : Bool := bit d.cfg.stream e

/-- The bit timer of an engine after `n` of its clk (R145). -/
def btPass (n : Nat) (p : Dp) : Dp :=
  if p.btRun ∧ p.btPer ≠ 0 then { p with btCount := BitVec.ofNat 20 ((p.btCount.toNat + n) % p.btPer.toNat) } else p

/-- The engine executes, or stalls: RUNNING and not yielded. -/
def Engine.busy (g : Engine) : Bool := g.life.st == .running && !g.seq.yielded

/-- The clk from `c` to `c + n` that no row of the engine has counted and that lie at or after `f`. -/
def Engine.uncounted (g : Engine) (c n f : Nat) : Nat := c + n - max (max c g.seq.covered) f

/-- Count `k` clk of a TICKED engine against its budget; the end of clk BUDGET without a yield latches OVERRUN (R129). -/
def Seq.count (k : Nat) (s : Seq) : Seq :=
  if k = 0 then s else
  { s with budcnt := satInc s.budcnt k, overrun := s.overrun || decide (s.budget.toNat ≤ (satInc s.budcnt k).toNat) }

/-- `n` clk from `c` on of an engine in which no row of it acts. A RUNNING or HALTED engine's bit timer counts (R145); an engine that
should execute stalls, and its clk count against the budget from `budFrom` on (R129) and as stalls from `reached` on, the second clk
of BR4 and DISPATCH with them (R160; log entry 3). -/
def engPass (stream : Bool) (c n : Nat) (g : Engine) : Engine :=
  let k := g.uncounted c n 0
  let g1 := if g.life.st = .running ∨ g.life.st = .halted then { g with dp := btPass k g.dp } else g
  if !g.busy then g1 else
  let s := if g.ep.cause = 11 then k else g.uncounted c n g.seq.reached
  { g1 with
    ep := { g1.ep with stallClk := satInc g1.ep.stallClk s }
    seq := if stream then g1.seq else g1.seq.count (g.uncounted c n g.seq.budFrom) }

/-- The background input of a datapath takes bit-times, MSB first, until SC reaches the target (R141, R142). -/
def Dp.take (p : Dp) (bs : List Bool) : Dp :=
  let p1 := { p with sh := bs.foldl (fun s b => (s <<< 1) ||| (if b then 1 else 0)) p.sh, sc := p.sc + BitVec.ofNat 7 bs.length }
  if p1.sc = p1.target then { p1 with bg := none } else p1

/-- At most `k` bit-times, one a clk, move from the lane FIFO into SH when a background input of engine `e` runs (R142). -/
def bgTakeN (e k : Nat) (d : Dev) : Dev :=
  let g := engine d e
  match g.dp.bg with
  | none => d
  | some s =>
    match slotLane d e s.toNat with
    | none => d
    | some (n, _) =>
      match (lane d n).fifo.take (min k (g.dp.target.toNat - g.dp.sc.toNat)) with
      | [] => d
      | bs => updDp e (·.take bs) (updLane n (fun l => { l with fifo := l.fifo.drop bs.length }) d)

/-- One clk of a background input. -/
def bgTake (e : Nat) : Dev → Dev := bgTakeN e 1

/-- The background input of engine `e` over the `n` clk from now on that its own rows have not counted (R142, R144). -/
def bgPass (n : Nat) (d : Dev) (e : Fin 32) : Dev :=
  let g := d.engines[e]
  if g.life.st = .running ∧ g.dp.bg.isSome then bgTakeN e (g.uncounted d.clk n 0) d else d

/-! ### Write queues of the Cellar ports (R154, R286, R311) -/

/-- The 8-byte Cellar writes an entry makes. -/
def PortWr.words (x : PortWr) : Nat := (x.addr % 8 + x.data.length + 7) / 8 + b2n x.ends.isSome

/-- Entry `x` is written (R153, R303, R304): its bytes, then, for a COMMIT or a VOID, word 0 with its flag set and RESERVED clear,
which ends the record. An entry whose record has left its bin writes nothing. -/
def portWrite (x : PortWr) (c : Cl) : Cl :=
  if !(at? c.bins x.bin {}).recs.any (fun r => r.seq == x.seq) then c else
  let m := wrBytes c.mem x.addr x.data
  let m1 := match x.ends with
    | none => m
    | some f => wrBytes m x.hdr (leBytes 8
        ((BitVec.ofNat 64 (rdLE m x.hdr 8) &&& ~~~(BitVec.ofNat 64 (2 ^ 32))) ||| BitVec.ofNat 64 (f * 2 ^ 32)).toNat)
  { c with mem := m1, bins := upd? c.bins x.bin fun b => { b with recs := b.recs.map fun r =>
      if r.seq = x.seq ∧ (r.st = .opened ∨ r.st = .closing) then
        { r with written := x.written, st := if x.ends.isSome then .ended else r.st }
      else r } }

/-- A bin lies in Cellar bank `k`, at least in part. -/
def binInBank (k : Nat) (c : BinEntry) : Bool :=
  decide (c.base.toNat / 2 ^ 19 ≤ k) && decide (k ≤ (c.base.toNat + c.size.toNat - 1) / 2 ^ 19)

/-- Another master than port `me` has a write of bank `k` outstanding: another port's queue, a trigger record, a forwarded record, a
record to be sealed, or a row repair (R286). -/
def bankShared (d : Dev) (me k : Nat) : Bool :=
  let holds (q : List PortWr) : Bool := q.any fun x => x.addr / 2 ^ 19 == k || x.hdr / 2 ^ 19 == k && x.ends.isSome
  (List.range 32).any (fun e => e != me && holds (engine d e).ep.queue) ||
  (List.range 4).any (fun c => (List.range 4).any fun l =>
    32 + 4 * c + l != me && holds (at? (at? d.cl.ports c (Vector.replicate 4 {})) l {}).queue) ||
  d.cfg.bins.any (fun x => binInBank k x.2 && ((bin d x.1).trgOpen.isSome || (bin d x.1).fwd.isSome ||
    d.cl.sealQueue.any (·.1 == x.1))) ||
  (at? d.cl.banks k {}).repairing.isSome

/-- The clk port `me` takes for the entry that becomes its oldest in clk `c`, which is open within a bound: 2 clk a write while no
other master writes the bank, else 80 for an engine's port (R154) and 110 for a Steward's, one of 11 system requesters (R286; log
entry 91). -/
def portGap (d : Dev) (me c : Nat) (x : PortWr) : Nat :=
  let b := (if !bankShared d me (x.addr / 2 ^ 19) then 2 else if me < 32 then 80 else 110) * x.words
  1 + Config.portGap me c % max 1 b

/-- A queue over `n` clk from `c` on: its entries are written in issue order. -/
def portRun (d : Dev) (me : Nat) : Nat → Nat → List PortWr → Nat → Cl → List PortWr × Nat × Cl
  | _, _, [], _, l => ([], 0, l)
  | c, n, x :: q, w, l =>
    if n < w then (x :: q, w - n, l)
    else portRun d me (c + w) (n - w) q (match q with | [] => 0 | y :: _ => portGap d me (c + w) y) (portWrite x l)

/-- The write queue of engine `e` over `n` clk (R154). -/
def enginePort (n : Nat) (d : Dev) (e : Fin 32) : Dev :=
  let p := d.engines[e].ep
  if p.queue.isEmpty then d else
  let (q, w, l) := portRun d e d.clk n p.queue p.portWait d.cl
  updEp e (fun p => { p with queue := q, portWait := w }) { d with cl := l }

/-- The write queue of the port set of core `x.1` at level `x.2` over `n` clk (R311). -/
def stewardPort (n : Nat) (d : Dev) (x : Fin 4 × Fin 4) : Dev :=
  let p := d.cl.ports[x.1][x.2]
  if p.queue.isEmpty then d else
  let (q, w, l) := portRun d (32 + 4 * x.1 + x.2) d.clk n p.queue p.wait d.cl
  { d with cl := { l with ports := upd? l.ports x.1 fun v => upd? v x.2 fun p => { p with queue := q, wait := w } } }

/-- The port sets, by core and level. -/
def portSets : List (Fin 4 × Fin 4) := (List.finRange 4).flatMap fun c => (List.finRange 4).map fun l => (c, l)

/-- Operations enter the write queue of engine `e` (R154). -/
def portIssue (e : Nat) (xs : List PortWr) (d : Dev) : Dev :=
  updEp e (fun p => { p with
    queue := p.queue ++ xs
    portWait := match p.queue, xs with | [], x :: _ => portGap d e d.clk x | _, _ => p.portWait }) d

/-! ### Gated counters (R249 to R253) -/

/-- The level of a gated counter's gate (R249). An INDEX outside its kind's range reads level 0. Under KIND 3 it is the level the
source showed a clk before (R268), `src` in the clk at hand. -/
def gateLevel (d : Dev) (g : Gc) (src : Bool) : Bool :=
  let i := g.index.toNat
  match g.kind.toNat with
  | 1 => if i < 64 then (lane d i).filt else false
  | 2 => if i < 16 then (at? d.pairs i {}).a != (at? d.pairs i {}).b else false
  | 3 => src
  | 4 => if i < 512 then emitLevel d (i / 16) (i % 16) else false
  | 5 => true
  | _ => false

/-- The counter counts with its gate at level `l` (R249, R250): enabled, a gate chosen, and the level equals POL. -/
def gcCounts (g : Gc) (l : Bool) : Bool := g.en && g.kind != 0 && l == g.pol

/-- The increments that take the count to `v`: 1 to 2^48. -/
def gcDist (g : Gc) (v : Nat) : Nat := if v ≤ g.count.toNat then v + 2 ^ 48 - g.count.toNat else v - g.count.toNat

/-- `n` increments of a counter that counts (R251): count, wraps, threshold hits. -/
def gcAdd (n : Nat) (g : Gc) : Gc :=
  let c := g.count.toNat + n
  let wraps := c / 2 ^ 48
  { g with
    count := BitVec.ofNat 48 c
    wrapcnt := satInc g.wrapcnt wraps
    ovf := g.ovf || 0 < wraps
    thrhit := g.thrhit || (g.thrEn && gcDist g g.thr.toNat ≤ n) }

/-- How many clk after this one the `k`th increment falls, when the first two clk increment as `a` and `b` say and all later ones do. -/
def gcTime (a b : Bool) (k : Nat) : Nat := if k ≤ b2n a then 0 else if k ≤ b2n a + b2n b then 1 else k - b2n a - b2n b + 1

/-- `n` clk of counter `g` (R250, R251, R253): the first counts by the gate at the end of the clk before, unless a LOAD took effect in
it; the second by the gate as it stands; the others too, or under KIND 3 by the source as it stands. Its source is raised in the clk
after a wrap, a threshold hit or both. -/
def gcPass (n : Nat) (d : Dev) (g : Fin 32) : Dev :=
  let o := d.tb.gcs[g]
  if n = 0 then d else
  let src := o.kind == 3 && srcLevel d o.index.toNat
  let now := gateLevel d o o.srcPrev
  let later := gateLevel d o src
  let a := gcCounts o o.gatePrev && o.loadClk != d.clk + 1
  let b := gcCounts o now
  let m := b2n a + (if n = 1 then 0 else b2n b + (if gcCounts o later then n - 2 else 0))
  let o1 : Gc := { gcAdd m o with gatePrev := if n = 1 then now else later, srcPrev := src }
  let d1 : Dev := { d with tb := { d.tb with gcs := put d.tb.gcs g o1 } }
  let hit := o.thrEn && decide (gcDist o o.thr.toNat ≤ m)
  let th := gcTime a b (gcDist o o.thr.toNat)
  let wrap := decide (gcDist o 0 ≤ m)
  let tw := gcTime a b (gcDist o 0)
  if hit && wrap then
    if th = tw then raiseIn (th + 1) (0x140 + g) d1
    else raiseIn (max th tw + 1) (0x140 + g) (raiseIn (min th tw + 1) (0x140 + g) d1)
  else if hit then raiseIn (th + 1) (0x140 + g) d1
  else if wrap then raiseIn (tw + 1) (0x140 + g) d1
  else d1

/-- The level a CONDWIRE entry selects (R58, R123). -/
def wireLevel (d : Dev) (v : Half) : Bool :=
  let i := fld v 0 11
  match fld v 14 2 with
  | 0 => srcLevel d i
  | 1 => if i < 64 then laneSynced d i d.clk else false
  | 2 => if i < 16 then (at? d.pairs i {}).disc else false
  | _ => bit v 0

/-- The levels the WIRE entries of engine `e` select (R58, R123). -/
def wireLevels (d : Dev) (e : Nat) : DWord :=
  (List.range 64).foldl (fun v j => setBit v j (wireLevel d (look 0 d.cfg.wires (64 * e + j)))) 0

/-- `n` clk of the wired conditions of engine `e`, which a microword sees three clk after a change (R125). -/
def wirePass (n : Nat) (d : Dev) (e : Nat) (p : Eport) : Eport :=
  if !bit d.cfg.condMask e then p else
  let v := wireLevels d e
  match n with
  | 0 => p
  | 1 => { p with w1 := v, w2 := p.w1, w3 := p.w2 }
  | 2 => { p with w1 := v, w2 := v, w3 := p.w1 }
  | _ => { p with w1 := v, w2 := v, w3 := v }

/-- Set the bit of an engine input that a target names. -/
def markInput (t : Half) (v : BitVec 512) : BitVec 512 := if fld t 12 4 = 1 ∧ fld t 0 12 < 512 then setBit v (fld t 0 12) true else v

/-- The engine inputs whose level the levels `lvl` of the sources make 1 (R268). -/
def inputsOf (d : Dev) (lvl : Nat → Bool) : BitVec 512 :=
  d.cfg.routes.foldl (fun v (s, r) => if lvl s then markInput r.tgt1 (markInput r.tgt0 v) else v) 0

/-- A source number of an engine event output. -/
def isEmit (s : Nat) : Bool := decide (0x200 ≤ s) && decide (s < 0x400)

/-- The levels the router sees at the end of this clk, but for levels of event outputs that it sees a clk later (R156). -/
def levelsNow (d : Dev) : BitVec 512 := inputsOf d fun s => if isEmit s then pulsing d s else srcLevel d s

/-- The levels of the event outputs, which the router sees in the next clk. -/
def levelsEmit (d : Dev) : BitVec 512 := inputsOf d fun s => isEmit s && bit (engine d ((s - 0x200) / 16)).dp.emitLvl (s % 16)

/-- `n` clk of the levels on their way to the engine inputs (R268). -/
def levelPass (n : Nat) (d : Dev) (v : Ev) : Ev :=
  let a := levelsNow d
  let e := levelsEmit d
  match n with
  | 0 => v
  | 1 => { v with lvE := e, lv1 := a ||| v.lvE, lv2 := v.lv1, lv3 := v.lv2 }
  | 2 => { v with lvE := e, lv1 := a ||| e, lv2 := a ||| v.lvE, lv3 := v.lv1 }
  | 3 => { v with lvE := e, lv1 := a ||| e, lv2 := a ||| e, lv3 := a ||| v.lvE }
  | _ => { v with lvE := e, lv1 := a ||| e, lv2 := a ||| e, lv3 := a ||| e }

/-- The input levels of cluster `k` enter retention as they stand (R268). -/
def retainLevels (k : Nat) (d : Dev) : Dev :=
  updEv (fun v => { v with inputs := (List.range 4).foldl (fun ins i =>
    upd? ins (4 * k + i) fun x => Vector.ofFn fun j : Fin 16 => { x[j] with held := bit d.ev.lv3 (16 * (4 * k + i) + j) }) v.inputs }) d

/-- The fenced clusters that reach the second clk after their fence began enter retention (R268, R608). -/
def retainPass (d : Dev) : Dev :=
  (List.range 8).foldl (fun d k =>
    let c := at? d.pwr.cls k {}
    if c.st = .fencing ∧ c.fence + 2 = d.clk then retainLevels k d else d) d

/-- An occurrence is added to an engine input (R270). -/
def addInput (e j k : Nat) : Dev → Dev :=
  updEv fun v => { v with inputs := upd? v.inputs e fun x => upd? x j fun y => { y with count := satInc y.count k, edge := true } }

/-- Held landing entries of a cluster that is awake are delivered in the order in which they were made, one a clk (R281). -/
def landingPass (n : Nat) (d : Dev) : Dev :=
  if d.ev.landing.isEmpty then d else
  (List.range 8).foldl (fun d k =>
    if (at? d.pwr.cls k {}).st ≠ .active then d else
    ((d.ev.landing.filter fun x => x.eng.val / 4 == k).take n).foldl (fun d x =>
      addInput x.eng x.inp x.count.toNat (updEv (fun v => { v with landing := v.landing.erase x }) d)) d) d

/-- The inputs of the engines of cluster `k` take the current levels of their sources (R281). -/
def levelsWake (k : Nat) (d : Dev) : Dev :=
  let m : BitVec 512 := BitVec.ofNat 512 (0xFFFFFFFFFFFFFFFF * 2 ^ (64 * k))
  let a := (levelsNow d ||| levelsEmit d) &&& m
  updEv (fun v => { v with lv1 := v.lv1 &&& ~~~m ||| a, lv2 := v.lv2 &&& ~~~m ||| a, lv3 := v.lv3 &&& ~~~m ||| a }) d

/-! ### A Steward core's slots -/

def stC : Nat := 0
def stV : Nat := 1
def stZ : Nat := 2
def stN : Nat := 3
def stH : Nat := 4
def stS : Nat := 5
def stOVEN : Nat := 6
def stDZEN : Nat := 7
def stRP : Nat := 14
def Core.flag (k : Core) (i : Nat) : Bool := bit k.status i
def Core.setFlag (i : Nat) (b : Bool) (k : Core) : Core := { k with status := setBit k.status i b }
/-! ### The multiplier (R350, R351) -/

/-- The 72-bit accumulator MPG:MPH:MPL. -/
def Core.acc72 (k : Core) : BitVec 72 := (k.mpg ++ k.mph) ++ k.mpl
/-- Set the accumulator. -/
def Core.setAcc72 (v : BitVec 72) (k : Core) : Core := { k with mpg := bf v 64 8, mph := bf v 32 32, mpl := bf v 0 32 }

/-- A multiply lands (R350). -/
def land (k : Core) (m : Mult) : Core :=
  match m.kind with
  | .mul | .mulf => k.setAcc72 (m.p.signExtend 72)
  | .mulu => k.setAcc72 (m.p.zeroExtend 72)
  | .mac => k.setAcc72 (k.acc72 + m.p.signExtend 72)
  | .macu => k.setAcc72 (k.acc72 + m.p.zeroExtend 72)
  | .macf =>
    let s := k.acc72.toInt + m.p.toInt
    if s < -2 ^ 71 then (k.setAcc72 (BitVec.ofInt 72 (-2 ^ 71))).setFlag stS true
    else if 2 ^ 71 ≤ s then (k.setAcc72 (BitVec.ofInt 72 (2 ^ 71 - 1))).setFlag stS true
    else k.setAcc72 (BitVec.ofInt 72 s)

/-- Every multiply in flight lands (R352). -/
def landAll (k : Core) : Core := { k.muls.foldl land k with muls := [] }

/-! ### Slots (R351, R360, R397, R420) -/

/-- `n` slots of a core pass: multiplies land, a reservation may lapse, gate counts and the tick budget count. -/
def slots (n : Nat) (k0 : Core) : Core :=
  let now := k0.muls.takeWhile fun m => m.left ≤ n
  let k := { now.foldl land k0 with muls := (k0.muls.drop now.length).map (fun m : Mult => { m with left := m.left - n }) }
  { k with
    perfCyc := k.perfCyc + BitVec.ofNat 32 n
    resv := match k.resv with | some (g, l) => if l ≤ n then none else some (g, l - n) | none => none
    gates := k.gates.map (fun g : GateEnt => if g.limited then { g with left := BitVec.ofNat 32 (g.left.toNat - n) } else g)
    tbudcnt := if k.tickActive && k.tickCount then satInc k.tbudcnt n else k.tbudcnt }

/-- `n` clk of a core in a WAIT, each of them a slot (R363). The slots of a core that executes pass with its instructions. -/
def waitPass (n : Nat) (k : Core) : Core := if k.st = .waiting ∧ !k.frozen then slots n k else k

/-! ### The clk after a full commit (R88) -/

/-- STATUS as a started core begins (R388): 0 but for MASK 2. -/
def startStatus : BitVec 15 := 0x0800

/-- A core whose START is set begins at the cursor of its PCK (R88, R388). -/
def Core.start (on : Bool) (k : Core) : Core :=
  if on then { k with st := .running, pc := bf k.pck.val 64 32, status := startStatus, gates := [] } else { k with st := .idle }

/-- The clk after tc (R88): STATE reads COMMITTED and the started cores begin. -/
def commitEnd (d : Dev) : Dev :=
  if d.trl.st ≠ .committing then d else
  { d with
    trl := { d.trl with st := .committed }
    cores := Vector.ofFn fun c : Fin 4 => if d.cores[c].st = .disabled then d.cores[c] else d.cores[c].start (bit d.cfg.started c) }

/-- Over `n` clk: gated counters, background inputs, the write queues, occurrences to come, held deliveries. -/
def passParts (n : Nat) (d : Dev) : Dev :=
  landingPass n (raiseSoon n (portSets.foldl (stewardPort n) ((List.finRange 32).foldl (enginePort n)
    ((List.finRange 32).foldl (bgPass n) ((List.finRange 32).foldl (gcPass n) d)))))

/-- Over the `n` clk that begin with `d`, for `t`: levels, time, waits, lanes, wired conditions, stalls. -/
def passRest (n : Nat) (d t : Dev) : Dev :=
  { t with
    ev := levelPass n d t.ev
    clk := t.clk + n, tb := tbPass t.clk n t.tb
    cores := t.cores.map (waitPass n)
    lanes := Vector.ofFn fun i : Fin 64 => lanePass n d i t.lanes[i]
    engines := Vector.ofFn fun e : Fin 32 => engPass (isStream d e) t.clk n { t.engines[e] with ep := wirePass n d e t.engines[e].ep } }

/-- `n` clk pass without a change of any pulse level or any synchronised level. -/
def passRaw (n : Nat) (d0 : Dev) : Dev :=
  let d := if n = 0 then d0 else commitEnd d0
  retainPass (passRest n d (passParts n d))

/-- A level reads otherwise in the coming clk: a pulse (R261), a wired lane that has just been captured (R200), or the inputs of a
cluster that has just been fenced (R268). -/
def unsettled (d : Dev) : Bool :=
  d.ev.pulses.any (fun x => d.clk ≤ x.1) || d.pwr.cls.any (fun c => c.st == .fencing && decide (d.clk < c.fence + 2)) ||
  d.cfg.condMask != 0 && d.lanes.toList.any fun l => d.clk ≤ l.syncClk && l.sync != l.syncOld

/-- `n` clk pass in which nothing is commanded: the Sundial, the gated counters, the wired conditions, the write queues, the lanes'
readback, the waits of cores and what engines do without executing advance. Without fclk nothing does (R28). -/
def pass (n : Nat) (d : Dev) : Dev :=
  if !d.sys.fclkOn || n == 0 then d
  else if unsettled d then
    match n with
    | 0 => d
    | 1 => passRaw 1 d
    | 2 => passRaw 1 (passRaw 1 d)
    | k + 3 => passRaw (k + 1) (passRaw 1 (passRaw 1 d))
  else passRaw n d

/-- The clk until TB_NOW is at or past `t` (0 when it is). -/
def clkUntil (d : Dev) (t : DWord) : Nat :=
  let at0 (b : Tb) (inc : DWord) : Nat :=
    if t.toNat ≤ b.now.toNat ∨ inc = 0 then 0
    else (t.toNat * 2 ^ 32 - (b.now.toNat * 2 ^ 32 + b.frac.toNat) + inc.toNat - 1) / inc.toNat
  match d.tb.incNext with
  | none => at0 d.tb d.tb.inc
  | some (k, v) =>
    -- a TB_INC computed from PPS holds from clk `k` on (R236)
    let n := at0 d.tb d.tb.inc
    if d.clk + n ≤ k then n else (k - d.clk) + at0 (tbAdd (k - d.clk) d.tb) v

/-- Clk pass until clk number `c`. -/
def passTo (c : Nat) (d : Dev) : Dev := pass (c - d.clk) d

/-- Clk pass until TB_NOW is at or past `t`. -/
def passToTb (t : DWord) (d : Dev) : Dev := pass (clkUntil d t) d

end Sys2Proof.Machine
end

