-- ==== Sys2Proof/Machine/Cellar.lean ====
section
/-!
DEFINITION. Sys2Proof/Machine/Cellar.lean: bins, records, reservations, triggers, the seal unit, ECC and row repair
(09_cellar.md).
-/
namespace Sys2Proof.Machine

/-- Change the CL block. -/
def updCl (f : Cl → Cl) (d : Dev) : Dev := { d with cl := f d.cl }
/-- Write bytes into the Cellar. -/
def wrCellar (a : Nat) (bs : List Byte) : Dev → Dev := updCl fun c => { c with mem := wrBytes c.mem a bs }

/-! ### Record headers (R295) -/

/-- The flag bits of word 0 as bits of the byte [39:32]. -/
def fBreta : Nat := 0x80
def fSkip : Nat := 0x40
def fSealed : Nat := 0x20
def fLost : Nat := 0x10
def fTrunc : Nat := 0x08
def fVoid : Nat := 0x04
def fCommitted : Nat := 0x02
def fReserved : Nat := 0x01

/-- Word 0 of a header. -/
def hdrWord (len typ flags : Nat) (seq : Word) : Nat := len * 2 ^ 48 + typ * 2 ^ 40 + flags * 2 ^ 32 + seq.toNat

/-- Word 0 of the record at Cellar byte `a`. -/
def hdrAt (d : Dev) (a : Nat) : DWord := BitVec.ofNat 64 (rdLE d.cl.mem a 8)

/-- Set and clear flag bits of the header at Cellar byte `a`. -/
def hdrFlags (a set clr : Nat) (d : Dev) : Dev :=
  wrCellar a (leBytes 8 (((hdrAt d a) &&& ~~~(BitVec.ofNat 64 (clr * 2 ^ 32))) ||| BitVec.ofNat 64 (set * 2 ^ 32)).toNat) d

/-! ### Bins -/

/-- A record is open: neither COMMIT nor VOID has been issued on it. -/
def Rec.isOpen (r : Rec) : Bool := r.st == .opened

/-- The open reservations of a bin. -/
def Bin.openRecs (b : Bin) : List Rec := b.recs.filter Rec.isOpen

/-- The lowest free reservation slot (R300). -/
def Bin.freeSlot (b : Bin) : Nat :=
  ((List.range 8).find? fun s => b.openRecs.all fun r => r.slot ≠ s).getD 0

/-- FLAGS[0], SEALED. -/
def BinEntry.sealed (c : BinEntry) : Bool := bit c.flags 0
/-- FLAGS[1], PEEK. -/
def BinEntry.peek (c : BinEntry) : Bool := bit c.flags 1

/-- The bytes a SKIP covers before a record of `L` units (R290). -/
def skipFor (c : BinEntry) (b : Bin) (L : Nat) : Nat :=
  if c.size.toNat < b.res + 8 * L then c.size.toNat - b.res else 0

/-- Room for a record of `L` units (R296). -/
def hasRoom (c : BinEntry) (b : Bin) (L : Nat) : Bool :=
  8 * L + skipFor c b L + b.fill ≤ c.size.toNat && b.openRecs.length < 8

/-- A record may be discarded to make room (R297). -/
def eligible (c : BinEntry) (r : Rec) : Bool :=
  !r.busy && (r.st == .sealed || (r.st == .released && !c.sealed))

/-- The offset after a record. -/
def afterRec (c : BinEntry) (r : Rec) : Nat := (r.off + 8 * r.len) % c.size.toNat

/-- Discard eligible records, oldest first, until the bytes fit (R297): the records left, TAKE, and how many went. -/
def discardFor (c : BinEntry) (need : Nat) : List Rec → Nat → Nat → List Rec × Nat × Nat
  | [], take, k => ([], take, k)
  | r :: rs, take, k =>
    let fill := (r :: rs).foldl (fun a x => a + x.skip + 8 * x.len) 0
    if need + fill ≤ c.size.toNat ∨ !eligible c r then (r :: rs, take, k)
    else discardFor c need rs (afterRec c r) (k + 1)

/-- The bin is paired with a worker's, and its POLICY is not used (R313). -/
def BinEntry.paired (c : BinEntry) : Bool := c.ownerKind == 2

/-- OVERWRITE_OLD makes room (R297). -/
def makeRoom (b : Nat) (c : BinEntry) (L : Nat) (d : Dev) : Dev :=
  if c.policy ≠ 1 ∨ c.paired then d else
  updBin b (fun x =>
    let (rs, t, k) := discardFor c (8 * L + skipFor c x L) x.recs x.take 0
    { x with recs := rs, take := t, ovwr := satInc x.ovwr k }) d

/-- Grant a reservation of `L` units (R290, R300): the SKIP if one is needed, word 0 with RESERVED, word 1 with the time,
then RES, FILL and the threshold event (R294). `seq` is the bin's next number, or the worker's (R313). -/
def grant (b : Nat) (c : BinEntry) (L typ flags : Nat) (time : DWord) (seq : Word) (d : Dev) : Dev :=
  let x := bin d b
  let sk := skipFor c x L
  let off := if sk ≠ 0 then 0 else x.res
  let base := c.base.toNat
  let d1 := if sk = 0 then d else
    wrCellar (base + x.res) (leBytes 8 (hdrWord (sk / 8) 0 fSkip 0) ++ (if 16 ≤ sk then leBytes 8 time.toNat else [])) d
  let d2 := wrCellar (base + off) (leBytes 8 (hdrWord L typ (flags ||| fReserved) seq) ++ leBytes 8 time.toNat) d1
  let r : Rec := { seq := seq, off := off, len := L, skip := sk, st := .opened, slot := x.freeSlot, cursor := 16, written := 16,
                   trunc := false, age := 0, busy := false }
  let fill := x.fill
  let d3 := updBin b (fun x => { x with res := (off + 8 * L) % c.size.toNat, seq := seq + 1, recs := x.recs ++ [r] }) d2
  raiseNextIf (c.thresh ≠ 0 && fill < c.thresh.toNat && c.thresh.toNat ≤ fill + sk + 8 * L) (0x480 + b) d3

/-- Count a refusal in CL_BCNT.FULL (R299). -/
def countFull (b : Nat) : Dev → Dev := updBin b fun x => { x with full := satInc x.full }

/-- Change the record of bin `b` that satisfies `p`. -/
def updRec (b : Nat) (p : Rec → Bool) (f : Rec → Rec) : Dev → Dev :=
  updBin b fun x => { x with recs := x.recs.map fun r => if p r then f r else r }

/-- Change the open record in `r`'s slot of bin `b`. -/
def updOpen (b : Nat) (r : Rec) (f : Rec → Rec) : Dev → Dev := updRec b (fun x => x.isOpen && x.slot == r.slot) f

/-- Issue an append of 4 bytes at the cursor to the write queue `issue`, or cut it off (R153, R154). The second result says it was cut
off. -/
def append4 (issue : List PortWr → Dev → Dev) (b : Nat) (c : BinEntry) (r : Rec) (v : Word) (d : Dev) : Dev × Bool :=
  if r.cursor + 4 ≤ 8 * r.len then
    (updOpen b r (fun x => { x with cursor := x.cursor + 4 })
      (issue [{ bin := b, seq := r.seq, addr := c.base.toNat + r.off + r.cursor, data := leBytes 4 v.toNat, written := r.cursor + 4 }] d),
      false)
  else (updOpen b r (fun x => { x with trunc := true }) d, true)

/-- Issue a COMMIT to a write queue (R154, R303): it will zero the payload not appended, then rewrite word 0. -/
def commitIssue (issue : List PortWr → Dev → Dev) (b : Nat) (c : BinEntry) (r : Rec) (d : Dev) : Dev :=
  let a := c.base.toNat + r.off
  updOpen b r (fun x => { x with st := .closing })
    (issue [{ bin := b, seq := r.seq, addr := a + r.cursor, data := List.replicate (8 * r.len - r.cursor) 0, written := 8 * r.len
              hdr := a, ends := some (fCommitted ||| (if r.trunc then fTrunc else 0)) }] d)

/-- Issue a VOID to a write queue (R154, R304). -/
def voidIssue (issue : List PortWr → Dev → Dev) (b : Nat) (c : BinEntry) (r : Rec) (d : Dev) : Dev :=
  let a := c.base.toNat + r.off
  updOpen b r (fun x => { x with st := .closing })
    (issue [{ bin := b, seq := r.seq, addr := a, data := [], written := r.written, hdr := a, ends := some fVoid }] d)

/-- The commit of a record that Breta writes itself (R303): zero the payload not written, then word 0 with COMMITTED. -/
def commitRec (b : Nat) (c : BinEntry) (r : Rec) (d : Dev) : Dev :=
  let a := c.base.toNat + r.off
  let d1 := wrCellar (a + r.cursor) (List.replicate (8 * r.len - r.cursor) 0) d
  let d2 := hdrFlags a (fCommitted ||| (if r.trunc then fTrunc else 0)) fReserved d1
  updOpen b r (fun x => { x with st := .ended, cursor := r.cursor, written := 8 * r.len }) d2

/-- The void with LOST that Breta writes itself (R195, R306). -/
def voidRec (b : Nat) (c : BinEntry) (r : Rec) (d : Dev) : Dev :=
  updOpen b r (fun x => { x with st := .ended }) (hdrFlags (c.base.toNat + r.off) (fVoid ||| fLost) fReserved d)

/-- The clk until the write queue that holds the COMMIT or VOID of record `q` of bin `b` writes its oldest entry. -/
def queueWait (b : Nat) (q : Word) (d : Dev) : Nat :=
  let mine (l : List PortWr) : Bool := l.any fun x => x.bin == b && x.seq == q
  ((d.engines.toList.find? fun g => mine g.ep.queue).map (·.ep.portWait)).getD
    (((d.cl.ports.toList.flatMap (·.toList)).find? fun p => mine p.queue).elim 0 (·.wait))

/-- The oldest unreleased record of bin `b`. -/
def unreleased (b : Nat) (d : Dev) : Option Rec := (bin d b).recs.find? fun r => r.st == .opened || r.st == .closing || r.st == .ended

/-- Clk pass until the COMMIT or VOID of the oldest unreleased record of bin `b` has been written (R291), over at most `k` entries. -/
def awaitWritten (b : Nat) : Nat → Dev → Dev
  | 0, d => d
  | k + 1, d =>
    match unreleased b d with
    | some r => if r.st = .closing then awaitWritten b k (pass (queueWait b r.seq d) d) else d
    | none => d

/-- Release the oldest unreleased record once its COMMIT or VOID has been written (R291). -/
def releaseOne (b : Nat) (d0 : Dev) : Dev :=
  let d := awaitWritten b 17 d0
  match binCfg? d b with
  | none => d
  | some c =>
    match unreleased b d with
    | some r =>
      if r.st = .ended then
        let d1 := updBin b (fun x => { x with
          rel := afterRec c r, relSeq := r.seq + 1
          recs := x.recs.map fun y => if y.seq = r.seq ∧ y.st = .ended then { y with st := .released } else y }) d
        if c.sealed then updCl (fun l => { l with sealQueue := l.sealQueue ++ [(b, r.seq)] }) d1 else d1
      else d
    | none => d

/-- Take the oldest record of a bin; its bytes and its SKIP's are freed (R292). -/
def takeFirst (b : Nat) (c : BinEntry) : Dev → Dev :=
  updBin b fun x =>
    match x.recs with
    | [] => x
    | r :: rs => { x with recs := rs, take := afterRec c r }

/-- Take records from the oldest on while they are takeable (R292), at most `n`. -/
def takeN (b : Nat) (c : BinEntry) : Nat → Dev → Dev
  | 0, d => d
  | n + 1, d =>
    match (bin d b).recs with
    | r :: _ => if r.st = .sealed ∨ (r.st = .released ∧ !c.sealed) then takeN b c n (takeFirst b c d) else d
    | [] => d

/-- A write of CL_BACK (R293), for the bins R292 gives no other taker. -/
def clBack (b : Nat) (s : Word) (d : Dev) : Dev :=
  match binCfg? d b with
  | none => d
  | some c =>
    if d.sys.role = 1 ∨ c.hostRing ≠ 0xFF then d else
    let x := bin d b
    let oldest := match x.recs with | r :: _ => r.seq | [] => x.relSeq
    let released := (x.recs.filter fun r => r.st == .released || r.st == .sealed).length
    let k := (s - oldest).toNat
    if k ≤ released then takeN b c k d else updBin b (fun x => { x with badAck := satInc x.badAck }) d

/-! ### Handles (R150, R152) -/

/-- The handle of a reservation. -/
def handleOf (b : Nat) (r : Rec) : Word := pack [(16, r.seq.toNat % 4096), (8, b), (0, r.slot)]

/-- The handle a refused reservation writes. -/
def badHandle (b : Nat) : Word := pack [(31, 1), (8, b)]

/-- What a handle names. -/
inductive Named where
  | invalid
  | held (b : Nat) (c : BinEntry) (r : Rec)
  | late
  | other

/-- Resolve a handle for the producer that owns the bins `owns` accepts (R152). -/
def resolve (owns : BinEntry → Bool) (h : Word) (d : Dev) : Named :=
  if bit h 31 then .invalid else
  let b := fld h 8 8
  let s := fld h 0 3
  if fld h 28 3 ≠ 0 ∨ fld h 3 5 ≠ 0 then .other else
  match binCfg? d b with
  | none => .other
  | some c =>
    if !owns c then .other else
    let x := bin d b
    match x.openRecs.find? fun r => r.slot == s && r.seq.toNat % 4096 == fld h 16 12 with
    | some r => .held b c r
    | none =>
      match at? x.timedOut s none with
      | some q => if q.toNat % 4096 = fld h 16 12 then .late else .other
      | none => .other

/-- The engine owns the bin. -/
def engOwns (e : Nat) (c : BinEntry) : Bool := c.ownerKind == 0 && c.owner.toNat == e
/-- The core owns the bin. -/
def coreOwns (k : Nat) (c : BinEntry) : Bool := c.ownerKind == 1 && c.owner.toNat == k

/-! ### Timeouts (R306, R307) -/

/-- A boundary passes for every open reservation. -/
def ageRecs (d : Dev) : Dev :=
  updCl (fun l => { l with bins := l.bins.map fun x => { x with recs := x.recs.map fun r => if r.isOpen then { r with age := r.age + 1 } else r } }) d

/-- The reservation in slot `s` of bin `b` reaches its RES_TIMEOUT boundary and is voided with LOST set (R306). -/
def resTimeout (b s : Nat) (d : Dev) : Dev :=
  if !d.sys.fclkOn then d else
  match binCfg? d b with
  | none => d
  | some c =>
    match (bin d b).openRecs.find? fun r => r.slot == s with
    | none => d
    | some r =>
      if r.age < c.resTimeout.toNat then d else
      updBin b (fun x => { x with timeout := satInc x.timeout, timedOut := put? x.timedOut s (some r.seq),
                                  fwd := match x.fwd with | some (q, n) => if q = r.seq then none else some (q, n) | none => none })
        (voidRec b c r d)

/-! ### Waiting requests (R301, R310) -/

/-- Change the port set of core `c` at level `l`. -/
def updPort (c l : Nat) (f : Port → Port) : Dev → Dev :=
  updCl fun x => { x with ports := upd? x.ports c fun v => upd? v l f }

/-- A waiting BLOCK request of a port set is granted when there is room: its reservation is made and RESULT reads OK (R310). -/
def grantPort (b : Nat) (e : BinEntry) (c l : Fin 4) (typ : Byte) (len : Half) (d : Dev) : Dev :=
  let L := max 2 len.toNat
  if !hasRoom e (bin d b) L then d else
  let x := bin d b
  let h := pack [(16, x.seq.toNat % 4096), (8, b), (0, x.freeSlot)]
  updPort c l (fun p => { p with result := 1, resp := h })
    (updBin b (fun x => { x with waiting := x.waiting.filter (· ≠ .steward c l typ len) }) (grant b e L typ.toNat 0 d.tb.now x.seq d))

/-- The trigger record that waits in a BLOCK bin opens when there is room (R299, R301). -/
def serveTrigger (b : Nat) (e : BinEntry) (d : Dev) : Dev :=
  match (bin d b).trgOpen with
  | some (t, none) =>
    if hasRoom e (bin d b) 5 then
      let q := (bin d b).seq
      updBin b (fun x => { x with trgOpen := some (t, some q) }) (grant b e 5 1 fBreta d.tb.now q d)
    else d
  | _ => d

/-- The waiting requests of a bin are granted, each when there is room: the trigger record, then those of port sets in the order in
which they came (R301). -/
def serveWaiting (b : Nat) (e : BinEntry) (d : Dev) : Dev :=
  (bin d b).waiting.foldl (fun d w => match w with | .steward c l typ len => grantPort b e c l typ len d | .engine _ _ => d)
    (serveTrigger b e d)

/-- A STREAM engine waits for a reservation for which there is room: it comes before any later request (R301). -/
def engineAhead (e : BinEntry) (x : Bin) : Bool :=
  x.waiting.any fun w => match w with | .engine _ n => hasRoom e x n | .steward _ _ _ _ => false

/-! ### Triggers (R316, R317) -/

/-- The filtered levels of the 64 lanes. -/
def laneLevels (d : Dev) : DWord := (List.range 64).foldl (fun v n => setBit v n (lane d n).filt) 0

/-- Open a trigger record: grant it, let it wait in a BLOCK bin, or drop it (R299, R317). A waiting request for which there is room
comes before it (R301); in a paired bin, whose POLICY is not used, a trigger that finds no room is dropped (R313; log entry 93). Answers
whether it is open. -/
def openTrig (b : Nat) (c : BinEntry) (t : Trig) (d0 : Dev) : Dev × Bool :=
  let d := makeRoom b c 5 (serveWaiting b c d0)
  if hasRoom c (bin d b) 5 && !engineAhead c (bin d b) then
    let q := (bin d b).seq
    (updBin b (fun x => { x with trgOpen := some (t, some q) }) (grant b c 5 1 fBreta d.tb.now q d), true)
  else if c.policy = 2 ∧ !c.paired then (updBin b (fun x => { x with trgOpen := some (t, none) }) d, true)
  else (countFull b (updBin b (fun x => { x with trgOpen := none }) d), false)

/-- Open queued triggers, in arrival order, until one is open. -/
def openQueued (b : Nat) (c : BinEntry) : List Trig → Dev → Dev
  | [], d => updBin b (fun x => { x with trgQueue := [] }) d
  | t :: q, d =>
    let (d1, opened) := openTrig b c t d
    if opened then updBin b (fun x => { x with trgQueue := q }) d1 else openQueued b c q d1

/-- Coalesce an occurrence into the last queued trigger (R317). -/
def coalesceLast : List Trig → List Trig
  | [] => []
  | [t] => [{ t with coalesced := satInc t.coalesced }]
  | t :: q => t :: coalesceLast q

/-- A bin trigger arrives (R316, R317). -/
def trigDeliver (b s : Nat) (d : Dev) : Dev :=
  match binCfg? d b with
  | none => d
  | some c =>
    let x := bin d b
    let t : Trig := { time := d.tb.now, src := BitVec.ofNat 11 s, coalesced := 0, tick := d.tb.tick, levels := laneLevels d }
    if x.trgOpen.isNone then (openTrig b c t d).1
    else if x.trgQueue.length < 4 then updBin b (fun x => { x with trgQueue := x.trgQueue ++ [t] }) d
    else updBin b (fun x => { x with trgQueue := coalesceLast x.trgQueue, coalesced := satInc x.coalesced }) d

/-- The payload of a trigger record (R316). -/
def trigPayload (t : Trig) : List Byte :=
  leBytes 8 t.time.toNat ++ leBytes 4 (t.src.toNat + t.coalesced.toNat * 65536) ++ leBytes 4 t.tick.toNat ++ leBytes 8 t.levels.toNat

/-- The open trigger record is written and committed, or granted when it waited for room; then the next queued trigger
opens (R316, R317). -/
def triggerRecord (b : Nat) (d : Dev) : Dev :=
  match binCfg? d b with
  | none => d
  | some c =>
    match (bin d b).trgOpen with
    | none => d
    | some (_, none) => serveWaiting b c d
    | some (t, some q) =>
      let d1 := match (bin d b).openRecs.find? fun r => r.seq == q with
        | some r =>
          commitRec b c { r with cursor := 40 } (wrCellar (c.base.toNat + r.off + 16) (trigPayload t) d)
        | none => d
      openQueued b c (bin d1 b).trgQueue (updBin b (fun x => { x with trgOpen := none }) d1)

/-! ### ECC and repair (R324 to R328) -/

/-- Change Cellar bank `k`. -/
def updBank (k : Nat) (f : Bank → Bank) : Dev → Dev := updCl fun l => { l with banks := upd? l.banks k f }

/-- Add a corrected error to the tracked rows: at most 8, the one with the lowest count gives way (R326). -/
def trackRow (row : BitVec 9) (t : List (BitVec 9 × Byte)) : List (BitVec 9 × Byte) :=
  if t.any (·.1 == row) then t.map fun x => if x.1 = row then (x.1, satInc x.2) else x
  else if t.length < 8 then t ++ [(row, 1)]
  else
    let low := t.foldl (fun m x => min m x.2.toNat) 255
    match t.find? (·.2.toNat == low) with
    | some y => t.map fun x => if x.1 = y.1 then (row, 1) else x
    | none => t

/-- A corrected error at Cellar byte `a`, met `n` clk from now (R324). -/
def cellarCeIn (n a : Nat) (d : Dev) : Dev :=
  let row := BitVec.ofNat 9 (a / 1024)
  raiseIn n 0x608 (updBank (a / 2 ^ 19 % 16) (fun k => { k with ce := satInc k.ce, lastCe := row, track := trackRow row k.track })
    (updCl (fun l => { l with ce := satInc l.ce }) d))

/-- A corrected error at Cellar byte `a`, met now. -/
def cellarCe (a : Nat) (d : Dev) : Dev := cellarCeIn 0 a d

/-- An uncorrectable error at Cellar byte `a`, met `n` clk from now (R325). -/
def cellarUeIn (n a : Nat) (d : Dev) : Dev :=
  raiseIn n 0x609 (updCl (fun l => { l with ue := true, ueAddr := BitVec.ofNat 20 (a / 8) }) d)

/-- An uncorrectable error at Cellar byte `a`, met now. -/
def cellarUe (a : Nat) (d : Dev) : Dev := cellarUeIn 0 a d

/-- The errors that the reads of one command meet, in the order of their addresses, a clk apart (R261, R324, R325; DESIGN CHOICE, log
entry 109): bytes of corrected and of uncorrectable words. -/
def cellarErrors (ce ue : List Nat) (d : Dev) : Dev :=
  let each (f : Nat → Nat → Dev → Dev) (l : List Nat) (d : Dev) : Dev := (l.zipIdx).foldl (fun d x => f x.2 x.1 d) d
  each cellarUeIn ue (each cellarCeIn ce d)

/-- Change the DR block. -/
def updDr (f : Dr → Dr) (d : Dev) : Dev := { d with dr := f d.dr }
/-- The drain freezes on record `q` of bin `b` (R577). Which of its words failed is open (DESIGN CHOICE, log entry 35). -/
def freezeDrain (b : Nat) (q : Word) (d : Dev) : Dev :=
  let (f, d0) := takeFree d
  let a := match binCfg? d b, (bin d b).recs.find? (·.seq == q) with
    | some c, some x => c.base.toNat + x.off + 8 * (f.toNat % max 1 x.len)
    | _, _ => 0
  freezeRecord 0x24 0x40 false false b q.toNat
    (updDr (fun x => { x with frozen := true, frzBin := BitVec.ofNat 8 b, frzSeq := q, bad := some (b, q), pass := none, again := none })
      (cellarUe a d0))

/-- A repair of a row is requested (R326 to R328): started, queued behind the running one, or refused without a spare. -/
def repairRequest (bank : Nat) (row : BitVec 9) : Dev → Dev :=
  updBank bank fun k =>
    if k.sparesUsed = 32 then { k with nospare := true }
    else match k.repairing with
      | some _ => { k with repairQueue := k.repairQueue ++ [row] }
      | none => { k with repairing := some row, repRow := row }

/-- The copy of a row ends and the row is switched to its spare (R327); the next waiting repair starts. `ce` and `ue` are the words of
the row, 0 to 127, in which the copy's reads met a corrected or an uncorrectable error (R324, R325). -/
def repairSwitch (bank : Nat) (ce ue : List (BitVec 7)) (d : Dev) : Dev :=
  if !d.sys.fclkOn then d else
  match (at? d.cl.banks bank {}).repairing with
  | none => d
  | some row =>
    let at' (w : BitVec 7) : Nat := bank * 2 ^ 19 + row.toNat * 1024 + 8 * w.toNat
    raise 0x60A (updBank bank (fun k =>
      let k1 := { k with repairing := none, sparesUsed := if k.sparesUsed.toNat < 32 then k.sparesUsed + 1 else k.sparesUsed }
      match k1.repairQueue with
      | [] => k1
      | r :: q => if k1.sparesUsed = 32 then { k1 with repairQueue := [], nospare := true }
                  else { k1 with repairQueue := q, repairing := some r, repRow := r }) (cellarErrors (ce.map at') (ue.map at') d))

/-! ### Seal unit (R318 to R321) -/

/-- The seal key of a bin. -/
def sealKeyOf (d : Dev) (b : Nat) : List Byte := ((d.cfg.sealKeys.find? (·.bin.toNat == b)).map (·.key)).getD []

/-- The first chain value of a bin (R318). -/
def chainStart (d : Dev) (build : DWord) (b : Nat) : List Byte :=
  hmacSha256 (sealKeyOf d b) (leBytes 8 b ++ leBytes 8 build.toNat)

/-- The delivered form of a record (R305). -/
def delivered (c : BinEntry) (r : Rec) (d : Dev) : List Byte :=
  let a := c.base.toNat + r.off
  let w := hdrAt d a
  if bit w 34 then leBytes 8 ((w.toNat % 2 ^ 48) + 2 * 2 ^ 48) ++ rdBytes d.cl.mem (a + 8) 8
  else rdBytes d.cl.mem a (8 * r.len)

/-- Seal the record with sequence number `q` of bin `b` (R318). Sealing a tag asks for no further tag. -/
def sealRec (b : Nat) (c : BinEntry) (r : Rec) (d : Dev) : Dev :=
  let a := c.base.toNat + r.off
  let d1 := hdrFlags a fSealed 0 d
  let s := hmacSha256 (sealKeyOf d b) ((bin d b).chain ++ delivered c r d1)
  let tag := bit (hdrAt d a) 39 && fld (hdrAt d a) 40 8 == 2
  updBin b (fun x => { x with
    chain := s, sealedSince := x.sealedSince || !tag
    recs := x.recs.map fun y => if y.seq = r.seq ∧ y.st = .released then { y with st := .sealed } else y }) d1

/-- The seal unit takes the oldest released record of the SEALED bins (R319); an uncorrectable error freezes it (R321). -/
def sealRecord (ecc : SealEcc) (d : Dev) : Dev :=
  if d.cl.sealFrozen ∨ !d.sys.fclkOn then d else
  match d.cl.sealQueue with
  | [] => d
  | (b, q) :: rest =>
    let frz (cause : Nat) (d : Dev) : Dev :=
      freezeRecord 0x25 cause false false b q.toNat (updCl (fun l => { l with sealFrozen := true }) d)
    match ecc with
    | .key => frz 0x41 d
    | .ue a => frz 0x40 (cellarUe a.toNat d)
    | e =>
      let d0 := match e with | .ce a => cellarCe a.toNat d | _ => d
      let d1 := updCl (fun l => { l with sealQueue := rest }) d0
      match binCfg? d b, (bin d b).recs.find? fun r => r.seq == q && r.st == .released with
      | some c, some r => sealRec b c r d1
      | _, _ => d1

/-- A seal tag is requested in a SEALED bin that has sealed records since its last tag (R320). -/
def sealTag (d : Dev) (x : Nat × BinEntry) : Dev :=
  let (b, c) := x
  if !c.sealed ∨ !(bin d b).sealedSince ∨ d.cl.sealFrozen then d else
  let d1 := makeRoom b c 6 (serveWaiting b c d)
  if !hasRoom c (bin d1 b) 6 || engineAhead c (bin d1 b) then d1 else
  let q := (bin d1 b).seq
  let s := (bin d1 b).chain
  let d2 := grant b c 6 2 fBreta d1.tb.now q d1
  match (bin d2 b).openRecs.find? fun r => r.seq == q with
  | none => d2
  | some r =>
    updCl (fun l => { l with tags := satInc l.tags })
      (updBin b (fun x => { x with sealedSince := false })
        (commitRec b c { r with cursor := 48 } (wrCellar (c.base.toNat + r.off + 16) s d2)))

/-- All seal tags of a boundary, in bin order. -/
def sealTags (d : Dev) : Dev := d.cfg.bins.foldl sealTag d

/-! ### Steward ports (R310 to R312) -/

/-- The core may request in this bin: it owns it and, when it is SEALED, runs in the compartment of its seal key. -/
def coreMay (d : Dev) (c b : Nat) (e : BinEntry) (comp : Byte) : Bool :=
  coreOwns c e && (!e.sealed || (d.cfg.sealKeys.any fun k => k.bin.toNat == b && k.compartment == comp))

/-- Withdraw the waiting requests that satisfy `p`. -/
def withdraw (p : Waiter → Bool) : Dev → Dev :=
  updCl fun c => { c with bins := c.bins.map fun x => { x with waiting := x.waiting.filter fun w => !p w } }

/-- The request comes from the port set of core `c` at level `l`. -/
def Waiter.ofSet (c l : Fin 4) : Waiter → Bool
  | .steward c' l' _ _ => c' == c && l' == l
  | .engine _ _ => false

/-- CL_SREQ (R310): the new request cancels the one of its set that waits, and those of other sets that wait are served before it
(R301). The second result is a store error. -/
def portRequest (c l : Fin 4) (comp : Byte) (v : Word) (d0 : Dev) : Dev × Bool :=
  let b := fld v 0 8
  let len := fld v 16 16
  let d := withdraw (Waiter.ofSet c l) d0
  match binCfg? d b with
  | none => (d, true)
  | some e =>
    if len = 0 ∨ !coreMay d c b e comp then (d, true) else
    let bad (r : BitVec 3) (d : Dev) : Dev := updPort c l (fun p => { p with result := r, resp := badHandle b }) d
    if e.maxrec.toNat < len then (bad 3 (updBin b (fun x => { x with tooBig := satInc x.tooBig }) d), false) else
    let L := max 2 len
    let d1 := makeRoom b e L (serveWaiting b e d)
    if hasRoom e (bin d1 b) L then
      let q := (bin d1 b).seq
      let d2 := grant b e L (fld v 8 8) 0 d1.tb.now q d1
      match (bin d2 b).openRecs.find? fun r => r.seq == q with
      | some r => (updPort c l (fun p => { p with result := 1, resp := handleOf b r }) d2, false)
      | none => (d2, false)
    else if e.policy = 2 then
      (bad 4 (updBin b (fun x => { x with waiting := x.waiting ++ [.steward c l (bf v 8 8) (bf v 16 16)] }) d1), false)
    else (bad 2 (countFull b d1), false)

/-- Operations enter the write queue of a port set (R311). -/
def setIssue (c l : Fin 4) (xs : List PortWr) (d : Dev) : Dev :=
  updPort c l (fun p => { p with
    queue := p.queue ++ xs
    wait := match p.queue, xs with | [], x :: _ => portGap d (32 + 4 * c + l) d.clk x | _, _ => p.wait }) d

/-- A store to a port register finds the 16-entry queue of its set full: clk pass until its oldest entry is written (R311). -/
def setRoom (c l : Fin 4) (d : Dev) : Dev :=
  let p := d.cl.ports[c][l]
  if 16 ≤ p.queue.length then pass p.wait d else d

/-- CL_SAPPEND, CL_SCOMMIT and CL_SVOID (R311). The second result is a store error. -/
def portOp (c l : Fin 4) (h : Word) (f : (List PortWr → Dev → Dev) → Nat → BinEntry → Rec → Dev → Dev) (d0 : Dev) : Dev × Bool :=
  let d := setRoom c l d0
  match resolve (coreOwns c) h d with
  | .invalid => (updPort c l (fun p => { p with discard := satInc p.discard }) d, false)
  | .late => (updPort c l (fun p => { p with late := satInc p.late }) d, false)
  | .held b e r => (f (setIssue c l) b e r d, false)
  | .other => (d, true)

/-! ### Forwarded records of workers (R313, R314) and the peek window (R322) -/

/-- The byte the peek window returns for Cellar byte `a`. -/
def peekByte (d : Dev) (a : Nat) : Byte :=
  let inPeekBin := d.cfg.bins.any fun x => x.2.peek && decide (x.2.base.toNat ≤ a) && decide (a < x.2.base.toNat + x.2.size.toNat)
  if d.cl.peekEn && (inPeekBin || !d.committed) && (at? d.cl.banks (a / 2 ^ 19) {}).pwr then rd8 d.cl.mem a else 0

/-- Cellar byte `a` is payload of a record being written that no append has placed yet (R302). -/
def notAppended (d : Dev) (a : Nat) : Bool :=
  d.cfg.bins.any fun x => (bin d x.1).recs.any fun r => (r.st == .opened || r.st == .closing) &&
    decide (x.2.base.toNat + r.off + r.written ≤ a) && decide (a < x.2.base.toNat + r.off + 8 * r.len)

/-- The `n` bytes a reader of the Cellar gets from byte `a` on: payload not yet appended reads, word by word, as the bytes an earlier
record left there or as zeros (R302, R323); a free value says which (DESIGN CHOICE, log entry 54). `old` is the choice for the word
that byte `a` continues. -/
def cellarWords (a : Nat) (old : Bool) : Nat → Dev → List Byte × Dev
  | 0, d => ([], d)
  | n + 1, d =>
    if notAppended d a then
      let (f, d1) := takeFree d
      let keep := if a % 8 = 0 then bit f 0 else old
      let d2 := if a % 8 = 0 then d1 else d
      let (bs, d3) := cellarWords (a + 1) keep n d2
      ((if keep then rd8 d.cl.mem a else 0) :: bs, d3)
    else
      let (bs, d1) := cellarWords (a + 1) old n d
      (rd8 d.cl.mem a :: bs, d1)

/-- The `n` bytes a reader of the Cellar gets from byte `a` on (R302). -/
def cellarBytes (a n : Nat) (d : Dev) : List Byte × Dev :=
  let (f, d1) := takeFree d
  if (List.range n).any fun i => notAppended d (a + i) then cellarWords a (bit f 0) n d1 else (rdBytes d.cl.mem a n, d)

/-- A bin as a full commit, or the partial BINS that adds it, leaves it (R289, R318). -/
def newBin (d : Dev) (build : DWord) (b : Nat) (c : BinEntry) : Bin :=
  { chain := if c.sealed then chainStart d build b else [] }

end Sys2Proof.Machine
end

