-- ==== Sys2Proof/Machine/Flags.lean ====
section
/-!
DEFINITION. Sys2Proof/Machine/Flags.lean: the engine ALU with its flags (R139) and the CRC unit (R157, R158).
-/
namespace Sys2Proof.Machine

/-- What an ALU operation does: the register result, if any, and the datapath with its flags. -/
structure AluOut where
  res : Option Word
  dp : Dp

/-- Flag class L: Z and N from the result, V cleared, C unchanged. -/
def flagsL (r : Word) (p : Dp) : Dp := { p with z := r == 0, n := bit r 31, v := false }

/-- Flag class A for a sum with carry-in. -/
def flagsAdd (a b : Word) (ci : Bool) (p : Dp) : Word × Dp :=
  let s := a.toNat + b.toNat + b2n ci
  let r := BitVec.ofNat 32 s
  (r, { p with z := r == 0, n := bit r 31, c := 2 ^ 32 ≤ s, v := bit a 31 == bit b 31 && bit r 31 != bit a 31 })

/-- Flag class A for a difference with borrow-in: C is 1 when nothing is borrowed. -/
def flagsSub (a b : Word) (bi : Bool) (p : Dp) : Word × Dp :=
  let r := a - b - BitVec.ofNat 32 (b2n bi)
  (r, { p with z := r == 0, n := bit r 31, c := b.toNat + b2n bi ≤ a.toNat, v := bit a 31 != bit b 31 && bit r 31 != bit a 31 })

/-- Number of 1 bits. -/
def popCount (v : Word) : Nat := ((List.range 32).filter (bit v ·)).length

/-- Index of the highest 1 bit, or 32. -/
def highestBit (v : Word) : Nat := if v = 0 then 32 else Nat.log2 v.toNat

/-- The bits of a field of width `w` as a mask. -/
def maskW (w : Nat) : Word := BitVec.ofNat 32 (2 ^ w - 1)

/-- CRC width W of R157. -/
def crcWidth (p : Dp) : Nat := fld p.crcCfg 0 5 + 1

/-- Feed one bit (R158). -/
def crcFeed (p : Dp) (b : Bool) : Dp :=
  let w := crcWidth p
  let f := bit p.crc (w - 1) != b
  let s := (p.crc <<< 1) &&& maskW w
  { p with crc := if f then (s ^^^ p.crcPoly) &&& maskW w else s }

/-- Feed a list of bits in order. -/
def crcFeedBits (bs : List Bool) (p : Dp) : Dp := bs.foldl crcFeed p

/-- The bits of an `n`-bit field in feeding order: MSB first, or bit 0 first with REFIN (R158). -/
def crcField (p : Dp) (v : Word) (n : Nat) : List Bool :=
  let up := (List.range n).map (bit v ·)
  if bit p.crcCfg 8 then up else up.reverse

/-- The CRC register as RDCRC shows it: its W bits, reflected when REFOUT is 1, 0 above (R139). -/
def crcRead (p : Dp) : Word :=
  if bit p.crcCfg 9 then BitVec.ofNat 32 (reverseBits (crcWidth p) p.crc.toNat) else p.crc &&& maskW (crcWidth p)

/-- CRC_GOOD: the W-bit register equals RESIDUE masked to W bits (R158). -/
def crcGood (p : Dp) : Bool := p.crc &&& maskW (crcWidth p) == p.crcRes &&& maskW (crcWidth p)

/-- The ALU (R139). `old` is G[DST], `now` is TB_NOW of the executing clk, `bsel` is ALUOP[5]. -/
def alu (code : Nat) (bsel : Bool) (a b old : Word) (now : DWord) (p : Dp) : AluOut :=
  let l (r : Word) : AluOut := { res := some r, dp := flagsL r p }
  let pos := fld b 0 5
  let w := fld b 5 5 + 1
  match code with
  | 0x01 => { res := some b, dp := p }
  | 0x02 => let (r, q) := flagsAdd a b false p; { res := some r, dp := q }
  | 0x03 => let (r, q) := flagsAdd a b p.c p; { res := some r, dp := q }
  | 0x04 => let (r, q) := flagsSub a b false p; { res := some r, dp := q }
  | 0x05 => let (r, q) := flagsSub a b (!p.c) p; { res := some r, dp := q }
  | 0x06 =>
    let lim := decide (2 ^ 32 ≤ a.toNat + b.toNat)
    let r := if lim then BitVec.allOnes 32 else a + b
    { res := some r, dp := { flagsL r p with c := lim } }
  | 0x07 =>
    let lim := decide (a.toNat < b.toNat)
    let r := if lim then 0 else a - b
    { res := some r, dp := { flagsL r p with c := lim } }
  | 0x08 => l (a &&& b)
  | 0x09 => l (a ||| b)
  | 0x0A => l (a ^^^ b)
  | 0x0B => l (a &&& ~~~b)
  | 0x0C =>
    let (_, q) := flagsSub a b false p
    { res := none, dp := { q with cmpEq := a == b, cmpLt := a.slt b, cmpLtu := a.ult b } }
  | 0x0D => { res := none, dp := flagsL (a &&& b) p }
  | 0x0E => l (if a.slt b then a else b)
  | 0x0F => l (if a.slt b then b else a)
  | 0x10 => l (if a.ult b then a else b)
  | 0x11 => l (if a.ult b then b else a)
  | 0x12 =>
    let ge := decide (b.toNat ≤ a.toNat)
    let r := if ge then a - b else a
    { res := some r, dp := { flagsL r p with c := ge } }
  | 0x13 => l (BitVec.ofNat 32 (popCount b))
  | 0x14 => { res := some (BitVec.ofNat 32 (highestBit b)), dp := { p with z := b == 0, n := false, v := false } }
  | 0x15 => l ((a >>> pos) &&& maskW w)
  | 0x16 => l (mergeBits (maskW w <<< pos) old (a <<< pos))
  | 0x17 => l (a <<< pos)
  | 0x18 => l (a >>> pos)
  | 0x19 => l (a.sshiftRight pos)
  | 0x1A => { res := some (lo32 p.sh), dp := p }
  | 0x1B => { res := some (hi32 p.sh), dp := p }
  | 0x1C => { res := some (pack [(0, p.sc.toNat), (8, p.target.toNat)]), dp := p }
  | 0x1D => { res := some (crcRead p), dp := p }
  | 0x1E => { res := some (p.btCount.zeroExtend 32), dp := p }
  | 0x1F => if bsel then { res := some p.tbLatch, dp := p } else { res := some (lo32 now), dp := { p with tbLatch := hi32 now } }
  | _ => { res := none, dp := p }

end Sys2Proof.Machine
end

