-- ==== Sys2Proof/Machine/Lanes.lean ====
section
/-!
DEFINITION. Sys2Proof/Machine/Lanes.lean: lanes, bit timing, output levels and paired-input checkers (06_lanes.md).
-/
namespace Sys2Proof.Machine

/-! ### Parts of a lane -/

/-- The lane's input parts run: mode IN or IN_OUT_OD (R197). -/
def laneIn (d : Dev) (n : Nat) : Bool := (laneCfg d n).mode == 1 || (laneCfg d n).mode == 5

/-- The deserialiser and the stamp FIFO run: an input mode and an owner. -/
def laneDes (d : Dev) (n : Nat) : Bool := laneIn d n && (laneOwner d n).isSome

/-! ### Errors (R216) -/

/-- Set an LN_ERR bit; going from 0 to 1 raises source 0x003 + 4n. -/
def laneErr (n i : Nat) (d : Dev) : Dev :=
  let was := bit (lane d n).err i
  raiseNextIf (!was) (0x003 + 4 * n) (updLane n (fun l => { l with err := setBit l.err i true }) d)

/-- A bit-time arrives at lane `n`'s FIFO (R210). -/
def pushBit (n : Nat) (b : Bool) (d : Dev) : Dev :=
  if (lane d n).fifo.length < 512 then updLane n (fun l => { l with fifo := l.fifo ++ [b] }) d
  else laneErr n 0 (updLane n (fun l => { l with fifoDrop := satInc l.fifoDrop }) d)

/-- One sample of lane `n`: its filtered level, or in gang mode the four levels in order (R206, R209). -/
def sampleLane (n : Nat) (d : Dev) : Dev :=
  let lanes := if (lane d n).timing.gang then [n, n + 1, n + 2, n + 3] else [n]
  lanes.foldl (fun d m => pushBit n (lane d m).filt d) d

/-! ### Timing sets (R205, R207) -/

/-- PHASE of a set, in clk. -/
def LnTiming.phase (t : LnTiming) (b : Bool) : Nat := if b then t.phaseB.toNat else t.phaseA.toNat
/-- SJW of a set, in units of 16 clk. -/
def LnTiming.sjw (t : LnTiming) (b : Bool) : Nat := if b then t.sjwB.toNat else t.sjwA.toNat

/-- The level of the owner's event output SEL_OUT, a pulse left out: it lasts one clk (R155, R226). -/
def selLevel (d : Dev) (n : Nat) : Bool :=
  match laneOwner d n with
  | some (e, _) => bit (engine d e).dp.emitLvl (lane d n).timing.selOut.toNat
  | none => false

/-- The set that SETSEL chooses (R226). -/
def chosenSet (d : Dev) (n : Nat) : Bool :=
  match (lane d n).timing.setSel.toNat with
  | 0 => false
  | 1 => true
  | _ => selLevel d n

/-- The set a lane will use when the changes to come have taken effect. -/
def Lane.setToCome (l : Lane) : Bool := match l.setPend.getLast? with | some x => x.2 | none => l.setB

/-- A lane that selects its set by event output follows it two clk later (R207). -/
def switchSet (n : Nat) (d : Dev) : Dev :=
  let b := selLevel d n
  updLane n (fun l => if l.timing.setSel.toNat < 2 ∨ b = l.setToCome then l else { l with setPend := l.setPend ++ [(d.clk + 2, b)] }) d

/-- A pulse of event output `j` of engine `e`, which is high for one clk and low after it: the lanes that it selects for use set B for
one clk (R155, R207). -/
def pulseSet (e j n : Nat) (d : Dev) : Dev :=
  let l := lane d n
  if 2 ≤ l.timing.setSel.toNat ∧ l.timing.selOut.toNat = j ∧ (laneOwner d n).any (fun o => o.1 == e) then
    updLane n (fun l => { l with setPend := l.setPend ++ [(d.clk + 2, true), (d.clk + 3, false)] }) d
  else d

/-- Every lane owned by engine `e` follows the engine's event outputs (R207). -/
def switchSets (e : Nat) (d : Dev) : Dev :=
  (List.range 64).foldl (fun d n =>
    match laneOwner d n with
    | some (o, _) => if o = e then switchSet n d else d
    | none => d) d

/-- When the next TIMED sample falls, in 1/16 clk, with the changes of set that come before it (R205, R207). -/
def Lane.nextTn (l : Lane) : List (Nat × Bool) → Nat
  | [] => l.tn
  | x :: r => if 16 * x.1 ≤ l.tn then (l.changeSet x).nextTn r else l.tn

/-- The clk of the next TIMED sample (R205). -/
def Lane.sampleClk (l : Lane) : Nat := max (l.nextTn l.setPend / 16) l.lateAt

/-- The schedule after a TIMED sample. -/
def Lane.advance (l : Lane) : Lane := { l with lastSample := l.tn, tn := l.tn + l.timing.period l.setB, lateAt := 0 }

/-- Resynchronisation of a TIMED schedule at an edge in clk `te` (R205): a sample moved into or before clk `te` is taken late. -/
def resync (te : Nat) (l : Lane) : Lane :=
  let tt := 16 * (te + l.timing.phase l.setB)
  let lim := 256 * l.timing.sjw l.setB
  let tn := if lim = 0 then tt
    else if l.tn ≤ tt then l.tn + min (tt - l.tn) lim else l.tn - min (l.tn - tt) lim
  { l with tn := tn, lateAt := if tn / 16 ≤ te then te + 1 else 0 }

/-- A sample of lane `n` in this clk schedules the next bit boundary of the TIMED lanes that take it as reference, PERIOD / 16 − PHASE
clk later by their own set (06_lanes.md, "Output path"). -/
def refBounds (n : Nat) (d : Dev) : Dev :=
  (List.range 64).foldl (fun d m =>
    let t := (lane d m).timing
    if t.src = 1 ∧ t.refEn ∧ t.refLane.toNat = n then
      updLane m (fun l => { l with
        bounds := l.bounds.filter (16 * d.clk ≤ ·) ++ [16 * d.clk + t.period l.setB - 16 * t.phase l.setB] }) d
    else d) d

/-- The next sample of lane `n`: a TIMED one in the clk of tn, or late, or owed in the clk of an edge (R205, R206); a CLOCKED one that
SKEW has put off (R208). -/
def laneSample (n : Nat) (d : Dev) : Dev :=
  let l := lane d n
  if !laneDes d n then d
  else if l.owed then refBounds n (sampleLane n (updLane n (fun l => { l with owed := false }) d))
  else if l.timing.src = 1 then
    refBounds n (updLane n Lane.advance (sampleLane n (passTo l.sampleClk d)))
  else match l.timing.src, l.due with
    | 2, c :: _ => sampleLane n (updLane n (fun l => { l with due := l.due.tail }) (passTo c d))
    | _, _ => d

/-- A CLOCKED lane meets an edge of its reference that CLKEDGE selects: it samples SKEW clk later, but not within 6 clk of its last
sample (R208). -/
def clockedSample (m : Nat) (d : Dev) : Dev :=
  let l := lane d m
  let c := d.clk + l.timing.skew.toNat
  match l.lastClocked with
  | some c0 => if c - c0 < 6 then laneErr m 3 d else take m c d
  | none => take m c d
where
  take (m c : Nat) (d : Dev) : Dev :=
    if c = d.clk then sampleLane m (updLane m (fun l => { l with lastClocked := some c }) d)
    else updLane m (fun l => { l with lastClocked := some c, due := l.due ++ [c] }) d

/-- An edge of lane `n` as a reference (R208): every CLOCKED lane that names it judges the phase that ends, samples, and changes its
output bit SKEW clk later, as CLKEDGE selects (R670). -/
def refEdge (n : Nat) (rising : Bool) (d : Dev) : Dev :=
  let short := (lane d n).lastEdge.any fun c => d.clk - c < 6
  let d1 := (List.range 64).foldl (fun d m =>
    let t := (lane d m).timing
    if t.src = 2 ∧ t.refLane.toNat = n ∧ (laneCfg d m).mode ≠ 0 then
      let d1 := if short then laneErr m 3 d else d
      if bit t.clkEdge (if rising then 0 else 1) then
        let d2 := if laneDes d1 m then clockedSample m d1 else d1
        updLane m (fun l => { l with bounds := l.bounds.filter (16 * d.clk ≤ ·) ++ [16 * (d.clk + t.skew.toNat)] }) d2
      else d1
    else d) d
  updLane n (fun l => { l with lastEdge := some d.clk }) d1

/-! ### Input path (R200 to R203, R671) -/

/-- The synchroniser of lane `n` captures a level at the ball in this clk (R200, R668). -/
def lanePin (n : Nat) (level : Bool) (d : Dev) : Dev := updLane n (fun l => { l.capture level d.clk with readback := none }) d

/-- The first clk, from `c` on, in which the synchronised level has differed from the filtered level for F + 1 clk (R200), none when it
does not come with the levels captured so far. -/
def Lane.filterDue (l : Lane) (F c : Nat) : Option Nat :=
  let old := max c (max l.syncPrev l.onClk + 1 + F)
  if l.syncOld ≠ l.filt ∧ old ≤ l.syncClk then some old
  else if l.sync ≠ l.filt then some (max c (max l.syncClk l.onClk + 1 + F))
  else none

/-- The filter has seen the synchronised level for F + 1 clk: the filtered level changes (R200 to R203). -/
def laneEdge (n : Nat) (d0 : Dev) : Dev :=
  let c := laneCfg d0 n
  if c.mode = 0 ∨ !laneGood d0 n ∨ !(lane d0 n).settled then d0 else
  match (lane d0 n).filterDue c.filter.toNat d0.clk with
  | none => d0
  | some x => edge n c (passTo x d0)
where
  edge (n : Nat) (c : LaneEntry) (d : Dev) : Dev :=
    if (lane d n).synced d.clk = (lane d n).filt then d else
    let up := (lane d n).synced d.clk
    -- a TIMED sample due in this clk takes the new level, and the resynchronisation follows it (R206)
    let timed := (lane d n).timing.src = 1 ∧ laneDes d n
    let d1 := updLane n (fun l => { (if timed ∧ l.sampleClk = d.clk ∧ !l.owed then { l.advance with owed := true } else l) with filt := up }) d
    -- the RISE and FALL flags of every binding slot (R121)
    let d2 := (laneBindings d1 n).foldl (fun d (e, s) =>
      updEp e (fun p => if up then { p with rise := setBit p.rise s true } else { p with fall := setBit p.fall s true }) d) d1
    let d3 := raiseNext (if up then 0x000 + 4 * n else 0x001 + 4 * n) d2
    -- stamp (R202, R203)
    let d4 := if bit c.stamp (if up then 0 else 1) ∧ laneDes d3 n then
        let k := (lane d3 n).stamps.length
        if k < 16 then
          raiseNextIf (k == 7) (0x002 + 4 * n)
            (updLane n (fun l => { l with stamps := l.stamps ++ [(d3.tb.now - BitVec.ofNat 64 (c.filter.toNat + 1), up)] }) d3)
        else laneErr n 1 (updLane n (fun l => { l with tsDrop := satInc l.tsDrop }) d3)
      else d3
    -- resynchronisation (R205), and the CLOCKED lanes that take this lane, in mode IN, as reference (R208)
    let t := (lane d4 n).timing
    let d5 := if timed ∧ bit t.resync (if up then 1 else 0) then updLane n (resync d4.clk) d4 else d4
    if c.mode = 1 ∧ t.src ≠ 3 then refEdge n up d5 else d5

/-- A lane that left mode OFF takes its first filtered level without an edge, once the synchronised level has held for F + 1 clk
(R671). -/
def laneFirstLevel (n : Nat) (d : Dev) : Dev :=
  let l := lane d n
  if (laneCfg d n).mode = 0 ∨ !laneGood d n ∨ l.settled then d
  else
    let d1 := passTo (max l.syncClk l.onClk + 1 + (laneCfg d n).filter.toNat) d
    -- a level captured meanwhile begins the count anew
    if d1.clk < max (lane d1 n).syncClk (lane d1 n).onClk + 1 + (laneCfg d n).filter.toNat then d1
    else updLane n (fun l => { l with filt := l.synced d1.clk, settled := true }) d1

/-! ### Output path (R211 to R215, R670) -/

/-- Re-evaluate the clocks generated from lane `r` after a change, and let their edges act (R208, R211). -/
def clkgenEdges (r : Nat) (before : Nat → Bool) (d : Dev) : Dev :=
  (List.range 64).foldl (fun d n =>
    if (lane d n).timing.src = 3 ∧ (lane d n).timing.refLane.toNat = r ∧ clkgenLevel d n ≠ before n
    then refEdge n (clkgenLevel d n) d else d) d

/-- The owner gives bits to the serialiser in clk `c`: an idle one may start to send in the clk after (R670). -/
def Lane.give (bs : List Bool) (c : Nat) (l : Lane) : Lane :=
  { l with ser := l.ser ++ bs, bitEnd := if l.ser.isEmpty && l.cur.isEmpty then 16 * (c + 1) else l.bitEnd }

/-- When the bit that lane `n` sends ends and the next starts, in 1/16 clk, none while no reference has said when (R670). A lane sends
nothing under SRC NONE or CLKGEN. -/
def nextBit (d : Dev) (n : Nat) : Option Nat :=
  let l := lane d n
  let t := l.timing
  match t.src with
  | 1 =>
    if t.refEn ∧ (lane d t.refLane.toNat).timing.src = 1 then
      l.bounds.find? fun x => !l.cur.isEmpty || l.bitEnd ≤ x
    else some l.bitEnd
  | 2 => l.bounds.find? fun x => !l.cur.isEmpty || l.bitEnd + 16 * t.skew.toNat ≤ x
  | _ => none

/-- A bit-time of lane `n`'s serialiser ends and the next starts (R670, R209, R212). -/
def serialiserBit (n : Nat) (d0 : Dev) : Dev :=
  match nextBit d0 n with
  | none => d0
  | some x =>
    if (lane d0 n).cur = [] ∧ (lane d0 n).ser = [] then d0 else
    let d := passTo (x / 16) d0
    let before := clkgenLevel d
    let l := lane d n
    let w := if l.timing.gang then 4 else 1
    let nxt := l.ser.take w
    let d1 := updLane n (fun l => { l with
      cur := nxt, ser := l.ser.drop w, sentCont := l.sentCont || !nxt.isEmpty
      bitEnd := x + l.timing.period l.setB, bounds := l.bounds.filter (x < ·) }) d
    let d2 := if l.timing.cont ∧ l.sentCont ∧ l.cur ≠ [] ∧ nxt = [] then laneErr n 2 d1 else d1
    let d3 := (List.range 64).foldl (fun d m =>
      if (lane d m).timing.src = 3 ∧ (lane d m).timing.refLane.toNat = n then updLane m (fun l => { l with half2 := false }) d else d) d2
    clkgenEdges n before d3

/-- Halfway through a REFLANE bit-time a CLKGEN lane changes to its second half (R211). -/
def clkgenEdge (n : Nat) (d : Dev) : Dev :=
  let l := lane d n
  let r := lane d l.timing.refLane.toNat
  if l.timing.src ≠ 3 ∨ r.cur = [] ∨ l.half2 then d else
  let p := r.timing.period r.setB
  let d1 := if r.timing.src = 1 then passTo ((r.bitEnd - p) / 16 + p / 16 / 2) d else d
  let before := clkgenLevel d1
  let d2 := updLane n (fun l => { l with half2 := true }) d1
  if clkgenLevel d2 n ≠ before n then refEdge n (clkgenLevel d2 n) d2 else d2

/-- A router output action or its like on LN_OUT.LVL (R214): 0 drive low, 1 drive high, 2 toggle, 3 pulse, which lasts PULSE_LEN clk,
0 counting as 1. -/
def laneAction (n act : Nat) (d : Dev) : Dev :=
  let m := (laneCfg d n).mode
  if m = 0 ∨ m = 1 then d else
  updLane n (fun l => match act with
    | 0 => { l with lvl := false }
    | 1 => { l with lvl := true }
    | 2 => { l with lvl := !l.lvl }
    | _ => { l with pulse := some !l.lvl, pulseEnd := d.clk + max 1 l.pulseLen.toNat }) d

/-- A lane output pulse ends after its last clk (R214). -/
def lanePulseEnd (n : Nat) (d : Dev) : Dev :=
  if (lane d n).pulse.isNone then d else updLane n (fun l => { l with pulse := none }) (passTo (lane d n).pulseEnd d)

/-- The first clk in which an OUT_PP lane that drives `b` can set CONTENTION (R215): the 48 clk after a change of the driven level do
not count, and the readback differs in that clk and in the 8 before it. -/
def contentionAt (d : Dev) (n : Nat) (b : Bool) : Nat :=
  let l := lane d n
  let drv := if l.drv = some b then l.drvClk else d.clk + 1
  max (l.syncSince d.clk + 1) (drv + 49) + 8

/-- An OUT_PP lane reads back a level other than the one it drives for more than 8 clk (R215). -/
def contention (n : Nat) (d0 : Dev) : Dev :=
  match laneDrive d0 n with
  | some b =>
    if (laneCfg d0 n).mode ≠ 2 ∨ (lane d0 n).synced d0.clk = b then d0 else
    let d := passTo (contentionAt d0 n b) d0
    if laneDrive d n = some b ∧ (lane d n).synced d.clk ≠ b ∧ contentionAt d n b ≤ d.clk then laneErr n 5 d else d
  | none => d0

/-! ### Timing registers (R226, R227) -/

/-- LN_TIMING as a word. -/
def timingWord (t : LnTiming) : Word :=
  pack [(29, b2n t.clkFirst), (28, b2n t.clkIdle), (24, t.skew.toNat), (22, b2n t.refEn), (16, t.refLane.toNat), (12, t.selOut.toNat),
    (10, t.setSel.toNat), (8, b2n t.cont), (7, b2n t.gang), (5, t.clkEdge.toNat), (3, t.resync.toNat), (0, t.src.toNat)]

/-- A write of LN_TIMING as it is staged over `old`, what waits or else what stands: a field that is given a reserved encoding keeps its
value (R12, R208, R209, R226). -/
def timingStage (n : Nat) (old v : Word) : Word :=
  let keep : Word := (if fld v 10 2 = 3 then 0xC00 else 0) ||| (if bit v 7 ∧ n % 4 ≠ 0 then 0x80 else 0) |||
    (if fld v 5 2 = 0 then 0x60 else 0) ||| (if 4 ≤ fld v 0 3 then 7 else 0)
  mergeBits keep v old

/-- A write of LN_TIMING as it is applied. -/
def timingApply (v : Word) (t : LnTiming) : LnTiming :=
  { t with
    clkFirst := bit v 29, clkIdle := bit v 28, skew := bf v 24 4, refEn := bit v 22, refLane := bf v 16 6
    selOut := bf v 12 4, setSel := bf v 10 2, cont := bit v 8, gang := bit v 7
    clkEdge := bf v 5 2, resync := bf v 3 2, src := bf v 0 3 }

/-- A PERIOD write is in range: 96 to 0x0FFF_FFFF. -/
def periodOk (v : Word) : Bool := 96 ≤ fld v 0 28

/-- Apply the staged timing writes of lane `n` at a boundary: those to a set whose PHASE would not lie below its PERIOD / 16 are
dropped, and a boundary that applies one sets tn (R205, R227). -/
def applyTiming (n : Nat) (d : Dev) : Dev :=
  let l := lane d n
  let s := l.staged
  if s = {} then d else
  let t0 := match s.timing with | some v => timingApply v l.timing | none => l.timing
  let pa : BitVec 28 := match s.perA with | some v => bf v 0 28 | none => t0.perA
  let ha : Word := s.phA.getD ((t0.sjwA ++ t0.phaseA : BitVec 32))
  let pb : BitVec 28 := match s.perB with | some v => bf v 0 28 | none => t0.perB
  let hb : Word := s.phB.getD ((t0.sjwB ++ t0.phaseB : BitVec 32))
  let okA := decide (16 * fld ha 0 24 < pa.toNat)
  let okB := decide (16 * fld hb 0 24 < pb.toNat)
  let t1 := if okA then { t0 with perA := pa, phaseA := bf ha 0 24, sjwA := bf ha 24 8 } else t0
  let t2 := if okB then { t1 with perB := pb, phaseB := bf hb 0 24, sjwB := bf hb 24 8 } else t1
  let applied := s.timing.isSome || okA && (s.perA.isSome || s.phA.isSome) || okB && (s.perB.isSome || s.phB.isSome)
  let d1 := updLane n (fun l => { l with timing := t2, staged := {}, sentCont := if s.timing.isSome then false else l.sentCont }) d
  if !applied then d1 else
  let b := chosenSet d1 n
  updLane n (fun l => { l with setB := b, setPend := if 2 ≤ t2.setSel.toNat then l.setPend else [], tn := 16 * (d.clk + t2.phase b)
                               lateAt := 0, owed := false }) d1

/-! ### Supplies (R198, R216, R633) -/

/-- The supply of bank `k` leaves its window. -/
def bankLoss (k : Nat) (d : Dev) : Dev :=
  let was := bit d.bank.good k
  let f := if was then setBit d.bank.fault k true else d.bank.fault
  let d1 := { d with bank := { d.bank with good := setBit d.bank.good k false, fault := f } }
  if was then (List.range 8).foldl (fun d i => if (laneCfg d (8 * k + i)).mode ≠ 0 then laneErr (8 * k + i) 4 d else d) d1 else d1

/-- The supply of bank `k` is inside the window of its configured voltage (R198, R633). -/
def bankReturn (k : Nat) (d : Dev) : Dev :=
  if d.committed ∧ d.cfg.bankVSet ∧ ¬ bit d.bank.good k then
    { d with bank := { d.bank with good := setBit d.bank.good k true }
             lanes := Vector.ofFn fun n : Fin 64 => if n.val / 8 = k then { d.lanes[n] with onClk := d.clk } else d.lanes[n] }
  else d

/-- At the first boundary after the commit that configured the banks, the lanes of a bank without supply set BANK_PWR (R198). -/
def bankCheck (d : Dev) : Dev :=
  if d.bank.fresh = 0 then d else
  let d1 := { d with bank := { d.bank with fresh := 0 } }
  (List.range 64).foldl (fun e n =>
    if bit d.bank.fresh (n / 8) ∧ ¬ bit d.bank.good (n / 8) ∧ (laneCfg d n).mode ≠ 0 then laneErr n 4 e else e) d1

/-! ### Paired-input checkers (R217 to R223) -/

/-- The level pair side presents: the filtered level of the lane, 0 for a lane in mode OFF, inverted as INV selects. -/
def pairSide (d : Dev) (n : Byte) (inv : Bool) : Bool :=
  ((laneCfg d n.toNat).mode != 0 && (lane d n.toNat).filt) != inv

/-- The safe targets the pair would latch now (R220). -/
def safeTargets (d : Dev) (p : Nat) : SafeLatch :=
  let c := at? d.cfg.pairs p {}
  { safeOut := c.safeOut, safeLevel := c.safeLevel, safeLane := c.safeLane, safeLaneLevel := c.safeLaneLevel
    mode := if c.safeLane = 0xFF then 0 else (laneCfg d c.safeLane.toNat).mode }

/-- Pair `p` samples (R217, R218). -/
def pairSample (p : Nat) (d0 : Dev) : Dev :=
  let x := at? d0.pairs p {}
  if !x.run then d0 else
  let d := passTo x.next d0
  let c := at? d.cfg.pairs p {}
  let a := pairSide d c.laneA (bit c.inv 0)
  let b := pairSide d c.laneB (bit c.inv 1)
  let n := if a = b then 0 else satInc x.count
  let trip := a != b && n == c.n && x.count != c.n
  let s := safeTargets d p
  let x1 : Pair := { x with
    count := n, a := a, b := b, next := x.next + 16 * c.ts.toNat
    disc := x.disc || trip
    tripTime := if trip then d.tb.now else x.tripTime
    trips := if trip then satInc x.trips else x.trips
    latch := if trip && !x.disc then some s else x.latch }
  raiseNextIf trip (0x160 + p) { d with pairs := put? d.pairs p x1 }

/-- A write of PC_CTRL (R223): only a Steward store of 1 with SAFE clears. A Steward without SAFE is also counted in ST_DENY as
KIND 3 (R424, DEDUCED, log entry 45). -/
def pairClear (who : Who) (p : Nat) (v : Word) (d : Dev) : Dev :=
  let ok := match who with | .steward _ _ safe _ => safe && bit v 0 | _ => false
  let d1 := match who with
    | .steward c _ false _ => { d with cores := upd? d.cores c fun k => { k with denyKind := 3, denyCount := satInc k.denyCount } }
    | _ => d
  { d1 with pairs := upd? d1.pairs p fun x =>
    if ok then { x with disc := false, count := 0, latch := none } else { x with clrRej := satInc x.clrRej } }

/-- SAFE_OUT`i` is held by a tripped pair: the lowest-numbered one that latched it decides (R220). -/
def safeOutHeld (d : Dev) (i : Nat) : Option Bool :=
  (List.range 16).findSome? fun p =>
    match (at? d.pairs p {}).latch with
    | some s => if bit s.safeOut i then some (bit s.safeLevel i) else none
    | none => none

/-- The level driven on SAFE_OUT`i` (R220, R221). -/
def safeOut (d : Dev) (i : Nat) : Bool :=
  match safeOutHeld d i with
  | some b => b
  | none =>
    if !d.committed then false else
    match (List.range 16).find? fun p => (at? d.cfg.pairs p {}).laneA ≠ 0xFF ∧ bit (at? d.cfg.pairs p {}).safeOut i with
    | some p => !bit (at? d.cfg.pairs p {}).safeLevel i
    | none => false

end Sys2Proof.Machine
end

