-- ==== Sys2Proof/Machine/Operands.lean ====
section
/-!
DEFINITION. Sys2Proof/Machine/Operands.lean: the fields of an engine microword (R104), its illegal encodings (R112, R138) and
the 256 conditions (R119 to R123).
-/
namespace Sys2Proof.Machine

/-- A microword. -/
abbrev MW := BitVec 128

def MW.naddr (w : MW) : BitVec 12 := bf w 116 12
def MW.seqop (w : MW) : Nat := fld w 112 4
def MW.casel (w : MW) : Nat := fld w 104 8
def MW.cbsel (w : MW) : Nat := fld w 96 8
def MW.aluop (w : MW) : Nat := fld w 88 5
def MW.bsel (w : MW) : Bool := bit w 93
def MW.dst (w : MW) : Nat := fld w 84 4
def MW.srca (w : MW) : Nat := fld w 80 4
def MW.srcb (w : MW) : Nat := fld w 76 4
def MW.shop (w : MW) : Nat := fld w 73 3
def MW.shsub (w : MW) : Nat := fld w 70 3
def MW.memop (w : MW) : Nat := fld w 64 6
def MW.emit (w : MW) : Nat := fld w 60 4
def MW.ctlYield (w : MW) : Bool := bit w 59
def MW.ctlSafe (w : MW) : Bool := bit w 58
def MW.ctlPark (w : MW) : Bool := bit w 57
def MW.ctlBreak (w : MW) : Bool := bit w 56
def MW.act0 (w : MW) : Nat := fld w 54 2
def MW.act1 (w : MW) : Nat := fld w 52 2
def MW.lsrc (w : MW) : Bool := bit w 51
def MW.lsel (w : MW) : Bool := bit w 50
def MW.crcop (w : MW) : Nat := fld w 44 4
def MW.aux (w : MW) : BitVec 12 := bf w 32 12
def MW.imm (w : MW) : Word := bf w 0 32
/-- The count n of R140. -/
def MW.count (w : MW) : Nat := fld w 32 6 + 1

/-- The microword at an address of a bank; a word no section wrote is all-zero (R61). -/
def Engine.word (g : Engine) (bank : Bool) (a : BitVec 12) : MW := look 0 (if bank then g.cs1 else g.cs0) a.toNat

/-- The microword at PC of the active bank. -/
def Engine.current (g : Engine) : MW := g.word g.seq.bank g.seq.pc

/-- General register `k`. -/
def Engine.g (e : Engine) (k : Nat) : Word := at? e.dp.g k 0

/-- TICK_ENTRY and REPLANT_ENTRY of the active bank. -/
def Engine.tickEntry (g : Engine) : BitVec 12 := if g.seq.bank then g.seq.entry1 else g.seq.entry0
def Engine.replantEntry (g : Engine) : BitVec 12 := if g.seq.bank then g.seq.rp1 else g.seq.rp0

/-- The ALUOP writes G[DST]. -/
def aluWrites (c : Nat) : Bool := c != 0x00 && c != 0x0C && c != 0x0D

/-- The MEMOP writes G[DST] (R146). -/
def memWrites (m : Nat) : Bool := m == 1 || m == 3 || m == 8 || m == 9 || (0x10 ≤ m && m < 0x30)

/-- The MEMOP code is one of R146. -/
def memValid (m : Nat) : Bool := m ≤ 4 || (8 ≤ m && m ≤ 0x0E) || (0x10 ≤ m && m < 0x30)

/-- The engine owns the lane in slot `s`. -/
def ownsSlot (d : Dev) (e s : Nat) : Bool := (slotLane d e s).any (·.2)

/-- An illegal code (R112, R138). -/
def illegal (d : Dev) (e : Nat) (w : MW) : Bool :=
  0xC ≤ w.seqop || fld w 48 2 ≠ 0 ||
  (w.seqop == 7 && (if w.lsel then w.act1 else w.act0) != 0) ||
  (w.ctlYield && w.ctlPark) ||
  ((w.ctlYield || w.ctlPark) && (w.seqop == 0 || w.seqop == 8 || w.seqop == 0xA || w.seqop == 0xB)) ||
  w.shop == 7 || !memValid w.memop || 7 ≤ w.emit || 0xA ≤ w.crcop ||
  (aluWrites w.aluop && memWrites w.memop) ||
  (w.bsel && (w.aluop == 0 || (0x1A ≤ w.aluop && w.aluop ≤ 0x1E))) ||
  (w.crcop == 9 && 1 ≤ w.memop && w.memop ≤ 4) ||
  (1 ≤ w.shop && w.shop ≤ 6 && !ownsSlot d e w.shsub) ||
  (w.shop == 6 && !ownsSlot d e ((w.shsub + 1) % 8)) ||
  (0x10 ≤ w.memop && w.memop < 0x20 && !ownsSlot d e (w.memop % 8))

/-- The cluster of an engine is not ACTIVE (R606). -/
def clusterAsleep (d : Dev) (e : Nat) : Bool := (at? d.pwr.cls (e / 4) {}).st != .active

/-- The cluster of an engine is fenced since two clk, dormant or waking, so its inputs keep their held levels (R268). -/
def clusterHeld (d : Dev) (e : Nat) : Bool :=
  let c := at? d.pwr.cls (e / 4) {}
  match c.st with
  | .active => false
  | .fencing => c.fence + 2 ≤ d.clk
  | _ => true

/-- Event input `j` of engine `e`. -/
def einput (d : Dev) (e j : Nat) : EvInput := at? (at? d.ev.inputs e (Vector.replicate 16 {})) j {}

/-- The level of an engine input (R268): what its sources showed at the end of the third clk back, or held in retention. -/
def inputLevel (d : Dev) (e j : Nat) : Bool :=
  if clusterHeld d e then (einput d e j).held else bit d.ev.lv3 (16 * e + j)

/-- A serialiser holds no bits (R121). -/
def Lane.txEmpty (l : Lane) : Bool := l.ser.isEmpty && l.cur.isEmpty

/-- Engine `e` holds an open reservation (R120). -/
def holdsOpen (d : Dev) (e : Nat) : Bool :=
  d.cfg.bins.any fun (b, c) => c.ownerKind == 0 && c.owner.toNat == e && !(bin d b).ownerRecs.isEmpty

/-- Condition `i` of engine `e`, before CPOL (R120 to R123). -/
def cond (d : Dev) (e i : Nat) : Bool :=
  let g := engine d e
  let p := g.dp
  if i < 32 then
    match i with
    | 0 => true
    | 1 => p.z
    | 2 => p.n
    | 3 => p.c
    | 4 => p.v
    | 5 => g.seq.lc0 == 0
    | 6 => g.seq.lc1 == 0
    | 7 => p.sc == p.target
    | 8 => bit p.sh 63
    | 9 => bit p.sh 0
    | 10 => crcGood p
    | 11 => p.btRun && p.btCount == p.btSmp
    | 12 => p.btRun && p.btCount.toNat + 1 == p.btPer.toNat
    | 13 => p.cmpEq
    | 14 => p.cmpLt
    | 15 => p.cmpLtu
    | 16 => g.ep.resOk
    | 17 => g.ep.resFull
    | 18 => g.ep.resTooBig
    | 19 => holdsOpen d e
    | 20 => g.ep.trunc
    | 21 => g.seq.stack.isEmpty
    | 22 => 8 ≤ g.seq.stack.length
    | 23 => g.seq.fresh
    | _ => false
  else if i < 64 then bit (g.g 15) (i - 32)
  else if i < 128 then
    let s := (i - 64) / 8
    match slotLane d e s with
    | none => false
    | some (n, own) =>
      let l := lane d n
      match (i - 64) % 8 with
      | 0 => l.filt
      | 1 => bit g.ep.rise s
      | 2 => bit g.ep.fall s
      | 3 => own && !l.fifo.isEmpty
      | 4 => own && 256 ≤ l.fifo.length
      | 5 => own && 512 ≤ l.fifo.length
      | 6 => own && l.txEmpty
      | _ => l.err != 0
  else if i < 144 then inputLevel d e (i - 128)
  else if i < 160 then (einput d e (i - 144)).edge
  else if i < 176 then (einput d e (i - 160)).count != 0
  else if i < 192 then (at? d.tb.cmps (i - 176 + 48) {}).matched
  else bit d.cfg.condMask e && bit g.ep.w3 (i - 192)

/-- Multiplexer outputs A and B after CPOL (R105). -/
def condA (d : Dev) (e : Nat) (w : MW) : Bool := cond d e w.casel != bit w 94
def condB (d : Dev) (e : Nat) (w : MW) : Bool := cond d e w.cbsel != bit w 95

/-- Clear the sticky flag a condition number selects (R124). -/
def clearSticky (e i : Nat) (d : Dev) : Dev :=
  if 64 ≤ i ∧ i < 128 then
    let s := (i - 64) / 8
    if (i - 64) % 8 = 1 then updEp e (fun p => { p with rise := setBit p.rise s false }) d
    else if (i - 64) % 8 = 2 then updEp e (fun p => { p with fall := setBit p.fall s false }) d
    else d
  else if 144 ≤ i ∧ i < 160 then
    updEv (fun v => { v with inputs := upd? v.inputs e fun x => upd? x (i - 144) fun y => { y with edge := false } }) d
  else d

end Sys2Proof.Machine
end

