-- ==== Sys2Proof/Machine/Engine.lean ====
section
/-!
DEFINITION. Sys2Proof/Machine/Engine.lean: one clk of an engine (03_engine_sequencer.md, 04_engine_datapath.md): stalls, the
actions of a microword, its successor, yields, parks, halts and freezes.
-/
namespace Sys2Proof.Machine

/-! ### Swaps (R182) -/

/-- Swap engine `e` onto its other bank, with the REPLANT_ENTRY of that bank as resume address. -/
def swapBank (e : Nat) : Dev → Dev :=
  updEng e fun g =>
    let g1 := { g with seq := { g.seq with bank := !g.seq.bank, stack := [], fresh := true, fixed := false }
                       life := { g.life with rpPend := none, graceCnt := 0, swapGrace := none } }
    { g1 with seq := { g1.seq with pc := g1.replantEntry } }

/-! ### Stalls (R160) -/

/-- The bin a RESERVE names, its length in units and its type (R146). -/
def resBin (w : MW) : Nat := fld w 32 8
def resLen (g : Engine) (w : MW) : Nat := if w.memop = 9 then fld (g.g w.srcb) 0 16 else fld w.imm 0 16
def resType (g : Engine) (w : MW) : Nat := if w.memop = 9 then fld (g.g w.srcb) 16 8 else fld w.imm 16 8

/-- A trigger record waits in the bin and there is room for it: it comes before the owner's request (R301). -/
def triggerAhead (c : BinEntry) (x : Bin) : Bool := (x.trgOpen.any fun t => t.2.isNone) && hasRoom c x 5

/-- A RESERVE of a STREAM engine meets a full BLOCK bin (R151 order 4). -/
def blockFull (d : Dev) (e : Nat) (w : MW) : Bool :=
  (w.memop == 8 || w.memop == 9) && isStream d e &&
  match binCfg? d (resBin w) with
  | some c =>
    let L := resLen (engine d e) w
    c.policy == 2 && engOwns e c && L != 0 && L ≤ c.maxrec.toNat &&
      (!hasRoom c (bin d (resBin w)) (max 2 L) || triggerAhead c (bin d (resBin w)))
  | none => false

/-- The lane FIFO of slot `s`, and the room of its serialiser. -/
def slotFifo (d : Dev) (e s : Nat) : List Bool := match slotLane d e s with | some (n, _) => (lane d n).fifo | none => []
def slotRoom (d : Dev) (e s : Nat) : Nat :=
  match slotLane d e s with | some (n, _) => 512 - ((lane d n).ser.length + (lane d n).cur.length) | none => 0
def slotStamps (d : Dev) (e s : Nat) : List (DWord × Bool) := match slotLane d e s with | some (n, _) => (lane d n).stamps | none => []

/-- Entries the port operation of a microword takes in the write queue (R154). -/
def portNeed (w : MW) : Nat := if w.memop = 0x0C then 2 else if 0x0A ≤ w.memop ∧ w.memop ≤ 0x0E then 1 else 0

/-- A port operation finds no room in the write queue (R154), or, after a cutover, the source's queue not yet empty (R188). -/
def portFull (d : Dev) (e : Nat) (w : MW) : Bool :=
  let g := engine d e
  let s := engine d g.life.partner.toNat
  portNeed w ≠ 0 && (decide (16 < g.ep.queue.length + portNeed w) ||
    (s.life.st == .vacated && s.life.partner.toNat == e && !s.ep.queue.isEmpty))

/-- The stall causes that keep a microword from executing for as long as they last, lowest code first (R159, R160). -/
def openCauses (d : Dev) (e : Nat) (w : MW) : List Nat :=
  let g := engine d e
  let k := w.shop
  (if (k == 1 || k == 2) && (slotFifo d e w.shsub).length < w.count then [1] else []) ++
  (if (k == 3 || k == 4 || k == 6) && slotRoom d e w.shsub < w.count then [2] else []) ++
  (if ((1 ≤ k && k ≤ 6) || (k == 0 && 1 ≤ w.shsub && w.shsub ≤ 4)) && g.dp.bg.isSome then [3] else []) ++
  (if 0x18 ≤ w.memop && w.memop < 0x20 && (slotStamps d e (w.memop % 8)).isEmpty then [4] else []) ++
  (if blockFull d e w then [6] else []) ++
  (if portFull d e w then [7] else []) ++
  (if w.seqop == 8 && !condA d e w then [10] else [])

/-- RESERVE takes 1 clk before the clk in which it executes, LDCFG 3 (R151, R157, R160). They run together with any other stall (R159). -/
def isReserve (w : MW) : Bool := w.memop == 8 || w.memop == 9
def fixedClk (w : MW) : Nat := max (b2n (isReserve w)) (if w.crcop = 9 then 3 else 0)

/-- The fixed causes that still run in this clk. -/
def fixedCauses (d : Dev) (e : Nat) (w : MW) : List Nat :=
  let r := (engine d e).seq.reached
  (if isReserve w && d.clk < r + 1 then [5] else []) ++ (if w.crcop == 9 && d.clk < r + 3 then [8] else [])

/-- The lowest code of the stall causes of the microword at PC, 0 for none (R160). -/
def stallCause (d : Dev) (e : Nat) (w : MW) : Nat := (openCauses d e w ++ fixedCauses d e w).foldl (fun m c => if m = 0 then c else min m c) 0

/-- EN_STALLSTAT.CAUSE (R160, R164): the cause of an engine that stalls, the cause with which a frozen one stopped, else 0. -/
def shownCause (d : Dev) (e : Nat) : Nat :=
  let g := engine d e
  if g.life.st = .frozen then g.ep.cause.toNat
  else if !g.busy then 0
  else if d.clk < g.seq.reached then g.ep.cause.toNat
  else stallCause d e g.current

/-! ### Freezing (R191, R192) -/

/-- Freeze engine `e` with the lowest of its causes (R42), its detail, and BOUNDARY when frozen in R20 action 2. -/
def freezeEngine (e cause : Nat) (multi boundary : Bool) (detail : Word) (d : Dev) : Dev :=
  let g := engine d e
  let fpc : BitVec 13 := BitVec.ofNat 13 (g.seq.pc.toNat + 4096 * b2n g.seq.bank)
  freezeRecord e cause multi boundary detail.toNat fpc.toNat
    (updEp e (fun p => { p with cause := BitVec.ofNat 4 (shownCause d e) }) (updLife e (fun l => { l with
      st := .frozen, parkPend := false, frzMulti := multi, frzCause := BitVec.ofNat 8 cause, frzDetail := detail
      frzPc := fpc, frzTime := d.tb.now }) (updSeq e (fun s => { s with step := false }) d)))

/-! ### Violations (R113, R151, R152) -/

/-- The handle a port operation names (R152). -/
def portHandle (g : Engine) (w : MW) : Word := g.g w.srca

/-- The violations of its own codes that a microword commits, each with its cause code and detail, lowest code first (R112, R113). -/
def violations (d : Dev) (e : Nat) (w : MW) : List (Nat × Word) :=
  let g := engine d e
  let pc : Word := g.seq.pc.zeroExtend 32
  (if illegal d e w then [(0x02, pc)] else []) ++
  (if w.seqop = 5 ∧ 8 ≤ g.seq.stack.length then [(0x03, pc)] else []) ++
  (if w.seqop = 6 ∧ g.seq.stack = [] then [(0x04, pc)] else []) ++
  (if w.seqop = 0 then [(0x05, w.aux.zeroExtend 32)] else [])

/-- The violations of the Cellar port, met when the microword executes (R151, R152). -/
def portViolations (d : Dev) (e : Nat) (w : MW) : List (Nat × Word) :=
  let g := engine d e
  if w.memop = 8 ∨ w.memop = 9 then
    if resLen g w = 0 then [(0x06, BitVec.ofNat 32 (resBin w))]
    else match binCfg? d (resBin w) with
      | some c => if engOwns e c then [] else [(0x07, badHandle (resBin w))]
      | none => [(0x07, badHandle (resBin w))]
  else if 0x0A ≤ w.memop ∧ w.memop ≤ 0x0E then
    match resolve (engOwns e) (portHandle g w) d with
    | .other => [(0x07, portHandle g w)]
    | _ => []
  else []

/-! ### Memory operations (R146 to R154) -/

/-- TB_NOW in the clk before (R229). -/
def tbBefore (t : Tb) : DWord :=
  if t.counting then BitVec.ofNat 64 ((t.now.toNat * 2 ^ 32 + t.frac.toNat + 2 ^ 96 - t.inc.toNat) / 2 ^ 32) else t.now

/-- Withdraw the waiting BLOCK request of engine `e` (R159: a stalled microword has claimed nothing). -/
def clearWaiting (e : Nat) : Dev → Dev :=
  withdraw fun w => match w with | .engine k _ => k.val == e | .steward _ _ _ _ => false

/-- The outcome of a RESERVE: handle and flags (R151); the device with the reservation granted. The header carries TB_NOW of the first
of its 2 clk. -/
def doReserve (e : Nat) (w : MW) (d0 : Dev) : Word × Dev :=
  let g := engine d0 e
  let b := resBin w
  let len := resLen g w
  let flags (ok full big : Bool) (d : Dev) : Dev := updEp e (fun p => { p with resOk := ok, resFull := full, resTooBig := big }) d
  match binCfg? d0 b with
  | none => (badHandle b, d0)
  | some c =>
    if c.maxrec.toNat < len then
      (badHandle b, flags false false true (updBin b (fun x => { x with tooBig := satInc x.tooBig }) d0))
    else
      let L := max 2 len
      let d := makeRoom b c L d0
      if hasRoom c (bin d b) L then
        let x := bin d b
        let h := pack [(16, x.seq.toNat % 4096), (8, b), (0, x.freeSlot)]
        (h, flags true false false (clearWaiting e (grant b c L (resType g w) 0 (tbBefore d.tb) x.seq d)))
      else (badHandle b, flags false true false (countFull b d))

/-- APPEND, APPENDSL and APPENDSH: the words to append in order (R146, R153). -/
def appendWords (e : Nat) (vs : List Word) (h : Word) (d : Dev) : Dev :=
  vs.foldl (fun d v =>
    match resolve (engOwns e) h d with
    | .held b c r =>
      let (d1, cut) := append4 (portIssue e) b c r v d
      updEp e (fun p => { p with trunc := cut }) d1
    | _ => d) d

/-- A port operation on a handle (R152). -/
def portDo (e : Nat) (h : Word) (f : Nat → BinEntry → Rec → Dev → Dev) (d : Dev) : Dev :=
  match resolve (engOwns e) h d with
  | .invalid => updEp e (fun p => { p with discard := satInc p.discard }) d
  | .late => updEp e (fun p => { p with late := satInc p.late }) d
  | .held b c r => f b c r d
  | .other => d

/-- Write a general register. -/
def wrG (e k : Nat) (v : Word) : Dev → Dev := updDp e fun p => { p with g := put? p.g k v }

/-- A scratch word read, with its ECC (R163): an uncorrectable word returns what was read, a free value. -/
def scrRead (e i : Nat) (ecc : Ecc) (d : Dev) : Word × Dev :=
  match ecc with
  | .ok => (look 0 (engine d e).scr i, d)
  | .ce => (look 0 (engine d e).scr i, updEp e (fun p => { p with scrCe := satInc p.scrCe }) d)
  | .ue =>
    let (f, d1) := takeFree d
    (lo32 f, raise 0x604 (updEp e (fun p => { p with scrUe := true }) d1))

/-- The MEMOP of a microword of `e` (R146). Operands are read from `g`, the engine as it stood before the clk. -/
def doMem (e : Nat) (g : Engine) (w : MW) (scr : Ecc) (d : Dev) : Dev :=
  let idx := (if w.memop = 1 ∨ w.memop = 2 then (g.g w.srca + w.imm).toNat else w.imm.toNat) % 4096
  let h := portHandle g w
  let m := w.memop
  if m = 1 ∨ m = 3 then let (v, d1) := scrRead e idx scr d; wrG e w.dst v d1
  else if m = 2 ∨ m = 4 then updEng e (fun x => { x with scr := store 0 x.scr idx (g.g w.srcb) }) d
  else if m = 8 ∨ m = 9 then let (v, d1) := doReserve e w d; wrG e w.dst v d1
  else if 0x0A ≤ m ∧ m ≤ 0x0C then
    match resolve (engOwns e) h d with
    | .held _ _ _ =>
      appendWords e (if m = 0x0A then [g.g w.srcb] else if m = 0x0B then [lo32 g.dp.sh] else [lo32 g.dp.sh, hi32 g.dp.sh]) h d
    | _ => portDo e h (fun _ _ _ d => d) d
  else if m = 0x0D then portDo e h (commitIssue (portIssue e)) d
  else if m = 0x0E then portDo e h (voidIssue (portIssue e)) d
  else if 0x10 ≤ m ∧ m < 0x18 then wrG e w.dst (BitVec.ofNat 32 (slotStamps d e (m % 8)).length) d
  else if 0x18 ≤ m ∧ m < 0x20 then
    match slotLane d e (m % 8) with
    | some (n, _) =>
      match (lane d n).stamps with
      | (t, _) :: r => wrG e w.dst (lo32 t) (updLane n (fun l => { l with stamps := r }) d)
      | [] => d
    | none => d
  else if 0x20 ≤ m ∧ m < 0x30 then
    let j := m % 16
    wrG e w.dst ((einput d e j).count.zeroExtend 32)
      (updEv (fun v => { v with inputs := upd? v.inputs e fun x => upd? x j fun y => { y with count := 0 } }) d)
  else d

/-! ### Shift unit (R140 to R145) -/

/-- Shift `bs` into SH, MSB first or LSB first (R141). -/
def shiftIn (sh : DWord) (lsb : Bool) (bs : List Bool) : DWord :=
  bs.foldl (fun s b => if lsb then (s >>> 1) ||| (if b then 0x8000000000000000 else 0) else (s <<< 1) ||| (if b then 1 else 0)) sh

/-- The first `n` bits SH gives, MSB first or LSB first (R141). -/
def shiftOut (sh : DWord) (lsb : Bool) (n : Nat) : List Bool :=
  (List.range n).map fun i => if lsb then bit sh i else bit sh (63 - i)

/-- Start or change the bit timer (R145). -/
def btSet (per smp : BitVec 20) (p : Dp) : Dp :=
  if per.toNat < 2 ∨ per.toNat ≤ smp.toNat then { p with btRun := false, btCount := 0, btPer := per, btSmp := smp }
  else { p with btRun := true, btCount := 0, btPer := per, btSmp := smp }

/-- The SHOP of a microword (R140), operands from `g`. The bits a SHIN or SHINR takes are in `taken`. -/
def doShift (e : Nat) (g : Engine) (w : MW) (taken : List Bool) (d : Dev) : Dev :=
  let n := w.count
  let n7 := BitVec.ofNat 7 n
  let s := w.shsub
  let drop (k : Nat) (d : Dev) : Dev := match slotLane d e s with | some (l, _) => updLane l (fun x => { x with fifo := x.fifo.drop k }) d | none => d
  let give (bs : List Bool) (d : Dev) : Dev := match slotLane d e s with | some (l, _) => updLane l (·.give bs d.clk) d | none => d
  match w.shop with
  | 0 =>
    match s with
    | 1 => updDp e (fun p => { p with sh := 0, sc := 0, target := 0 }) d
    | 2 => updDp e (fun p => { p with sh := join64 (g.g w.srca) (g.g w.srcb) }) d
    | 3 => updDp e (fun p => { p with sh := p.sh <<< n }) d
    | 4 => updDp e (fun p => { p with sh := p.sh >>> n }) d
    | 5 => updDp e (btSet (bf (g.g w.srca) 0 20) (bf (g.g w.srcb) 0 20)) d
    | 6 => updDp e (fun p => { p with btRun := p.btPer ≠ 0 && p.btSmp.toNat < p.btPer.toNat && 2 ≤ p.btPer.toNat, btCount := 0 }) d
    | 7 => updDp e (fun p => { p with btRun := false, btCount := 0 }) d
    | _ => d
  | 1 => updDp e (fun p => { p with sh := shiftIn p.sh false taken, sc := n7, target := n7 }) (drop n d)
  | 2 => updDp e (fun p => { p with sh := shiftIn p.sh true taken, sc := n7, target := n7 }) (drop n d)
  | 3 => updDp e (fun p => { p with sh := p.sh <<< n, sc := n7, target := n7 }) (give (shiftOut g.dp.sh false n) d)
  | 4 => updDp e (fun p => { p with sh := p.sh >>> n, sc := n7, target := n7 }) (give (shiftOut g.dp.sh true n) d)
  | 5 => updDp e (fun p => { p with sc := 0, target := n7, bg := some (BitVec.ofNat 3 s) }) d
  | 6 => updDp e (fun p => { p with sc := 0, target := n7, bg := some (BitVec.ofNat 3 (s + 1)) }) (give (shiftOut g.dp.sh false n) d)
  | _ => d

/-! ### CRC, loop counters, event outputs -/

/-- Load the CRC configuration from scratch words 4,092 to 4,095 (R157). The CRC register keeps its bits, also those above a width that
becomes smaller (DESIGN CHOICE, log entry 100). -/
def crcLoad (g : Engine) : Engine :=
  { g with dp := { g.dp with
    crcPoly := look 0 g.scr 4092, crcInit := look 0 g.scr 4093, crcRes := look 0 g.scr 4094, crcCfg := bf (look 0 g.scr 4095) 0 10 } }

/-- The CRCOP of a microword (R158). -/
def doCrc (e : Nat) (g : Engine) (w : MW) (taken : List Bool) (scr : Ecc) (d : Dev) : Dev :=
  let v := g.g w.srcb
  match w.crcop with
  | 1 => updDp e (fun p => { p with crc := p.crcInit &&& maskW (crcWidth p) }) d
  | 2 => updDp e (fun p => { p with crc := v &&& maskW (crcWidth p) }) d
  | 3 => updDp e (fun p => crcFeedBits (crcField p v 1) p) d
  | 4 => updDp e (fun p => crcFeedBits (crcField p v 4) p) d
  | 5 => updDp e (fun p => crcFeedBits (crcField p v 8) p) d
  | 6 => updDp e (fun p => crcFeedBits (crcField p v 16) p) d
  | 7 => updDp e (fun p => crcFeedBits (crcField p v 32) p) d
  | 8 => updDp e (crcFeedBits taken) d
  | 9 =>
    -- the four words are scratch reads; an uncorrectable one is returned as read (R163), a free value
    match scr with
    | .ok => updEng e crcLoad d
    | .ce => updEp e (fun p => { p with scrCe := satInc p.scrCe }) (updEng e crcLoad d)
    | .ue =>
      let (f, d1) := takeFree d
      let (f2, d2) := takeFree d1
      raise 0x604 (updEp e (fun p => { p with scrUe := true })
        (updDp e (fun p => { p with crcPoly := lo32 f, crcInit := hi32 f, crcRes := lo32 f2, crcCfg := bf f2 32 10 }) d2))
  | _ => d

/-- One action of the LOOP field on a counter (R116, R117). -/
def loopAct (act : Nat) (v c : Half) : Half :=
  match act with
  | 1 => v
  | 2 => if c = 0 then 0 else c - 1
  | 3 => 0
  | _ => c

/-- The LOOP field, and the decrement of SEQOP LOOP (R110, R116 to R118). -/
def doLoop (e : Nat) (g : Engine) (w : MW) : Dev → Dev :=
  updSeq e fun s =>
    let v : Half := if w.lsrc then bf (g.g w.srca) 0 16 else w.aux.zeroExtend 16
    let t := { s with lc0 := loopAct w.act0 v s.lc0, lc1 := loopAct w.act1 v s.lc1 }
    if w.seqop = 7 then
      if w.lsel then { t with lc1 := if s.lc1 = 0 then 0 else s.lc1 - 1 } else { t with lc0 := if s.lc0 = 0 then 0 else s.lc0 - 1 }
    else t

/-- Drive event output `j` (R155): 1 PULSE, 2 SET, 3 CLR. The lanes that a pulse selects for use set B for one clk (R207). -/
def emitOne (e k j : Nat) (d : Dev) : Dev :=
  let was := emitLevel d e j
  let lvl (b : Bool) (d : Dev) : Dev := updDp e (fun p => { p with emitLvl := setBit p.emitLvl j b }) d
  match k with
  | 1 => raiseNext (0x200 + 16 * e + j) (lvl false ((List.range 64).foldl (fun d n => pulseSet e j n d) d))
  | 2 => raiseNextIf (!was) (0x200 + 16 * e + j) (lvl true d)
  | _ => lvl false d

/-- The EMIT field (R155, R156), and the lanes that follow the output levels (R207). -/
def doEmit (e : Nat) (w : MW) (d : Dev) : Dev :=
  let outs : List Nat := if 4 ≤ w.emit then setBits w.imm 16 else [fld w.aux 0 4]
  match w.emit with
  | 0 => d
  | k => switchSets e (outs.foldl (fun d j => emitOne e (if 4 ≤ k then k - 3 else k) j d) d)

/-! ### Successor and CTL (R110, R126) -/

/-- The successor SEQOP selects (R110), from the state before the clk. -/
def successor (d : Dev) (e : Nat) (w : MW) : BitVec 12 :=
  let g := engine d e
  let a := b2n (condA d e w)
  let b := b2n (condB d e w)
  let p1 := g.seq.pc + 1
  match w.seqop with
  | 2 => w.naddr
  | 3 => BitVec.ofNat 12 (w.naddr.toNat / 2 * 2 + a)
  | 4 => BitVec.ofNat 12 (w.naddr.toNat / 4 * 4 + 2 * b + a)
  | 5 => w.naddr
  | 6 => g.seq.stack.getLastD 0
  | 7 => if (if w.lsel then g.seq.lc1 else g.seq.lc0) ≠ 0 then w.naddr else p1
  | 8 => w.naddr
  | 9 =>
    let v : Byte := if bit w.aux 8 then bf g.dp.sh 0 8 else bf (g.g w.srca) 0 8
    w.naddr ||| ((v &&& bf w.aux 0 8).zeroExtend 12)
  | 0xA => w.naddr
  | 0xB => w.naddr
  | _ => p1

/-- The engine yields (R130). -/
def doYield (e : Nat) : Dev → Dev :=
  updSeq e fun s => { s with
    yielded := true, fresh := false, lastUse := s.budcnt
    maxUse := if s.maxUse.toNat < s.budcnt.toNat then s.budcnt else s.maxUse }

/-- Park engine `e` (R169, R170). -/
def doPark (e : Nat) : Dev → Dev :=
  updEng e fun g => { g with life := { g.life with st := .parked, parkPend := false }, seq := { g.seq with step := false } }

/-- CTL bits and pending requests at the end of a microword (R126, R127, R169, R179), `late` when its SEQOP takes a second clk (R111).
A microword that parks and has BREAK parks (DESIGN CHOICE, log entry 94). -/
def doCtl (e : Nat) (w : MW) (late : Bool) (d : Dev) : Dev :=
  let y := w.seqop == 0xA || w.ctlYield
  let d1 := if y then doYield e d else d
  let pk := w.seqop == 0xB || w.ctlPark || ((y || w.ctlSafe) && (engine d1 e).life.parkPend)
  let swap := w.ctlSafe && (engine d1 e).life.rpPend == some false
  -- a swap that neither yields nor parks leaves 2 clk in which nothing executes and which are no stall (R179)
  let d2 := if swap then updSeq e (fun s => { s with reached := d1.clk + (if y || pk then 1 else 3) })
      (updEp e (fun p => { p with cause := 0 }) (swapBank e d1))
    else updSeq e (fun s => { s with reached := d1.clk + 1 + b2n late }) (updEp e (fun p => { p with cause := if late then 11 else 0 }) d1)
  if pk then doPark e d2
  else if w.ctlBreak && (engine d2 e).seq.brkEn || (engine d2 e).seq.step then
    updSeq e (fun s => { s with step := false }) (updLife e (fun l => { l with st := .halted }) d2)
  else d2

/-! ### One clk of an engine -/

/-- One clk of a busy engine counts against a TICKED budget: the end of clk BUDGET without a yield latches OVERRUN, a yield in that clk
meets the budget (R129). -/
def countClk (e : Nat) (d : Dev) : Dev :=
  if isStream d e then d else updSeq e (fun s => { s with budcnt := satInc s.budcnt }) d
def checkBudget (e : Nat) (d : Dev) : Dev :=
  if isStream d e then d else
  updSeq e (fun s => { s with overrun := s.overrun || (!s.yielded && decide (s.budget.toNat ≤ s.budcnt.toNat)) }) d

/-- A clk in which a busy engine executes no microword (R129, R145, R160): it counts for the budget, the bit timer, STALLCLK and the
background input. -/
def idleClk (e : Nat) (d : Dev) : Dev :=
  let d1 := updEp e (fun p => { p with stallClk := satInc p.stallClk }) d
  let d2 := updSeq e (fun s => { s with covered := d1.clk + 1 }) d1
  checkBudget e (countClk e (updDp e (btPass 1) (bgTake e d2)))

/-- A stall clk (R159, R160). EN_SEQSTAT.WAITING says that a WAIT lacks its A (R134). A STREAM engine that meets a full BLOCK bin waits
there (R301). -/
def stallClk (e : Nat) (w : MW) (d : Dev) : Dev :=
  let wait := w.seqop == 8 && !condA d e w
  let n := max 2 (resLen (engine d e) w)
  let d1 := if blockFull d e w ∧ !((bin d (resBin w)).waiting.any fun x => match x with | .engine k _ => k.val == e | _ => false) then
      updBin (resBin w) (fun x => { x with waiting := x.waiting ++ (if h : e < 32 then [.engine ⟨e, h⟩ n] else []) }) d
    else d
  idleClk e (updSeq e (fun s => { s with waiting := wait }) d1)

/-- The CS_FIX clk (R161): the corrected word goes back and CS_CE counts; the word executes from the next clk on. -/
def fixClk (e : Nat) (d : Dev) : Dev :=
  let d1 := updEp e (fun p => { p with csCe := satInc p.csCe, cause := 9 }) d
  idleClk e (updSeq e (fun s => { s with fixed := true, reached := d1.clk + 1 }) d1)

/-- Every action of a microword that executes in this clk (R107, R108, R110, R159). -/
def execMicro (e : Nat) (w : MW) (scr : Ecc) (d0 : Dev) : Dev :=
  let g := engine d0 e
  let nxt := successor d0 e w
  let taken := if w.shop = 1 ∨ w.shop = 2 then (slotFifo d0 e w.shsub).take w.count else []
  let b := if w.bsel then w.imm else g.g w.srcb
  let o := alu w.aluop w.bsel (g.g w.srca) b (g.g w.dst) d0.tb.now g.dp
  -- the flags and sticky conditions of this clk are read before they clear (R124)
  let d1 := clearSticky e w.cbsel (clearSticky e w.casel d0)
  let d2 := updDp e (fun _ => o.dp) d1
  let d3 := match o.res with | some v => wrG e w.dst v d2 | none => d2
  let d4 := doMem e g w scr d3
  let d5 := bgTake e d4
  let d6 := doShift e g w taken d5
  let d7 := doCrc e g w taken scr d6
  -- BTSET and BTSYNC make the count 0 in the next clk (R145)
  let restart := w.shop = 0 ∧ (w.shsub = 5 ∨ w.shsub = 6)
  let d8 := if restart then d7 else updDp e (btPass 1) d7
  let d9 := doEmit e w (doLoop e g w d8)
  let d10 := updSeq e (fun s => { s with
    pc := nxt, waiting := false, progress := true, fixed := false, covered := d9.clk + 1
    stack := if w.seqop = 5 then s.stack ++ [g.seq.pc + 1] else if w.seqop = 6 then s.stack.dropLast else s.stack }) d9
  checkBudget e (doCtl e w (w.seqop == 4 || w.seqop == 9) (countClk e d10))

/-- Engine `e` may execute: fclk runs, it is RUNNING and has not yielded. -/
def canRun (d : Dev) (e : Nat) : Bool :=
  d.sys.fclkOn && d.committed && (engine d e).life.st == .running && !(engine d e).seq.yielded

/-- One clk of engine `e`, which may run and whose microword is due: an uncorrectable word freezes it (R162); a corrected one first
spends its CS_FIX clk (R161); an illegal code freezes it at once (DEDUCED, log entry 95); a stall spends the clk (R159); otherwise the
microword executes, or its violations freeze the engine with nothing performed (R113, R151, R152). -/
def microClk (e : Nat) (cs scr : Ecc) (d : Dev) : Dev :=
  let g := engine d e
  let w := g.current
  if cs = .ue then freezeEngine e 0x01 false false (g.seq.pc.zeroExtend 32) d
  else if cs = .ce ∧ !g.seq.fixed then fixClk e d
  else if stallCause d e w ≠ 0 ∧ !illegal d e w then stallClk e w d
  else match violations d e w ++ portViolations d e w with
    | (c, x) :: r => freezeEngine e c (!r.isEmpty) false x d
    | [] => execMicro e w scr d

/-- The next clk of engine `e` that its rows have not counted and in which its microword is due (R111, R128). -/
def engineClk (e : Nat) (cs scr : Ecc) (d : Dev) : Dev :=
  let s := (engine d e).seq
  microClk e cs scr (passTo (max s.covered s.reached) d)

/-- One clk of engine `e` when it may run and the microword at PC is one of the kind `p`. -/
def engineRow (p : MW → Bool) (e : Nat) (cs scr : Ecc) (d : Dev) : Dev :=
  if canRun d e ∧ p (engine d e).current then engineClk e cs scr d else d

/-- A waiting BLOCK request of a STREAM engine is granted: its microword executes (R301). -/
def grantEngine (e : Nat) (d : Dev) : Dev := if canRun d e then engineClk e .ok .ok d else d

/-- A TICKED engine reaches the end of budget clk BUDGET without yielding (R129): the clk up to it pass. -/
def budgetOverrun (e : Nat) (d : Dev) : Dev :=
  if canRun d e ∧ !isStream d e ∧ !(engine d e).seq.overrun then
    let s := (engine d e).seq
    let n := max (max d.clk s.covered) s.budFrom + (s.budget.toNat - s.budcnt.toNat)
    updSeq e (fun s => { s with
      budcnt := if s.budcnt.toNat < s.budget.toNat then s.budget else s.budcnt, overrun := true }) (passTo n d)
  else d

/-- A background operation takes the bit-times it still lacks, one a clk, and ends when SC reaches its target (R142): those clk pass. -/
def backgroundEnd (e : Nat) (d : Dev) : Dev :=
  let g := engine d e
  if g.life.st = .running ∧ g.dp.bg.isSome then passTo (max d.clk g.seq.covered + (g.dp.target.toNat - g.dp.sc.toNat)) d else d

end Sys2Proof.Machine
end

