-- ==== Sys2Proof/Machine/EngineLife.lean ====
section
/-!
DEFINITION. Sys2Proof/Machine/EngineLife.lean: parking, replanting, transplanting, thawing and resetting engines, the
control-store window (05_engine_life.md), and what a tick boundary does to engines.
-/
namespace Sys2Proof.Machine

/-- The master ID of a writer (R34). -/
def masterOf : Who → Nat
  | .host => 0x7F
  | .ring n => 0x40 + n.toNat
  | .steward c _ _ _ => 0x20 + c.val

/-- EN_LIFESTAT.RESULT codes (R196). -/
def resBusy : Byte := 1
def resBadState : Byte := 2
def resNotSpare : Byte := 3
def resBudget : Byte := 4
def resCsUe : Byte := 5
def resCancelled : Byte := 6
def resExpired : Byte := 7
def resActiveBank : Byte := 8

/-- Set EN_LIFESTAT.RESULT. -/
def setResult (e : Nat) (r : Byte) : Dev → Dev := updLife e fun l => { l with result := r }

/-- The state of engine `e`. -/
def engSt (d : Dev) (e : Nat) : EngSt := (engine d e).life.st

/-! ### Park, unpark, freeze, thaw, reset (R168 to R173, R193 to R195) -/

/-- EN_LIFE.PARK (R169). -/
def parkRequest (e : Nat) (d : Dev) : Dev :=
  if engSt d e = .running then
    setResult e 0 (if (engine d e).seq.yielded then doPark e d else updLife e (fun l => { l with parkPend := true }) d)
  else setResult e resBadState d

/-- EN_LIFE.UNPARK (R172, R173). -/
def unparkRequest (e : Nat) (d : Dev) : Dev :=
  let l := (engine d e).life
  if l.st = .parked then setResult e 0 (updLife e (fun l => { l with unparkPend := true, unparkAt := d.clk + 1 }) d)
  else if l.st = .running ∧ l.parkPend then setResult e 0 (updLife e (fun l => { l with parkPend := false }) d)
  else setResult e resBadState d

/-- EN_LIFE.FREEZE (R193). -/
def freezeCommand (e : Nat) (master : Nat) (d : Dev) : Dev :=
  let s := engSt d e
  if s = .running ∨ s = .parked ∨ s = .halted then
    setResult e 0 (freezeEngine e 0x0A false false (BitVec.ofNat 32 master) d)
  else setResult e resBadState d

/-- Thaw a frozen engine (R194). -/
def thawEngine (e : Nat) (d : Dev) : Dev :=
  if engSt d e ≠ .frozen then setResult e resBadState d else
  let stream := isStream d e
  setResult e 0 (updEng e (fun g =>
    let at1 := stream && g.life.resumeAt == 1
    let at2 := stream && g.life.resumeAt == 2
    { g with
      life := { g.life with st := .running, unparkPend := false, unparkAt := d.clk + 1 }
      ep := { g.ep with cause := 0 }
      seq := { g.seq with
        overrun := false, stallCnt := 0, waiting := false, yielded := true, fresh := true, fixed := false
        pc := if at1 then g.tickEntry else if at2 then g.replantEntry else if stream then g.seq.pc else g.tickEntry
        stack := if stream && !at1 && !at2 then g.seq.stack else [] } }) d)

/-- Void every open reservation of engine `e` with LOST set (R195). -/
def voidOpen (e : Nat) (d : Dev) : Dev :=
  d.cfg.bins.foldl (fun d (b, c) =>
    if engOwns e c then (bin d b).ownerRecs.foldl (fun d r => voidRec b c r d) d else d) d

/-- EN_LIFE.RESET (R195). -/
def resetEngine (e : Nat) (d : Dev) : Dev :=
  let s := engSt d e
  if s = .running ∨ s = .parked ∨ s = .halted ∨ s = .frozen then
    let d1 := voidOpen e d
    let d2 := updEng e (fun g =>
      let q := g.seq
      let g1 : Engine := { g with
        seq := { bank := q.bank, budget := q.budget, stall := q.stall, entry0 := q.entry0, entry1 := q.entry1
                 rp0 := q.rp0, rp1 := q.rp1, pc := g.tickEntry
                 budgetNext := q.budgetNext, stallNext := q.stallNext }
        dp := {}
        ep := { queue := g.ep.queue, portWait := g.ep.portWait }
        life := { g.life with st := .parked, rpPend := none, parkPend := false, unparkPend := false, graceCnt := 0, swapGrace := none
                              shSave := 0, shValid := false, shBg := false, shTarget := 0, shSc := 0
                              frzMulti := false, frzCause := 0, frzDetail := 0, frzPc := 0, frzTime := 0, result := 0 } }
      crcLoad g1) d1
    let d3 := updEv (fun v => { v with inputs := upd? v.inputs e fun x => x.map fun y => { y with count := 0, edge := false } }) d2
    switchSets e (clearWaiting e d3)
  else setResult e resBadState d

/-- A write of EN_LIFE: its bits act in ascending order (DEDUCED, log entry 12). THAW is ignored from the host. -/
def enLifeWrite (who : Who) (e : Nat) (v : Word) (d : Dev) : Dev :=
  let isSt := match who with | .steward _ _ _ _ => true | _ => false
  let d0 := if bit v 0 then parkRequest e d else d
  let d1 := if bit v 1 then unparkRequest e d0 else d0
  let d2 := if bit v 2 then freezeCommand e (masterOf who) d1 else d1
  let d3 := if bit v 3 && isSt then thawEngine e d2 else d2
  if bit v 4 then resetEngine e d3 else d3

/-! ### Control store (R174 to R176) -/

/-- A transplant names the engine as source or target. -/
def inXplant (d : Dev) (e : Nat) : Bool :=
  (engine d e).life.xpend.isSome || (List.range 32).any fun s =>
    match (engine d s).life.xpend with | some x => x.target.toNat == e | none => false

/-- A bank of an engine accepts writes (R175). -/
def bankWritable (d : Dev) (e : Nat) (bank : Bool) : Bool :=
  let g := engine d e
  !((g.life.st == .running || g.life.st == .halted) && g.seq.bank == bank) && g.life.st != .cutover && !inXplant d e

/-- Write a microword (its check bits are computed on every path, R174). -/
def writeCs (e : Nat) (bank : Bool) (a : Nat) (w : MW) : Dev → Dev :=
  updEng e fun g => if bank then { g with cs1 := store 0 g.cs1 a w } else { g with cs0 := store 0 g.cs0 a w }

/-- A rejected bank write (R175). -/
def rejectCs (e : Nat) : Dev → Dev := updLife e fun l => { l with csRej := satInc l.csRej, result := resActiveBank }

/-- A write of EN_ENTRYSET (R176). -/
def entrySet (e : Nat) (v : Word) (d : Dev) : Dev :=
  let bank := bit v 31
  if bankWritable d e bank then
    updSeq e (fun s => if bank then { s with entry1 := bf v 0 12, rp1 := bf v 16 12 } else { s with entry0 := bf v 0 12, rp0 := bf v 16 12 }) d
  else rejectCs e d

/-- A write of EN_CSADDR (R196): the window shows the word there. -/
def csAddrWrite (e : Nat) (v : Word) : Dev → Dev :=
  updEng e fun g =>
    let w := g.word (bit v 12) (bf v 0 12)
    { g with life := { g.life with csBank := bit v 12, csAddr := bf v 0 12, csData := #v[bf w 0 32, bf w 32 32, bf w 64 32, bf w 96 32] } }

/-- A write of EN_CSDATAi (R196): EN_CSDATA3 writes the word at ADDR under R175, and ADDR increments. -/
def csDataWrite (e i : Nat) (v : Word) (d0 : Dev) : Dev :=
  let d := updLife e (fun l => { l with csData := put? l.csData i v }) d0
  if i ≠ 3 then d else
  let l := (engine d e).life
  let w : MW := l.csData[3] ++ l.csData[2] ++ l.csData[1] ++ l.csData[0]
  let d1 := if bankWritable d e l.csBank then writeCs e l.csBank l.csAddr.toNat w d else rejectCs e d
  updLife e (fun l => { l with csAddr := l.csAddr + 1 }) d1

/-! ### Replant (R177 to R182) -/

/-- The FORCE swap of a RUNNING engine in a boundary clk (R181); it runs from REPLANT_ENTRY two clk later. -/
def forceSwap (e : Nat) (d : Dev) : Dev :=
  let d1 := updEng e (fun g => { g with
    life := { g.life with shSave := g.dp.sh, shValid := true, shBg := g.dp.bg.isSome, shTarget := g.dp.target, shSc := g.dp.sc }
    dp := { g.dp with bg := none }, ep := { g.ep with cause := 0 }
    seq := { g.seq with waiting := false, yielded := false, budcnt := 0, reached := d.clk + 2, budFrom := d.clk + 2, step := false } }) (clearWaiting e d)
  swapBank e d1

/-- EN_REPLANT.GO (R177, R178). -/
def replantGo (e : Nat) (force : Bool) (d : Dev) : Dev :=
  let l := (engine d e).life
  match l.st with
  | .running | .halted | .parked | .frozen =>
    if l.rpPend.isSome || inXplant d e then setResult e resBusy d
    else if l.st = .running then
      setResult e 0 (updLife e (fun l => { l with rpPend := some force, graceCnt := 0, swapGrace := none, rpAt := d.clk + 1 }) d)
    else setResult e 0 (swapBank e d)
  | _ => setResult e resBadState d

/-- EN_REPLANT.CANCEL (R196). -/
def replantCancel (e : Nat) (d : Dev) : Dev :=
  if (engine d e).life.rpPend.isSome then
    updLife e (fun l => { l with rpPend := none, graceCnt := 0, swapGrace := none, result := resCancelled }) d
  else d

/-- A write of EN_REPLANT (R196). -/
def enReplantWrite (e : Nat) (v : Word) (d : Dev) : Dev :=
  let d1 := updLife e (fun l => { l with escalate := bit v 24, grace := bf v 16 8 }) d
  let d2 := if bit v 2 then replantCancel e d1 else d1
  if bit v 0 then replantGo e (bit v 1) d2 else d2

/-- A partial CSTORE's SWAP is posted (R96, R177): it replaces a pending replant and cancels a transplant, and it keeps the GRACE and
ESCALATE values now in force (R180). -/
def postSwap (e : Nat) (force : Bool) (d : Dev) : Dev :=
  let l := (engine d e).life
  let d1 := if l.xpend.isSome ∧ l.st ≠ .cutover then updLife e (fun l => { l with xpend := none, result := resCancelled }) d else d
  match l.st with
  | .running =>
    updLife e (fun l => { l with rpPend := some force, graceCnt := 0, swapGrace := some (l.grace, l.escalate), rpAt := d.clk + 1 }) d1
  | .halted | .parked | .frozen => swapBank e d1
  | _ => d1

/-- The GRACE and ESCALATE of a pending replant (R180). -/
def Life.graceOf (l : Life) : Byte × Bool := l.swapGrace.getD (l.grace, l.escalate)

/-- GRACE boundaries have passed without a swap (R180). -/
def graceExpired (e : Nat) (d : Dev) : Dev :=
  let l := (engine d e).life
  let (grace, escalate) := l.graceOf
  if l.st = .running ∧ l.rpPend = some false ∧ grace ≠ 0 ∧ grace.toNat ≤ l.graceCnt then
    if escalate then forceSwap e d
    else updLife e (fun l => { l with rpPend := none, graceCnt := 0, swapGrace := none, result := resExpired }) d
  else d

/-- A wake of cluster `k` is requested (R611); its first cause counts (R612). -/
def requestWake (k : Nat) (d : Dev) : Dev :=
  { d with pwr := { d.pwr with cls := upd? d.pwr.cls k fun c => if c.st = .active ∨ c.wakeReq then c else { c with wakeReq := true, cause := d.clk } } }

/-! ### Transplant (R183 to R190) -/

/-- EN_XPLANT.GO (R183): a dormant cluster of the target is woken. -/
def xplantGo (e : Nat) (d : Dev) : Dev :=
  let g := engine d e
  let t := g.life.xTarget.toNat
  let s := g.life.st
  if ¬ (s = .running ∨ s = .parked ∨ s = .frozen) then setResult e resBadState d
  else if engSt d t ≠ .spare then setResult e resNotSpare d
  else if g.life.rpPend.isSome || g.life.parkPend || inXplant d e || inXplant d t || (engine d t).life.rpPend.isSome ||
      (engine d t).life.parkPend then setResult e resBusy d
  else if !isStream d e && d.cfg.tickClk.toNat < g.seq.budget.toNat + 2164 then setResult e resBudget d
  else
    let x : Xplant := { target := g.life.xTarget, nocopy := g.life.nocopy, copied := false }
    requestWake (t / 4) (setResult e 0 (updLife e (fun l => { l with xpend := some x, xpAt := d.clk + 1 }) d))

/-- EN_XPLANT.CANCEL (R196): before the cutover. -/
def xplantCancel (e : Nat) (d : Dev) : Dev :=
  let l := (engine d e).life
  if l.xpend.isSome ∧ l.st ≠ .cutover then updLife e (fun l => { l with xpend := none, result := resCancelled }) d else d

/-- A write of EN_XPLANT (R196). -/
def enXplantWrite (e : Nat) (v : Word) (d : Dev) : Dev :=
  let d1 := updLife e (fun l => { l with nocopy := bit v 9, xTarget := bf v 0 5 }) d
  let d2 := if bit v 10 then xplantCancel e d1 else d1
  if bit v 8 then xplantGo e d2 else d2

/-- The clk of a precopy of both banks, 16 bytes a clk (R184). -/
def precopyClk : Nat := 8192

/-- The precopy of both banks ends (R184). -/
def precopyEnd (e : Nat) (ecc : Ecc) (d0 : Dev) : Dev :=
  match (engine d0 e).life.xpend with
  | none => d0
  | some x =>
    if x.nocopy ∨ x.copied ∨ engSt d0 e = .cutover ∨ clusterAsleep d0 x.target.toNat then d0 else
    let d := passTo ((engine d0 e).life.xpAt + precopyClk) d0
    let g := engine d e
    if ecc = .ue then updLife e (fun l => { l with xpend := none, result := resCsUe }) d
    else
      updLife e (fun l => { l with xpend := some { x with copied := true }, xpAt := d.clk + 1 })
        (updEng x.target.toNat (fun t => { t with
          cs0 := g.cs0, cs1 := g.cs1
          seq := { t.seq with entry0 := g.seq.entry0, entry1 := g.seq.entry1, rp0 := g.seq.rp0, rp1 := g.seq.rp1 } }) d)

/-- The cutover begins in this boundary (R167, R185): the source's state after action 2 counts, so an unpark that waits is moot. -/
def cutoverDue (e : Nat) (d : Dev) : Bool :=
  let l := (engine d e).life
  (l.st == .running || l.st == .parked || l.st == .frozen) && decide (l.xpAt ≤ d.clk) &&
    l.xpend.any fun x => (x.copied || x.nocopy) && !clusterAsleep d x.target.toNat

/-- Source and target enter CUTOVER (R185). -/
def cutoverStart (e : Nat) (d : Dev) : Dev :=
  match (engine d e).life.xpend with
  | none => d
  | some x =>
    updLife x.target.toNat (fun t => { t with st := .cutover })
      (updLife e (fun l => { l with st := .cutover, cutFrom := l.st, cutAt := d.clk, parkPend := false, unparkPend := false }) d)

/-- Rename engine `s` to `t` in a route target (R185). -/
def moveTarget (s t : Nat) (v : Half) : Half :=
  if fld v 12 4 = 1 ∧ fld v 0 12 / 16 = s then BitVec.ofNat 16 (0x1000 + 16 * t + fld v 0 12 % 16) else v

/-- The route table after a cutover (R185): inputs retargeted, the emit entries of the source moved to the target's. -/
def moveRoutes (s t : Nat) (m : List (Nat × Route)) : List (Nat × Route) :=
  let m1 := m.map fun (k, r) => (k, { r with tgt0 := moveTarget s t r.tgt0, tgt1 := moveTarget s t r.tgt1 })
  (List.range 16).foldl (fun m j =>
    let r := look {} m (0x200 + 16 * s + j)
    store {} (store {} m (0x200 + 16 * t + j) r) (0x200 + 16 * s + j) {}) m1

/-- Rename engine `s` to `t` in a lane entry. -/
def moveLane (s t : Byte) (c : LaneEntry) : LaneEntry :=
  { c with owner := if c.owner = s then t else c.owner, obs := c.obs.map fun o => if o = s then t else o }

/-- The committed configuration after a cutover (R185, R190): routes, lanes, wired conditions, bins and engine roles. -/
def moveCfg (s t : Nat) (c : Cfg) : Cfg :=
  let wires := (List.range 64).foldl (fun m j =>
    let v := look 0 m (64 * s + j)
    store 0 (store 0 m (64 * t + j) v) (64 * s + j) 0) c.wires
  { c with
    active := setBit (setBit c.active s false) t true, spare := setBit c.spare t false
    stream := setBit (setBit c.stream s false) t (bit c.stream s)
    routes := moveRoutes s t c.routes, wires := wires
    condMask := setBit (setBit c.condMask s false) t (bit c.condMask s)
    lanes := c.lanes.map (moveLane (BitVec.ofNat 8 s) (BitVec.ofNat 8 t))
    bins := c.bins.map fun (b, x) => (b, if engOwns s x then { x with owner := BitVec.ofNat 8 t } else x) }

/-- Add held occurrences to the inputs of the target (R186). -/
def addHeld (s t : Nat) (v : Ev) : Ev :=
  let mine := v.cutHeld.filter fun x => x.eng.val == s
  let base := { v with inputs := put? v.inputs t (at? v.inputs s (Vector.replicate 16 {}))
                       cutHeld := v.cutHeld.filter fun x => x.eng.val != s }
  mine.foldl (fun v h =>
    { v with inputs := upd? v.inputs t fun x => upd? x h.inp.val fun y => { y with count := satInc y.count h.count.toNat, edge := true } }) base

/-- The cutover ends in clk t0 + 2,101, and the target's first microword is due in the next (R185 to R190). -/
def cutoverEnd (e : Nat) (d00 : Dev) : Dev :=
  match (engine d00 e).life.xpend with
  | none => d00
  | some x =>
    if engSt d00 e ≠ .cutover then d00 else
    let t := x.target.toNat
    let d0 := passTo ((engine d00 e).life.cutAt + 2101) d00
    let g := engine d0 e
    let first := g.life.cutAt + 2102
    let d := clearWaiting e d0
    let stream := isStream d e
    let d1 := updEng t (fun q =>
      let q1 := { q with
        seq := { g.seq with
          entry0 := q.seq.entry0, entry1 := q.seq.entry1, rp0 := q.seq.rp0, rp1 := q.seq.rp1, fresh := true, waiting := false
          fixed := false, step := false, reached := first, budFrom := first, covered := first }
        dp := g.dp
        ep := { g.ep with
          cause := if g.life.cutFrom = .frozen then g.ep.cause else 0, queue := q.ep.queue, portWait := q.ep.portWait }
        scr := g.scr
        life := { q.life with st := if g.life.cutFrom = .running then .running else g.life.cutFrom, partner := BitVec.ofNat 5 e } }
      if g.life.cutFrom = .frozen then
        { q1 with life := { q1.life with frzMulti := g.life.frzMulti, frzCause := g.life.frzCause, frzDetail := g.life.frzDetail
                                         frzPc := g.life.frzPc, frzTime := g.life.frzTime, resumeAt := g.life.resumeAt } }
      else if g.life.cutFrom = .running then
        if stream then { q1 with seq := { q1.seq with yielded := false } }
        else { q1 with seq := { q1.seq with yielded := false, stack := [], budcnt := 0, pc := q1.tickEntry } }
      else q1) d
    let d2 := updLife e (fun l => { l with st := .vacated, xpend := none, partner := x.target }) d1
    raise 0x603 (switchSets t { d2 with cfg := moveCfg e t d2.cfg, ev := addHeld e t d2.ev })

/-! ### Debug (R127, R136) -/

/-- A write of EN_DBG (R127, R136). A RESUME of an engine that is not HALTED is an act its state does not start from (R168). With
RESUME and STEP in one write RESUME acts and STEP does not (DESIGN CHOICE, log entry 96). A STEP executes one microword, a stalled one when
its stall ends, at once also on an engine that has yielded, whose YIELDED stays 1 (DESIGN CHOICE, log entry 97). -/
def enDbgWrite (e : Nat) (v : Word) (cs scr : Ecc) (d : Dev) : Dev :=
  let d1 := updSeq e (fun s => { s with brkEn := bit v 0 }) d
  let wake (step : Bool) (d : Dev) : Dev :=
    updSeq e (fun s => { s with step := step, reached := max s.reached d.clk, covered := max s.covered d.clk })
      (updLife e (fun l => { l with st := .running }) d)
  if bit v 8 then
    if engSt d1 e = .halted then setResult e 0 (wake false d1) else setResult e resBadState d1
  else if bit v 9 ∧ engSt d1 e = .halted then engineClk e cs scr (wake true d1)
  else d1

/-! ### What a boundary does to engines (R20, R22, R115, R127, R128, R131, R132, R171, R241) -/

/-- A STREAM engine would exceed its stall limit at this boundary (R132). -/
def stallExceeded (d : Dev) (e : Nat) : Bool :=
  let g := engine d e
  g.life.st == .running && isStream d e && !g.seq.progress && !g.seq.yielded && g.seq.stall.toNat < g.seq.stallCnt.toNat + 1

/-- Freeze a STREAM engine whose stall limit is exceeded: STALLCNT increments first, as at every boundary without progress. -/
def freezeStall (e : Nat) (d : Dev) : Dev :=
  let g := engine d e
  let n := satInc g.seq.stallCnt
  freezeEngine e 0x09 false true (pack [(8, n.toNat), (0, shownCause d e)]) (updSeq e (fun s => { s with stallCnt := n }) d)

/-- R20 action 2 for engine `e`: a TICKED engine that has not yielded in the ending tick is frozen, whether its OVERRUN was latched
before (R129, R171) or is latched now (R241); a HALTED one, or one that a STEP has not yet brought back there, counts a missed boundary
(R127). -/
def boundaryCheck (d : Dev) (e : Nat) : Dev :=
  let g := engine d e
  let stream := isStream d e
  if g.life.st = .running ∧ stream ∧ !g.seq.step then
    if stallExceeded d e then freezeStall e d
    else updSeq e (fun s => { s with stallCnt := if !s.progress && !s.yielded then s.stallCnt + 1 else 0 }) d
  else if (g.life.st = .running ∧ !g.seq.step ∧ (g.seq.overrun ∨ !g.seq.yielded)) ∨ (g.life.st = .parked ∧ g.seq.overrun) then
    freezeEngine e 0x08 false true (g.seq.budcnt.zeroExtend 32) (updSeq e (fun s => { s with overrun := true }) d)
  else if g.life.st = .halted ∨ g.seq.step then updSeq e (fun s => { s with missed := satInc s.missed }) d
  else d

/-- R20 action 3 for engine `e`: staged budgets, cutover, unpark, replants (a request on an engine that has stopped meanwhile swaps as
R178 states). What took effect in this clk waits for the following boundary. -/
def boundaryApply (d0 : Dev) (e : Nat) : Dev :=
  let d := updSeq e (fun s => { s with
    budget := s.budgetNext.getD s.budget, stall := s.stallNext.getD s.stall, budgetNext := none, stallNext := none }) d0
  if cutoverDue e d then cutoverStart e d else
  let l := (engine d e).life
  let d1 := if l.unparkPend ∧ l.st = .parked ∧ l.unparkAt ≤ d.clk ∧ ¬ clusterAsleep d e then
      updEng e (fun g => { g with life := { g.life with st := .running, unparkPend := false }
                                  seq := { g.seq with yielded := true, stallCnt := 0, fresh := true } }) d
    else d
  let l1 := (engine d1 e).life
  match l1.rpPend with
  | some force =>
    if l1.st = .parked ∨ l1.st = .halted ∨ l1.st = .frozen then swapBank e d1
    else if l1.st = .running ∧ l1.rpAt ≤ d.clk then
      if force then forceSwap e d1 else updLife e (fun l => { l with graceCnt := l.graceCnt + 1 }) d1
    else d1
  | none => d1

/-- R20 action 4 for engine `e`: TICKED engines restart, STREAM engines resume, both with their first microword in the second clk from
now (R128, R131); stall counts begin anew. An engine thawed in this clk waits for the following boundary (R194). -/
def boundaryRestart (d : Dev) (e : Nat) : Dev :=
  let g := engine d e
  let d1 := updEng e (fun g => { g with ep := { g.ep with stallClk := 0 }, seq := { g.seq with progress := false } }) d
  if g.life.st = .running ∧ g.seq.yielded ∧ g.life.unparkAt ≤ d.clk then
    let start (g : Engine) : Engine := { g with
      seq := { g.seq with yielded := false, fixed := false, reached := d.clk + 2, budFrom := d.clk + 2 }, ep := { g.ep with cause := 0 } }
    if isStream d e then updEng e start d1
    else updEng e (fun g => start { g with seq := { g.seq with stack := [], budcnt := 0, pc := g.tickEntry } }) d1
  else d1

/-- All engines in ascending order, which is the order of their freeze records (R43). -/
def allEngines (f : Dev → Nat → Dev) (d : Dev) : Dev := (List.range 32).foldl f d

end Sys2Proof.Machine
end

