-- ==== Sys2Proof/Machine/Sundial.lean ====
section
/-!
DEFINITION. Sys2Proof/Machine/Sundial.lean: compare channels, PPS discipline, gated-counter commands and captures
(07_sundial.md).
-/
namespace Sys2Proof.Machine

/-- Change compare channel `k`. -/
def updCmp (k : Nat) (f : Cmp → Cmp) : Dev → Dev := updTb fun t => { t with cmps := upd? t.cmps k f }
/-- Change gated counter `g`. -/
def updGc (g : Nat) (f : Gc → Gc) : Dev → Dev := updTb fun t => { t with gcs := upd? t.gcs g f }
/-- Change capture unit `c`. -/
def updCap (c : Nat) (f : Cap → Cap) : Dev → Dev := updTb fun t => { t with caps := upd? t.caps c f }

/-- MATCHED and its pulse after a match in clk `clk` (R245). -/
def matchedAfter (clk : Nat) (c : Cmp) : Cmp :=
  match c.mode.toNat with
  | 0 => { c with matched := true }
  | 1 => { c with matched := true, pulseEnd := some (clk + max 1 c.hold.toNat) }
  | 2 => { c with matched := !c.matched }
  | _ => c

/-- What a match writes (R243, R244): LAST, MATCHED, and the disarm or periodic re-arm, whose target may match from the next clk on. -/
def cmpMatch (clk : Nat) (now : DWord) (c : Cmp) : Cmp :=
  let c1 := matchedAfter clk { c with last := now }
  if c1.perEn then { c1 with target := c1.target + c1.period.zeroExtend 64, since := clk + 1 } else { c1 with armed := false }

/-- Compare channel `k` matches now (R243). -/
def doMatch (k : Nat) (d : Dev) : Dev := raiseNext (0x100 + k) (updCmp k (cmpMatch d.clk d.tb.now) d)

/-- ARM (R242, R245): the staged target becomes active; a late arm fires or drops. -/
def doArm (k : Nat) (d : Dev) : Dev :=
  let c := at? d.tb.cmps k {}
  let m := if c.mode = 0 then false else c.matched
  if c.staged.toNat ≤ d.tb.now.toNat then
    let d1 := updCmp k (fun c => { c with target := c.staged, armed := !c.latePol, late := true, matched := m }) d
    if c.latePol then d1 else doMatch k d1
  else updCmp k (fun c => { c with target := c.staged, armed := true, matched := m, since := d.clk + 1 }) d

/-- The armed target is reached in this clk (R243). -/
def matchDue (d : Dev) (k : Nat) : Bool :=
  let c := at? d.tb.cmps k {}
  c.armed && d.tb.counting && decide (c.since ≤ d.clk) && decide (c.target.toNat ≤ d.tb.now.toNat)

/-- A match that falls in this clk is recorded and raised before an ARM, a DISARM or a CLRM acts; an ARM or a DISARM (`drop`) discards
its periodic re-arm (R246, R667). -/
def dueMatch (k : Nat) (drop : Bool) (d : Dev) : Dev :=
  let old := (at? d.tb.cmps k {}).target
  if !matchDue d k then d
  else if drop then updCmp k (fun c => { c with target := old }) (doMatch k d)
  else doMatch k d

/-- DISARM (R246). -/
def doDisarm (k : Nat) : Dev → Dev := updCmp k fun c => { c with armed := false }

/-- CLRM (R667). -/
def doClrm (k : Nat) : Dev → Dev := updCmp k fun c => { c with matched := false, pulseEnd := none }

/-- While a Trellis is committed, CMP0's TARGET, PERIOD and CTRL take no write; it is counted (R19). -/
def cmpGuard (k : Nat) (f : Dev → Dev) (d : Dev) : Dev :=
  if k = 0 ∧ d.committed then updTb (fun t => { t with rej := satInc t.rej }) d else f d

/-- A write of TB_CMP_CTRL (R245, R667): HOLD, MODE (3 reserved, R12), PER_EN and LATEPOL, then CLRM, DISARM, ARM. -/
def cmpCtrlWrite (k : Nat) (v : Word) (d : Dev) : Dev :=
  cmpGuard k (fun d0 =>
    let d := if bit v 8 ∨ bit v 9 ∨ bit v 10 then dueMatch k (bit v 8 || bit v 9) d0 else d0
    let d1 := updCmp k (fun c =>
      let m : BitVec 2 := bf v 4 2
      let m' := if m = 3 then c.mode else m
      { c with hold := bf v 16 16, mode := m', perEn := bit v 3, latePol := bit v 2,
               pulseEnd := if m' = c.mode then c.pulseEnd else none }) d
    let d2 := if bit v 10 then doClrm k d1 else d1
    let d3 := if bit v 9 then doDisarm k d2 else d2
    if bit v 8 then doArm k d3 else d3) d

/-- A write of TB_CMP_PERIOD: 0 and 1 are ignored (R244). -/
def cmpPeriodWrite (k : Nat) (v : Word) : Dev → Dev :=
  cmpGuard k fun d => if 2 ≤ v.toNat then updCmp k (fun c => { c with period := v }) d else d

/-- Clk pass until the armed target of channel `k` is reached, from the clk on in which it may match (R243). -/
def passToMatch (k : Nat) (d : Dev) : Dev :=
  let c := at? d.tb.cmps k {}
  pass (max (clkUntil d c.target) (c.since - d.clk)) d

/-- A compare match as a step of its own: the armed target is reached. CMP0 of a committed Trellis is the tick, whose
match is TICK_BOUNDARY. -/
def compareMatch (k : Nat) (d : Dev) : Dev :=
  let c := at? d.tb.cmps k {}
  if c.armed ∧ ¬ (k = 0 ∧ d.committed) ∧ d.tb.counting then doMatch k (passToMatch k d) else d

/-- A PULSE ends HOLD clk after its match (R245). -/
def matchedPulseEnd (k : Nat) (d : Dev) : Dev :=
  match (at? d.tb.cmps k {}).pulseEnd with
  | some c => updCmp k (fun c => { c with matched := false, pulseEnd := none }) (passTo c d)
  | none => d

/-- TB_CTRL.LOAD (R232). -/
def tbLoad (d : Dev) : Dev :=
  if d.committed then updTb (fun t => { t with rej := satInc t.rej }) d
  else updTb (fun t => { t with now := t.set, frac := 0 }) d

/-! ### PPS -/

/-- PPS_IN disciplines TB_NOW (R236, R239): a manager, or a standby manager that has taken mastership, with PPS_DISC. -/
def disciplined (d : Dev) : Bool :=
  d.committed && bit d.cfg.timeFlags 0 && (d.sys.role == 0 || (d.sys.role == 2 && d.hr.master))

/-- The TB_INC aimed at by R236, rounded to the nearest multiple of 2^−32 and clamped to the range of R230. -/
def ppsInc (c0 ck : DWord) (k n : Nat) : DWord :=
  let num : Int := c0.toNat + (k + 1) * 1500000000 - ck.toNat
  let q : Int := (2 * num * 2 ^ 32 + n) / (2 * n)
  BitVec.ofInt 64 (max 0xFFF00000 (min 0x100100000 q))

/-- A signed 32-bit value that saturates. -/
def satInt32 (x : Int) : Word := BitVec.ofInt 32 (max (-2147483648) (min 2147483647 x))

/-- A rising PPS_IN edge `dt` clk after the last command (R235, R236). -/
def ppsEdge (dt : Nat) (d0 : Dev) : Dev :=
  let d := pass dt d0
  let t := d.tb
  let n := match t.ppsEdge with | some c => d.clk - c | none => 0
  -- an edge later than 1,501,500,000 clk after the last finds PPS_LOST set, or sets it before it has passed the filter (R237)
  let late := decide (1501500000 < n) && !t.ppsGone
  let t1 := { t with pps := t.now, ppsclk := BitVec.ofNat 32 n, ppsEdge := some d.clk, ppsGone := false, ppsLost := t.ppsLost || late }
  match t.ppsRef with
  | some c0 =>
    if 1498500000 ≤ n ∧ n ≤ 1501500000 then
      let k := t.ppsK + 1
      if disciplined d then
        let e : Int := (t.now.toNat : Int) - (c0.toNat + k * 1500000000)
        let good := if e.natAbs ≤ 15 then t.ppsGood + 1 else 0
        { d with tb := { t1 with ppsK := k, ppsGood := good, ppsLock := 4 ≤ good, ppserr := satInt32 e
                                 incNext := some (d.clk + 64, ppsInc c0 t.now k n) } }
      else { d with tb := { t1 with ppsK := k } }
    else { d with tb := { t1 with ppsRef := some t.now, ppsK := 0, ppsGood := 0, ppsBad := true, ppsLock := false } }
  | none =>
    { d with tb := { t1 with ppsRef := some t.now, ppsK := 0, ppsGood := 0, ppsLock := false,
                             ppsBad := t.ppsBad || t.ppsEdge.isSome } }

/-- No edge within 1,501,500,000 clk of the last (R237). -/
def ppsLost (d : Dev) : Dev :=
  match d.tb.ppsEdge with
  | some s =>
    if d.tb.ppsGone then d
    else updTb (fun t => { t with ppsLost := true, ppsLock := false, ppsGood := 0, ppsGone := true }) (passTo (s + 1501500017) d)
  | none => d

/-! ### Gated counters (R249 to R253) -/

/-- Clk pass until counter `g` has made its `n`th increment, if it comes to it with the gate as it stands (R250). -/
def gcRun (g : Fin 32) (n : Nat) (d : Dev) : Dev :=
  let o := d.tb.gcs[g]
  let src := o.kind == 3 && srcLevel d o.index.toNat
  let a := gcCounts o o.gatePrev && o.loadClk != d.clk + 1
  let b := gcCounts o (gateLevel d o o.srcPrev)
  if gcCounts o (gateLevel d o src) || n ≤ b2n a + b2n b then pass (gcTime a b n + 1) d else d

/-- The counter's wrap (R251). -/
def gcWrap (g : Fin 32) (d : Dev) : Dev := gcRun g (gcDist d.tb.gcs[g] 0) d

/-- The counter's threshold hit (R251). -/
def gcThreshold (g : Fin 32) (d : Dev) : Dev :=
  let o := d.tb.gcs[g]
  if o.thrEn then gcRun g (gcDist o o.thr.toNat) d else d

/-- A write of GC_CTRL (R253): THRHIT and OVF are W1C, CLRWRAP and LOAD act; an increment of the clk of a LOAD is lost. -/
def gcCtrlWrite (g : Nat) (v : Word) (d : Dev) : Dev :=
  updGc g (fun o => { o with
    thrhit := o.thrhit && !bit v 9, ovf := o.ovf && !bit v 8
    wrapcnt := if bit v 1 then 0 else o.wrapcnt
    count := if bit v 0 then o.set else o.count, loadClk := if bit v 0 then d.clk + 1 else o.loadClk }) d

/-- A write of GC_CFG (R249, R12): KIND 6 and 7 are reserved. -/
def gcCfgWrite (g : Nat) (v : Word) (d : Dev) : Dev :=
  updGc g (fun o =>
    let n : Gc := { o with
      en := bit v 31, pol := bit v 30, thrEn := bit v 29, index := bf v 16 11
      kind := if 6 ≤ fld v 0 3 then o.kind else bf v 0 3 }
    if n.kind = o.kind ∧ n.index = o.index then n
    else
      let src := n.kind == 3 && srcLevel d n.index.toNat
      { n with gatePrev := gateLevel d n src, srcPrev := src }) d

/-! ### Captures (R254, R255) -/

/-- Capture unit `c` receives an occurrence of source `s`. -/
def capDeliver (c s : Nat) (d : Dev) : Dev :=
  let u := at? d.tb.caps c {}
  if !u.en then d else
  let u1 := { u with count := satInc u.count, ovr := u.ovr || u.full }
  if u.full ∧ u.first then updCap c (fun _ => u1) d
  else
    let u2 := { u1 with
      full := true, time := d.tb.now, src := BitVec.ofNat 11 s
      gc := if u.gcEn then (at? d.tb.gcs u.gcSel.toNat {}).count else u.gc }
    raiseNext (0x170 + c) (updCap c (fun _ => u2) d)

end Sys2Proof.Machine
end

