-- ==== Sys2Proof/Machine/Delivery.lean ====
section
/-!
DEFINITION. Sys2Proof/Machine/Delivery.lean: what the router does with an occurrence at its targets (08_events.md): engine
inputs, Steward larders, bin triggers, host event bits, lane actions, captures, the landing larder.
-/
namespace Sys2Proof.Machine

/-- Set a host event bit (R277). -/
def hostEvent (i : Nat) : Dev → Dev :=
  updEv fun v => { v with hstat := upd? v.hstat (i / 32) fun w => setBit w (i % 32) true }

/-- Add an occurrence to a list keyed by engine and input; none when it would need a new entry beyond `lim` (R280, R186). -/
def addKeyed (e : Fin 32) (j : Fin 16) (lim : Nat) (l : List LandEntry) : Option (List LandEntry) :=
  if l.any fun x => x.eng == e && x.inp == j then
    some (l.map fun x => if x.eng = e ∧ x.inp = j then { x with count := satInc x.count } else x)
  else if l.length < lim then some (l ++ [{ eng := e, inp := j, count := 1 }])
  else none

/-- Hold an occurrence for a dormant or waking cluster in the landing larder (R280, R281). -/
def landingHold (e : Fin 32) (j : Fin 16) (d : Dev) : Dev :=
  match addKeyed e j 32 d.ev.landing with
  | some l => requestWake (e / 4) (updEv (fun v => { v with landing := l }) d)
  | none => raise 0x606 (updEv (fun v => { v with landDrop := satInc v.landDrop }) d)

/-- An occurrence for a deep-dormant cluster is dropped (R282). -/
def deepDrop (k : Nat) (d : Dev) : Dev :=
  raise 0x606 (updEv (fun v => { v with deepCount := satInc v.deepCount, deepCl := setBit v.deepCl k true }) d)

/-- Delivery to an engine input (R270, R280 to R282, R185) of an occurrence raised in clk `clk`: a fencing cluster holds or
drops what was raised from the start of its fence on (R608). -/
def deliverEngine (e : Fin 32) (j : Fin 16) (clk : Nat) (d : Dev) : Dev :=
  let k := e.val / 4
  let cl := at? d.pwr.cls k {}
  let st := if cl.st = .fencing ∧ cl.fence ≤ clk then .dormant else cl.st
  let l := (engine d e).life
  if l.st = .cutover ∧ l.xpend.isSome then
    updEv (fun v => { v with cutHeld := (addKeyed e j 512 v.cutHeld).getD v.cutHeld }) d
  else match st with
    | .dormant => if at? d.cfg.clusterPolicy k 0 = 2 then deepDrop k d else landingHold e j d
    | .waking => if at? d.cfg.clusterPolicy k 0 = 2 then deepDrop k d else landingHold e j d
    | _ =>
      -- while held entries of the cluster remain, an occurrence joins its own or queues behind them (R281)
      if d.ev.landing.any fun x => x.eng.val / 4 == k then landingHold e j d else addInput e j 1 d

/-- Delivery to line `j` of core `c` (R272). -/
def deliverSteward (c j s : Nat) (time : Word) (d : Dev) : Dev :=
  let q := at? d.ev.larders c {}
  let upd (f : Larder → Larder) (d : Dev) : Dev := updEv (fun v => { v with larders := upd? v.larders c f }) d
  let mine (x : LarderEntry) : Bool := x.src.toNat == s && x.line.toNat == j
  if q.entries.any mine then
    upd (fun q => { q with entries := q.entries.map fun x => if mine x then { x with count := satInc x.count } else x }) d
  else if q.entries.length < (at? d.cfg.larderLimit c 0).toNat then
    upd (fun q => { q with entries := q.entries ++ [{ src := BitVec.ofNat 11 s, line := BitVec.ofNat 5 j
                                                      l2 := bit (at? d.cfg.l2Lines c 0) j, count := 1, time := time }] }) d
  else raiseIf (!q.lostf) 0x605 (upd (fun q => { q with lost := satInc q.lost, lostf := true }) d)

/-- Delivery of source `s` to one target (R60, R267). -/
def deliver (s : Nat) (time : Word) (clk : Nat) (t : Half) (d : Dev) : Dev :=
  let i := fld t 0 12
  match fld t 12 4 with
  | 1 => if h : i / 16 < 32 then deliverEngine ⟨i / 16, h⟩ ⟨i % 16, Nat.mod_lt _ (by decide)⟩ clk d else d
  | 2 => deliverSteward (i / 32) (i % 32) s time d
  | 3 => trigDeliver i s d
  | 4 => hostEvent i d
  | 5 => laneAction (i / 4) (i % 4) d
  | 6 => capDeliver i s d
  | _ => d

/-- The occurrence raised first reaches its targets two clk after it was raised, TGT0 before TGT1 (R267, R269), while fclk runs (R28). -/
def eventDelivery (d0 : Dev) : Dev :=
  if !d0.sys.fclkOn then d0 else
  let d := match d0.ev.flights, d0.ev.soon with | [], x :: _ => passTo x.1 d0 | _, _ => d0
  match d.ev.flights with
  | [] => d
  | f :: _ =>
    let d1 := updEv (fun v => { v with flights := v.flights.erase f }) (passTo (f.clk + 2) d)
    deliver f.src.toNat f.time f.clk f.tgt1 (deliver f.src.toNat f.time f.clk f.tgt0 d1)

/-- The first entry a read at level `l` may take (R275): level 2 and 1 take their own, level 0 and 3 the oldest. -/
def qualifies (l : Nat) (x : LarderEntry) : Bool := if l = 2 then x.l2 else if l = 1 then !x.l2 else true

/-- The word EV_LPOPc_LO returns for an entry (R283). -/
def larderWord (x : LarderEntry) : Word :=
  pack [(31, 1), (30, b2n x.l2), (16, x.count.toNat), (11, x.line.toNat), (0, x.src.toNat)]

/-- Core `c` running at level `l` pops an entry (R275): the word, and the larder without the entry. -/
def larderPop (c l : Nat) (d : Dev) : Word × Dev :=
  let q := at? d.ev.larders c {}
  match q.entries.find? (qualifies l) with
  | none => (0, d)
  | some x =>
    (larderWord x, updEv (fun v => { v with larders := upd? v.larders c fun q => { q with entries := q.entries.erase x, popTime := x.time } }) d)

/-- A write of EV_SOFTSETg (R263). -/
def softSet (g : Nat) (v : Word) (d : Dev) : Dev :=
  (setBits v 32).foldl (fun d i => raise (0x700 + 32 * g + i) d)
    (updEv (fun x => { x with softLvl := upd? x.softLvl g fun w => w ||| v }) d)

/-- A write of EV_SOFTCLRg (R263). -/
def softClr (g : Nat) (v : Word) : Dev → Dev := updEv fun x => { x with softLvl := upd? x.softLvl g fun w => w &&& ~~~v }

/-- The host event groups with a pending bit, as SYS_INTSUM.GROUP shows them (R284). -/
def pendingGroups (d : Dev) : Byte :=
  (List.range 8).foldl (fun v g => setBit v g (at? d.ev.hstat g 0 &&& at? d.ev.hen g 0 != 0)) 0

/-- INTA is requested (R278): on a manager or a standby manager, IEN set and a bit pending. -/
def intaRequest (d : Dev) : Bool := (d.sys.role == 0 || d.sys.role == 2) && d.ev.ien && pendingGroups d != 0

end Sys2Proof.Machine
end

