-- ==== Sys2Proof/Machine/Steward.lean ====
section
/-!
DEFINITION. Sys2Proof/Machine/Steward.lean: what a Steward core holds and how it changes state outside its instructions
(10_steward_isa.md, 11_steward_keys_exceptions.md): keys, sealed regions, exception entry, faults, freezing, thawing and the core warm reset.
-/
namespace Sys2Proof.Machine

/-- Core `c`. -/
def core (d : Dev) (c : Nat) : Core := at? d.cores c {}
/-- Change core `c`. -/
def updCore (c : Nat) (f : Core → Core) (d : Dev) : Dev := { d with cores := upd? d.cores c f }

/-! ### Keys (R373, R374) -/

def Key.base (k : Key) : Nat := fld k.val 0 32
def Key.len (k : Key) : Nat := fld k.val 32 32
def Key.cursor (k : Key) : Nat := fld k.val 64 32
def Key.perm (k : Key) : Half := bf k.val 96 16
def Key.otype (k : Key) : Nat := fld k.val 112 12
def Key.sealed (k : Key) : Bool := bit k.val 124
/-- The key carries permission bit `i`. -/
def Key.may (k : Key) (i : Nat) : Bool := bit k.val (96 + i)

def permR : Nat := 0
def permW : Nat := 1
def permX : Nat := 2
def permLK : Nat := 3
def permSK : Nat := 4
def permSYS : Nat := 5
def permSAFE : Nat := 6
def permFREEZE : Nat := 7
def permSEAL : Nat := 8
def permUNSEAL : Nat := 9
def permGATE : Nat := 10

/-- A key from its fields. -/
def mkKey (base len cursor perm otype : Nat) (sealed tag : Bool) : Key :=
  { val := BitVec.ofNat 128 (base % 2 ^ 32 + (len % 2 ^ 32) * 2 ^ 32 + (cursor % 2 ^ 32) * 2 ^ 64 + (perm % 2 ^ 16) * 2 ^ 96 +
      (otype % 2 ^ 12) * 2 ^ 112 + b2n sealed * 2 ^ 124), tag := tag }

/-- The key with another cursor. -/
def Key.withCursor (k : Key) (v : Nat) : Key :=
  { k with val := mergeBits (BitVec.ofNat 128 ((2 ^ 32 - 1) * 2 ^ 64)) k.val (BitVec.ofNat 128 ((v % 2 ^ 32) * 2 ^ 64)) }

/-- The key unsealed (R381, R401). -/
def Key.unsealed (k : Key) : Key := mkKey k.base k.len k.cursor k.perm.toNat 0 false k.tag

/-- Key register `i` of a core: 0 to 7 K0 to K7, 8 PCK, 9 VKEY, 10 to 12 SPK1 to SPK3 (R424). -/
def Core.key (k : Core) (i : Nat) : Key :=
  if i < 8 then at? k.k i {} else if i = 8 then k.pck else if i = 9 then k.vkey else if i < 13 then (at? k.sets (i - 10) {}).spk else {}

/-- Write key register `i` (0 to 7 K0 to K7, 8 PCK, 9 VKEY, 10 to 12 SPK1 to SPK3). -/
def Core.setKey (i : Nat) (v : Key) (k : Core) : Core :=
  if i < 8 then { k with k := put? k.k i v } else if i = 8 then { k with pck := v } else if i = 9 then { k with vkey := v }
  else if i < 13 then { k with sets := upd? k.sets (i - 10) fun s => { s with spk := v } } else k

/-! ### STATUS (R332) -/

def Core.rm (k : Core) : Nat := fld k.status 8 2
def Core.mask (k : Core) : Nat := fld k.status 10 2
def Core.lvl (k : Core) : Nat := fld k.status 12 2
def Core.setLvl (n : Nat) (k : Core) : Core :=
  { k with status := mergeBits 0x3000 k.status (BitVec.ofNat 15 (n * 2 ^ 12)) }
def Core.setMask (n : Nat) (k : Core) : Core :=
  { k with status := mergeBits 0x0C00 k.status (BitVec.ofNat 15 (n % 4 * 2 ^ 10)) }
def Core.gdepth (k : Core) : Nat := k.gates.length

/-! ### The Steward view (R31) and sealed regions (R385, R386) -/

def mboxBase : Nat := 0x30000000
def cellarBase : Nat := 0x10000000
def regBase : Nat := 0x20000000
def inLocal (a : Nat) : Bool := a < 0x40000
def inCellar (a : Nat) : Bool := cellarBase ≤ a && a < cellarBase + 0x800000
def inRegs (a : Nat) : Bool := regBase ≤ a && a < regBase + 0x100000
def inMbox (a : Nat) : Bool := mboxBase ≤ a && a < mboxBase + 0x10000

/-- Compartment `q` owns a sealed region on core `c`. -/
def sealedComp (d : Dev) (c : Nat) (q : Byte) : Bool := d.cfg.regions.any fun r => r.core.toNat == c && r.compartment == q

/-- Core `c` runs in a sealed compartment. -/
def inSealed (d : Dev) (c : Nat) : Bool := sealedComp d c (core d c).comp

/-- Core `c` in compartment `q` may touch the `n` bytes at `a` (R386). -/
def regionOk (d : Dev) (c : Nat) (q : Byte) (a n : Nat) : Bool :=
  d.cfg.regions.all fun r =>
    let lo := r.base.toNat
    let hi := lo + r.len.toNat
    let meets := a < hi && lo < a + n && (inMbox lo || r.core.toNat == c)
    !meets || (r.core.toNat == c && r.compartment == q)

/-! ### Local memory and mailbox (R375) -/

/-- `n` bytes of local memory or mailbox at `a`, little-endian. -/
def memRead (d : Dev) (c a n : Nat) : Nat :=
  if inMbox a then rdLE d.mbox (a - mboxBase) n else rdLE (core d c).mem a n

/-- The granules the `n` bytes at `a` touch. -/
def granules (a n : Nat) : List Nat := if n = 0 then [] else (List.range ((a + n - 1) / 16 - a / 16 + 1)).map (· + a / 16)

/-- Set the tag of the granule at `a`. -/
def setTag (c a : Nat) (t : Bool) (d : Dev) : Dev :=
  if inMbox a then { d with mtags := store false d.mtags ((a - mboxBase) / 16) t }
  else updCore c (fun k => { k with tags := store false k.tags (a / 16) t }) d

/-- The tag of the granule at `a`. -/
def tagAt (d : Dev) (c a : Nat) : Bool :=
  if inMbox a then look false d.mtags ((a - mboxBase) / 16) else look false (core d c).tags (a / 16)

/-- A store to granules loses the reservations on them: a core's own for local memory, every core's for the mailbox (R360). -/
def loseResv (c a n : Nat) (d : Dev) : Dev :=
  let gs := granules a n
  let lose (k : Core) : Core := match k.resv with | some (g, _) => if g ∈ gs then { k with resv := none } else k | none => k
  if inMbox a then { d with cores := d.cores.map lose } else updCore c lose d

/-- Write `n` bytes of local memory or mailbox: the tags of the granules clear (R375) and reservations on them are lost. -/
def memWrite (c a n v : Nat) (d0 : Dev) : Dev :=
  let d := (granules a n).foldl (fun d g => setTag c (16 * g) false d) (loseResv c a n d0)
  if inMbox a then { d with mbox := wrLE d.mbox (a - mboxBase) n v }
  else updCore c (fun k => { k with mem := wrLE k.mem a n v }) d

/-! ### The fault 0x0C (R397, R420) -/

/-- The fault 0x0C that is due at the next instruction boundary, by its detail: 0 tick budget (R420), 1 gate limit (R397). -/
def Core.dueFault (k : Core) : Option Nat :=
  if k.tickActive && k.tickCount && k.tbudget != 0 && k.tbudget.toNat ≤ k.tbudcnt.toNat then some 0
  else if k.gates.any fun g => g.limited && g.left == 0 then some 1
  else none

/-! ### Freezing (R413, R422) -/

/-- ST_FRZ (R424). -/
def Core.frzWord (k : Core) : Word := pack [(16, k.frzDetail.toNat), (8, k.frzSecond.toNat), (0, k.frzCause.toNat)]

/-- Core `c` freezes: registers and freeze record (R413, R422, R614). -/
def freezeCore (c cause second detail addr : Nat) (d : Dev) : Dev :=
  let d1 := updCore c (fun k => { k with
    frozen := true, frzCause := BitVec.ofNat 8 cause, frzSecond := BitVec.ofNat 8 second, frzDetail := BitVec.ofNat 8 detail
    frzAddr := BitVec.ofNat 32 addr }) d
  let k := core d1 c
  freezeRecord (0x20 + c) cause false false k.frzWord.toNat k.frzAddr.toNat d1

/-! ### Exception entry (R398 to R404) -/

/-- CAUSEn (R404). -/
def causeWord (source detail code level : Nat) : Word := pack [(16, source % 65536), (8, detail % 256), (2, code), (0, level)]

/-- Steps 5 and 6 of R401: the level, then VKEY. A failed check is a double fault (R413). -/
def enterVector (c n : Nat) (d0 : Dev) : Dev :=
  let d := updCore c (fun k => (k.setLvl n).setFlag stRP false) d0
  let v := (core d c).vkey
  let bad := if !v.tag then 1 else if !v.sealed then 4 else if !v.may permX then 3 else 0
  if bad ≠ 0 then freezeCore c 0x3F bad 0 (v.base + v.cursor) d
  else updCore c (fun k => { k with comp := k.vcomp, pck := v.unsealed, pc := BitVec.ofNat 32 v.cursor }) d

/-- Entry to level `n` (R401): the save set, the cause, then the vector. It takes 6 slots. `pc` is the resume PC (R402). -/
def enterLevel (c n code detail source addr : Nat) (pc : Word) (d0 : Dev) : Dev :=
  let d := updCore c (fun k0 =>
    let k := { landAll k0 with resv := none }
    { k with sets := upd? k.sets (n - 1) fun _ =>
        { spc := pc, spk := k.pck, sa := k.a, status := k.status, comp := k.comp, gdepth := BitVec.ofNat 5 k.gdepth
          cause := causeWord source detail code n, causeAddr := BitVec.ofNat 32 addr } }) d0
  updCore c (slots 6) (enterVector c n d)

/-- The frame of a gate call (R394), as memory holds it: K7, PCK, return PC, caller's compartment. -/
def readFrame (d : Dev) (c : Nat) (f : Word) : Key × Key × Word × Byte :=
  let a := f.toNat
  ({ val := BitVec.ofNat 128 (memRead d c a 16), tag := tagAt d c a },
   { val := BitVec.ofNat 128 (memRead d c (a + 16) 16), tag := tagAt d c (a + 16) },
   BitVec.ofNat 32 (memRead d c (a + 32) 4), BitVec.ofNat 8 (memRead d c (a + 36) 1))

/-- The abort of a sealed compartment's call (R416), in 8 slots. RP stays as it is (DEDUCED, log entry 52). The second result is the caller's return PC (R417). -/
def abortSealed (c : Nat) (d : Dev) : Dev × Word :=
  let k := landAll (core d c)
  match k.gates.getLast? with
  | none => (d, k.pc)
  | some g =>
    let (k7, pck, ret, comp) := readFrame d c g.frame
    (updCore c (fun _ => slots 8 { k with
      k := (Vector.replicate 8 {}).set 7 k7, a := 0, x := 0, y := 0, cnt := 0, mpg := 0, mph := 0, mpl := 0
      status := k.status &&& 0x7FE0, pck := pck, comp := comp, gates := k.gates.dropLast, abort := true, resv := none }) d, ret)

/-- A fault of level 3 is raised (R412 to R418): in a sealed compartment the call is aborted first, and at level 3 it is a
double fault. `pc` is the resume PC. -/
def raiseFault (c code detail source addr : Nat) (pc : Word) (d : Dev) : Dev :=
  let dbl := (core d c).lvl = 3
  if inSealed d c then
    let (d1, ret) := abortSealed c d
    if dbl then freezeCore c 0x3F code detail addr d1 else enterLevel c 3 code detail source 0 ret d1
  else if dbl then freezeCore c 0x3F code detail addr d
  else enterLevel c 3 code detail source addr pc d

/-- Fault 0x0C becomes due (R397, R420): it is raised at the instruction boundary and the count stops. -/
def raiseDue (c : Nat) (d : Dev) : Dev :=
  let k := core d c
  match k.dueFault with
  | none => d
  | some det =>
    let stop (k : Core) : Core :=
      if det = 0 then { k with tickCount := false, tbudmax := if k.tbudmax.toNat < k.tbudcnt.toNat then k.tbudcnt else k.tbudmax }
      else { k with gates := k.gates.map fun g => if g.limited && g.left == 0 then { g with limited := false } else g }
    raiseFault c 0x0C det k.gdepth k.pc.toNat k.pc
      (updCore c (fun k => stop { k with st := if k.st = .waiting then .running else k.st }) d)

/-- The asynchronous request that is taken now (R399, R400): level, code, detail, source, address. -/
def asyncRequest (d : Dev) (c : Nat) : Option (Nat × Nat × Nat × Nat × Nat) :=
  let k := core d c
  let takeable (l : Nat) : Bool := k.lvl < l && k.mask < l && !inSealed d c
  let q := (at? d.ev.larders c {}).entries
  if takeable 2 && k.busPend then
    some (2, 0x20, k.busDetail.toNat, min 65535 (1 + k.busMore.toNat), if k.busSealed then 0 else k.busAddr.toNat)
  else if takeable 2 && k.tickPend then some (2, 0x32, 0, 0x600, 0)
  else match if takeable 2 then q.find? (·.l2) else none with
    | some e => some (2, 0x31, 0, e.src.toNat, 0)
    | none =>
      match if takeable 1 then q.find? (!·.l2) else none with
      | some e => some (1, 0x30, 0, e.src.toNat, 0)
      | none => none

/-- The core issues instructions: it runs, is not frozen and the clock is on. -/
def coreIssues (d : Dev) (c : Nat) : Bool :=
  let k := core d c
  d.sys.fclkOn && d.sys.wEnd.isNone && !k.frozen && k.st == .running

/-- A pending asynchronous request is taken (R401, R402). Taking 0x20 clears PENDING and MORE (R407); taking the tick begins
its budget count (R420). -/
def exceptionEntry (c : Nat) (d : Dev) : Dev :=
  let k := core d c
  if k.frozen ∨ ¬ (k.st = .running ∨ k.st = .waiting) ∨ k.dueFault.isSome then d else
  match asyncRequest d c with
  | none => d
  | some (l, code, det, source, addr) =>
    let d1 := updCore c (fun k =>
      let k1 := { k with st := .running }
      if code = 0x20 then { k1 with busPend := false, busMore := 0 }
      else if code = 0x32 then { k1 with tickPend := false, tickActive := true, tickCount := true, tbudcnt := 0 }
      else k1) d
    enterLevel c l code det source addr k.pc d1

/-- ST_LIFE.FREEZE (R422). A core that issues nothing has no instruction boundary to freeze at (DEDUCED, log entry 21). -/
def stFreeze (c : Nat) (d : Dev) : Dev :=
  let k := core d c
  if k.frozen ∨ ¬ (k.st = .running ∨ k.st = .waiting) then d else freezeCore c 0x3E 0 0 k.frzAddr.toNat d

/-- Core `c` is thawed (R423). After a double fault it enters level 3: multiplies in flight land and the reservation is lost (R352,
R360). -/
def stThaw (c : Nat) (d : Dev) : Dev :=
  let k := core d c
  if !k.frozen then d
  else if k.frzCause = 0x3F then
    enterVector c 3 (updCore c (fun k => { landAll k with frozen := false, st := .running, resv := none, sets := upd? k.sets 2 fun s =>
      { s with cause := causeWord 0 k.frzSecond.toNat 0x3F 3, causeAddr := k.frzAddr } }) d)
  else updCore c (fun k => { k with frozen := false }) d

/-- A refused store (R389): KIND 1 SYS, 2 FREEZE, 3 SAFE. -/
def stDeny (c : Nat) (kind : BitVec 4) : Dev → Dev :=
  updCore c fun k => { k with denyKind := kind, denyCount := satInc k.denyCount }

/-! ### Keys at commit, core warm reset (R383, R384, R388, R431) -/

/-- Install the committed KEYROOT keys of core `c` and set its compartments (R383, R384). -/
def installKeys (c : Nat) (d : Dev) : Dev :=
  (d.cfg.keys.filter fun e => e.core.toNat == c).foldl (fun d e =>
    updCore c (fun k =>
      let k1 := k.setKey e.reg.toNat { val := e.key, tag := true }
      if e.reg = 8 then { k1 with comp := e.compartment } else if e.reg = 9 then { k1 with vcomp := e.compartment } else k1) d) d

/-- Core `c` starts as its START bit says (R88, R388). -/
def startCore (c : Nat) (d : Dev) : Dev := updCore c (Core.start (bit d.cfg.started c)) d

/-- Void every open reservation of core `c` with LOST set and cancel its waiting requests. -/
def voidCore (c : Nat) (d : Dev) : Dev :=
  let d1 := d.cfg.bins.foldl (fun d (b, e) =>
    if coreOwns c e then ((bin d b).ownerRecs).foldl (fun d r => voidRec b e r d) d else d) d
  updCl (fun l => { l with bins := l.bins.map fun x =>
    { x with waiting := x.waiting.filter fun w => match w with | .steward k .. => k.val != c | .engine .. => true } }) d1

/-- A core warm reset begins (R431, R432): registers at their W values, tags cleared, memory bytes kept, reservations voided,
the larder emptied and the port sets at their W values; what their write queues hold has left the core and is written. It lasts 256
clk. -/
def coreWarmReset (c : Nat) (d : Dev) : Dev :=
  let d1 := voidCore c d
  let d2 := updCore c (fun k =>
    let dbl := k.frozen && k.frzCause == 0x3F
    { st := .inReset, mem := k.mem, tbudget := k.tbudget, tbudNext := k.tbudNext
      frzCause := if dbl then k.frzCause else 0, frzSecond := if dbl then k.frzSecond else 0
      frzDetail := if dbl then k.frzDetail else 0, frzAddr := if dbl then k.frzAddr else 0 }) d1
  { d2 with
    ls := upd? d2.ls c fun l => { l with resetEnd := d2.clk + 256 }
    cl := { d2.cl with ports := upd? d2.cl.ports c fun v => v.map fun p => { queue := p.queue, wait := p.wait } }
    ev := { d2.ev with larders := put? d2.ev.larders c {} } }

/-! ### What a tick boundary does to a core (R20 actions 3 and 6, R419 to R421) -/

/-- A staged tick budget takes effect. -/
def coreApply (k : Core) : Core := { k with tbudget := k.tbudNext.getD k.tbudget, tbudNext := none }

/-- The tick request is posted; one that is still pending is a missed tick (R419). -/
def postTick (k : Core) : Core :=
  if k.tickPend then { k with tmiss := satInc k.tmiss } else if k.tbudget = 0 then k else { k with tickPend := true }

end Sys2Proof.Machine
end

