-- ==== Sys2Proof/Machine/Bist.lean ====
section
/-!
DEFINITION. Sys2Proof/Machine/Bist.lean: the self-test controller (R452 to R461).
-/
namespace Sys2Proof.Machine

/-- Change the BIST block. -/
def updBist (f : Bist → Bist) (d : Dev) : Dev := { d with bist := f d.bist }

/-- The expected signature of a kind (R458); kind 0x6 expects no failed row (R457). -/
def bistExpected (kind : Nat) : DWord :=
  match kind with
  | 1 => 0x3C1D0B7EA25496F8
  | 2 => 0x71A0C3E90D58B244
  | 3 => 0xB8F14A06C27D915E
  | 4 => 0x6D2C98E305BA4F17
  | 5 => 0xE4A91F703C86D25B
  | 7 => 0x5B07E2C419AF630D
  | 8 => 0x8A53F71C2E09B6D4
  | 0xF => 0xC7B26E1954F08A3D
  | _ => 0

/-- KIND and INDEX name a target of R454. -/
def bistKnown (kind idx : Nat) : Bool :=
  match kind with
  | 1 => idx < 8
  | 2 => idx < 32
  | 3 => idx < 64
  | 4 => idx < 32
  | 5 => idx < 16
  | 6 => idx < 16
  | 7 => idx < 4
  | 8 => idx == 0
  | 0xF => idx == 0
  | _ => false

/-- The engine does nothing and belongs to no program: UNUSED, SPARE or VACATED. -/
def engIdle (d : Dev) (e : Nat) : Bool := engSt d e == .unused || engSt d e == .spare || engSt d e == .vacated

/-- A committed bin overlaps Cellar bank `k` (512 KiB each, R286). -/
def binOnBank (d : Dev) (k : Nat) : Bool :=
  d.cfg.bins.any fun (_, c) => decide (c.base.toNat < (k + 1) * 2 ^ 19) && decide (k * 2 ^ 19 < c.base.toNat + c.size.toNat)

/-- Every condition of the target's row of R454 holds. -/
def bistEligible (d : Dev) (kind idx : Nat) : Bool :=
  match kind with
  | 1 => (at? d.pwr.cls idx {}).st == .dormant
  | 2 => engIdle d idx && !inXplant d idx
  | 3 =>
    let g := engine d (idx / 2)
    (engIdle d (idx / 2) || g.seq.bank != (idx % 2 == 1)) && g.life.rpPend.isNone && !inXplant d (idx / 2)
  | 4 => engIdle d idx
  | 5 => !binOnBank d idx
  | 6 => (at? d.cl.banks idx {}).sparesUsed != 32 && (at? d.cl.banks idx {}).repairing.isNone
  | 7 => (at? d.cores idx {}).st == .disabled || !bit d.cfg.started idx
  | 8 => d.cfg.started == 0 || !d.committed
  | _ => d.trl.st == .empty || d.trl.st == .rejected

/-- A memory test leaves every word of its target zero (R452). -/
def bistZero (kind idx : Nat) (d : Dev) : Dev :=
  let core (c : Nat) : Dev → Dev := updCore c fun k => { k with mem := [], tags := [] }
  match kind with
  | 2 => updEng idx (fun g => { g with cs0 := [], cs1 := [], scr := [] }) d
  | 3 => updEng (idx / 2) (fun g => if idx % 2 = 1 then { g with cs1 := [] } else { g with cs0 := [] }) d
  | 4 => updEng idx (fun g => { g with scr := [] }) d
  | 5 => updCl (fun l => { l with mem := zeroBytes l.mem (idx * 2 ^ 19) (2 ^ 19) }) d
  | 7 => core idx d
  | 8 => { d with mbox := [], mtags := [] }
  | 0xF =>
    let d1 := (List.range 4).foldl (fun d c => core c d) { d with mbox := [], mtags := [] }
    let clear (g : Engine) : Engine := { g with cs0 := [], cs1 := [], scr := [] }
    let d2 := { d1 with engines := d1.engines.map clear }
    updCl (fun l => { l with mem := [] }) { d2 with trl := { d2.trl with st := .resetting } }
  | _ => d

/-- A test starts. -/
def bistStart (kind idx : Nat) (rot : Bool) (d : Dev) : Dev :=
  bistZero kind idx (updBist (fun b => { b with
    run := some { kind := BitVec.ofNat 4 kind, index := BitVec.ofNat 8 idx, rot := rot }
    rot := rot, index := BitVec.ofNat 8 idx, kind := BitVec.ofNat 4 kind }) d)

/-- A write of SYS_BIST_CMD (R453, R455, R462). -/
def bistCmd (v : Word) (d : Dev) : Dev :=
  if !bit v 31 then d else
  let kind := fld v 0 4
  let idx := fld v 8 8
  let refuse (r : BitVec 3) : Dev := updBist (fun b => { b with result := r }) d
  if d.bist.run.isSome then refuse 5
  else if !bistKnown kind idx then refuse 6
  else if d.bist.frozen || !bistEligible d kind idx then refuse 7
  else bistStart kind idx false d

/-- The running test, when `p` holds of it, is aborted (R456): its logic state is restored. -/
def bistAbort (p : Nat → Nat → Bool) (d : Dev) : Dev :=
  match d.bist.run with
  | some r =>
    if p r.kind.toNat r.index.toNat then
      raiseIf (!r.rot) 0x618 (updBist (fun b => { b with run := none, result := 4 }) d)
    else d
  | none => d

/-- A transplant or replant names engine `e` (R456). -/
def bistAbortEngine (e : Nat) : Dev → Dev := bistAbort fun k i => (k == 2 && i == e) || (k == 3 && i / 2 == e)
/-- A write to control-store bank `b` of engine `e`. -/
def bistAbortBank (e : Nat) (b : Bool) : Dev → Dev := bistAbort fun k i => (k == 2 && i == e) || (k == 3 && i == 2 * e + b2n b)
/-- A repair or a partial BINS needs Cellar bank `k`. -/
def bistAbortCellar (c : Nat) : Dev → Dev := bistAbort fun k i => (k == 5 || k == 6) && i == c
/-- A row repair of a Cellar bank begins or waits, ending a test that has the bank (R326, R456); a request that R328 discards needs no
bank. -/
def repairBegin (bank : Nat) (row : BitVec 9) (d : Dev) : Dev :=
  repairRequest bank row (if (at? d.cl.banks bank {}).sparesUsed = 32 then d else bistAbortCellar bank d)

/-- A write of CL_REPAIR (R326). -/
def clRepair (v : Word) (d : Dev) : Dev := if bit v 31 then repairBegin (fld v 16 4) (bf v 0 9) d else d

/-- A tracked row whose count has reached THR is repaired (R326). -/
def repairStart (bank : Nat) (row : BitVec 9) (d : Dev) : Dev :=
  let thr := d.cl.repairThr
  if d.sys.fclkOn ∧ thr ≠ 0 ∧ (at? d.cl.banks bank {}).track.any fun x => x.1 == row && thr.toNat ≤ x.2.toNat then
    repairBegin bank row (updBank bank (fun k => { k with track := k.track.filter (·.1 ≠ row) }) d)
  else d

/-- Cluster `c` wakes (R456, R612). -/
def bistAbortCluster (c : Nat) : Dev → Dev :=
  bistAbort fun k i => (k == 1 && i == c) || ((k == 2 || k == 4) && i / 4 == c) || (k == 3 && i / 8 == c)

/-- The bit of a rotating test's target in the BIST_ROTFAIL registers (R459). -/
def rotFail (kind idx : Nat) (b : Bist) : Bist :=
  match kind with
  | 1 => { b with failOth := setBit b.failOth idx true }
  | 2 => { b with failEng := setBit b.failEng idx true }
  | 3 => { b with failEng := setBit b.failEng (idx / 2) true }
  | 7 => { b with failOth := setBit b.failOth (8 + idx) true }
  | _ => { b with failOth := setBit b.failOth (16 + idx) true }

/-- A test ends with its MISR (R457), or freezes the controller on an uncorrectable word of pattern memory (R615). -/
def bistEnd (sig : DWord) (patternUe : Bool) (d : Dev) : Dev :=
  match d.bist.run with
  | none => d
  | some r =>
    if d.bist.frozen ∨ !d.sys.fclkOn then d else
    if patternUe then
      let (w, d1) := takeFree d
      freezeRecord 0x27 0x43 false false 0 (w.toNat % 2 ^ 32) (updBist (fun b => { b with frozen := true }) d1)
    else
      let kind := r.kind.toNat
      let idx := r.index.toNat
      let ex := bistExpected kind
      let ok := sig == ex
      let d1 := updBist (fun b =>
        let b1 := { b with run := none, result := if ok then 1 else 2, sig := sig, exp := ex }
        if r.rot && !ok then rotFail kind idx b1 else b1) d
      let rec0 := leBytes 8 sig.toNat ++ leBytes 8 d.tb.now.toNat ++ [BitVec.ofNat 8 kind, BitVec.ofNat 8 idx, if ok then 1 else 2]
      let d2 := { d1 with rc := wrBytes d1.rc 0x180 rec0 }
      let d3 := if kind = 6 then
          updBank idx (fun k => { k with sparesUsed := BitVec.ofNat 6 (min 32 (k.sparesUsed.toNat + sig.toNat)) }) d2
        else if kind = 2 ∧ ok ∧ engSt d2 idx = .vacated then
          updLife idx (fun l => { l with st := .spare }) { d2 with cfg := { d2.cfg with spare := setBit d2.cfg.spare idx true } }
        else if kind = 0xF then { d2 with trl := { d2.trl with st := .empty } }
        else d2
      raiseIf (!r.rot || !ok) 0x618 d3

/-- The fixed order of rotating targets (R459). -/
def rotOrder : List (Nat × Nat) :=
  (List.range 8).map (1, ·) ++ (List.range 32).map (2, ·) ++ (List.range 64).map (3, ·) ++ (List.range 16).map (5, ·) ++
    (List.range 16).map (6, ·) ++ (List.range 4).map (7, ·)

/-- The target may be tested by a rotating test now. -/
def rotEligible (d : Dev) (x : Nat × Nat) : Bool :=
  bit d.bist.rotMask (x.1 - 1) && bistEligible d x.1 x.2 &&
    (x.1 != 3 || (engSt d (x.2 / 2) == .running && (engine d (x.2 / 2)).seq.bank != (x.2 % 2 == 1)))

/-- ROTATING_TEST (R459): at every INTERVAL-th boundary the next eligible target is tested, unless a test runs. -/
def rotatingTest (d0 : Dev) : Dev :=
  let b := d0.bist
  if !d0.sys.fclkOn ∨ !b.rotEn ∨ b.rotInterval = 0 ∨ b.rotCount < b.rotInterval.toNat then d0 else
  let d := updBist (fun b => { b with rotCount := b.rotCount - b.rotInterval.toNat }) d0
  if b.run.isSome ∨ b.frozen then d else
  let i := (rotOrder.findIdx? fun x => x == (b.posKind.toNat, b.posIndex.toNat)).getD 0
  let cyc := rotOrder.drop i ++ rotOrder.take i
  match cyc.findIdx? (rotEligible d) with
  | none => d
  | some j =>
    let x := cyc[j]?.getD (1, 0)
    let nxt := (cyc ++ cyc)[j + 1]?.getD (1, 0)
    bistStart x.1 x.2 true (updBist (fun b => { b with posKind := BitVec.ofNat 4 nxt.1, posIndex := BitVec.ofNat 8 nxt.2 }) d)

end Sys2Proof.Machine
end

