-- ==== Sys2Proof/Machine/Power.lean ====
section
/-!
DEFINITION. Sys2Proof/Machine/Power.lean: dormant clusters and the powering of Cellar banks (R288, R605 to R613).
-/
namespace Sys2Proof.Machine

/-- Cluster `k`. -/
def cluster (d : Dev) (k : Nat) : Cluster := at? d.pwr.cls k {}
/-- Change cluster `k`. -/
def updCluster (k : Nat) (f : Cluster → Cluster) (d : Dev) : Dev := { d with pwr := { d.pwr with cls := upd? d.pwr.cls k f } }

/-- The policy of a cluster as PWR_CLk.POLICY shows it (R623): DORMANT while no Trellis is committed. -/
def policyOf (d : Dev) (k : Nat) : Nat := if d.committed then (at? d.cfg.clusterPolicy k 0).toNat else 1

/-- The cluster is eligible for dormancy (R607). -/
def dormancyOk (d : Dev) (k : Nat) : Bool :=
  (!d.committed || (d.cfg.power == 1 && (policyOf d k == 1 || policyOf d k == 2))) && !bit d.pwr.hold k &&
    ((List.range 4).all fun i =>
      let l := (engine d (4 * k + i)).life
      (l.st == .parked || l.st == .unused || l.st == .spare || l.st == .vacated) &&
        !l.parkPend && l.rpPend.isNone && !inXplant d (4 * k + i) && (engine d (4 * k + i)).ep.queue.isEmpty) &&
    !(d.ev.landing.any fun x => x.eng.val / 4 == k)

/-- One eligibility check of every cluster (R607, R608). -/
def checkClusters (d : Dev) : Dev :=
  (List.range 8).foldl (fun d k =>
    if (cluster d k).st = .active then updCluster k (fun c => { c with checks := if dormancyOk d k then c.checks + 1 else 0 }) d else d) d

/-- ELIGIBILITY_CHECK without a committed Trellis, every 1,500,000 clk (R607). -/
def eligibilityCheck (d : Dev) : Dev :=
  if d.committed ∨ !d.sys.fclkOn then d else
  let d1 := passTo (d.pwr.lastCheck + 1500000) d
  checkClusters { d1 with pwr := { d1.pwr with lastCheck := d1.clk } }

/-- The fence handshake begins, in the clk after the check at the boundary, or without a committed Trellis at its own check (R607, R608). -/
def fenceStart (k : Nat) (d0 : Dev) : Dev :=
  let c := cluster d0 k
  let d := passTo ((if d0.committed then d0.hr.tickClk else d0.pwr.lastCheck) + 1) d0
  if c.st = .active ∧ d.pwr.dormDly.toNat ≤ c.checks ∧ c.checks ≠ 0 ∧ dormancyOk d k then
    retainLevels k (updCluster k (fun c => { c with st := .fencing, fence := d.clk, checks := 0, wakeReq := false }) d)
  else d0

/-- The cluster is ACTIVE: its held occurrences follow, one a clk (R281, R612), and a transplant that waited for it begins (R183). -/
def clusterActive (k : Nat) (d : Dev) : Dev :=
  levelsWake k (updCluster k (fun c => { c with st := .active, wakeReq := false, checks := 0 })
    { d with engines := d.engines.map fun g => if g.life.xpend.any (·.target.toNat / 4 == k) then { g with life := { g.life with xpAt := d.clk + 1 } } else g })

/-- A fencing cluster that stops being eligible up to clk f + 2 returns to ACTIVE (R609). -/
def fenceCheck (d : Dev) (k : Nat) : Dev :=
  let c := cluster d k
  if c.st = .fencing ∧ d.clk ≤ c.fence + 2 ∧ ¬ dormancyOk d k then clusterActive k d else d

/-- All fences are checked. -/
def fenceChecks (d : Dev) : Dev := (List.range 8).foldl fenceCheck d

/-- The cluster reads DORMANT 64 clk after its fence began (R608). -/
def clusterDormant (k : Nat) (d : Dev) : Dev :=
  let c := cluster d k
  if c.st ≠ .fencing then d else
  let d1 := if d.clk ≤ c.fence + 2 then retainLevels k (fenceCheck (passTo (c.fence + 2) d) k) else d
  if (cluster d1 k).st ≠ .fencing then d1 else
  updCluster k (fun c => { c with st := .dormant }) (passTo (c.fence + 64) d1)

/-- A wake starts (R611, R612): the cause is `c`. It aborts a self-test on the cluster. -/
def startWake (k cause : Nat) (d : Dev) : Dev :=
  bistAbortCluster k (updCluster k (fun c => { c with st := .waking, cause := cause, wakes := satInc c.wakes }) d)

/-- CLUSTER_WAKE: a requested wake of a dormant cluster starts. -/
def clusterWake (k : Nat) (d : Dev) : Dev :=
  let c := cluster d k
  if c.st = .dormant ∧ c.wakeReq then startWake k c.cause d else d

/-- CLUSTER_AWAKE: the waking cluster becomes ACTIVE at most 3,000 clk after the cause; in how many is open (DESIGN CHOICE, log entry 32). -/
def clusterAwake (k : Nat) (d : Dev) : Dev :=
  let c := cluster d k
  if c.st ≠ .waking then d else
  let (f, d1) := takeFree d
  let n := max (d.clk - c.cause) (f.toNat % 3001)
  clusterActive k (updCluster k (fun c => { c with lastWake := BitVec.ofNat 16 n }) (passTo (c.cause + n) d1))

/-- A register access to cluster `k` wakes it and completes when it is awake (R587, R611). -/
def wakeNow (k : Nat) (d : Dev) : Dev :=
  match (cluster d k).st with
  | .active => d
  | .fencing =>
    if d.clk ≤ (cluster d k).fence + 2 then clusterActive k d
    else clusterAwake k (startWake k d.clk (clusterDormant k d))
  | .dormant => clusterAwake k (startWake k d.clk d)
  | .waking => clusterAwake k d

/-- A write of PWR_HOLD (R607, R609, R611). -/
def pwrHold (v : Word) (d : Dev) : Dev :=
  let d1 := fenceChecks { d with pwr := { d.pwr with hold := bf v 0 8 } }
  (List.range 8).foldl (fun d k => if bit v k ∧ (cluster d k).st ≠ .active then requestWake k d else d) d1

/-- A commit wakes the clusters that it makes ineligible (R611). -/
def wakeIneligible (d : Dev) : Dev :=
  (List.range 8).foldl (fun d k => if (cluster d k).st ≠ .active ∧ ¬ dormancyOk d k then requestWake k d else d) d

/-! ### Cellar banks (R288) -/

/-- Cellar bank `k` is powered and cleared. -/
def bankOn (k : Nat) (d : Dev) : Dev :=
  if (at? d.cl.banks k {}).pwr then d else
  updCl (fun l => { l with mem := zeroBytes l.mem (k * 2 ^ 19) (2 ^ 19), banks := upd? l.banks k fun b => { b with pwr := true } }) d

/-- A full commit with POWER 1 powers down the banks no committed bin overlaps; their contents are lost. Every other bank is
powered (DEDUCED, log entry 38). -/
def powerBanks (d : Dev) : Dev :=
  (List.range 16).foldl (fun d k =>
    if d.cfg.power ≠ 1 ∨ binOnBank d k then bankOn k d
    else updCl (fun l => { l with banks := upd? l.banks k fun b => { b with pwr := false } }) d) d

/-- CELLAR_BANK_POWER_UP: the bank a partial BINS needs is powered and cleared. -/
def bankPowerUp (k : Nat) (d : Dev) : Dev :=
  let wanted := d.trl.st == .pending && d.trl.binsIn.any fun (_, c) =>
    decide (c.base.toNat < (k + 1) * 2 ^ 19) && decide (k * 2 ^ 19 < c.base.toNat + c.size.toNat)
  if wanted then bankOn k d else d

end Sys2Proof.Machine
end

