-- ==== Sys2Proof/Machine/Pcie.lean ====
section
/-!
DEFINITION. Sys2Proof/Machine/Pcie.lean: the endpoint (14_pcie_endpoint.md): configuration space, Inventory ROM, errors,
Unsupported Requests, INTA, link power and Breta's own non-posted requests.
-/
namespace Sys2Proof.Machine

/-- Change the endpoint. -/
def updPe (f : Pe → Pe) (d : Dev) : Dev := { d with pe := f d.pe }
/-- Send to the host. -/
def emit (o : Out) (d : Dev) : Dev := { d with out := d.out ++ [o] }

/-- The node presents an endpoint (R526). -/
def hasEndpoint (d : Dev) : Bool := d.sys.role == 0 || d.sys.role == 2

/-! ### Configuration space (R533 to R539) -/

/-- An extended capability header. -/
def capHeader (id ver next : Nat) : Word := pack [(0, id), (16, ver), (20, next)]

/-- The DWORD at configuration offset `a` (a multiple of 4). -/
def cfgRead (a : Nat) (d : Dev) : Word :=
  let p := d.pe
  match a with
  | 0x00 => 0x2B201F7C
  | 0x04 => pack [(31, b2n p.detPerr), (30, b2n p.sigSerr), (29, b2n p.rxMa), (28, b2n p.rxTa), (24, b2n p.mdpe), (20, 1),
      (19, b2n (intaRequest d)), (10, b2n p.intxDis), (8, b2n p.serrEn), (6, b2n p.perrResp), (2, b2n p.bme), (1, b2n p.mse)]
  | 0x08 => 0x118000B0
  | 0x0C => pack [(0, p.cacheLine.toNat)]
  | 0x10 => pack [(20, p.bar0Lo.toNat), (0, 4)]
  | 0x14 => p.bar0Hi
  | 0x18 => pack [(24, p.bar2Lo.toNat), (0, 4)]
  | 0x1C => p.bar2Hi
  | 0x2C => 0x2B201F7C
  | 0x30 => pack [(16, p.romAddr.toNat), (0, b2n p.romEn)]
  | 0x34 => 0x40
  | 0x3C => pack [(8, 1), (0, p.intLine.toNat)]
  | 0x40 => 0x00035001
  | 0x44 => pack [(3, 1), (0, if p.d3 then 3 else 0)]
  | 0x50 => 0x00120010
  | 0x54 => pack [(28, 1), (15, 1), (9, 5), (6, 6), (5, 1), (0, 2)]
  | 0x58 => pack [(12, p.mrrs.toNat), (11, b2n p.enNs), (8, b2n p.extTag), (5, p.mps.toNat), (4, b2n p.enRo), (0, p.reportEn.toNat),
      (21, b2n (!p.reqs.isEmpty || !p.waiting.isEmpty)), (16, p.detected.toNat)]
  | 0x5C => pack [(22, 1), (15, 4), (12, 4), (10, 3), (4, 4), (0, 4)]
  | 0x60 => pack [(7, b2n p.extSync), (6, b2n p.ccc), (3, b2n p.rcb), (0, p.aspmCtl.toNat), (20, p.width.toNat), (16, p.speed.toNat)]
  | 0x74 => pack [(4, 1), (0, 3)]
  | 0x78 => pack [(4, b2n p.ctoDis), (0, p.ctoVal.toNat)]
  | 0x7C => pack [(1, 0xF)]
  | 0x80 => pack [(6, p.compliance.toNat), (4, b2n p.enterCompl), (0, p.targetSpeed.toNat), (21, b2n p.eq8Req), (17, p.eq8.toNat),
      (16, b2n p.deemph)]
  | 0x100 => capHeader 0x0001 2 0x130
  | 0x104 => p.ueStatus
  | 0x108 => p.ueMask
  | 0x10C => p.ueSev
  | 0x110 => p.ceStatus
  | 0x114 => p.ceMask
  | 0x118 => pack [(0, p.fep.toNat)]
  | 0x11C => p.hdrLog[0]
  | 0x120 => p.hdrLog[1]
  | 0x124 => p.hdrLog[2]
  | 0x128 => p.hdrLog[3]
  | 0x130 => capHeader 0x0003 1 0x140
  | 0x134 => lo32 Config.dieId
  | 0x138 => hi32 Config.dieId
  | 0x140 => capHeader 0x0019 1 0x160
  | 0x144 => pack [(0, b2n p.performEq)]
  | 0x148 => pack [(0, p.laneErr.toNat)]
  | 0x14C => pack [(0, p.laneEq8[0].toNat), (16, p.laneEq8[1].toNat)]
  | 0x150 => pack [(0, p.laneEq8[2].toNat), (16, p.laneEq8[3].toNat)]
  | 0x160 => capHeader 0x0026 1 0x190
  | 0x16C => pack [(4, b2n p.eq16Req), (0, p.eq16.toNat)]
  | 0x170 => pack [(0, p.ldpm.toNat)]
  | 0x174 => pack [(0, p.rtpm1.toNat)]
  | 0x178 => pack [(0, p.rtpm2.toNat)]
  | 0x180 => pack [(0, p.laneEq16[0].toNat), (8, p.laneEq16[1].toNat), (16, p.laneEq16[2].toNat), (24, p.laneEq16[3].toNat)]
  | 0x190 => capHeader 0x0027 1 0x1B0
  | 0x194 => pack [(16, b2n (p.link == .l0 && p.speed == 4))]
  | 0x198 => p.margLane[0]
  | 0x19C => p.margLane[1]
  | 0x1A0 => p.margLane[2]
  | 0x1A4 => p.margLane[3]
  | 0x1B0 => capHeader 0x000B 1 0
  | 0x1B4 => 0x01010001
  | 0x1B8 => 0x4B530002
  | 0x1BC => 0x00004200
  | _ => 0

/-- The bit mask of four byte enables. -/
def beMask (be : BitVec 4) : Word :=
  pack [(0, if bit be 0 then 0xFF else 0), (8, if bit be 1 then 0xFF else 0), (16, if bit be 2 then 0xFF else 0), (24, if bit be 3 then 0xFF else 0)]

/-- Write-1-to-clear of the bits `v` selects. -/
def w1c {n : Nat} (old v : BitVec n) : BitVec n := old &&& ~~~v

/-- The uncorrectable and correctable error bits of R538. -/
def ueBits : Word := 0x00177010
def ceBits : Word := 0x000031C1

/-- A configuration write (R533 to R539) but for INIT_FLR: exactly the enabled bytes are written. A margining response is a free
value (DESIGN CHOICE, log entry 33). -/
def cfgWrite (a : Nat) (v : Word) (be : BitVec 4) (d : Dev) : Dev :=
  let m := beMask be
  let n := mergeBits m (cfgRead a d) v
  let c := v &&& m
  let f (g : Pe → Pe) : Dev := updPe g d
  match a with
  | 0x04 => f fun p => { p with
      intxDis := bit n 10, serrEn := bit n 8, perrResp := bit n 6, bme := bit n 2, mse := bit n 1
      detPerr := p.detPerr && !bit c 31, sigSerr := p.sigSerr && !bit c 30, rxMa := p.rxMa && !bit c 29
      rxTa := p.rxTa && !bit c 28, mdpe := p.mdpe && !bit c 24 }
  | 0x0C => f fun p => { p with cacheLine := bf n 0 8 }
  | 0x10 => f fun p => { p with bar0Lo := bf n 20 12 }
  | 0x14 => f fun p => { p with bar0Hi := n }
  | 0x18 => f fun p => { p with bar2Lo := bf n 24 8 }
  | 0x1C => f fun p => { p with bar2Hi := n }
  | 0x30 => f fun p => { p with romAddr := bf n 16 16, romEn := bit n 0 }
  | 0x3C => f fun p => { p with intLine := bf n 0 8 }
  | 0x44 => f fun p => { p with d3 := if fld n 0 2 = 0 then false else if fld n 0 2 = 3 then true else p.d3 }
  | 0x58 => f fun p => { p with
      mrrs := if 6 ≤ fld n 12 3 then p.mrrs else bf n 12 3, enNs := bit n 11, extTag := bit n 8
      mps := if 3 ≤ fld n 5 3 then p.mps else bf n 5 3, enRo := bit n 4, reportEn := bf n 0 4
      detected := w1c p.detected (bf c 16 4) }
  | 0x60 => f fun p => { p with extSync := bit n 7, ccc := bit n 6, rcb := bit n 3, aspmCtl := bf n 0 2 }
  | 0x78 => f fun p => { p with ctoDis := bit n 4, ctoVal := bf n 0 4 }
  | 0x80 => f fun p => { p with
      compliance := bf n 6 10, enterCompl := bit n 4
      targetSpeed := if fld n 0 4 = 0 ∨ 5 ≤ fld n 0 4 then p.targetSpeed else bf n 0 4
      eq8Req := p.eq8Req && !bit c 21 }
  | 0x104 => f fun p => { p with ueStatus := w1c p.ueStatus c }
  | 0x108 => f fun p => { p with ueMask := n &&& ueBits }
  | 0x10C => f fun p => { p with ueSev := n &&& ueBits }
  | 0x110 => f fun p => { p with ceStatus := w1c p.ceStatus c }
  | 0x114 => f fun p => { p with ceMask := n &&& ceBits }
  | 0x144 => f fun p => { p with performEq := bit n 0 }
  | 0x148 => f fun p => { p with laneErr := w1c p.laneErr (bf c 0 4) }
  | 0x16C => f fun p => { p with eq16Req := p.eq16Req && !bit c 4 }
  | 0x170 => f fun p => { p with ldpm := w1c p.ldpm (bf c 0 4) }
  | 0x174 => f fun p => { p with rtpm1 := w1c p.rtpm1 (bf c 0 4) }
  | 0x178 => f fun p => { p with rtpm2 := w1c p.rtpm2 (bf c 0 4) }
  | _ =>
    if 0x198 ≤ a ∧ a < 0x1A8 then
      let (w, d1) := takeFree d
      updPe (fun p => { p with margLane := put? p.margLane ((a - 0x198) / 4) (pack [(0, fld n 0 16), (16, fld w 0 16)]) }) d1
    else d

/-! ### Inventory ROM (R541, R542) -/

/-- ASCII text padded with 0 to 8 bytes. -/
def name8 (s : String) : List Byte := (s.toList.map fun c => BitVec.ofNat 8 c.toNat) ++ List.replicate (8 - s.length) 0

/-- The Inventory entries: name, space, offset, size, count, stride. -/
def inventory : List (String × Nat × Nat × Nat × Nat × Nat) :=
  [("SYS", 0, 0x00000, 0x1000, 1, 0), ("TRL", 0, 0x01000, 0x1000, 1, 0), ("TB", 0, 0x02000, 0x2000, 1, 0), ("EV", 0, 0x04000, 0x2000, 1, 0),
   ("LN", 0, 0x06000, 0x40, 64, 0x40), ("LNBANK", 0, 0x07000, 0x8, 1, 0), ("PC", 0, 0x07100, 0x20, 16, 0x20), ("CL", 0, 0x08000, 0x2000, 1, 0),
   ("DR", 0, 0x0A000, 0x2000, 1, 0), ("HR", 0, 0x0C000, 0x2000, 1, 0), ("WD", 0, 0x0E000, 0x40, 5, 0x40), ("RC", 0, 0x0F000, 0x1000, 1, 0),
   ("EN", 0, 0x10000, 0x400, 32, 0x400), ("ST", 0, 0x18000, 0x800, 4, 0x800), ("LS", 0, 0x1A000, 0x20, 4, 0x20),
   ("BIST", 0, 0x1B000, 0x1000, 1, 0), ("PWR", 0, 0x1C000, 0x1000, 1, 0), ("TRLFIFO", 2, 0x000000, 0x10000, 1, 0),
   ("PEEK", 2, 0x800000, 0x800000, 1, 0), ("STLOCAL", 0xFE, 0x00000000, 0x40000, 1, 0), ("STCELLAR", 0xFE, 0x10000000, 0x800000, 1, 0),
   ("STREG", 0xFE, 0x20000000, 0x100000, 1, 0), ("STMBOX", 0xFE, 0x30000000, 0x10000, 1, 0)]

/-- An Inventory entry. -/
def inventoryEntry (e : String × Nat × Nat × Nat × Nat × Nat) : List Byte :=
  name8 e.1 ++ leBytes 2 e.2.1 ++ leBytes 2 e.2.2.2.2.1 ++ leBytes 4 e.2.2.1 ++ leBytes 4 e.2.2.2.1 ++ leBytes 4 e.2.2.2.2.2 ++ leBytes 8 0

/-- The Inventory header with CRC `crc`. -/
def inventoryHeader (crc : Nat) : List Byte :=
  leBytes 4 0x54564E49 ++ leBytes 2 0x0100 ++ leBytes 2 23 ++ leBytes 4 32 ++ leBytes 4 0x4B530002 ++ leBytes 4 0x00004200 ++
    leBytes 8 768 ++ leBytes 4 crc

/-- The image up to its last byte that is not 0. -/
def romImage : List Byte :=
  let entries := inventory.flatMap inventoryEntry
  let crc := (crc32 (inventoryHeader 0 ++ entries)).toNat
  leBytes 16 0xAA55 ++ leBytes 8 0x0040 ++ leBytes 8 0x0020 ++
    (leBytes 4 0x52494350 ++ leBytes 2 0x1F7C ++ leBytes 2 0x2B20 ++ leBytes 2 0 ++ leBytes 2 0x001C ++ [3, 0x00, 0x80, 0x11] ++
      leBytes 2 0x0080 ++ leBytes 2 0x4200 ++ [0xFE, 0x80] ++ leBytes 6 0) ++ leBytes 4 0 ++
    inventoryHeader crc ++ entries

/-- A byte of the expansion ROM. -/
def romByte (a : Nat) : Byte := romImage[a]?.getD 0

/-! ### Errors (R549 to R552) -/

/-- A message is sent while the data link is up. -/
def message (b : Bool) (o : Out) (d : Dev) : Dev := if b ∧ d.pe.dlUp then emit o d else d

/-- A correctable error with CE bit `b`. -/
def ceError (b : Nat) (d : Dev) : Dev :=
  let d1 := updPe (fun p => { p with ceStatus := setBit p.ceStatus b true }) d
  if bit d1.pe.ceMask b then d1 else
  message (bit d1.pe.reportEn 0) .errCor (updPe (fun p => { p with detected := setBit p.detected 0 true }) d1)

/-- Header log and First Error Pointer, unless they are locked (R551 step 4, R552): locked while the bit FEP names was set
before this error. Of several errors in one clk the one with the lowest bit number is logged. -/
def logHeader (b : Nat) (locked : Bool) (hdr : Option (List Word)) (d : Dev) : Dev :=
  if locked && !(d.pe.fepClk == some d.clk && decide (b < d.pe.fep.toNat)) then d else
  updPe (fun p => { p with
    fep := BitVec.ofNat 5 b, fepClk := some d.clk
    hdrLog := match hdr with | some l => Vector.ofFn fun i : Fin 4 => l[i.val]?.getD 0 | none => p.hdrLog }) d

/-- An uncorrectable error with UE bit `b`. `advisory` marks the errors of R550, `ur` an Unsupported Request. -/
def ueError (b : Nat) (advisory ur : Bool) (hdr : Option (List Word)) (d : Dev) : Dev :=
  let locked := bit d.pe.ueStatus d.pe.fep.toNat
  let d1 := updPe (fun p => { p with ueStatus := setBit p.ueStatus b true }) d
  let p := d1.pe
  if bit p.ueMask b then d1 else
  let fatal := bit p.ueSev b
  let may := !ur || bit p.reportEn 3 || p.serrEn
  if advisory && !fatal then
    let d2 := updPe (fun p => { p with ceStatus := setBit p.ceStatus 13 true }) d1
    if bit p.ceMask 13 then d2 else
    let d3 := logHeader b locked hdr (updPe (fun p => { p with
      detected := setBit (if ur then setBit p.detected 3 true else p.detected) 0 true }) d2)
    message (bit p.reportEn 0 && may) .errCor d3
  else
    let cls := if fatal then 2 else 1
    let d2 := logHeader b locked hdr (updPe (fun p => { p with
      detected := setBit (if ur then setBit p.detected 3 true else p.detected) cls true }) d1)
    let send := (bit p.reportEn cls || p.serrEn) && may
    let d3 := message send (if fatal then .errFatal else .errNonfatal) d2
    if send && p.serrEn then updPe (fun p => { p with sigSerr := true }) d3 else d3

/-- The header of a request whose row brings none: four free words (DESIGN CHOICE, log entry 34). -/
def freeHeader (d : Dev) : List Word × Dev :=
  let (a, d1) := takeFree d
  let (b, d2) := takeFree d1
  ([lo32 a, hi32 a, lo32 b, hi32 b], d2)

/-- An Unsupported Request (R544). -/
def unsupportedReq (kind : BitVec 4) (posted : Bool) (window : BitVec 2) (offset : BitVec 24) (hdr : List Word) (d : Dev) : Dev :=
  let d1 := updPe (fun p => { p with
    urCnt := satInc p.urCnt
    urKind := if p.urCnt = 0 then kind else p.urKind
    urWindow := if p.urCnt = 0 then window else p.urWindow
    urOffset := if p.urCnt = 0 then (if window = 3 then 0 else offset) else p.urOffset }) d
  ueError 20 (!posted) true (some hdr) (if posted then d1 else emit .urCompletion d1)

/-- An Unsupported Request of a row that brings no header. -/
def urFree (kind : BitVec 4) (posted : Bool) (window : BitVec 2) (offset : BitVec 24) (d : Dev) : Dev :=
  let (h, d1) := freeHeader d
  unsupportedReq kind posted window offset h d1

/-- A poisoned TLP (R549). -/
def poisoned (hdr : List Word) (d : Dev) : Dev := ueError 12 false false (some hdr) (updPe (fun p => { p with detPerr := true }) d)

/-- The errors detected outside Breta's own request handling (R549, R544). -/
def pcieError (e : PcieErr) (hdr : List Word) (d : Dev) : Dev :=
  match e with
  | .receiver => ceError 0 d
  | .badTlp => ceError 6 d
  | .badDllp => ceError 7 d
  | .replayRollover => ceError 8 d
  | .replayTimeout => ceError 12 d
  | .dlProtocol => ueError 4 false false none d
  | .poisoned => poisoned hdr d
  | .flowControl => ueError 13 false false none d
  | .unexpected => ueError 16 true false (some hdr) d
  | .overflow => ueError 17 false false none d
  | .malformed => ueError 18 false false (some hdr) d
  | .unsupported k p w o => unsupportedReq k p w o hdr d

/-! ### INTA (R545 to R547) -/

/-- The INTA condition. -/
def intaCond (d : Dev) : Bool := intaRequest d && !d.pe.intxDis && !d.pe.d3 && !d.pe.flrBusy && d.pe.dlUp

/-- Send an INTx message now. -/
def sendInta (b : Bool) (d : Dev) : Dev :=
  emit (if b then .assertInta else .deassertInta) (updPe (fun p => { p with wire := b, intaDue := none }) d)

/-- The link begins to leave L0s or L1 (R547, R555). -/
def leaveLowPower (d : Dev) : Dev := if d.pe.link = .l1 then updPe (fun p => { p with link := .recovery }) d else d

/-- An INTx message is due (R545); in L0s and L1 it waits for L0 (R547). -/
def dueInta (b : Bool) (d : Dev) : Dev :=
  if d.pe.link = .l0 then sendInta b d else leaveLowPower (updPe (fun p => { p with intaDue := some b }) d)

/-- ASSERT_INTA. -/
def assertInta (d : Dev) : Dev := if intaCond d ∧ !d.pe.wire then dueInta true d else d
/-- DEASSERT_INTA. -/
def deassertInta (d : Dev) : Dev := if !intaCond d ∧ d.pe.wire ∧ d.pe.dlUp then dueInta false d else d

/-! ### Link power (R553 to R557) -/

/-- Nothing waits to be sent. -/
def linkQuiet (d : Dev) : Bool := d.pe.waiting.isEmpty && d.pe.intaDue.isNone && (intaCond d == d.pe.wire)

/-- L0S_ENTRY (R553). -/
def l0sEntry (d : Dev) : Dev :=
  if bit d.pe.aspmCtl 0 ∧ d.pe.link = .l0 ∧ linkQuiet d then updPe (fun p => { p with link := .l0s }) d else d

/-- L1_ENTRY (R554, R556): requested when nothing is outstanding, and accepted or refused by the port above. -/
def l1Entry (accepted : Bool) (d : Dev) : Dev :=
  if (bit d.pe.aspmCtl 1 ∨ d.pe.d3) ∧ (d.pe.link = .l0 ∨ d.pe.link = .l0s) ∧ linkQuiet d ∧ d.pe.reqs = [] then
    let d1 := emit .pmEnterL1 d
    if accepted then updPe (fun p => { p with link := .l1, l1Cnt := satInc p.l1Cnt }) d1
    else if bit d.pe.aspmCtl 0 then updPe (fun p => { p with link := .l0s }) d1 else d1
  else d

/-- L1_EXIT (R555). -/
def l1Exit (d : Dev) : Dev := leaveLowPower d

/-- Send the requests that waited for the link. -/
def sendWaiting (d : Dev) : Dev :=
  d.pe.waiting.foldl (fun d r => emit (.hostRead r.tag r.addr r.len) (updPe (fun p => { p with reqs := p.reqs ++ [{ r with sent := d.clk }] }) d))
    (updPe (fun p => { p with waiting := [] }) d)

/-- LINK_REACHES_L0 (R547): what waited is sent; an INTx message whose condition has changed back is withdrawn (R546). -/
def linkReachesL0 (d : Dev) : Dev :=
  if !d.pe.dlUp ∨ d.pe.link = .ready23 then d else
  let d1 := updPe (fun p => { p with link := .l0 }) d
  let d2 := match d1.pe.intaDue with
    | some b => if intaCond d1 = b ∧ d1.pe.wire ≠ b then sendInta b d1 else updPe (fun p => { p with intaDue := none }) d1
    | none => d1
  sendWaiting d2

/-- DL_UP (R558, R559), which comes after the memories have been cleared (R287). -/
def dlUpRow (speed : BitVec 4) (width : BitVec 6) (d : Dev) : Dev :=
  if hasEndpoint d ∧ !d.sys.inP ∧ d.sys.pcieLock ∧ d.cl.initDone ∧ !d.pe.dlUp then
    updPe (fun p => { p with dlUp := true, link := .l0, speed := speed, width := width }) d
  else d

/-- PME_TURN_OFF (R557). -/
def pmeTurnOff (d : Dev) : Dev :=
  if !d.pe.dlUp then d else
  let d1 := emit .pmeToAck d
  if d1.pe.d3 then emit .pmEnterL23 (updPe (fun p => { p with link := .ready23 }) d1) else d1

/-! ### Breta's own non-posted requests (R530, R531) -/

/-- Breta may issue requests (R28, R530). -/
def mayIssue (d : Dev) : Bool := hasEndpoint d && d.sys.fclkOn && d.pe.bme && !d.pe.d3 && !d.pe.flrBusy && d.pe.dlUp

/-- The lowest tag that is free, none when the limit of R531 is reached. -/
def freeTag (p : Pe) : Option Byte :=
  let used (t : Byte) : Bool := p.reqs.any (·.tag == t) || p.waiting.any (·.tag == t) || p.stale.any (·.1 == t)
  ((List.range (if p.extTag then 64 else 32)).map (BitVec.ofNat 8)).find? (!used ·)

/-- Max_Read_Request_Size and Max_Payload_Size in bytes; a read asks for at most 4 KiB. -/
def maxRead (p : Pe) : Nat := min 4096 (128 * 2 ^ p.mrrs.toNat)
def maxPayload (p : Pe) : Nat := 128 * 2 ^ p.mps.toNat

/-- The largest request at `addr` of at most `n` bytes and `lim` bytes that crosses no 4 KiB boundary. -/
def requestLen (addr n lim : Nat) : Nat := min n (min lim (4096 - addr % 4096))

/-- The clk after which a request without completion has timed out (R531). -/
def completionClk (p : Pe) : Nat :=
  match p.ctoVal.toNat with
  | 1 => 120000
  | 2 => 12000000
  | 5 => 60000000
  | 6 => 225000000
  | _ => 15000000

/-- The payload bytes of the completions of a read of `n` bytes at `a`, with at most `k` of them (R532). -/
def cplSplit (mps : Nat) : Nat → Nat → Nat → List Nat
  | 0, _, _ => []
  | k + 1, a, n =>
    if n = 0 then [] else
    let m := mps - a % 64
    if n ≤ mps then [n] else m :: cplSplit mps k (a + m) (n - m)

/-- Split `n` bytes from `addr` into requests of at most `lim` bytes. -/
def splitReq (lim : Nat) : Nat → Nat → Nat → List (Nat × Nat)
  | 0, _, _ => []
  | k + 1, addr, n =>
    let m := requestLen addr n lim
    if n = 0 ∨ m = 0 then [] else (addr, m) :: splitReq lim k (addr + m) (n - m)

/-- Issue a read; in L0s and L1 it waits for the link. -/
def issueRead (addr : DWord) (len : Nat) (what : ReqFor) (d : Dev) : Dev :=
  match freeTag d.pe with
  | none => d
  | some t =>
    let r : Req := { tag := t, addr := addr, len := len, what := what, sent := d.clk }
    if d.pe.link = .l0 then emit (.hostRead t addr len) (updPe (fun p => { p with reqs := p.reqs ++ [r] }) d)
    else leaveLowPower (updPe (fun p => { p with waiting := p.waiting ++ [r] }) d)

/-- Posted writes of a byte string from `addr` on. -/
def hostBytes (addr : DWord) (bs : List Byte) (d : Dev) : Dev :=
  (splitReq (maxPayload d.pe) (bs.length + 1) addr.toNat bs.length).foldl (fun d (a, n) =>
    emit (.hostWrite (BitVec.ofNat 64 a) ((bs.drop (a - addr.toNat)).take n)) d) d

/-- Requests on the way are cut off: their completions are discarded (R560, R562). -/
def cutRequests (p : Pe) : Pe := { p with stale := p.stale ++ p.reqs.map (fun r => (r.tag, r.len)), reqs := [], waiting := [] }

/-! ### H and F values (R561, R562) -/

/-- The endpoint after an H reset: the fields with an H value take it; the link trains again. -/
def peH (p0 : Pe) : Pe :=
  let p := cutRequests p0
  { ueStatus := p.ueStatus, ueMask := p.ueMask, ueSev := p.ueSev, ceStatus := p.ceStatus, ceMask := p.ceMask, fep := p.fep, fepClk := p.fepClk, hdrLog := p.hdrLog
    width := p.width, speed := p.speed, eq8 := p.eq8, deemph := p.deemph, laneEq8 := p.laneEq8, eq16 := p.eq16, laneEq16 := p.laneEq16
    linkDown := p.linkDown, flrCnt := p.flrCnt, l1Cnt := p.l1Cnt
    urKind := p.urKind, urWindow := p.urWindow, urOffset := p.urOffset, urCnt := p.urCnt, stale := p.stale
    link := .training }

/-- The endpoint's configuration fields and SYS registers with an F value take it. -/
def peF (p0 : Pe) : Pe :=
  let p := cutRequests p0
  { p with
    intxDis := false, serrEn := false, perrResp := false, bme := false, mse := false
    detPerr := false, sigSerr := false, rxMa := false, rxTa := false, mdpe := false
    cacheLine := 0, bar0Lo := 0, bar0Hi := 0, bar2Lo := 0, bar2Hi := 0, romAddr := 0, romEn := false, intLine := 0, d3 := false
    mrrs := 2, enNs := true, extTag := true, enRo := true, reportEn := 0, detected := 0, ctoDis := false, ctoVal := 0
    l1Idle := 32, l0sIdle := 16 }

end Sys2Proof.Machine
end

