-- ==== Sys2Proof/Machine/Drain.lean ====
section
/-!
DEFINITION. Sys2Proof/Machine/Drain.lean: drain passes, host rings, moderation and command descriptors
(15_drain_host_access.md).
-/
namespace Sys2Proof.Machine

/-- Host ring `r`. -/
def hring (d : Dev) (r : Nat) : HostRing := at? d.dr.rings r {}
/-- Its DRAIN entry. -/
def hringCfg (d : Dev) (r : Nat) : RingEntry := at? d.cfg.hostRings r {}
/-- Change host ring `r`. -/
def updRing (r : Nat) (f : HostRing → HostRing) : Dev → Dev := updDr fun x => { x with rings := upd? x.rings r f }

/-- SIZE of a host ring (R568). -/
def ringSize (d : Dev) (r : Nat) : Nat := 2 ^ (hringCfg d r).sizeLog2.toNat
/-- The drain writes the ring: ENABLE and RUN are 1 (R568). -/
def ringOn (d : Dev) (r : Nat) : Bool := (hringCfg d r).enable == 1 && (hring d r).run
/-- Free bytes of a ring whose producer index is `p` (R569). -/
def ringFree (d : Dev) (r : Nat) (p : Word) : Nat := ringSize d r - (p - (hring d r).cidx).toNat

/-- A record may be taken now (R292). -/
def takeable (c : BinEntry) (x : Rec) : Bool := x.st == .sealed || (x.st == .released && !c.sealed)

/-! ### Pass boundaries (R564, R567) -/

/-- The takeable records of a bin that host ring `r` names. -/
def snapBin (d : Dev) (x : Nat × BinEntry) : List (Nat × Word) :=
  let (b, c) := x
  if c.hostRing.toNat < 8 ∧ ringOn d c.hostRing.toNat then
    ((bin d b).recs.filter (takeable c)).map fun r => (b, r.seq)
  else []

/-- The snapshot of a pass whose boundary has TB_TICK `tick`. -/
def snapshot (tick : Word) (d : Dev) : Dev :=
  updDr (fun x => { x with pass := some { tick := tick, recs := d.cfg.bins.flatMap (snapBin d) } }) d

/-- No pass starts (R567). -/
def drainHeld (d : Dev) : Bool :=
  d.dr.pause || !d.pe.bme || d.pe.d3 || !d.pe.dlUp || d.pe.flrBusy || d.dr.frozen

/-- A tick boundary counts towards the next pass boundary, which takes a snapshot or finds a pass running. -/
def drainBoundary (d : Dev) : Dev :=
  if !hasEndpoint d ∨ d.cfg.drainInterval = 0 then d else
  let n := d.dr.count + 1
  if n < d.cfg.drainInterval.toNat then updDr (fun x => { x with count := n }) d else
  let d1 := updDr (fun x => { x with count := 0 }) d
  if drainHeld d1 then d1
  else if d1.dr.pass.isSome then updDr (fun x => { x with overlap := satInc x.overlap, again := some d1.tb.tick }) d1
  else snapshot d1.tb.tick d1

/-! ### The elements of a pass (R565, R566, R572 to R575) -/

/-- An element, or the write-back point that ends a run of so many bytes. -/
inductive Elem where
  | pad (n : Nat)
  | marker (b n : Nat)
  | record (b : Nat) (seq : Word) (bytes : List Byte) (skipped : Bool)
  | writeBack (n : Nat)

/-- The PAD an element of `w` bytes needs at index `p` of a ring of `size` bytes (R572). -/
def padFor (size : Nat) (p : Word) (w : Nat) : Nat := if size < p.toNat % size + w then size - p.toNat % size else 0

/-- The index after an element and its PAD. -/
def afterElem (size : Nat) (p : Word) (w : Nat) : Word := p + BitVec.ofNat 32 (padFor size p w + w)

/-- How many records of the given lengths fit in order from index `p` (R566). -/
def fitCount (size : Nat) (free : Word → Nat) : Word → List Nat → Nat
  | _, [] => 0
  | p, w :: r => if padFor size p w + w ≤ free p then fitCount size free (afterElem size p w) r + 1 else 0

/-- A PAD before an element, when it needs one. -/
def padElem (size : Nat) (p : Word) (w : Nat) : List Elem := if padFor size p w = 0 then [] else [.pad (padFor size p w)]

/-- Elements for records from index `p` on, and the index after them. -/
def recElems (size : Nat) : Word → List (Nat × Word × List Byte × Bool) → List Elem × Word
  | p, [] => ([], p)
  | p, (b, q, bytes, sk) :: r =>
    let (es, p') := recElems size (afterElem size p bytes.length) r
    (padElem size p bytes.length ++ .record b q bytes sk :: es, p')

/-- The header that replaces an unreadable record (R578). -/
def skipHeader (d : Dev) (c : BinEntry) (x : Rec) : List Byte :=
  leBytes 8 (hdrWord 2 (fld (hdrAt d (c.base.toNat + x.off)) 40 8) (fVoid + fLost) x.seq) ++ leBytes 8 0

/-- The snapshot records of bin `b` that are still to be taken, in release order, with their delivered form (R305). -/
def passRecs (d : Dev) (s : Snap) (b : Nat) (c : BinEntry) : List (Nat × Word × List Byte × Bool) :=
  ((bin d b).recs.filter fun x => takeable c x && s.recs.contains (b, x.seq)).map fun x =>
    let sk := d.dr.skipBad && d.dr.bad == some (b, x.seq)
    (b, x.seq, if sk then skipHeader d c x else delivered c x d, sk)

/-- The runs of ring `r` over `bins`, the index after them, and the bin at which the ring's part of the pass ends (R566). -/
def runElems (d : Dev) (s : Snap) (r : Nat) : Word → List (Nat × BinEntry) → List Elem × Word × Option Nat
  | p, [] => ([], p, none)
  | p, (b, c) :: rest =>
    let size := ringSize d r
    let rs := passRecs d s b c
    if rs = [] then runElems d s r p rest else
    let free := ringFree d r
    let n := if padFor size p 16 + 16 ≤ free p then fitCount size free (afterElem size p 16) (rs.map fun x => x.2.2.1.length) else 0
    if n = 0 then ([], p, some b) else
    let (es, p1) := recElems size (afterElem size p 16) (rs.take n)
    let run := padElem size p 16 ++ .marker b n :: es ++ [.writeBack (p1 - p).toNat]
    if n < rs.length then (run, p1, some b)
    else
      let (es', p2, e) := runElems d s r p1 rest
      (run ++ es', p2, e)

/-- The bins of ring `r` in circular order from NEXTBIN (R565). -/
def ringBins (d : Dev) (r : Nat) : List (Nat × BinEntry) :=
  let mine := d.cfg.bins.filter fun x => x.2.hostRing.toNat == r
  let k := (hring d r).nextBin.toNat
  (mine.filter fun x => k ≤ x.1) ++ mine.filter fun x => x.1 < k

/-- Round robin: one element of each ring in turn (R565). -/
def roundRobin : Nat → List (Nat × List Elem) → List (Nat × Elem)
  | 0, _ => []
  | n + 1, l => (l.filterMap fun (r, es) => es.head?.map (r, ·)) ++ roundRobin n (l.map fun (r, es) => (r, es.tail))

/-! ### Moderation (R576) -/

/-- The moderation event of ring `r`. -/
def moderate (r : Nat) (d : Dev) : Dev :=
  hostEvent (hringCfg d r).hostEvent.toNat (updRing r (fun x => { x with unsig := 0, timer := none }) d)

/-- A write-back point that ends a run of `n` bytes (R575, R576). -/
def writeBack (r n : Nat) (tick : Word) (d : Dev) : Dev :=
  let d0 := updRing r (fun x => { x with
    modt := x.modtNext.getD x.modt, modb := x.modbNext.getD x.modb, modtNext := none, modbNext := none
    unsig := x.unsig + BitVec.ofNat 32 n }) d
  let was := (hring d r).unsig
  let x := hring d0 r
  let d1 := if x.wb = 0 then d0 else
    updDr (fun y => { y with passBytes := y.passBytes + 8 }) (hostBytes x.wb (leBytes 4 x.pidx.toNat ++ leBytes 4 tick.toNat) d0)
  if x.unsig = 0 then d1
  else if (x.modb ≠ 0 ∧ x.modb.toNat ≤ x.unsig.toNat) ∨ (x.modb = 0 ∧ x.modt = 0) then moderate r d1
  else if x.modt ≠ 0 ∧ was = 0 then updRing r (fun y => { y with timer := some (d.clk + 1500 * x.modt.toNat) }) d1
  else d1

/-- MODERATION_TIMER: the timer of ring `r` expires. -/
def moderationTimer (r : Nat) (d : Dev) : Dev :=
  if !d.sys.fclkOn then d else
  match (hring d r).timer with
  | none => d
  | some c =>
    let d1 := passTo c d
    if (hring d1 r).unsig ≠ 0 then moderate r d1 else updRing r (fun x => { x with timer := none }) d1

/-! ### A pass -/

/-- Write `bs` at PIDX and advance PIDX by `w` (R569, R575). -/
def ringWrite (r w : Nat) (bs : List Byte) (d : Dev) : Dev :=
  let x := hring d r
  updDr (fun y => { y with passBytes := y.passBytes + BitVec.ofNat 32 bs.length })
    (updRing r (fun y => { y with pidx := y.pidx + BitVec.ofNat 32 w })
      (hostBytes (x.base + BitVec.ofNat 64 (x.pidx.toNat % ringSize d r)) bs d))

/-- One element of ring `r`. -/
def runElem (tick : Word) (r : Nat) (e : Elem) (d : Dev) : Dev :=
  match e with
  | .pad n => ringWrite r n (leBytes 8 (hdrWord (n / 8) 3 fBreta 0) ++ (if 16 ≤ n then leBytes 8 0 else [])) d
  | .marker b n => ringWrite r 16 (leBytes 8 (hdrWord 2 4 fBreta (BitVec.ofNat 32 b)) ++ leBytes 4 n ++ leBytes 4 tick.toNat) d
  | .record b q bytes sk =>
    let d1 := ringWrite r bytes.length bytes d
    let d2 := updRing r (fun x => { x with hrec := satInc x.hrec }) d1
    let d3 := match binCfg? d2 b with | some c => takeFirst b c d2 | none => d2
    updDr (fun x => { x with skipCnt := if sk then satInc x.skipCnt else x.skipCnt, bad := if x.bad = some (b, q) then none else x.bad }) d3
  | .writeBack n => writeBack r n tick d

/-- Run the elements in order, until the drain meets the record `ue` that it cannot read. -/
def runAll (tick : Word) (ue : Option (Nat × Word)) : List (Nat × Elem) → Dev → Dev
  | [], d => d
  | (r, e) :: l, d =>
    match e with
    | .record b q _ false => if ue = some (b, q) then freezeDrain b q d else runAll tick ue l (runElem tick r e d)
    | _ => runAll tick ue l (runElem tick r e d)

/-- The pass ends: its byte count, and the pass that waited for it starts, unless no pass may start now (R567, log entry 103). -/
def endPass (d : Dev) : Dev :=
  let again := d.dr.again
  let d1 := updDr (fun x => { x with
    pass := none, again := none
    passMax := if x.passMax.toNat < x.passBytes.toNat then x.passBytes else x.passMax }) d
  match again with
  | some t => if drainHeld d1 then d1 else snapshot t d1
  | none => d1

/-- DRAIN_PASS (R564 to R578): the whole pass, with the corrected errors `ce` and the uncorrectable record `ue` that its reads
meet. In L1 the drain first starts the exit (R555). DR_PASSBYTES keeps the last complete pass (R591). -/
def drainPass (ce : List (BitVec 23)) (ue : Option (Byte × Word)) (d : Dev) : Dev :=
  match d.dr.pass with
  | none => d
  | some s =>
    if d.dr.frozen ∨ !mayIssue d then d
    else if d.pe.link ≠ .l0 ∧ d.pe.link ≠ .l0s then leaveLowPower d else
    let d0 := cellarErrors (ce.map (·.toNat)) [] (updDr (fun x => { x with passBytes := 0 }) (updPe (fun p => { p with link := .l0 }) d))
    let plans := (List.range 8).map fun r => if ringOn d0 r then (r, runElems d0 s r (hring d0 r).pidx (ringBins d0 r)) else (r, [], 0, none)
    let d1 := plans.foldl (fun d (r, _, _, e) => if ringOn d r then updRing r (fun x => match e with
      | some b => { x with stalled := true, nextBin := BitVec.ofNat 8 b }
      | none => { x with stalled := false }) d else d) d0
    let fuel := plans.foldl (fun n (_, es, _) => max n es.length) 0
    let d2 := runAll s.tick (ue.map fun x => (x.1.toNat, x.2)) (roundRobin fuel (plans.map fun (r, es, _) => (r, es))) d1
    if d2.dr.frozen then updDr (fun x => { x with passBytes := d.dr.passBytes }) d2 else endPass d2

/-! ### Host writes (R568, R570, R571) -/

/-- A write of DR_CIDX (R570). -/
def cidxWrite (r : Nat) (v : Word) : Dev → Dev :=
  updRing r fun x =>
    if v.toNat % 8 = 0 ∧ (v - x.cidx).toNat ≤ (x.pidx - x.cidx).toNat then { x with cidx := v } else { x with badIdx := satInc x.badIdx }

/-- A write of DR_HCTRL (R571). -/
def hctrlWrite (r : Nat) (v : Word) : Dev → Dev := updRing r fun x => { x with run := bit v 0 }

/-! ### Descriptors (R581 to R585) -/

/-- The target of a HOST_TO_CSTORE descriptor. -/
def descEngine (src : Word) : Nat := fld src 24 5
def descBank (src : Word) : Bool := bit src 16

/-- A byte that a peek read would return (R322). -/
def peekOk (d : Dev) (a : Nat) : Bool :=
  d.cl.peekEn && (!d.committed || d.cfg.bins.any fun (_, c) => c.peek && decide (c.base.toNat ≤ a) && decide (a < c.base.toNat + c.size.toNat)) &&
    (at? d.cl.banks (a / 2 ^ 19) {}).pwr

/-- The read is a descriptor's. -/
def Req.isDesc (r : Req) : Bool := match r.what with | .desc => true | .trl _ => false

/-- End the running descriptor; what still comes of its reads is discarded (R585). -/
def endDesc (r : BitVec 4) (d : Dev) : Dev :=
  updPe (fun p => { p with
    stale := p.stale ++ (p.reqs.filter Req.isDesc).map fun r => (r.tag, r.len)
    reqs := p.reqs.filter (!Req.isDesc ·), waiting := p.waiting.filter (!Req.isDesc ·) })
    (updDr (fun x => { x with busy := false, result := r, half := [] }) d)

/-- Issue the next read of a HOST_TO_CSTORE descriptor, one at a time and while requests may be issued and the drain is not frozen
(R36, R530, R584). -/
def descRead (d : Dev) : Dev :=
  let got := 8 * d.dr.done.toNat + d.dr.half.length
  let left := 8 * d.dr.jLen.toNat - got
  let out := (d.pe.reqs ++ d.pe.waiting).any Req.isDesc
  if left = 0 ∨ !d.dr.busy ∨ d.dr.jKind ≠ 2 ∨ out ∨ !mayIssue d ∨ d.dr.frozen then d else
  let a := d.dr.jAddr.toNat + got
  issueRead (BitVec.ofNat 64 a) (requestLen a left (maxRead d.pe)) .desc d

/-- A write of 1 to DR_DCTRL.GO (R582); a KIND that R581 reserves is answered BADCMD (DESIGN CHOICE, log entry 102). -/
def descGo (d : Dev) : Dev :=
  let x := d.dr
  let len := x.dlen.toNat
  let e := descEngine x.dsrc
  let fail (r : BitVec 4) (d : Dev) : Dev := updDr (fun x => { x with result := r }) d
  if x.busy then updDr (fun x => { x with drej := satInc x.drej }) d
  else if x.dkind ≠ 1 ∧ x.dkind ≠ 2 then fail 9 d
  else if len = 0 then fail 2 d
  else if x.daddr.toNat % 8 ≠ 0 ∨ 2 ^ 64 < x.daddr.toNat + 8 * len then fail 4 d
  else if x.dkind = 1 ∧ 8388608 < 8 * fld x.dsrc 3 20 + 8 * len then fail 3 d
  else if x.dkind = 2 ∧ (len % 2 ≠ 0 ∨ 4096 < fld x.dsrc 0 12 + len / 2) then fail 3 d
  else if x.dkind = 1 ∧ !((List.range len).all fun i => peekOk d (8 * fld x.dsrc 3 20 + 8 * i)) then fail 6 d
  else if x.dkind = 2 ∧ !bankWritable d e (descBank x.dsrc) then fail 5 (updLife e (fun l => { l with csRej := satInc l.csRej }) d)
  else if !d.pe.bme ∨ d.pe.d3 then fail 10 d
  else
    let d1 := updDr (fun x => { x with
      busy := true, done := 0, result := 0, half := [], jAddr := x.daddr, jSrc := x.dsrc, jLen := x.dlen, jKind := x.dkind }) d
    if x.dkind = 2 then descRead d1 else d1

/-- A write of DR_DCTRL. Reserved kinds are stored: R582 answers them with BADCMD at GO, which R12 would leave nothing to answer
(DESIGN CHOICE, log entry 102). -/
def dctrlWrite (v : Word) (d : Dev) : Dev :=
  let d1 := updDr (fun x => { x with dkind := bf v 0 4 }) d
  if bit v 31 then descGo d1 else d1

/-- Write the whole microwords that have come (R584); a refused word ends the descriptor. -/
def descStore : Nat → Dev → Dev
  | 0, d => d
  | n + 1, d =>
    let x := d.dr
    if x.half.length < 16 ∨ !x.busy then d else
    let e := descEngine x.jSrc
    if !bankWritable d e (descBank x.jSrc) then endDesc 5 (updLife e (fun l => { l with csRej := satInc l.csRej }) d) else
    let a := fld x.jSrc 0 12 + x.done.toNat / 2
    let d1 := requestWake (e / 4) (bistAbortBank e (descBank x.jSrc) (writeCs e (descBank x.jSrc) a (BitVec.ofNat 128 (leAt x.half 0 16)) d))
    descStore n (updDr (fun x => { x with half := x.half.drop 16, done := x.done + 2 }) d1)

/-- Data of a descriptor read arrive; when the request is complete the next one is issued. -/
def descData (data : List Byte) (last : Bool) (d : Dev) : Dev :=
  if !d.dr.busy then d else
  let d1 := descStore (data.length / 16 + 1) (updDr (fun x => { x with half := x.half ++ data }) d)
  if last ∧ d1.dr.busy then descRead d1 else d1

/-- DESCRIPTOR_END (R583 to R585): a CELLAR_TO_HOST transfer, with the corrected errors `ce` its reads meet, runs to its end or
to the unit `ue` that cannot be read; a HOST_TO_CSTORE one ends when all its words are written. -/
def descEnd (ce : List (BitVec 23)) (ue : Option Nat) (d0 : Dev) : Dev :=
  let d := if d0.dr.busy ∧ d0.dr.jKind = 1 ∧ mayIssue d0 ∧ !d0.dr.frozen ∧ (d0.pe.link = .l0 ∨ d0.pe.link = .l0s) then
    cellarErrors (ce.map (·.toNat)) [] d0 else d0
  let x := d.dr
  if !x.busy then d
  else if x.jKind = 2 then (if x.done = x.jLen then endDesc 1 d else d)
  else if !mayIssue d ∨ x.frozen then d
  else if d.pe.link ≠ .l0 ∧ d.pe.link ≠ .l0s then leaveLowPower d else
  let n := match ue with | some k => min k x.jLen.toNat | none => x.jLen.toNat
  let a := 8 * fld x.jSrc 3 20
  let (bs, d') := cellarBytes a (8 * n) d
  let d1 := updDr (fun x => { x with done := BitVec.ofNat 24 n }) (hostBytes x.jAddr bs (updPe (fun p => { p with link := .l0 }) d'))
  if n < x.jLen.toNat then
    endDesc 7 (freezeRecord 0x24 0x40 false false 0 (a + 8 * n)
      (updDr (fun x => { x with frozen := true, frzBin := 0, frzSeq := 0, pass := none, again := none }) (cellarUe (a + 8 * n) d1)))
  else endDesc 1 d1

/-- A reset ends a running descriptor (R585). -/
def abortDesc (d : Dev) : Dev := if d.dr.busy then endDesc 8 d else d

/-! ### Resets (R580, R591 to R593) -/

/-- H reset and FLR. -/
def drainHF (d : Dev) : Dev :=
  let d1 := abortDesc d
  updDr (fun x => { x with
    pause := false, pass := none, again := none, daddr := 0, dsrc := 0, dlen := 0, dkind := 0, done := 0
    rings := x.rings.map fun r => { r with base := 0, wb := 0, run := false, timer := none, unsig := 0 } }) d1

/-- W reset. -/
def drainW (d : Dev) : Dev :=
  let d1 := abortDesc d
  let x := d1.dr
  { d1 with dr :=
    { daddr := x.daddr, dsrc := x.dsrc, dlen := x.dlen, dkind := x.dkind, done := x.done, result := x.result
      rings := x.rings.map fun r => { base := r.base, wb := r.wb } } }

/-- A full commit: indexes at 0, moderation from DRAIN, and the next boundary is a pass boundary (R564, R580). -/
def drainCommit (d : Dev) : Dev :=
  updDr (fun x => { x with
    count := d.cfg.drainInterval.toNat - 1, pass := none, again := none, bad := none
    rings := Vector.ofFn fun i : Fin 8 =>
      let e := at? d.cfg.hostRings i.val {}
      let r := x.rings[i]
      { r with pidx := 0, cidx := 0, unsig := 0, nextBin := 0, timer := none, stalled := false, modt := e.modTimer, modb := e.modBytes
               modtNext := none, modbNext := none } }) d

end Sys2Proof.Machine
end

