-- ==== Sys2Proof/Machine/Ring.lean ====
section
/-!
DEFINITION. Sys2Proof/Machine/Ring.lean: cells on the wire, hop retry, forwarding, wraps, allowances, discovery, ring commands
as the sender sees them, time alignment and mastership (13_hedgerow.md).
-/
namespace Sys2Proof.Machine

/-- Change the HR block. -/
def updHr (f : Hr → Hr) (d : Dev) : Dev := { d with hr := f d.hr }
/-- Ring port `p`: 0 East, 1 West. -/
def rport (d : Dev) (p : Nat) : RingPort := at? d.hr.ports p {}
/-- Change ring port `p`. -/
def updRport (p : Nat) (f : RingPort → RingPort) : Dev → Dev := updHr fun h => { h with ports := upd? h.ports p f }

/-! ### Cells on the wire (R475 to R478) -/

/-- One step of the CRC-16 of R476. -/
def crc16Bits : Nat → Nat → Nat
  | 0, c => c
  | k + 1, c => crc16Bits k ((if 0x8000 ≤ c then (c * 2) ^^^ 0x1021 else c * 2) % 65536)

/-- HCRC (R476). -/
def crc16 (l : List Byte) : Nat := l.foldl (fun c b => crc16Bits 8 (c ^^^ (b.toNat * 256))) 0xFFFF

/-- CRC-32C (R437). -/
def crc32c (l : List Byte) : Nat := crcBytesR 0x82F63B78 0xFFFFFFFF l ^^^ 0xFFFFFFFF

/-- Header bytes 0 to 7: the end-to-end fields. -/
def Cell.head (c : Cell) : List Byte :=
  leBytes 1 (c.dst.toNat + 32 * c.pri.toNat) ++ leBytes 1 c.src.toNat ++ [c.typ] ++ leBytes 2 c.payload.length ++
    leBytes 2 c.tick.toNat ++ [0]

/-- Header bytes 8 to 13: the per-hop fields but HCRC. -/
def Cell.hop (c : Cell) : List Byte :=
  leBytes 2 (c.seq.toNat + 4096 * b2n c.ring + 8192 * b2n c.wrap + 16384 * b2n c.ackv) ++ leBytes 2 c.ack.toNat ++
    leBytes 1 c.ttl.toNat ++ [0]

/-- A cell as it goes over the wire (R475). -/
def Cell.bytes (c : Cell) : List Byte :=
  let h := c.head ++ c.hop
  h ++ leBytes 2 (crc16 h) ++ c.payload ++ leBytes 4 (crc32c (c.head ++ c.payload))

/-- The wire bytes of a cell with `n` payload bytes (R477). -/
def wireBytes (n : Nat) : Nat := 8 * ((n + 27) / 8) + 8

/-- HCRC is right. -/
def hcrcOk (l : List Byte) : Bool := 16 ≤ l.length && leAt l 14 2 == crc16 (l.take 14)

/-- LEN is at most 256 and no reserved header bit is set (R479). -/
def headerOk (l : List Byte) : Bool :=
  leAt l 3 2 ≤ 256 && leAt l 0 1 < 128 && leAt l 1 1 < 32 && leAt l 7 1 == 0 && leAt l 8 2 < 32768 && leAt l 10 2 < 4096 &&
    leAt l 12 1 < 64 && leAt l 13 1 == 0

/-- The cell a byte string spells. -/
def parseCell (l : List Byte) : Cell :=
  { dst := BitVec.ofNat 5 (leAt l 0 1), pri := BitVec.ofNat 2 (leAt l 0 1 / 32), src := BitVec.ofNat 5 (leAt l 1 1)
    typ := BitVec.ofNat 8 (leAt l 2 1), tick := BitVec.ofNat 16 (leAt l 5 2)
    payload := (l.drop 16).take (leAt l 3 2 % 512)
    seq := BitVec.ofNat 12 (leAt l 8 2), ring := leAt l 8 2 / 4096 % 2 == 1, wrap := leAt l 8 2 / 8192 % 2 == 1
    ackv := leAt l 8 2 / 16384 % 2 == 1, ack := BitVec.ofNat 12 (leAt l 10 2), ttl := BitVec.ofNat 6 (leAt l 12 1) }

/-- The CCRC of a received cell is right. -/
def ccrcOk (l : List Byte) : Bool :=
  let n := leAt l 3 2
  l.length == 20 + n && leAt l (16 + n) 4 == crc32c (l.take 8 ++ (l.drop 16).take n)

def tLINK : Byte := 0x00
def tNAK : Byte := 0x01
def tSYNC : Byte := 0x02
def tSYNCR : Byte := 0x03
def tBEACON : Byte := 0x08
def tDISCOVER : Byte := 0x09
def tTOPO : Byte := 0x0A
def tASSIGN : Byte := 0x10
def tHELLO : Byte := 0x11
def tRD : Byte := 0x20
def tRDNS : Byte := 0x21
def tWR : Byte := 0x22
def tSCHED : Byte := 0x23
def tRESP : Byte := 0x2F
def tREC : Byte := 0x40
def tRECACK : Byte := 0x41
def tRECNAK : Byte := 0x42
def tEVREL : Byte := 0x48

/-- A link cell, which travels one hop. -/
def isLink (t : Byte) : Bool := t.toNat < 4
/-- A circulating cell. -/
def isCirc (t : Byte) : Bool := t == tBEACON || t == tDISCOVER || t == tTOPO
/-- A scheduled cell: command, response or data (R499). -/
def isSched (t : Byte) : Bool := (0x20 ≤ t.toNat && t.toNat ≤ 0x23) || t == tRESP || (0x40 ≤ t.toNat && t.toNat ≤ 0x42) || t == tEVREL
/-- A type of R478. -/
def knownType (t : Byte) : Bool := isLink t || isCirc t || t == tASSIGN || t == tHELLO || isSched t
/-- PRI of a type (R478). -/
def priOf (t : Byte) : BitVec 2 :=
  if isLink t then 3 else if t = tREC then 0 else if t = tRECACK ∨ t = tRECNAK ∨ t = tEVREL then 1 else 2

/-! ### Sending (R481, R484, R500, R508) -/

/-- The other port. -/
def otherPort (p : Nat) : Nat := 1 - p

/-- The port starts a cell now: acknowledgement, SEQ and a copy in the replay buffer (R484, R485). -/
def startCell (p : Fin 2) (c0 : Cell) (d : Dev) : Dev :=
  let q := rport d p
  let s := q.txSeq + 1
  let c := { c0 with seq := s, ackv := true, ack := q.rxSeq - 1, ring := p == 1 }
  let d1 := updRport p (fun q => { q with txSeq := s, replay := q.replay ++ [c], tries := if q.replay.isEmpty then 0 else q.tries, ackDue := false }) d
  { d1 with out := d1.out ++ [.cell p c.bytes false] }

/-- The replay buffer has room for a cell of `n` payload bytes (R484, R486). -/
def replayRoom (q : RingPort) (n : Nat) : Bool :=
  (q.replay.foldl (fun a c => a + 20 + c.payload.length) 0) + 20 + n ≤ 16384 && q.replay.length < 2047

/-- Start waiting cells while the port can: transit first, then the node's own (R481). -/
def pump (p : Fin 2) : Nat → Dev → Dev
  | 0, d => d
  | n + 1, d =>
    let q := rport d p
    if !q.link then d else
    match q.transit, q.own with
    | c :: r, _ =>
      if replayRoom q c.payload.length then pump p n (startCell p c (updRport p (fun q => { q with transit := r }) d)) else d
    | [], c :: r =>
      if replayRoom q c.payload.length then pump p n (startCell p c (updRport p (fun q => { q with own := r }) d)) else d
    | [], [] => d

/-- Start what waits on a port. -/
def pumpPort (p : Fin 2) (d : Dev) : Dev := pump p ((rport d p).transit.length + (rport d p).own.length) d

/-- A link cell is sent at once when the link is up (R481). -/
def sendLink (p : Fin 2) (t : Byte) (payload : List Byte) (d : Dev) : Dev :=
  if (rport d p).link then
    startCell p { dst := 0, pri := 3, src := d.sys.nodeId, typ := t, tick := 0, payload := payload, ttl := 63 } d
  else d

/-- Insert a cell by PRI, highest first, oldest first within one. -/
def insertPri (c : Cell) : List Cell → List Cell
  | [] => [c]
  | x :: r => if x.pri.toNat < c.pri.toNat then c :: x :: r else x :: insertPri c r

/-- The port a cell for port `p` leaves on: the other one while the node wraps there (R508). -/
def outPort (d : Dev) (p : Fin 2) : Fin 2 × Bool :=
  if (rport d p).wrap ∧ (rport d (1 - p)).link then (1 - p, true) else (p, false)

/-- The node's own cell, for ring A (port 0) or ring B (port 1). -/
def queueOwn (p0 : Fin 2) (c : Cell) (d : Dev) : Dev :=
  let (p, w) := outPort d p0
  pumpPort p (updRport p (fun q => { q with own := insertPri { c with wrap := c.wrap || w } q.own }) d)

/-- Bytes in the transit buffer, which both rings share. -/
def transitFill (d : Dev) : Nat :=
  (List.range 2).foldl (fun a p => (rport d p).transit.foldl (fun a c => a + 20 + c.payload.length) a) 0

/-- A cell in transit to port `p`; one that finds the buffer full is dropped and counted (R481). -/
def queueTransit (p0 : Fin 2) (c : Cell) (d : Dev) : Dev :=
  if 65536 < transitFill d + 20 + c.payload.length then updHr (fun h => { h with drop := satInc h.drop }) d else
  let (p, w) := outPort d p0
  pumpPort p (updRport p (fun q => { q with transit := q.transit ++ [{ c with wrap := c.wrap || w }] }) d)

/-- The place of a node number in the topology table. -/
def topoIdx (d : Dev) (n : BitVec 5) : Option Nat := d.hr.topo.findIdx? (· == some n)

/-- Ring B is the shorter way to `dst`; ring A when both are equal, and before a table (R500). -/
def shorterB (d : Dev) (dst : BitVec 5) : Bool :=
  match topoIdx d d.sys.nodeId, topoIdx d dst with
  | some i, some j =>
    let n := d.hr.topo.length
    (i + n - j) % n < (j + n - i) % n
  | _, _ => false

/-- The node's entry of the installed node table (R499). -/
def tableEntry (d : Dev) (n : BitVec 5) : Option NodeEntry := d.hr.table.map fun t => at? t n.toNat {}

/-- A manager that stays passive (R516). -/
def passive (d : Dev) : Bool := d.hr.foreign

/-- The ring on which a cell of the node for `dst` starts: the shorter way, turned where the node wraps (R500, R508). -/
def startRing (d : Dev) (dst : BitVec 5) : Bool := (outPort d (if shorterB d dst then 1 else 0)).1 == 1

/-- The tick in which the last fragment of a record was sent (R497): cell `c` starts. -/
def markSent (c : Cell) (d : Dev) : Dev :=
  if c.typ ≠ tREC then d else
  let of (x : SentRec) : Bool := x.bin == leAt c.payload 0 1 && x.seq == BitVec.ofNat 32 (leAt c.payload 4 4)
  updHr (fun h => { h with sent := h.sent.map fun x => if of x then { x with tick := d.tb.tick } else x }) d

/-- In the node's window on ring `r`, start the scheduled cells its allowance covers (R500), until one does not fit or the port cannot
start it: it is charged in the slot in which it starts (R23). -/
def pumpSched (r : Bool) : Nat → Dev → Dev
  | 0, d => d
  | n + 1, d =>
    let p : Fin 2 := if r then 1 else 0
    let q := rport d p
    if !(if r then d.hr.slotB else d.hr.slotA) ∨ passive d ∨ !q.link ∨ !q.transit.isEmpty ∨ !q.own.isEmpty then d else
    match tableEntry d d.sys.nodeId, d.hr.sched.find? fun c => startRing d c.dst == r with
    | some e, some c =>
      let w := wireBytes c.payload.length
      let used := if r then d.hr.txB else d.hr.txA
      let lim := if r then e.bytesB.toNat else e.bytesA.toNat
      if lim < used + w ∨ !replayRoom q c.payload.length then d else
      pumpSched r n (startCell p { c with tick := bf d.tb.tick 0 16, wrap := c.wrap || shorterB d c.dst != r } (markSent c
        (updHr (fun h => { h with sched := h.sched.erase c, txA := if r then h.txA else h.txA + w, txB := if r then h.txB + w else h.txB }) d)))
    | _, _ => d

/-- Start scheduled cells on both rings. -/
def pumpSlots (d : Dev) : Dev := pumpSched true d.hr.sched.length (pumpSched false d.hr.sched.length d)

/-- Send a cell of this node (R481, R499 to R501). A passive manager sends only HELLO (R516). -/
def sendCell (dst : BitVec 5) (t : Byte) (payload : List Byte) (d : Dev) : Dev :=
  if passive d ∧ t ≠ tHELLO then d else
  let c : Cell := { dst := dst, pri := priOf t, src := d.sys.nodeId, typ := t, tick := bf d.tb.tick 0 16, payload := payload }
  if isSched t ∧ d.committed then pumpSlots (updHr (fun h => { h with sched := insertPri c h.sched }) d)
  else queueOwn (if shorterB d dst then 1 else 0) c d

/-- Send a circulating cell on one ring. -/
def sendCirc (p : Fin 2) (t : Byte) (payload : List Byte) (d : Dev) : Dev :=
  if passive d then d else
  queueOwn p { dst := d.sys.nodeId, pri := 2, src := d.sys.nodeId, typ := t, tick := bf d.tb.tick 0 16, payload := payload } d

/-! ### Receiving: hop checks (R479, R482, R483, R485, R486) -/

/-- The cells up to SEQ `a` are acknowledged. -/
def ackUpTo (a : BitVec 12) (l : List Cell) : List Cell :=
  match l.findIdx? (·.seq == a) with | some i => l.drop (i + 1) | none => l

/-- Resend every unacknowledged cell from SEQ `s` on (R486). -/
def resendFrom (p : Fin 2) (s : BitVec 12) (d : Dev) : Dev :=
  let q := rport d p
  match q.replay.findIdx? (·.seq == s) with
  | none => d
  | some i =>
    let cells := q.replay.drop i
    let fresh := cells.map fun c => { c with ackv := true, ack := q.rxSeq - 1 }
    let d1 := updRport p (fun q => { q with retry := satInc q.retry cells.length, replay := q.replay.take i ++ fresh, tries := q.tries + 1 }) d
    { d1 with out := d1.out ++ fresh.map fun c => .cell p c.bytes false }

/-- The cell is addressed to this node: link cells, circulating cells, ASSIGN at its position, cells with its number. -/
def mine (d : Dev) (c : Cell) : Bool :=
  isLink c.typ || isCirc c.typ ||
    (if c.typ = tASSIGN then leAt c.payload 0 1 == d.hr.pos && d.hr.pos != 0 else d.sys.nodeValid && c.dst == d.sys.nodeId)

/-- The port a transit cell that came in on `p` goes out on. -/
def throughPort (p : Fin 2) : Fin 2 := 1 - p

/-- A bad or stomped cell that was being forwarded ends with the stomp code (R483). -/
def stompOn (p : Fin 2) (c : Cell) (l : List Byte) (d : Dev) : Dev :=
  if mine d c ∨ c.ttl = 0 ∨ isLink c.typ then d else
  let q := throughPort p
  if (rport d q).link then
    let d1 := updRport q (fun r => { r with stompTx := satInc r.stompTx }) d
    { d1 with out := d1.out ++ [.cell q l true] }
  else d

/-- Count a scheduled cell against its source's allowance (R502). The second result says that the ingress is frozen, now or
before, so that the cell is discarded. -/
def countIngress (c : Cell) (d : Dev) : Dev × Bool :=
  if !isSched c.typ then (d, false)
  else if bit d.hr.ingFrz c.src.toNat || bit d.hr.ingWait c.src.toNat then (d, true)
  else if !d.committed then (d, false) else
  let cur := bf d.tb.tick 0 16
  let t := if c.tick = cur ∨ c.tick = cur - 1 then c.tick else cur
  let same (x : RxCount) : Bool := x.src == c.src && x.ring == c.ring && x.tick == t
  let old := ((d.hr.rxCounts.find? same).map (·.bytes)).getD 0
  let n := old + wireBytes c.payload.length
  let d1 := updHr (fun h => { h with rxCounts := { src := c.src, ring := c.ring, tick := t, bytes := n } :: h.rxCounts.filter (!same ·) }) d
  match tableEntry d c.src with
  | some e =>
    if (if c.ring then e.bytesB.toNat else e.bytesA.toNat) < n then
      (freezeRecord (0x40 + c.src.toNat) 0x44 false false (b2n c.ring) c.tick.toNat
        (updHr (fun h => { h with ingFrz := setBit h.ingFrz c.src.toNat true }) d1), true)
    else (d1, false)
  | none => (d1, false)

/-- A NAK names the SEQ expected (R485). -/
def sendNak (p : Fin 2) (d : Dev) : Dev := sendLink p tNAK (leBytes 2 (rport d p).rxSeq.toNat) d

/-- What a received cell comes to. -/
inductive Got where
  | dropped
  | forMe (c : Cell)
  | through (c : Cell)

/-- Hop reception (R479, R482, R483, R485, R502): the checks in order, the acknowledgement the cell carries, its own
acknowledgement, and what is left to do with it. -/
def receive (p : Fin 2) (l : List Byte) (fin : CellEnd) (d0 : Dev) : Dev × Got :=
  let d := d0
  if !(rport d p).link then (d, .dropped) else
  if !hcrcOk l then (sendNak p (updRport p (fun q => { q with hcrc := satInc q.hcrc }) d), .dropped) else
  let c := parseCell l
  if fin = .stomped then (stompOn p c l (updRport p (fun q => { q with stompRx := satInc q.stompRx }) d), .dropped) else
  let wellFormed := headerOk l
  if wellFormed && (fin = .bad || !ccrcOk l) then (sendNak p (stompOn p c l d), .dropped) else
  let e := (rport d p).rxSeq
  if c.seq ≠ e then
    if (e - 1 - c.seq).toNat < 2048 then
      (sendLink p tLINK [] (updRport p (fun q => { q with dup := satInc q.dup }) d), .dropped)
    else (sendNak p d, .dropped)
  else
    let d1 := updRport p (fun q => { q with
      rxSeq := e + 1, ackDue := true
      replay := if c.ackv then ackUpTo c.ack q.replay else q.replay
      tries := if c.ackv && (ackUpTo c.ack q.replay).length < q.replay.length then 0 else q.tries }) d
    let d2 := pumpSlots (pumpPort p d1)
    if !wellFormed then (updRport p (fun q => { q with malformed := satInc q.malformed }) d2, .dropped)
    else
      let (d3, frz) := countIngress c d2
      if frz then (d3, .dropped)
      else if mine d3 c then
        if knownType c.typ then (d3, .forMe c)
        else (updRport p (fun q => { q with malformed := satInc q.malformed }) d3, .dropped)
      else if c.ttl = 0 then (updRport p (fun q => { q with ttl := satInc q.ttl }) d3, .dropped)
      else (d3, .through c)

/-- An acknowledgement that no cell has carried goes in a LINK cell (R485). -/
def flushAck (p : Fin 2) (c : Cell) (d : Dev) : Dev :=
  if (rport d p).ackDue ∧ c.typ ≠ tLINK then sendLink p tLINK [] d else d

/-- Forward a cell (R480, R482). -/
def forward (p : Fin 2) (c : Cell) (d : Dev) : Dev := queueTransit (throughPort p) { c with ttl := c.ttl - 1 } d

/-- A received cell that is not for this node, or is dropped (R479 to R483). -/
def cellForward (p : Fin 2) (l : List Byte) (fin : CellEnd) (d : Dev) : Dev :=
  if !(rport d p).link ∨ (hcrcOk l ∧ mine d (parseCell l)) then d else
  match receive p l fin d with
  | (d1, .through c) => flushAck p c (forward p c d1)
  | (d1, _) => flushAck p (parseCell l) d1

/-- A received cell of type `t` for this node: the common reception, then `f`. Nothing happens when the cell is another's. -/
def onCell (t : Byte) (p : Fin 2) (l : List Byte) (fin : CellEnd) (f : Cell → Dev → Dev) (d : Dev) : Dev :=
  let c := parseCell l
  if !(rport d p).link ∨ c.typ ≠ t ∨ (hcrcOk l ∧ !mine d c) then d else
  match receive p l fin d with
  | (d1, .forMe c) => flushAck p c (f c d1)
  | (d1, _) => flushAck p c d1

/-- A circulating cell goes on to the next node, unless its TTL has run out. -/
def circulate (p : Fin 2) (c : Cell) (d : Dev) : Dev :=
  if c.ttl = 0 then updRport p (fun q => { q with ttl := satInc q.ttl }) d else forward p c d

/-! ### Links and wraps (R468, R508, R510, R511, R513) -/

/-- The number of the node that is the master, as this node knows it. -/
def masterNode (d : Dev) : BitVec 5 := if d.hr.master then d.sys.nodeId else (d.hr.beacon.map (·.node)).getD 0

/-- The HELLO of this node (R472): die identity, role, number, position. -/
def helloPayload (d : Dev) : List Byte :=
  leBytes 8 Config.dieId.toNat ++ leBytes 1 d.sys.role.toNat ++ leBytes 1 (if d.sys.nodeValid then d.sys.nodeId.toNat else 0xFF) ++
    leBytes 2 d.hr.pos

/-- Start a discovery (R472). -/
def discover (d : Dev) : Dev :=
  if d.hr.master ∧ !passive d then
    sendCirc 0 tDISCOVER (leBytes 2 0) (updHr (fun h => { h with disc := true, discHops := none, discAns := [] }) d)
  else d

/-- Report a link change to the master (R508), or start the discovery when this node is the master. -/
def reportLink (d : Dev) : Dev :=
  if d.hr.master then discover d else sendCell (masterNode d) tHELLO (helloPayload d) d

/-- BLOCK_LOCK (R468). -/
def blockLock (p : Nat) (d : Dev) : Dev :=
  if d.hr.powered then updRport p (fun q => { q with blockLock := true }) d else d

/-- LINK_UP (R468, R508): SEQ numbers begin anew, a wrap at the port ends, and the change is reported. -/
def linkUp (p : Fin 2) (d : Dev) : Dev :=
  let q := rport d p
  if q.blockLock ∧ !q.link ∧ d.hr.powered ∧ d.hr.bypassOpen then
    let d1 := updRport p (fun q => { q with link := true, wrap := false, txSeq := 0xFFF, rxSeq := 0, tries := 0, ackDue := false }) d
    let d2 := raise (0x5A0 + p) d1
    let d3 := if q.wrap then raise 0x5A2 d2 else d2
    let d4 := if q.retrains ≠ 0 then raise 0x5A3 d3 else d3
    reportLink (pumpSlots (pumpPort p d4))
  else d

/-- The link of a port goes down (R468, R508): the node wraps, and what the port held goes to the other port. -/
def linkDown (p : Fin 2) (d : Dev) : Dev :=
  let q := rport d p
  if !q.link then updRport p (fun q => { q with blockLock := false }) d else
  let d1 := updRport p (fun q => { q with
    link := false, blockLock := false, wrap := true, retrains := satInc q.retrains, replay := [], own := [], transit := [] }) d
  let d2 := raise 0x5A2 (raise (0x5A0 + p) d1)
  let d3 := updRport (1 - p) (fun r => { r with
    own := q.own.foldl (fun l c => insertPri { c with wrap := true } l) r.own
    transit := r.transit ++ ((q.replay.filter fun c => !isLink c.typ) ++ q.transit).map fun c => { c with wrap := true } }) d2
  reportLink (pumpPort (1 - p) d3)

/-- The bypass closes (R510): the transmitters leave the ring, so both links go down (R262, R468, R508). No port is left to turn cells
to or to report on. -/
def closeBypass (d : Dev) : Dev :=
  let lost := (List.finRange 2).filter fun p => d.hr.ports[p].link
  let d1 := updHr (fun h => { h with bypassOpen := false, ports := h.ports.map fun q =>
    if q.link then { q with link := false, blockLock := false, wrap := true, retrains := satInc q.retrains, replay := [] } else q }) d
  raiseIf (!lost.isEmpty) 0x5A2 (lost.foldl (fun d p => raise (0x5A0 + p.val) d) d1)

/-- BYPASS_OPEN (R511): PLL locked, loopback passed, both receivers with block lock. -/
def bypassOpen (d : Dev) : Dev :=
  if d.hr.powered ∧ !d.hr.leave ∧ d.sys.ringLock ∧ d.sys.role ≠ 3 ∧ (rport d 0).blockLock ∧ (rport d 1).blockLock then
    updHr (fun h => { h with bypassOpen := true }) d
  else d

/-- A write of HR_CTRL.LEAVE (R510). -/
def hrLeave (b : Bool) (d : Dev) : Dev :=
  let d1 := updHr (fun h => { h with leave := b }) d
  if b then closeBypass d1 else d1

/-- No acknowledgement for 6,000 clk (R486); after 16 retries of one cell the link goes down (R468). -/
def hopTimeout (p : Fin 2) (d : Dev) : Dev :=
  match (rport d p).replay with
  | [] => d
  | c :: _ => if 16 ≤ (rport d p).tries then linkDown p d else resendFrom p c.seq d

/-- The NAK row (R486); after 16 retries of one cell the link goes down (R468). -/
def onNak (p : Fin 2) (c : Cell) (d : Dev) : Dev :=
  if 16 ≤ (rport d p).tries then linkDown p d else resendFrom p (BitVec.ofNat 12 (leAt c.payload 0 2)) d

/-! ### Discovery (R471 to R474, R514) -/

/-- Install a topology table (R471, R514): sources 0x580 + N for the nodes that enter or leave it. -/
def installTopo (t : List (Option (BitVec 5))) (d : Dev) : Dev :=
  let mask : Word := (t.filterMap id).foldl (fun m n => setBit m n.toNat true) 0
  let old := d.hr.present
  let d1 := updHr (fun h => { h with topo := t, present := mask }) d
  let d2 := (List.range 32).foldl (fun d n => raiseIf (bit old n != bit mask n) (0x580 + n) d) d1
  let lost (n : Nat) : Bool := n != 0 && !bit mask n && d2.committed && (at? d2.cfg.nodes n {}).expected == 1
  let ws := Vector.ofFn fun n : Fin 31 => if lost n then { d2.trl.ws[n] with st := 1 } else d2.trl.ws[n]
  if d.hr.master then { d2 with trl := { d2.trl with ws := ws } }
  else d2

/-- TOPO's payload: the numbers in ring order, 0xFF for none, then the absent workers. -/
def topoPayload (h : Hr) : List Byte :=
  leBytes 1 h.topo.length ++ h.topo.flatMap (fun n => leBytes 1 ((n.map (·.toNat)).getD 0xFF)) ++
    leBytes 1 h.absent.length ++ h.absent.flatMap fun a => leBytes 1 a.num.toNat ++ leBytes 1 a.before.toNat ++ leBytes 1 a.after.toNat

/-- The nearest present number before and after place `i` of a ring order. -/
def neighbours (keep : BitVec 5 → Bool) (t : List (Option (BitVec 5))) (i : Nat) : BitVec 5 × BitVec 5 :=
  let n := t.length
  let find (f : Nat → Nat) : BitVec 5 :=
    (((List.range n).map fun k => (t[f (k + 1) % n]?).join).findSome? fun o => match o with | some x => if keep x then some x else none | none => none).getD 0
  (find fun k => i + n * (k / n + 1) - k, find fun k => i + k)

/-- A number for the unnumbered worker at place `i` (R473). -/
def pickNumber (first : Bool) (t : List (Option (BitVec 5))) (absent : List AbsentNode) (i : Nat) : Option (BitVec 5) :=
  let held (n : BitVec 5) : Bool := t.any (· == some n)
  let (b, a) := neighbours held t i
  let gap := absent.filter fun x => x.before == b && x.after == a && !held x.num
  let lowest (l : List (BitVec 5)) : Option (BitVec 5) := ((List.range 31).map (BitVec.ofNat 5)).find? fun n => l.any (· == n)
  let free := ((List.range 31).drop 1).find? fun n => !held (BitVec.ofNat 5 n) && (first || absent.all fun x => x.num.toNat != n)
  match lowest (gap.map (·.num)) with
  | some n => if first then free.map (BitVec.ofNat 5) else some n
  | none => free.map (BitVec.ofNat 5)

/-- Number the workers that have none, in ring order: the table, and the (position, number) of each new one. -/
def numberAll (first : Bool) (absent : List AbsentNode) :
    List (Nat × Nat × TopoNode) → List (Option (BitVec 5)) → List (Nat × BitVec 5) → Nat → List (Option (BitVec 5)) × List (Nat × BitVec 5) × Nat
  | [], t, new, ref => (t, new, ref)
  | (i, pos, x) :: r, t, new, ref =>
    if x.num.isSome ∨ x.role ≠ 1 then numberAll first absent r t new ref else
    match pickNumber first t absent i with
    | some n => numberAll first absent r (t.set i (some n)) (new ++ [(pos, n)]) ref
    | none => numberAll first absent r t new (ref + 1)

/-- The SCHED payload with 16 entries from node `f` on: ID 0, first number, then SLOT_OFFSET, BYTES_A and BYTES_B of each. -/
def schedPayload (t : Vector NodeEntry 32) (f : Nat) : List Byte :=
  leBytes 2 0 ++ leBytes 1 f ++ leBytes 1 0 ++
    (List.range 16).flatMap fun i =>
      let e := at? t (f + i) {}
      leBytes 4 e.slotOffset.toNat ++ leBytes 4 e.bytesA.toNat ++ leBytes 4 e.bytesB.toNat

/-- The master sends its node table to every other present node (R499) and installs it itself. -/
def sendTable (d : Dev) : Dev :=
  if d.hr.master ∧ d.committed ∧ d.cfg.hedgerow then
    (d.hr.topo.filterMap id).foldl (fun d n =>
      if n = d.sys.nodeId then d else sendCell n tSCHED (schedPayload d.cfg.nodes 16) (sendCell n tSCHED (schedPayload d.cfg.nodes 0) d))
      (updHr (fun h => { h with tableNext := some d.cfg.nodes }) d)
  else d

/-- The discovery is complete: DISCOVER has come back and every node it passed has answered (R472, R473). -/
def finishDiscovery (d : Dev) : Dev :=
  match d.hr.discHops with
  | none => d
  | some hops =>
    if !d.hr.disc ∨ d.hr.discAns.length < hops then d else
    let ans := ((List.range (hops + 1)).filterMap fun p => (d.hr.discAns.find? (·.1 == p))).filter fun x => !(x.2.role == 0)
    let self : Nat × TopoNode := (0, { die := Config.dieId, role := d.sys.role, num := some d.sys.nodeId })
    let all := self :: ans
    let t0 := all.map fun x => if x.2.role = 2 then some 31 else x.2.num
    let idx := (List.range all.length).zip all
    let (t, new, ref) := numberAll (!d.hr.numbered) d.hr.absent idx t0 [] 0
    let here (n : BitVec 5) : Bool := t.any (· == some n)
    let gone := ((List.range d.hr.topo.length).zip d.hr.topo).filterMap fun (i, o) =>
      match o with
      | some n => if n ≠ 0 ∧ n ≠ 31 ∧ !here n then
          let (b, a) := neighbours here d.hr.topo i
          some ({ num := n, before := b, after := a } : AbsentNode) else none
      | none => none
    let d1 := updHr (fun h => { h with
      disc := false, numbered := true, refused := satInc h.refused ref
      absent := (h.absent.filter fun x => !here x.num) ++ gone }) d
    let d2 := new.foldl (fun d (pos, n) => sendCell n tASSIGN (leBytes 1 pos ++ leBytes 1 n.toNat) d) d1
    let d3 := installTopo t d2
    sendTable (sendCirc 0 tTOPO (topoPayload d3.hr) d3)

/-- A DISCOVER cell (R472): the sender completes the discovery when it returns on ring A; every other node counts a hop on
ring A, answers, and passes it on. -/
def onDiscover (p : Fin 2) (c : Cell) (d : Dev) : Dev :=
  let hops := leAt c.payload 0 2
  if c.ring then circulate p c d
  else if d.hr.master ∧ c.src = d.sys.nodeId then finishDiscovery (updHr (fun h => { h with discHops := some hops }) d)
  else
    let d1 := updHr (fun h => { h with pos := hops + 1 }) d
    sendCell c.src tHELLO (helloPayload d1) (circulate p { c with payload := leBytes 2 (hops + 1) } d1)

/-- A HELLO arrives at the master: an answer of the running discovery, or the report of a link change (R472, R508). -/
def onHello (c : Cell) (d : Dev) : Dev :=
  if !d.hr.master then d else
  let n := leAt c.payload 9 1
  let node : TopoNode := { die := BitVec.ofNat 64 (leAt c.payload 0 8), role := BitVec.ofNat 2 (leAt c.payload 8 1)
                           num := if n < 32 then some (BitVec.ofNat 5 n) else none }
  let pos := leAt c.payload 10 2
  if d.hr.disc then
    finishDiscovery (updHr (fun h => { h with discAns := (pos, node) :: h.discAns.filter (·.1 != pos) }) d)
  else discover d

/-- A TOPO cell installs the table (R471); the sender removes it. -/
def onTopo (p : Fin 2) (c : Cell) (d : Dev) : Dev :=
  if c.src = d.sys.nodeId ∧ d.hr.master then (if c.ring then circulate p c d else d) else
  let n := leAt c.payload 0 1
  let num (i : Nat) : Option (BitVec 5) := let v := leAt c.payload (1 + i) 1; if v < 32 then some (BitVec.ofNat 5 v) else none
  let m := leAt c.payload (1 + n) 1
  let ab (i : Nat) : AbsentNode :=
    { num := BitVec.ofNat 5 (leAt c.payload (2 + n + 3 * i) 1), before := BitVec.ofNat 5 (leAt c.payload (3 + n + 3 * i) 1)
      after := BitVec.ofNat 5 (leAt c.payload (4 + n + 3 * i) 1) }
  circulate p c (installTopo ((List.range n).map num) (updHr (fun h => { h with absent := (List.range m).map ab }) d))

/-- An ASSIGN cell gives this node its number (R473); a worker keeps one it has. -/
def onAssign (c : Cell) (d : Dev) : Dev :=
  if d.sys.role = 1 then
    { d with sys := { d.sys with nodeId := BitVec.ofNat 5 (leAt c.payload 1 1), nodeValid := true } }
  else d

/-- HR_CTRL.REENUM (R474). -/
def reenum (d : Dev) : Dev :=
  if d.hr.master ∧ !d.committed then discover (updHr (fun h => { h with absent := [], numbered := false, topo := h.topo.take 1 }) d) else d

/-! ### Ring commands as the sender sees them (R487, R490 to R492) -/

/-- The next command ID: 1 to 65,535, wrapping to 1 (R490). -/
def nextId (i : Half) : Half := if i = 0xFFFF then 1 else i + 1

/-- The payload of an RD, RDNS or WR command. -/
def cmdPayload (id : Half) (count off : Nat) (data : Option Word) : List Byte :=
  leBytes 2 id.toNat ++ leBytes 1 count ++ leBytes 1 0 ++ leBytes 4 off ++ (match data with | some v => leBytes 4 v.toNat | none => [])

/-- Change command channel `ch`. -/
def updChan (ch : Nat) (f : Chan → Chan) : Dev → Dev := updHr fun h => { h with chans := upd? h.chans ch f }

/-- HR_CMD.GO on channel `ch` (R492, R493). -/
def cmdGo (ch : Nat) (d : Dev) : Dev :=
  let x := at? d.hr.chans ch {}
  if x.busy ∨ !d.hr.master then d
  else if !bit d.hr.present x.dst.toNat then
    updChan ch (fun x => { x with result := 2 }) (updHr (fun h => { h with absentCnt := satInc h.absentCnt }) d)
  else
    let id := if x.kind = 1 then 0 else nextId d.hr.lastId
    let t := if x.kind = 0 then tRD else if x.kind = 1 then tRDNS else tWR
    let pl := cmdPayload id x.count.toNat x.off.toNat (if x.kind = 2 then some x.data else none)
    sendCell x.dst t pl
      (updChan ch (fun x => { x with busy := true, id := id, result := 0, tries := 0, typ := t, sentTo := x.dst, payload := pl })
        (updHr (fun h => { h with lastId := if x.kind = 1 then h.lastId else id }) d))

/-- CMD_TIMEOUT (R492): the same command with the same ID again, up to 3 times, then TIMEOUT. -/
def cmdTimeout (ch : Nat) (d : Dev) : Dev :=
  let x := at? d.hr.chans ch {}
  if !x.busy then d
  else if 3 ≤ x.tries then updChan ch (fun x => { x with busy := false, result := 3 }) d
  else sendCell x.sentTo x.typ x.payload (updChan ch (fun x => { x with tries := x.tries + 1 }) d)

/-- A WR command that the node itself sends to node `n` (R73, R88, R92), outside the channels. -/
def sendWr (n : BitVec 5) (off : Nat) (v : Word) (d : Dev) : Dev :=
  let id := nextId d.hr.lastId
  sendCell n tWR (cmdPayload id 1 off (some v)) (updHr (fun h => { h with lastId := id }) d)

/-- A RESP completes the channel that waits for it (R491, R492). -/
def onResp (c : Cell) (d : Dev) : Dev :=
  let id := BitVec.ofNat 16 (leAt c.payload 0 2)
  let st := leAt c.payload 2 1
  match (List.range 5).find? fun ch => let x := at? d.hr.chans ch {}; x.busy && x.id == id && x.sentTo == c.src with
  | some ch =>
    updChan ch (fun x => { x with
      busy := false, result := BitVec.ofNat 3 st
      rd := if x.typ = tWR ∨ st ≠ 1 then x.rd else BitVec.ofNat 64 (leAt c.payload 4 8) }) d
  | none => d

/-! ### Records (R494 to R497) and relays (R498) -/

/-- The fragments of a record in its delivered form (R494), each with its head. -/
def fragments (b : Nat) (seq : Word) (bytes : List Byte) : Nat → Nat → List (List Byte)
  | 0, _ => []
  | k + 1, off =>
    let body := (bytes.drop off).take 248
    let last := bytes.length ≤ off + 248
    (leBytes 8 (b + 256 * b2n (off == 0) + 512 * b2n last + off / 8 * 65536 + seq.toNat * 2 ^ 32) ++ body) ::
      (if last then [] else fragments b seq bytes k (off + 248))

/-- The released records of bin `b` that the worker has not sent yet. -/
def unsent (d : Dev) (b : Nat) (c : BinEntry) : List Rec :=
  (bin d b).recs.filter fun r => !r.busy && (if c.sealed then r.st == .sealed else r.st == .released)

/-- A worker queues the records of bin `b` that it has not sent yet, in release order (R495), until the drain meets the record `ue` that
it cannot read and freezes (R325, R577). -/
def sendRecords (ue : Option (Nat × Word)) (b : Nat) (c : BinEntry) (d : Dev) : Dev :=
  (unsent d b c).foldl (fun d r =>
    if d.dr.frozen then d else if ue = some (b, r.seq) then freezeDrain b r.seq d else
    let bytes := delivered c r d
    let d1 := (fragments b r.seq bytes (bytes.length / 248 + 1) 0).foldl (fun d f => sendCell (masterNode d) tREC f d) d
    updHr (fun h => { h with sent := (h.sent.filter fun x => !(x.bin == b && x.seq == r.seq)) ++ [{ bin := b, seq := r.seq, tick := d.tb.tick }] })
      (updRec b (fun x => x.seq == r.seq && x.st != .opened && x.st != .ended) (fun x => { x with busy := true }) d1)) d

/-- A bin's unacknowledged records will be sent again, oldest first, in the next slot (R497). -/
def resendBin (b : Nat) (d : Dev) : Dev :=
  if d.hr.sent.any (·.bin == b) then
    updRec b (fun _ => true) (fun r => { r with busy := false })
      (updHr (fun h => { h with
        sent := h.sent.filter (·.bin != b)
        sched := h.sched.filter fun x => !(x.typ == tREC && leAt x.payload 0 1 == b) }) d)
  else d

/-- A fragment of record `seq` of bin `b` waits for the node's window. -/
def fragmentWaits (d : Dev) (b : Nat) (seq : Word) : Bool :=
  d.hr.sched.any fun c => c.typ == tREC && leAt c.payload 0 1 == b && BitVec.ofNat 32 (leAt c.payload 4 4) == seq

/-- REC_RESEND (R497): two ticks have ended since the tick in which the last fragment was sent. -/
def recResend (b : Nat) (d : Dev) : Dev :=
  if d.hr.sent.any fun x => x.bin == b && decide (3 ≤ (d.tb.tick - x.tick).toNat) && !fragmentWaits d b x.seq then resendBin b d else d

/-- RECACK: the worker takes the record (R497, R292). -/
def onRecack (c : Cell) (d : Dev) : Dev :=
  let b := leAt c.payload 0 1
  let seq := BitVec.ofNat 32 (leAt c.payload 4 4)
  match binCfg? d b with
  | none => d
  | some e =>
    match (bin d b).recs with
    | r :: _ =>
      if r.seq = seq ∧ r.busy then
        takeFirst b e (updHr (fun h => { h with sent := h.sent.filter fun x => !(x.bin == b && x.seq == seq) }) d)
      else d
    | [] => d

/-- RECNAK: the worker sends the bin's unacknowledged records again (R497). -/
def onRecnak (c : Cell) (d : Dev) : Dev := resendBin (leAt c.payload 0 1) d

/-- RECACK and RECNAK payloads: bin, 3 reserved bytes, SEQ, and a reason (1 FULL). -/
def recAnswer (b : Nat) (seq : Word) (reason : List Byte) : List Byte := leBytes 4 b ++ leBytes 4 seq.toNat ++ reason

/-- REC at the master (R496, R313, R314). -/
def onRec (c : Cell) (d : Dev) : Dev :=
  let wb := leAt c.payload 0 1
  let isFirst := leAt c.payload 1 1 % 2 == 1
  let isLast := leAt c.payload 1 1 / 2 % 2 == 1
  let off := 8 * leAt c.payload 2 2
  let seq : Word := BitVec.ofNat 32 (leAt c.payload 4 4)
  let body := c.payload.drop 8
  if !d.hr.master then d else
  match d.cfg.bins.find? fun x => x.2.ownerKind == 2 && x.2.owner.toNat == c.src.toNat && x.2.remoteBin.toNat == wb with
  | none => updHr (fun h => { h with recNopair := satInc h.recNopair }) d
  | some (b, e) =>
    let x := bin d b
    let order (d : Dev) : Dev := updHr (fun h => { h with recOrder := satInc h.recOrder }) d
    let want := (d.hr.recNext.find? (·.1 == b)).map (·.2)
    -- place a fragment at its offset, and commit after the last (R303, R313)
    let place (d : Dev) : Dev :=
      match (bin d b).openRecs.find? fun r => r.seq == seq, (bin d b).fwd with
      | some r, some (q, n, w) =>
        let fits := body.take (8 * r.len - off)
        let w0 : DWord := if off = 0 then BitVec.ofNat 64 (leAt body 0 8) else w
        let skip := if off = 0 then 8 else 0
        let d1 := wrCellar (e.base.toNat + r.off + off + skip) (fits.drop skip) d
        let d2 := updBin b (fun y => { y with
          fwd := some (q, max n (off + fits.length), w0)
          recs := y.recs.map fun z => if z.isOpen && z.slot == r.slot then
            { z with cursor := max z.cursor (off + fits.length), written := max z.written (off + fits.length) } else z }) d1
        if isLast then
          let d3 := wrCellar (e.base.toNat + r.off) (leBytes 8 w0.toNat) d2
          let d4 := updBin b (fun y => { y with fwd := none, recs := y.recs.map fun z => if z.isOpen && z.slot == r.slot then { z with st := .ended } else z }) d3
          let d5 := updHr (fun h => { h with recNext := (b, seq + 1) :: h.recNext.filter (·.1 != b) }) d4
          sendCell c.src tRECACK (recAnswer wb seq []) d5
        else d2
      | _, _ => d
    let accept : Dev :=
      if hasRoom e x (leAt body 6 2) then
        -- the header is the worker's but for the flags that end a record (R313)
        place (updBin b (fun y => { y with fwd := some (seq, 0, 0) })
          (grant b e (leAt body 6 2) (leAt body 5 1) (leAt body 4 1 / 8 * 8) (BitVec.ofNat 64 (leAt body 8 8)) seq d))
      else sendCell c.src tRECNAK (recAnswer wb seq [1]) d
    if isFirst then
      let same := match x.fwd with | some (q, _, _) => q == seq | none => false
      let released := match want with | some w => w != seq && decide ((w - 1 - seq).toNat < 2 ^ 31) | none => false
      if same then place d
      else if released then sendCell c.src tRECACK (recAnswer wb seq []) d
      else if x.fwd.isSome then order d
      else if want.isNone || want == some seq then accept
      else order d
    else
      match x.fwd with
      | some (q, _, _) => if q = seq then place d else order d
      | none => d

/-- RES_TIMEOUT of a reservation (R306). That of a forwarded record is acknowledged to the worker, and the SEQ after it is expected next
(R314). -/
def recTimeout (b s : Nat) (d : Dev) : Dev :=
  let d1 := resTimeout b s d
  match binCfg? d b, (bin d b).fwd with
  | some e, some (q, _, _) =>
    if (bin d1 b).fwd.isSome then d1 else
    sendCell (BitVec.ofNat 5 e.owner.toNat) tRECACK (recAnswer e.remoteBin.toNat q [])
      (updHr (fun h => { h with recNext := (b, q + 1) :: h.recNext.filter (·.1 != b) }) d1)
  | _, _ => d1

/-- The EVREL cells of a tick (R498). -/
def sendRelays (d : Dev) : Dev :=
  (List.finRange 64).foldl (fun d i =>
    let r := d.hr.relays[i]
    if r.en && r.prev != 0 then
      let d1 := sendCell (masterNode d) tEVREL (leBytes 2 r.chan.toNat ++ leBytes 2 r.src.toNat ++ leBytes 2 r.prev.toNat ++ leBytes 2 0 ++ leBytes 4 r.prevTime.toNat) d
      updHr (fun h => { h with relays := upd h.relays i fun r => { r with prev := 0 } }) d1
    else d) d

/-- EVREL at the master (R498). -/
def onEvrel (c : Cell) (d : Dev) : Dev :=
  if !d.hr.master then d else
  let ch := leAt c.payload 0 2 % 64
  let n := leAt c.payload 4 2
  raise (0x5C0 + ch) (updHr (fun h => { h with
    relayCnt := upd? h.relayCnt ch fun v => satInc v n, relayNode := put? h.relayNode ch c.src }) d)

/-- The records that a worker's drain passes to its ring (R15, R579), with the corrected errors `ce` and the uncorrectable record `ue`
that its reads meet (R324, R325). A frozen drain passes none (R36). -/
def workerDrain (ce : List (BitVec 23)) (ue : Option (Byte × Word)) (d : Dev) : Dev :=
  if d.dr.frozen ∨ d.cfg.bins.all (fun x => (unsent d x.1 x.2).isEmpty) then d else
  d.cfg.bins.foldl (fun d x => sendRecords (ue.map fun y => (y.1.toNat, y.2)) x.1 x.2 d) (cellarErrors (ce.map (·.toNat)) [] d)

/-- SLOT_OPEN (R500): the node's window on a ring opens, relays and records are queued, and scheduled cells start. -/
def slotOpen (r : Bool) (ce : List (BitVec 23)) (ue : Option (Byte × Word)) (d0 : Dev) : Dev :=
  if !d0.committed then d0 else
  match tableEntry d0 d0.sys.nodeId with
  | none => d0
  | some e =>
    let d := passTo (d0.hr.tickClk + e.slotOffset.toNat) d0
    let d1 := updHr (fun h => if r then { h with slotB := true } else { h with slotA := true }) d
    let d2 := if d1.sys.role = 1 then workerDrain ce ue (sendRelays d1) else d1
    pumpSlots d2

/-- A SCHED command installs the node table at the next boundary (R499). Two commands make a table. -/
def onSched (c : Cell) (d : Dev) : Dev :=
  let f := leAt c.payload 2 1
  let old := d.hr.tableNext.getD (d.hr.table.getD (Vector.replicate 32 {}))
  let t := (List.range 16).foldl (fun t i =>
    upd? t (f + i) fun e => { e with
      slotOffset := BitVec.ofNat 32 (leAt c.payload (4 + 12 * i) 4), bytesA := BitVec.ofNat 32 (leAt c.payload (8 + 12 * i) 4)
      bytesB := BitVec.ofNat 32 (leAt c.payload (12 + 12 * i) 4) }) old
  updHr (fun h => { h with tableNext := some t }) d

/-! ### Time alignment (R504 to R506) -/

/-- The upstream port: towards the master on the shorter way, West when both are equal (R504). -/
def upstream (d : Dev) : Fin 2 :=
  match topoIdx d d.sys.nodeId with
  | some i => if d.hr.topo.length - i < i then 0 else 1
  | none => 1

/-- A node that is synchronised loses synchronisation (R506). -/
def loseSync (d : Dev) : Dev :=
  if !d.hr.syncLock then updHr (fun h => { h with syncGood := 0 }) d else
  raise 0x5A4 (updHr (fun h => { h with syncLock := false, syncLost := true, syncGood := 0, lostCnt := satInc h.lostCnt }) d)

/-- SYNC_EXCHANGE (R504): 16,384 clk after the last, a node that is not the master sends a SYNC. An exchange that got no
answer has failed; 64 in a row lose synchronisation. -/
def syncExchange (t1 : DWord) (d0 : Dev) : Dev :=
  if d0.hr.master ∨ !d0.hr.powered ∨ passive d0 then d0 else
  let d := passTo (d0.hr.lastSync + 16384) d0
  let fail := d.hr.syncT1.isSome
  let d1 := updHr (fun h => { h with
    syncFail := if fail then h.syncFail + 1 else h.syncFail, syncGood := if fail then 0 else h.syncGood, syncT1 := some t1
    lastSync := d.clk, upPort := upstream d == 0 }) d
  let d2 := if fail ∧ d1.hr.syncFail = 64 then loseSync d1 else d1
  sendLink (upstream d2) tSYNC (leBytes 8 t1.toNat) d2

/-- The node counts as synchronised (R506). -/
def synced (d : Dev) : Bool := d.hr.master || d.hr.syncLock

/-- SYNC at the upstream (R504): `t2` and `t3` are its stamps. -/
def onSync (p : Fin 2) (t2 t3 : DWord) (c : Cell) (d : Dev) : Dev :=
  sendLink p tSYNCR (c.payload.take 8 ++ leBytes 8 t2.toNat ++ leBytes 8 t3.toNat ++ leBytes 1 (b2n (synced d))) d

/-- TB_INC within the range of R230: 1 − 2^−12 to 1 + 2^−12. -/
def clampInc (v : Int) : DWord :=
  BitVec.ofInt 64 (max 0xFFF00000 (min 0x100100000 v))

/-- SYNCR (R504 to R506): offset and delay, the rate, the sync state. Without a committed Trellis the range of R230 is 1.0. An upstream
that reports itself unsynchronised leaves TB_INC as it is (R27). The upstream's measured rate is an open value (log entry 30): a free
value within the range of R230. Stamps are in 1/64 clk. -/
def onSyncr (t4 : DWord) (c : Cell) (d : Dev) : Dev :=
  let t1 : DWord := BitVec.ofNat 64 (leAt c.payload 0 8)
  let t2 : DWord := BitVec.ofNat 64 (leAt c.payload 8 8)
  let t3 : DWord := BitVec.ofNat 64 (leAt c.payload 16 8)
  let upSync := leAt c.payload 24 1 % 2 == 1
  if d.hr.syncT1 ≠ some t1 ∨ d.hr.master then d else
  let fwd := (t2 - t1).toInt
  let back := (t4 - t3).toInt
  let theta := (back - fwd) / 2
  let delta := (fwd + back) / 2
  let good := -19 ≤ theta && theta ≤ 19
  let d1 := updHr (fun h => { h with
    theta := BitVec.ofInt 32 theta, delta := BitVec.ofInt 32 delta, syncT1 := none, syncFail := 0
    syncGood := if good && upSync then h.syncGood + 1 else 0 }) d
  let d2 :=
    if !upSync then d1
    else if !d1.committed ∧ !d1.hr.timeSet then
      -- TB_NOW is set once to the upstream's time (R505, R238)
      updTb (fun t => { t with now := t.now - BitVec.ofInt 64 (theta / 64), stepped := true }) (updHr (fun h => { h with timeSet := true }) d1)
    else if !d1.committed then updTb (fun t => { t with inc := 0x100000000 }) d1
    else
      let (f, d') := takeFree d1
      let rate := (clampInc (f.toNat : Int)).toInt
      updTb (fun t => { t with inc := clampInc (rate - theta * 2 ^ 32 / (64 * 32768)) }) d'
  if !upSync then (if d2.hr.syncLock then loseSync d2 else d2)
  else if 8 ≤ d2.hr.syncGood ∧ !d2.hr.syncLock then
    let d3 := updHr (fun h => { h with syncLock := true, syncLost := false }) d2
    if d2.hr.syncLost then raise 0x5A5 d3 else d3
  else d2

/-! ### Mastership (R515 to R520) -/

/-- The BEACON payload: TB_TICK and TICK_CLK, 0 without `ticks`, node number, die identity (R515, R516). -/
def beaconPayload (ticks : Bool) (d : Dev) : List Byte :=
  (if ticks then leBytes 4 d.tb.tick.toNat ++ leBytes 4 d.cfg.tickClk.toNat else leBytes 8 0) ++
    leBytes 1 d.sys.nodeId.toNat ++ leBytes 8 Config.dieId.toNat

/-- Send a BEACON on both rings; a rediscovery that waits for it follows (R516, R520). -/
def sendBeacon (ticks : Bool) (d : Dev) : Dev :=
  let d1 := updHr (fun h => { h with lastBeacon := d.clk })
    (sendCirc 1 tBEACON (beaconPayload ticks d) (sendCirc 0 tBEACON (beaconPayload ticks d) d))
  if d1.hr.rediscover then discover (updHr (fun h => { h with rediscover := false }) d1) else d1

/-- BECOME_MASTER (R515): a manager 1 ms after its P reset, unless it has seen the BEACON of a master with number 0. -/
def becomeMaster (d0 : Dev) : Dev :=
  if d0.sys.role ≠ 0 ∨ d0.sys.inP ∨ d0.hr.master ∨ d0.hr.foreign then d0 else
  let d := passTo (d0.hr.pEnd + 1500000) d0
  discover (sendBeacon d.committed (installTopo [some 0] (updHr (fun h => { h with master := true }) d)))

/-- No tick boundary has come since the commit: CMP0 waits for Tfirst (R88). -/
def beforeTicks (d : Dev) : Bool := !d.committed || d.tb.tick == 0 && (at? d.tb.cmps 0 {}).target == d.trl.first

/-- BEACON_TIMER (R516): every 150,000 clk until the first tick boundary. -/
def beaconTimer (d : Dev) : Dev :=
  if d.hr.master ∧ beforeTicks d then sendBeacon false (passTo (d.hr.lastBeacon + 150000) d) else d

/-- This node stops being master. -/
def stopMaster (d : Dev) : Dev := updHr (fun h => { h with master := false, yieldAt := false, disc := false }) d

/-- What a BEACON cell says. -/
def beaconOf (c : Cell) : Beacon :=
  { tick := BitVec.ofNat 32 (leAt c.payload 0 4), tickClk := BitVec.ofNat 32 (leAt c.payload 4 4)
    node := BitVec.ofNat 5 (leAt c.payload 8 1), die := BitVec.ofNat 64 (leAt c.payload 9 8) }

/-- A node that is not master learns of the BEACON (R515, R519): a manager that sees node 0 stays passive; a worker that follows
a new master sends it every unacknowledged record. -/
def heardBeacon (b : Beacon) (d : Dev) : Dev :=
  let followed := masterNode d
  let known := d.hr.beacon.isSome
  let d1 := updHr (fun h => { h with beacon := some b, beaconSeen := true, beaconAt := d.tb.now }) d
  if d.sys.role = 0 ∧ b.node = 0 then updHr (fun h => { h with foreign := true }) d1
  else if d.sys.role = 1 ∧ followed ≠ b.node ∧ known then (d1.hr.sent.map (·.bin)).dedup.foldl (fun d k => resendBin k d) d1
  else d1

/-- A BEACON seen on the passing signal behind the closed bypass (R510, R515). -/
def monitorBeacon (p : Fin 2) (l : List Byte) (fin : CellEnd) (d : Dev) : Dev :=
  let c := parseCell l
  if (rport d p).link ∨ ¬ (rport d p).blockLock ∨ c.typ ≠ tBEACON ∨ fin ≠ .clean then d
  else if hcrcOk l ∧ headerOk l ∧ ccrcOk l ∧ !d.hr.master then heardBeacon (beaconOf c) d else d

/-- A BEACON arrives (R515, R516, R519, R520). -/
def onBeacon (p : Fin 2) (c : Cell) (d0 : Dev) : Dev :=
  let b := beaconOf c
  if c.src = d0.sys.nodeId ∧ b.die = Config.dieId then d0 else
  let d := circulate p c d0
  if !d.hr.master then heardBeacon b d
  else if b.node = d.sys.nodeId then
    if b.die.toNat < Config.dieId.toNat then
      updHr (fun h => { h with beacon := some b }) (installTopo [] (updHr (fun h => { h with foreign := true }) (stopMaster d)))
    else updHr (fun h => { h with rediscover := true }) d
  else if b.node.toNat < d.sys.nodeId.toNat then
    let d1 := updHr (fun h => { h with beacon := some b, beaconSeen := true }) d
    if d1.committed then updHr (fun h => { h with yieldAt := true }) d1 else stopMaster d1
  else updHr (fun h => { h with rediscover := true }) d

/-- STANDBY_TAKEOVER (R518), which falls in action 5 of the fourth boundary without a BEACON. The next PPS edge is a first edge (R239); the
one before it stays the edge that it is measured from (R235, R237). -/
def standbyTakeover (d : Dev) : Dev :=
  if d.sys.role = 2 ∧ d.committed ∧ !d.hr.master ∧ !d.hr.stbyMismatch ∧ d.hr.standbyOn ∧ 4 ≤ d.hr.beaconMissed then
    let d1 := sendBeacon true (updTb (fun t => { t with ppsRef := none })
      (updHr (fun h => { h with master := true, beaconMissed := 0, topo := [some 31] }) d))
    sendTable (raise 0x5A6 (discover d1))
  else d

/-- What a boundary does to the ring (R20 action 5, R499, R500, R502, R515, R518, R520): counts begin anew, a received node
table is installed, relays turn over, the master sends its BEACON, and a standby counts the BEACONs it missed. -/
def ringBoundary (d : Dev) : Dev :=
  let cur := bf d.tb.tick 0 16
  let d1 := updHr (fun h => { h with
    tickClk := d.clk, txA := 0, txB := 0, slotA := false, slotB := false
    table := if h.tableNext.isSome then h.tableNext else h.table, tableNext := none
    rxCounts := h.rxCounts.filter fun x => (x.tick == cur || x.tick == cur - 1) && !bit h.ingWait x.src.toNat, ingWait := 0
    relays := h.relays.map fun r => { r with prev := r.cur, prevTime := r.curTime, cur := 0, curTime := 0 }
    beaconMissed := if h.beaconSeen then 0 else h.beaconMissed + 1, beaconSeen := false }) d
  let d2 := if d1.hr.master && d1.hr.yieldAt then stopMaster d1 else d1
  if d2.hr.master then sendBeacon true d2 else d2

end Sys2Proof.Machine
end

