-- ==== Sys2Proof/Machine/Reset.lean ====
section
/-!
DEFINITION. Sys2Proof/Machine/Reset.lean: P and W resets, start-up, clocks and supplies, the two-write thaw
(16_reset_power_startup.md).
-/
namespace Sys2Proof.Machine

/-- Change the SYS block. -/
def updSys (f : Sys → Sys) (d : Dev) : Dev := { d with sys := f d.sys }

/-! ### P reset and start-up (R594 to R599, R603) -/

/-- P_RESET: every block at its P values, the root cellar kept (R598); `cause` as R447 numbers it. A lane's ball keeps its
level. -/
def pReset (cause : BitVec 2) (d : Dev) : Dev :=
  if d.sys.inP ∨ cause = 0 then d else
  let c : Byte := cause.zeroExtend 8
  { freeCtr := d.freeCtr, rdata := d.rdata, rcpl := d.rcpl, out := d.out, rc := d.rc
    lanes := d.lanes.map fun l => { sync := l.sync, syncOld := l.sync }
    sys := { pCause := c, rstCause := c, pTime := if d.sys.fclkOn then d.tb.now else 0 } }

/-- P_RESET_END (R1, R47, R596): the straps are sampled. -/
def pResetEnd (role : BitVec 2) (bistAtStart : Bool) (d : Dev) : Dev :=
  if !d.sys.inP then d else
  updSys (fun s => { s with
    inP := false, role := role, bistAtStart := bistAtStart, nodeValid := role == 0 || role == 2, nodeId := if role = 2 then 31 else 0 }) d

/-- CORE_PLL_LOCK (R231): fclk runs, and TB_NOW counts from the first lock on. -/
def corePllLock (d : Dev) : Dev :=
  if d.sys.inP then d else
  updTb (fun t => { t with counting := true }) (updSys (fun s => { s with fclkLock := true, fclkOn := true }) d)

/-- MEMORY_CLEAR_END (R287, R447, R461, R599, R603): INITDONE, the history entry and PCOUNT, ring training, the start-up test. -/
def memoryClearEnd (d : Dev) : Dev :=
  if d.sys.inP ∨ !d.sys.fclkOn ∨ d.cl.initDone then d else
  let d1 := rcCount 0x000 4 (history 1 d.sys.pCause.toNat 0 d.sys.pTime (updCl (fun l => { l with initDone := true }) d))
  let d2 := updHr (fun h => { h with powered := d.sys.role != 3 }) d1
  if d.sys.bistAtStart then bistStart 0xF 0 false d2 else d2

/-- RING_PLL_LOCK and PCIE_PLL_LOCK (R48, R526). -/
def ringPllLock (d : Dev) : Dev := if d.sys.inP then d else updSys (fun s => { s with ringLock := true }) d
def pciePllLock (d : Dev) : Dev :=
  if d.sys.inP ∨ !hasEndpoint d then d else
  updPe (fun p => { p with link := if p.link = .down then .training else p.link }) (updSys (fun s => { s with pcieLock := true }) d)

/-- FCLK_LOSS_OF_LOCK while fclk still runs (R29), RING_PLL_LOSS_OF_LOCK (R48), REFCLK_STOP (R28). -/
def fclkLossOfLock (d : Dev) : Dev :=
  if d.sys.fclkOn then raise 0x602 (updSys (fun s => { s with fclkLol := true, fclkLock := false }) d) else d
def ringPllLossOfLock (d : Dev) : Dev :=
  if d.sys.inP then d else raise 0x602 (updSys (fun s => { s with ringLol := true, ringLock := false }) d)
def refclkStop (d : Dev) : Dev :=
  updSys (fun s => { s with fclkOn := false, fclkLock := false, ringLock := false, pcieLock := false }) d

/-- VDD_AON_LOSS (R449, R634) and VDDA_SER_LOSS (R638). -/
def vddAonLoss (d : Dev) : Dev := { d with rc := [] }
def vddaSerLoss (d : Dev) : Dev := closeBypass d

/-! ### W reset (R600, R660) -/

/-- An engine's W values: registers reset, control store and scratch kept. -/
def engineW (g : Engine) : Engine := { cs0 := g.cs0, cs1 := g.cs1, scr := g.scr }
/-- A core's W values: local memory kept without tags; a disabled core stays disabled (R433). -/
def coreW (k : Core) : Core := { mem := k.mem, st := if k.st = .disabled then .disabled else .idle }
/-- A pair across a W reset (R222): a trip is kept. -/
def pairW (x : Pair) : Pair := { disc := x.disc, tripTime := x.tripTime, trips := x.trips, latch := x.latch }

/-- The Sundial across a W reset (R247, R256, R257): the timebase and PPS state are kept, TB_INC among it also where R230 says otherwise
(DEDUCED, log entry 20); the Stewards' latches are cleared (R233). -/
def tbW (t : Tb) : Tb :=
  { now := t.now, frac := t.frac, inc := t.inc, counting := t.counting, rej := t.rej, ppsBad := t.ppsBad, ppsLost := t.ppsLost
    ppsLock := t.ppsLock, set := t.set, pps := t.pps, ppsclk := t.ppsclk, ppserr := t.ppserr, ppsEdge := t.ppsEdge, ppsRef := t.ppsRef
    ppsK := t.ppsK, ppsGood := t.ppsGood, ppsGone := t.ppsGone, incNext := t.incNext, hostLatch := t.hostLatch, ringLatch := t.ringLatch }

/-- The CL block across a W reset: bins end, Cellar bytes and ECC state are kept. -/
def clW (l : Cl) : Cl :=
  { mem := l.mem, initDone := l.initDone, ce := l.ce, ue := l.ue, ueAddr := l.ueAddr, peekEn := l.peekEn, repairThr := l.repairThr, banks := l.banks }

/-- The ring across a W reset (R521): the schedule ends, the command channels and relays take their W values. -/
def hrW (role : BitVec 2) (h : Hr) : Hr :=
  { h with
    stbyMismatch := false, timeSet := false, txA := 0, txB := 0, slotA := false, slotB := false, sched := [], rxCounts := [], sent := [], recNext := []
    chans := h.chans.map fun x => { id := x.id }
    relays := Vector.replicate 64 {}, relayNode := Vector.replicate 64 0, relayCnt := Vector.replicate 64 0
    table := none, tableNext := none, beaconMissed := 0, master := h.master && role != 2, standbyOn := false, ingWait := 0 }

/-- The loader across a W reset: STATE reads RESETTING; TRL_CTRL and the DMA registers are kept. -/
def trlW (t : Trl) : Trl :=
  { src := t.src, mode := t.mode, loadMode := t.loadMode, stray := t.stray, dmaBusy := t.dmaBusy, dmaDead := t.dmaBusy, dmaAddr := t.dmaAddr, st := .resetting, afterReset := t.afterReset }

/-- The BIST block across a W reset: a running test is aborted (R456). -/
def bistW (b : Bist) : Bist :=
  { index := b.index, kind := b.kind, result := if b.run.isSome then 4 else b.result, sig := b.sig, exp := b.exp
    failEng := b.failEng, failOth := b.failOth }

/-- Every register at its W value (R598, R660). Every cluster is ACTIVE, so PWR_DOMSTAT.CL, which R623 keeps, reads so too (DESIGN CHOICE,
log entry 101). -/
def wValues (d : Dev) : Dev :=
  { drainW d with
    committed := false, cfg := {}
    ev := { hstat := d.ev.hstat, hen := d.ev.hen, ien := d.ev.ien }
    tb := tbW d.tb
    lanes := d.lanes.map fun l => { sync := l.sync, syncClk := l.syncClk, syncOld := l.syncOld, syncPrev := l.syncPrev }
    pairs := d.pairs.map pairW
    bank := { d.bank with fresh := 0 }
    cl := clW d.cl, hr := hrW d.sys.role d.hr, trl := trlW d.trl
    pwr := { lastCheck := d.clk }
    engines := d.engines.map engineW, cores := d.cores.map coreW, mtags := []
    wd := Vector.replicate 5 {}, bist := bistW d.bist }

/-- The cause code of a W reset (R447). -/
def wCode : WCause → Nat
  | .wd4 => 1
  | .command => 2
  | .ring => 3
  | .fullLoad => 4

/-- A W reset starts (R600): history entry, WCOUNT, W values; a second one is absorbed (R597). -/
def wReset (c : WCause) (d : Dev) : Dev :=
  if d.sys.inP ∨ !d.sys.fclkOn ∨ d.sys.wEnd.isSome then d else
  let src := if c = .wd4 then 4 else 0
  let d1 := rcCount 0x004 4 (history 2 (wCode c) src d.tb.now d)
  updSys (fun s => { s with rstKind := 2, rstCause := BitVec.ofNat 8 (wCode c), wEnd := some (d.clk + 6000) }) (wValues d1)

/-- A write of SYS_RSTCMD (R602). -/
def rstcmdWrite (who : Who) (v : Word) (d : Dev) : Dev :=
  let act (c : WCause) (d : Dev) : Dev :=
    if fld v 16 16 = 0x3A5C ∧ bit v 0 then wReset c d else updSys (fun s => { s with rstRej := satInc s.rstRej }) d
  match who with
  | .host => act .command d
  | .ring _ => act .ring d
  | .steward c _ _ sys => if sys then act .command d else stDeny c 1 d

/-! ### Host-side values of H reset and FLR (R598, R659) -/

/-- What both do outside the endpoint's configuration space and the loader. -/
def hostSide (d : Dev) : Dev :=
  let d1 := drainHF d
  { d1 with
    ev := { d1.ev with hstat := Vector.replicate 8 0, hen := Vector.replicate 8 0, ien := false }
    cl := { d1.cl with peekEn := false }
    hr := { d1.hr with chans := upd? d1.hr.chans 0 fun x => { id := x.id } }
    sys := { d1.sys with thawId := 0, thawArmed := none, thawResult := 0 } }

/-! ### Thaw (R618 to R621) -/

/-- The master is frozen. -/
def isFrozen (d : Dev) (m : Nat) : Bool :=
  if m < 0x20 then engSt d m == .frozen
  else if m < 0x24 then (core d (m - 0x20)).frozen
  else if m = 0x24 then d.dr.frozen
  else if m = 0x25 then d.cl.sealFrozen
  else if m = 0x26 then d.trl.frozen
  else if m = 0x27 then d.bist.frozen
  else 0x40 ≤ m && m < 0x60 && bit d.hr.ingFrz (m - 0x40)

/-- A master ID that is not reserved and can be frozen (R34). -/
def freezable (m : Nat) : Bool := m < 0x28 || (0x40 ≤ m && m < 0x60)

/-- The BIST controller is thawed: the running test ends ABORTED, and its logic-test target takes its W values (R621). -/
def thawBist (d : Dev) : Dev :=
  let d1 := updBist (fun b => { b with frozen := false }) d
  match d1.bist.run with
  | none => d1
  | some r =>
    let i := r.index.toNat
    let d2 := match r.kind.toNat with
      | 1 => (List.range 4).foldl (fun d k => updEng (4 * i + k) engineW d) d1
      | 2 => updEng i engineW d1
      | 7 => updCore i coreW d1
      | 0xF => { d1 with engines := d1.engines.map engineW, cores := d1.cores.map coreW, trl := { d1.trl with st := .empty } }
      | _ => d1
    bistAbort (fun _ _ => true) d2

/-- Thaw a frozen master (R618, R621). -/
def thawMaster (m : Nat) (d : Dev) : Dev :=
  if m < 0x20 then thawEngine m d
  else if m < 0x24 then stThaw (m - 0x20) d
  else match m with
    | 0x24 => descRead (updDr (fun x => { x with frozen := false }) d)
    | 0x25 => updCl (fun l => { l with sealFrozen := false }) d
    | 0x26 => { d with trl := { d.trl with frozen := false } }
    | 0x27 => thawBist d
    | _ => updHr (fun h => { h with ingFrz := setBit h.ingFrz (m - 0x40) false, ingWait := setBit h.ingWait (m - 0x40) true }) d

/-- A write of SYS_THAWID arms the sequence (R619). -/
def thawIdWrite (v : Word) (d : Dev) : Dev := updSys (fun s => { s with thawId := bf v 0 8, thawArmed := some d.clk }) d

/-- A write of SYS_THAWKEY (R619): NOTARMED, EXPIRED, BADKEY, BADID, NOTFROZEN, OK, in this order (DEDUCED, log entry 36). -/
def thawKeyWrite (v : Word) (d : Dev) : Dev :=
  let m := d.sys.thawId.toNat
  let bad := fld v 0 16 ≠ 0xC0DE
  let r : BitVec 3 := match d.sys.thawArmed with
    | none => 6
    | some c => if c + 1500000 < d.clk then 5 else if bad then 4 else if !freezable m then 3 else if !isFrozen d m then 2 else 1
  let d1 := updSys (fun s => { s with
    thawArmed := none, thawResult := r, badKeys := if r = 4 then satInc s.badKeys else s.badKeys }) d
  if r = 1 then thawMaster m d1 else d1

/-- A Steward's write of SYS_MTHAW (R618). -/
def mthawWrite (v : Word) (d : Dev) : Dev :=
  let m := fld v 0 8
  if 0x24 ≤ m ∧ freezable m ∧ isFrozen d m then thawMaster m d else d

/-! ### ALERT_N and SYS_FROZEN (R616, R617) -/

/-- SYS_FROZEN.ENG. -/
def frozenEng (d : Dev) : Word := (List.range 32).foldl (fun v e => setBit v e (isFrozen d e)) 0
/-- SYS_FROZEN2. -/
def frozen2 (d : Dev) : Word :=
  pack [(0, b2n (isFrozen d 0x20)), (1, b2n (isFrozen d 0x21)), (2, b2n (isFrozen d 0x22)), (3, b2n (isFrozen d 0x23)),
        (4, b2n d.dr.frozen), (5, b2n d.cl.sealFrozen), (6, b2n d.trl.frozen), (7, b2n d.bist.frozen)]

/-- ALERT_N is driven low. -/
def alertLow (d : Dev) : Bool :=
  !d.sys.inP && (frozenEng d &&& d.sys.alertEng != 0 || fld (frozen2 d) 0 4 &&& d.sys.alertCore.toNat != 0 ||
    fld (frozen2 d) 4 4 &&& d.sys.alertSys.toNat != 0 || (d.sys.alertDis && (List.range 4).any fun c => (core d c).st == .disabled))

end Sys2Proof.Machine
end

