-- ==== Sys2Proof/Machine/Supervise.lean ====
section
/-!
DEFINITION. Sys2Proof/Machine/Supervise.lean: lockstep pairs, watchdogs and the root cellar's commands
(12_lockstep_watchdog_bist.md).
-/
namespace Sys2Proof.Machine

/-- Change the lockstep registers of core `c`. -/
def updLs (c : Nat) (f : Ls → Ls) (d : Dev) : Dev := { d with ls := upd? d.ls c f }
/-- Watchdog `w`. -/
def wdog (d : Dev) (w : Nat) : Wd := at? d.wd w {}
/-- Change watchdog `w`. -/
def updWd (w : Nat) (f : Wd → Wd) (d : Dev) : Dev := { d with wd := upd? d.wd w f }

/-! ### Lockstep (R426 to R434) -/

/-- The comparator and the parity checks act on the core (R434). -/
def compared (d : Dev) (c : Nat) : Bool :=
  let k := core d c
  d.sys.fclkOn && !k.frozen && k.st != .disabled && k.st != .inReset

/-- The first clk in which the comparator reports a disagreement (R426): one in the compare group of the injection of that clk is not
reported (R430). -/
def firstDisagreement (inj : Option (Nat × BitVec 4)) (dis : List (Nat × BitVec 16)) : Option Nat :=
  let masked (x : Nat × BitVec 16) : BitVec 16 :=
    match inj with | some (t, g) => if t = x.1 then setBit x.2 g.toNat false else x.2 | none => x.2
  ((dis.filter fun x => masked x != 0).map (·.1)).min?

/-- The class of an event and the clk in which it is reported (R426), for the first parity error and the first disagreement reported. -/
def lsReport : Option Nat → Option Nat → Option (Nat × Nat)
  | none, none => none
  | some p, none => some (2, p + 9)
  | none, some m => some (1, m + 3)
  | some p, some m => if p + 8 < m then some (2, p + 9) else some (if p ≤ m then 2 else if p ≤ m + 2 then 3 else 1, m + 3)

/-- Count a class (R427). -/
def lsCount (cls : Nat) (l : Ls) : Ls :=
  match cls with
  | 1 => { l with mismatch := satInc l.mismatch }
  | 2 => { l with delay := satInc l.delay }
  | _ => { l with undet := satInc l.undet }

/-- The core is disabled (R433): its clock is gated and its watchdog stopped (R444). -/
def disableCore (c : Nat) (d : Dev) : Dev := updWd c (fun w => { w with running := false }) (updCore c (fun k => { k with st := .disabled }) d)

/-- A lockstep event of class `cls` is reported in this clk (R427); a second one within 1 s disables the core (R433). -/
def lockstepReport (c cls : Nat) (d : Dev) : Dev :=
  let again := match (at? d.ls c {}).last with | some t => decide (d.clk - t ≤ 1500000000) | none => false
  let d1 := updLs c (fun l => lsCount cls { l with lastClass := BitVec.ofNat 2 cls, time := d.tb.now, last := some d.clk }) d
  let d2 := raise (if cls = 2 then 0x60D else 0x60B) (rcCount (0x010 + 4 * c + cls - 1) 1 d1)
  let d3 := history (if again then 4 else 3) (cls + 1) c d.tb.now d2
  if again then disableCore c d3 else coreWarmReset c d3

/-- LOCKSTEP_EVENT (R426, R430): clk pass until the event is reported. -/
def lockstepEvent (c : Nat) (dis : List (Nat × BitVec 16)) (parity : List Nat) (d : Dev) : Dev :=
  if !compared d c then d else
  match lsReport parity.min? (firstDisagreement (at? d.ls c {}).inj dis) with
  | none => d
  | some (cls, t) => lockstepReport c cls (passTo t d)

/-- The comparator fails (R429). -/
def comparatorDead (c : Nat) (d : Dev) : Dev :=
  raiseIf (!(at? d.ls c {}).unchecked) 0x60C (rcCount (0x010 + 4 * c + 3) 1
    (updLs c (fun l => { l with unchecked := true, injFail := satInc l.injFail }) d))

/-- COMPARATOR_INJECTION (R428, R429): the next group is tested. An injection that is not reported, or equal rails in any clk, marks
the core UNCHECKED. -/
def comparatorInjection (c : Nat) (reported : Option Bool) (rails : Bool) (d : Dev) : Dev :=
  if !compared d c then d else
  let d1 := if reported.isSome then updLs c (fun l => { l with injGroup := l.injGroup + 1, inj := some (d.clk, l.injGroup) }) d else d
  if rails || reported == some false then comparatorDead c d1 else d1

/-! ### Watchdogs (R435 to R445) -/

/-- Clk of the running period. -/
def wdPos (d : Dev) (w : Wd) : Nat := d.clk - w.start
/-- The open window (R439). -/
def wdOpen (d : Dev) (w : Wd) : Bool :=
  w.running && w.openStart.toNat ≤ wdPos d w && wdPos d w < w.openStart.toNat + w.openLen.toNat

/-- The right answer (R437). -/
def wdAnswerOf (w : Wd) : Word := BitVec.ofNat 32 (crc32c (leBytes 2 w.q.toNat ++ leBytes 2 w.salt.toNat ++ leBytes 4 w.seq.toNat))

/-- A period starts now: staged windows in range apply (R442), and a new nonzero question is asked (R437; DESIGN CHOICE, log entry 37). -/
def wdBegin (w : Nat) (d : Dev) : Dev :=
  let (f, d1) := takeFree d
  updWd w (fun x =>
    let p := x.stPeriod.getD x.period
    let s := x.stOpenStart.getD x.openStart
    let l := x.stOpenLen.getD x.openLen
    let staged := x.stPeriod.isSome || x.stOpenStart.isSome || x.stOpenLen.isSome
    let ok := 15000 ≤ p.toNat && 1 ≤ l.toNat && s.toNat + l.toNat ≤ p.toNat
    { x with
      running := true, start := d.clk, answered := false, violated := false, q := BitVec.ofNat 16 (f.toNat % 65535 + 1)
      period := if ok then p else x.period, openStart := if ok then s else x.openStart, openLen := if ok then l else x.openLen
      stPeriod := none, stOpenStart := none, stOpenLen := none, badcfg := if staged && !ok then satInc x.badcfg else x.badcfg }) d1

/-- The watched domain is reset (R443, R445): a core's 256 clk (R431) begin in the following clk. -/
def wdReset (w : Nat) (d : Dev) : Dev :=
  let d1 := rcCount (0x008 + w) 1 (updWd w (fun x => { x with vcount := 0 }) d)
  if w = 4 then wReset .wd4 d1
  else if (core d1 w).st = .inReset then d1
  else
    let d2 := coreWarmReset w (history 3 1 w d.tb.now d1)
    { d2 with ls := upd? d2.ls w fun l => { l with resetEnd := l.resetEnd + 1 } }

/-- The period is violated for the first time (R440). -/
def wdViolate (w cause : Nat) (d : Dev) : Dev :=
  if (wdog d w).violated then d else
  let d1 := raiseNext (0x610 + w) (updWd w (fun x => { x with violated := true, lastCause := BitVec.ofNat 3 cause, vcount := satInc x.vcount }) d)
  if (wdog d1 w).vlimit.toNat ≤ (wdog d1 w).vcount.toNat then wdReset w d1 else d1

/-- The writer may act on the watchdog (R435); a ring command counts as the host (R488). -/
def wdMine (who : Who) (w : Nat) : Bool :=
  match who with
  | .steward c _ _ _ => c.val == w
  | .host => w == 4
  | .ring _ => w == 4

/-- Only the owner's writes act; others count FOREIGN (R435). -/
def wdGuard (who : Who) (w : Nat) (f : Dev → Dev) (d : Dev) : Dev :=
  if wdMine who w then f d else updWd w (fun x => { x with foreign := satInc x.foreign }) d

/-- A write of WD_ANSWER (R440). -/
def wdAnswer (who : Who) (w : Nat) (v : Word) : Dev → Dev :=
  wdGuard who w fun d =>
    let x := wdog d w
    if !x.running then d else
    let d1 := updWd w (fun x => { x with answered := true }) d
    if x.answered then wdViolate w 4 d1
    else if wdPos d x < x.openStart.toNat then wdViolate w 1 d1
    else if !wdOpen d x then wdViolate w 2 d1
    else if v ≠ wdAnswerOf x then wdViolate w 3 d1
    else d1

/-- A write of WD_PERIOD (0), WD_OPENST (1) or WD_OPENLEN (2) (R440, R442). -/
def wdConfig (who : Who) (w r : Nat) (v : Word) : Dev → Dev :=
  wdGuard who w fun d =>
    let x := wdog d w
    if !x.running then d
    else if wdOpen d x then updWd w (fun x => match r with
      | 0 => { x with stPeriod := some v }
      | 1 => { x with stOpenStart := some v }
      | _ => { x with stOpenLen := some v }) d
    else wdViolate w 6 d

/-- WD_WINDOW_END (R440): the open window ends without a write. -/
def wdWindowEnd (w : Nat) (d : Dev) : Dev :=
  let x := wdog d w
  if !d.sys.fclkOn ∨ !x.running ∨ x.answered ∨ x.violated then d
  else wdViolate w 5 (passTo (x.start + x.openStart.toNat + x.openLen.toNat) d)

/-- WD_PERIOD_START (R436, R441): the running period ends, passed or violated, and the next begins. -/
def wdPeriodStart (w : Nat) (d0 : Dev) : Dev :=
  let x0 := wdog d0 w
  if !d0.sys.fclkOn ∨ !x0.running then d0 else
  let d := wdWindowEnd w d0
  let x := wdog d w
  if !x.running ∨ (w < 4 ∧ (core d w).st = .inReset) then d else
  let d1 := passTo (x.start + x.period.toNat) d
  wdBegin w (updWd w (fun y => if y.violated then y else { y with vcount := 0, seq := y.seq + 1 }) d1)

/-- At a tick boundary the enabled watchdogs that have not begun start their first period (R436). -/
def wdBoundary (d : Dev) : Dev :=
  (List.range 5).foldl (fun d w =>
    let x := wdog d w
    if x.enable ∧ !x.running ∧ (core d w).st ≠ .disabled then wdBegin w d else d) d

/-- The watchdogs as a full commit sets them up (R69, R438). -/
def wdCommit (d : Dev) : Dev :=
  { d with wd := Vector.ofFn fun i : Fin 5 =>
      let e := d.cfg.wds[i]
      { enable := e.enable == 1, salt := e.salt, period := e.period, openStart := e.openStart, openLen := e.openLen
        vlimit := BitVec.ofNat 3 e.vlimit.toNat } }

/-- CORE_WARM_RESET_END (R431, R444): keys are installed again, a started core begins, and its watchdog starts a new period. -/
def coreWarmResetEnd (c : Nat) (d : Dev) : Dev :=
  if (core d c).st ≠ .inReset ∨ !d.sys.fclkOn then d else
  let d1 := startCore c (installKeys c (passTo (at? d.ls c {}).resetEnd d))
  if (wdog d1 c).running then wdBegin c (updWd c (fun x => { x with vcount := 0 }) d1) else d1

/-! ### The root cellar's command (R451) -/

/-- A write of RC_CTRL. -/
def rcCtrlWrite (who : Who) (v : Word) (d : Dev) : Dev :=
  let may : Bool := match who with | .steward _ _ _ sys => sys | _ => true
  if may ∧ fld v 16 16 = 0xC1EA ∧ bit v 0 then { d with rc := zeroBytes d.rc 4 0x1FC }
  else updSys (fun s => { s with rcRej := satInc s.rcRej }) d

/-- A write of LS_CTRL: INJPER 1 to 1,000 (R463). -/
def lsCtrlWrite (c : Nat) (v : Word) : Dev → Dev :=
  updLs c fun l => if 1 ≤ fld v 0 10 ∧ fld v 0 10 ≤ 1000 then { l with injPer := bf v 0 10 } else l

end Sys2Proof.Machine
end

