-- ==== Sys2Proof/Machine/Image.lean ====
section
/-!
DEFINITION. Sys2Proof/Machine/Image.lean: the form of a Trellis image (R49 to R71) and the checks of R81 steps 1 to 5 with the
codes and offsets of R83, R662 to R666. Nothing here changes state.
-/
namespace Sys2Proof.Machine

/-! ### Failures -/

/-- A check: it fails, with its code, at its offset. -/
abbrev Chk := Bool × Nat × Nat

/-- The first check of a list that fails: code and offset. -/
def firstOf (l : List Chk) : Option (Nat × Nat) := (l.find? (·.1)).map (·.2)

/-- The failing check with the lowest offset, the earlier of two at one offset (R81 step 4). -/
def lowest (l : List Chk) : Option (Nat × Nat) :=
  (l.filter (·.1)).foldl (fun m x => match m with
    | some y => if x.2.2 < y.2 then some x.2 else some y
    | none => some x.2) none

/-- The next checks, when the earlier ones passed. -/
def andThen (a : Option (Nat × Nat)) (b : Unit → Option (Nat × Nat)) : Option (Nat × Nat) :=
  match a with | some x => some x | none => b ()

/-! ### Kinds of load (R54, R489) -/

/-- What an image is checked as: full, partial, worker-only, nested. -/
inductive ImgKind | full | part | workers | nested
  deriving DecidableEq, Repr

/-- The kind that TRL_CTRL.MODE at the START and the role select (R489). -/
def loadKind (d : Dev) : ImgKind :=
  match d.trl.loadMode.toNat with
  | 0 => if d.sys.role = 1 then .nested else .full
  | 1 => .part
  | _ => .workers

/-- HFLAGS of a kind (R50). -/
def kindFlags : ImgKind → Nat
  | .full => 0
  | .part => 1
  | .workers => 2
  | .nested => 4

def tGLOBAL : Nat := 1
def tTOPOLOGY : Nat := 2
def tLANES : Nat := 3
def tCONDWIRE : Nat := 4
def tEVROUTE : Nat := 5
def tCSTORE : Nat := 6
def tSCRATCH : Nat := 7
def tBUDGETS : Nat := 8
def tSTEWARD : Nat := 9
def tKEYROOT : Nat := 10
def tBINS : Nat := 11
def tDRAIN : Nat := 12
def tHEDGEROW : Nat := 13
def tWATCHDOG : Nat := 14
def tWORKER : Nat := 15
def tEND : Nat := 0xFFFF

/-- A type that may appear more than once (R53). -/
def repeatable (t : Nat) : Bool := t == tCSTORE || t == tSCRATCH || t == tSTEWARD || t == tWORKER

/-- A section type of R54 and END. -/
def knownType' (t : Nat) : Bool := (1 ≤ t && t ≤ 15) || t == tEND

/-- A type allowed in a kind and role (R54, R517). -/
def allowedIn (k : ImgKind) (role : Nat) (t : Nat) : Bool :=
  t == tEND || match k with
    | .full => t ≤ 15 && !(t == tWORKER && role == 2)
    | .part => t == tLANES || t == tEVROUTE || t == tCSTORE || t == tBINS
    | .workers => t == tWORKER && role != 1
    | .nested => t ≤ 11 || t == tWATCHDOG

/-- The step-2 length of a type (R662). -/
def lengthOk (t len : Nat) : Bool :=
  if t = tGLOBAL then len == 8
  else if t = tTOPOLOGY then len == 32
  else if t = tLANES then len == 1288
  else if t = tCONDWIRE then 4 ≤ len
  else if t = tEVROUTE then 32 ≤ len
  else if t = tCSTORE then 32 ≤ len && (len - 16) % 16 == 0
  else if t = tSCRATCH then 12 ≤ len
  else if t = tBUDGETS then len == 272
  else if t = tSTEWARD then 12 ≤ len
  else if t = tKEYROOT then 8 ≤ len
  else if t = tBINS then 36 ≤ len
  else if t = tDRAIN then len == 132
  else if t = tHEDGEROW then len == 520
  else if t = tWATCHDOG then len == 80
  else if t = tWORKER then 80 ≤ len
  else if t = tEND then len == 0
  else true

/-! ### Step 1: the header (R50, R70, R81, R83) -/

/-- The fault of a 64-byte header. `must` is the TOTAL_LEN a nested image must have. -/
def headerFault (k : ImgKind) (role node : Nat) (must : Option Nat) (h : List Byte) : Option (Nat × Nat) :=
  let total := leAt h 0x10 4
  let res := (List.range 28).map fun i => (decide (leAt h (0x20 + i) 1 ≠ 0), 0x21, 0x20 + i)
  firstOf ([
    (leAt h 0 4 != 0x4B53544C, 0x01, 0x00),
    (leAt h 0x3C 4 != (crc32 (h.take 0x3C)).toNat, 0x02, 0x3C),
    (leAt h 4 2 != 0x0100, 0x03, 0x04),
    (leAt h 6 2 != kindFlags k, 0x07, 0x06),
    (leAt h 8 4 != 0x4B530002, 0x04, 0x08),
    (leAt h 0xC 4 != 0x00004200, 0x05, 0x0C),
    (leAt h 0x16 1 != role, 0x06, 0x16),
    (leAt h 0x17 1 != node, 0x06, 0x17),
    (total < 76 || 0x04000000 < total || total % 4 != 0 || (match must with | some m => total != m | none => false), 0x08, 0x10),
    (leAt h 0x14 2 == 0, 0x09, 0x14)] ++ res)

/-! ### Step 2: the section header (R51, R53, R54, R81) -/

/-- The fault of the first 8 bytes of a section that starts `room` bytes before TOTAL_LEN, after a section of type `last`. -/
def frameFault (k : ImgKind) (role room last : Nat) (s : List Byte) : Option (Nat × Nat) :=
  let t := leAt s 0 2
  let fl := leAt s 2 2
  let len := leAt s 4 4
  firstOf [
    (room < 12 + len, 0x10, 4),
    (len % 4 != 0 || !lengthOk t len, 0x11, 4),
    (!knownType' t, 0x12, 0),
    (if k = .part ∧ t = tCSTORE then 4 ≤ fl else fl != 0, 0x13, 2),
    (t < last || (t == last && !repeatable t), 0x14, 0),
    (!allowedIn k role t, 0x16, 0)]

/-! ### Step 4: what the checks need -/

/-- What a section is checked against: the kind of load; TICK_CLK and TOPOLOGY's ACTIVE, SPARE and CLASS in force, none when the
image lacks them (R664); the offset of the section in the whole image and its index. -/
structure ChkCtx where
  kind : ImgKind
  tick : Option Nat
  topo : Option (Word × Word × Word)
  pos : Nat
  sect : Nat

/-- The check at body offset `o`. -/
def ck (b : Bool) (code o : Nat) : Chk := (b, code, 8 + o)

/-- The engine is active, or the check is not made (R664). -/
def ChkCtx.activeOk (x : ChkCtx) (e : Nat) : Bool := match x.topo with | some (a, _, _) => bit a e | none => true
/-- The engine is active or spare, or the check is not made. -/
def ChkCtx.someOk (x : ChkCtx) (e : Nat) : Bool := match x.topo with | some (a, s, _) => bit a e || bit s e | none => true

/-- Reserved bytes. -/
def res (s : List Byte) (o n : Nat) : Chk := ck (leAt s (8 + o) n != 0) 0x21 o

/-- The 0x11 check of a length that counts fix (R662). -/
def lenChk (s : List Byte) (n : Nat) : Option (Nat × Nat) := if leAt s 4 4 = n then none else some (0x11, 4)

/-! ### GLOBAL, TOPOLOGY (R55, R56) -/

def globalFault (x : ChkCtx) (s : List Byte) : Option (Nat × Nat) :=
  let g o n := leAt s (8 + o) n
  lowest [
    ck (g 0 4 < 15000 || 1500000 < g 0 4) 0x20 0,
    ck (4 ≤ g 4 1) 0x21 4,
    ck (1 < g 5 1 || (x.kind == .nested && g 5 1 != 1)) 0x20 5,
    ck (1 < g 6 1) 0x20 6,
    res s 7 1]

def globalCfg (s : List Byte) (c : Cfg) : Cfg :=
  { c with
    tickClk := BitVec.ofNat 32 (leAt s 8 4), timeFlags := BitVec.ofNat 8 (leAt s 12 1)
    ringEn := BitVec.ofNat 8 (leAt s 13 1), power := BitVec.ofNat 8 (leAt s 14 1) }

/-- A fault in CLUSTER_POLICY is reported at the byte of the cluster it is in (DESIGN CHOICE, log entry 104). -/
def topologyFault (s : List Byte) : Option (Nat × Nat) :=
  let w o : Word := BitVec.ofNat 32 (leAt s (8 + o) 4)
  lowest ([
    ck (w 0 &&& w 4 != 0) 0x22 4,
    ck (w 8 &&& ~~~w 0 != 0) 0x22 8,
    ck (w 12 &&& ~~~w 0 != 0) 0x22 12] ++
    ((List.range 8).map fun k => ck (2 < leAt s (24 + k) 1) 0x20 (16 + k)) ++ [res s 24 8])

def topologyCfg (s : List Byte) (c : Cfg) : Cfg :=
  let w o : Word := BitVec.ofNat 32 (leAt s (8 + o) 4)
  { c with
    active := w 0, spare := w 4, stream := w 8, startBank := w 12
    clusterPolicy := Vector.ofFn fun k : Fin 8 => BitVec.ofNat 8 (leAt s (24 + k) 1) }

/-! ### LANES (R57, R100, R666) -/

def byteAt (s : List Byte) (o : Nat) : Byte := BitVec.ofNat 8 (leAt s (8 + o) 1)

/-- Lane entry `n` of a LANES section. -/
def laneOf (s : List Byte) (n : Nat) : LaneEntry :=
  let o := 8 + 16 * n
  { mode := byteAt s o, filter := byteAt s (o + 1), stamp := byteAt s (o + 2), owner := byteAt s (o + 4)
    ownerSlot := byteAt s (o + 5), obs := Vector.ofFn fun i : Fin 4 => byteAt s (o + 8 + i)
    obsSlot := Vector.ofFn fun i : Fin 4 => byteAt s (o + 12 + i) }

/-- Pair entry `p` of a LANES section. -/
def pairOf (s : List Byte) (p : Nat) : PairEntry :=
  let o := 1032 + 16 * p
  { laneA := byteAt s o, laneB := byteAt s (o + 1), inv := byteAt s (o + 2)
    ts := BitVec.ofNat 16 (leAt s (8 + o + 4) 2), n := BitVec.ofNat 16 (leAt s (8 + o + 6) 2)
    safeOut := byteAt s (o + 8), safeLevel := byteAt s (o + 9), safeLane := byteAt s (o + 10), safeLaneLevel := byteAt s (o + 11) }

/-- The 16 bytes of a lane entry. -/
def laneBytes (c : LaneEntry) : List Byte :=
  [c.mode, c.filter, c.stamp, 0, c.owner, c.ownerSlot, 0, 0] ++ c.obs.toList ++ c.obsSlot.toList

/-- The (engine, slot) pairs a lane entry names, with the offset of the naming field in the entry. -/
def namings (c : LaneEntry) : List (Nat × Nat × Nat) :=
  ((4, c.owner, c.ownerSlot) :: (List.range 4).map fun i => (8 + i, at? c.obs i 0xFF, at? c.obsSlot i 0)).filterMap
    fun (o, e, sl) => if e.toNat < 32 ∧ sl.toNat < 8 then some (o, e.toNat, sl.toNat) else none

/-- The later naming of an (engine, slot) named twice: offsets in the body. -/
def namedTwice : List (Nat × Nat × Nat) → List (Nat × Nat) → List Chk
  | [], _ => []
  | (o, e, sl) :: r, seen =>
    (if seen.contains (e, sl) then [ck true 0x25 o] else []) ++ namedTwice r ((e, sl) :: seen)

/-- The checks of one lane entry alone. -/
def laneChecks (x : ChkCtx) (s : List Byte) (n : Nat) : List Chk :=
  let o := 8 + 16 * n
  let c := laneOf s n
  let eng (e : Byte) (o : Nat) : List Chk :=
    if e = 0xFF then [] else if 32 ≤ e.toNat then [ck true 0x20 o] else [ck (!x.activeOk e.toNat) 0x25 o]
  [ck (5 < c.mode.toNat) 0x20 o, ck (4 ≤ c.stamp.toNat) 0x21 (o + 2), res s (o + 3) 1] ++ eng c.owner (o + 4) ++
    [ck (8 ≤ c.ownerSlot.toNat) 0x20 (o + 5), res s (o + 6) 2] ++
    ((List.range 4).flatMap fun i => eng (at? c.obs i 0xFF) (o + 8 + i)) ++
    (List.range 4).map fun i => ck (8 ≤ (at? c.obsSlot i 0).toNat) 0x20 (o + 12 + i)

/-- The engines a lane entry names as its owner or an observer, whatever the slot. -/
def namedEngines (c : LaneEntry) : List Nat := ((c.owner :: c.obs.toList).map (·.toNat)).filter (· < 32)

/-- A partial LANES changes a lane whose old or new owner or observer is not parked (R100, 0x2B). -/
def notParked (d : Dev) (s : List Byte) (n : Nat) : List Chk :=
  let old := laneBytes (at? d.cfg.lanes n {})
  let new := laneBytes (laneOf s n)
  match (List.range 16).find? fun i => old[i]? != new[i]? with
  | none => []
  | some i =>
    let engs := namedEngines (at? d.cfg.lanes n {}) ++ namedEngines (laneOf s n)
    [ck (engs.any fun e => engSt d e != .parked) 0x2B (8 + 16 * n + i)]

/-- The checks of one pair entry; an unused one has only its reserved bits checked (R666). -/
def pairChecks (s : List Byte) (p : Nat) : List Chk :=
  let o := 1032 + 16 * p
  let c := pairOf s p
  let used := c.laneA != 0xFF
  let sl := c.safeLane
  let m := (laneOf s sl.toNat).mode.toNat
  [ck (used && 64 ≤ c.laneA.toNat) 0x20 o,
   ck (used && (64 ≤ c.laneB.toNat || c.laneB == c.laneA)) 0x20 (o + 1),
   ck (4 ≤ c.inv.toNat) 0x21 (o + 2), res s (o + 3) 1,
   ck (used && c.ts == 0) 0x20 (o + 4), ck (used && c.n == 0) 0x20 (o + 6),
   ck (4 ≤ c.safeOut.toNat) 0x21 (o + 8), ck (4 ≤ c.safeLevel.toNat) 0x21 (o + 9),
   ck (used && sl != 0xFF && (64 ≤ sl.toNat || m < 2 || 5 < m)) 0x20 (o + 10),
   ck (used && 2 ≤ c.safeLaneLevel.toNat) 0x20 (o + 11), res s (o + 12) 4]

def lanesFault (x : ChkCtx) (d : Dev) (s : List Byte) : Option (Nat × Nat) :=
  let part := x.kind == .part
  let volts := (List.range 8).flatMap fun b =>
    [ck (2 < (byteAt s b).toNat) 0x20 b, ck (part && d.cfg.bankVSet && byteAt s b != at? d.cfg.bankV b 0) 0x2B b]
  let names := (List.range 64).flatMap fun n => (namings (laneOf s n)).map fun (o, e, sl) => (8 + 16 * n + o, e, sl)
  lowest (volts ++ ((List.range 64).flatMap fun n => laneChecks x s n ++ if part then notParked d s n else []) ++ namedTwice names [] ++
    (List.range 16).flatMap (pairChecks s))

def lanesCfg (s : List Byte) (c : Cfg) : Cfg :=
  { c with
    bankVSet := true, bankV := Vector.ofFn fun b : Fin 8 => byteAt s b
    lanes := Vector.ofFn fun n : Fin 64 => laneOf s n, pairs := Vector.ofFn fun p : Fin 16 => pairOf s p }

/-! ### CONDWIRE (R58) -/

def wireMask (s : List Byte) : Word := BitVec.ofNat 32 (leAt s 8 4)

def condwireFault (x : ChkCtx) (s : List Byte) : Option (Nat × Nat) :=
  let es := setBits (wireMask s) 32
  andThen (lowest [ck (es.any (!x.someOk ·)) 0x25 0]) fun _ =>
  andThen (lenChk s (4 + 128 * es.length)) fun _ =>
  lowest ((List.range (64 * es.length)).flatMap fun i =>
    let o := 4 + 2 * i
    let w := leAt s (8 + o) 2
    let k := w / 16384
    let ix := w % 2048
    [ck (w / 2048 % 8 != 0) 0x21 o, ck ((k == 1 && 64 ≤ ix) || (k == 2 && 16 ≤ ix)) 0x20 o])

def condwireCfg (s : List Byte) (c : Cfg) : Cfg :=
  let es := setBits (wireMask s) 32
  let wires := ((List.range es.length).zip es).foldl (fun m (i, e) =>
    (List.range 64).foldl (fun m j => store 0 m (64 * e + j) (BitVec.ofNat 16 (leAt s (12 + 128 * i + 2 * j) 2))) m) []
  { c with condMask := wireMask s, wires := wires }

/-! ### EVROUTE (R59, R60, R98) -/

/-- The check of a route target at body offset `o`, but for the deferred one (R665). -/
def targetChk (x : ChkCtx) (v o : Nat) : Chk :=
  let ix := v % 4096
  match v / 4096 with
  | 0 => ck (ix != 0) 0x20 o
  | 1 => if 512 ≤ ix then ck true 0x20 o else ck (!x.someOk (ix / 16)) 0x25 o
  | 2 => ck (128 ≤ ix) 0x20 o
  | 3 => ck (256 ≤ ix) 0x20 o
  | 4 => ck (256 ≤ ix) 0x20 o
  | 5 => ck (256 ≤ ix) 0x20 o
  | 6 => ck (16 ≤ ix) 0x20 o
  | _ => ck true 0x20 o

/-- A fault in L2_LINES or LARDER_LIMIT is reported at the element it is in (DESIGN CHOICE, log entry 104). -/
def evrouteFault (x : ChkCtx) (d : Dev) (s : List Byte) : Option (Nat × Nat) :=
  let g o n := leAt s (8 + o) n
  let whole := x.kind == .full || x.kind == .nested
  let part := x.kind == .part
  let f := g 0 2
  let n := g 2 2
  andThen (lowest [ck (0x7FF < f || (whole && f != 0)) 0x20 0, ck (n == 0 || 2048 < f + n || (whole && n != 2048)) 0x20 2]) fun _ =>
  andThen (lenChk s (24 + 8 * n)) fun _ =>
  lowest (((List.range 4).map fun c => ck (part && BitVec.ofNat 32 (g (4 + 4 * c) 4) != at? d.cfg.l2Lines c 0) 0x2D (4 + 4 * c)) ++
    ((List.range 4).flatMap fun c => [ck (g (20 + c) 1 == 0 || 64 < g (20 + c) 1) 0x20 (20 + c),
      ck (part && BitVec.ofNat 8 (g (20 + c) 1) != at? d.cfg.larderLimit c 0) 0x2D (20 + c)]) ++
    (List.range n).flatMap fun i =>
      let o := 24 + 8 * i
      [targetChk x (g o 2) o, targetChk x (g (o + 2) 2) (o + 2), res s (o + 6) 2])

/-- The route entries of an EVROUTE section, by source. -/
def routesOf (s : List Byte) : List (Nat × Route) :=
  let h o : Half := BitVec.ofNat 16 (leAt s (8 + o) 2)
  (List.range (leAt s 10 2)).map fun i =>
    (leAt s 8 2 + i, { tgt0 := h (24 + 8 * i), tgt1 := h (26 + 8 * i), rate := h (28 + 8 * i) })

/-- Its bin targets, whose bins a deferred check judges (R665). -/
def binTargets (x : ChkCtx) (s : List Byte) : List Deferred :=
  (List.range (2 * leAt s 10 2)).filterMap fun i =>
    let o := 24 + 8 * (i / 2) + 2 * (i % 2)
    let v := leAt s (8 + o) 2
    if v / 4096 = 3 then some { off := x.pos + 8 + o, sect := x.sect, val := v % 4096 } else none

def evrouteCfg (s : List Byte) (c : Cfg) : Cfg :=
  { c with
    routes := (routesOf s).foldl (fun m (k, r) => store {} m k r) []
    l2Lines := Vector.ofFn fun i : Fin 4 => BitVec.ofNat 32 (leAt s (12 + 4 * i) 4)
    larderLimit := Vector.ofFn fun i : Fin 4 => byteAt s (20 + i) }

/-! ### CSTORE, SCRATCH, STEWARD (R53, R61, R62, R64, R96, R97) -/

/-- The ordering key of a repeatable section (R53), with its first field as the high part. -/
def sectKey (t : Nat) (s : List Byte) : Nat :=
  if t = tCSTORE then leAt s 8 1 * 2 ^ 32 + leAt s 9 1
  else if t = tSCRATCH then leAt s 8 1 * 2 ^ 32 + leAt s 10 2
  else if t = tSTEWARD then leAt s 8 1 * 2 ^ 32 + leAt s 12 4
  else leAt s 8 1

/-- The order checks of a repeatable section, at its first key field. -/
def keyChecks (last : Option Nat) (t : Nat) (s : List Byte) : List Chk :=
  match last with
  | some k => [ck (sectKey t s < k) 0x14 0, ck (sectKey t s == k) 0x24 0]
  | none => []

/-- A range [a, b) overlaps an earlier one of the same type and target. -/
def overlaps (rs : List (Nat × Nat × Nat × Nat)) (t tgt a b : Nat) : Bool :=
  rs.any fun (t', g, lo, hi) => t' == t && g == tgt && a < hi && lo < b

def cstoreFault (x : ChkCtx) (d : Dev) (last : Option Nat) (s : List Byte) : Option (Nat × Nat) :=
  let g o n := leAt s (8 + o) n
  let e := g 0 1
  let b := g 1 1
  let part := x.kind == .part
  let swap := part && leAt s 2 2 % 2 == 1
  let n := (leAt s 4 4 - 16) / 16
  lowest ([ck (32 ≤ e) 0x20 0] ++ keyChecks last tCSTORE s ++
    [ck (e < 32 && !x.someOk e) 0x25 0, ck (e < 32 && swap && !x.activeOk e) 0x25 0,
     ck (2 ≤ b) 0x20 1,
     ck (e < 32 && b < 2 && part && (!bankWritable d e (b == 1) || (swap && (engine d e).seq.bank == (b == 1)))) 0x29 1,
     res s 2 2, ck (4096 < g 4 2 + n) 0x20 4, ck (4096 ≤ g 6 2) 0x20 6, ck (4096 ≤ g 8 2) 0x20 8, res s 10 6])

def scratchFault (x : ChkCtx) (last : Option Nat) (ranges : List (Nat × Nat × Nat × Nat)) (s : List Byte) : Option (Nat × Nat) :=
  let g o n := leAt s (8 + o) n
  let e := g 0 1
  let n := (leAt s 4 4 - 8) / 4
  lowest ([ck (32 ≤ e) 0x20 0] ++ keyChecks last tSCRATCH s ++
    [ck (overlaps ranges tSCRATCH e (g 2 2) (g 2 2 + n)) 0x24 0, ck (e < 32 && !x.someOk e) 0x25 0,
     res s 1 1, ck (4096 < g 2 2 + n) 0x20 2, res s 4 4])

def stewardFault (last : Option Nat) (ranges : List (Nat × Nat × Nat × Nat)) (s : List Byte) : Option (Nat × Nat) :=
  let g o n := leAt s (8 + o) n
  let n := leAt s 4 4 - 8
  lowest ([ck (4 ≤ g 0 1) 0x20 0] ++ keyChecks last tSTEWARD s ++
    [ck (overlaps ranges tSTEWARD (g 0 1) (g 4 4) (g 4 4 + n)) 0x24 0,
     ck (2 ≤ g 1 1) 0x21 1, res s 2 2, ck (g 4 4 % 4 != 0 || 0x40000 < g 4 4 + n) 0x20 4])

/-! ### BUDGETS (R63, R664) -/

def budgetsFault (x : ChkCtx) (s : List Byte) : Option (Nat × Nat) :=
  let g o n := leAt s (8 + o) n
  let tooMuch (v : Nat) : Bool := match x.tick with | some t => t < v + 64 | none => false
  lowest (((List.range 32).flatMap fun e =>
      let b := g (8 * e) 4
      let st := g (8 * e + 4) 1
      let (bad, bad') : Bool × Bool := match x.topo with
        | none => (false, false)
        | some (a, _, c) =>
          if bit a e && !bit c e then (b == 0 || tooMuch b, st != 0)
          else if bit a e then (b != 0, st == 0) else (b != 0, st != 0)
      [ck bad 0x26 (8 * e), ck bad' 0x26 (8 * e + 4), res s (8 * e + 5) 3]) ++
    (List.range 4).map fun c => ck (g (256 + 4 * c) 4 != 0 && tooMuch (g (256 + 4 * c) 4)) 0x26 (256 + 4 * c))

def budgetsCfg (s : List Byte) (c : Cfg) : Cfg :=
  { c with
    budgets := Vector.ofFn fun e : Fin 32 => { budget := BitVec.ofNat 32 (leAt s (8 + 8 * e) 4), stall := byteAt s (8 * e + 4) }
    stBudgets := Vector.ofFn fun k : Fin 4 => BitVec.ofNat 32 (leAt s (264 + 4 * k) 4) }

/-! ### KEYROOT (R65, R383 to R385) -/

def nKeys (s : List Byte) : Nat := leAt s 8 2
def nRegions (s : List Byte) : Nat := leAt s 10 2
def nSeals (s : List Byte) : Nat := leAt s 12 2

/-- The body offset of key, region and seal-key entry `i`. -/
def keyOff (i : Nat) : Nat := 8 + 24 * i
def regionOff (s : List Byte) (i : Nat) : Nat := 8 + 24 * nKeys s + 16 * i
def sealOff (s : List Byte) (i : Nat) : Nat := 8 + 24 * nKeys s + 16 * nRegions s + 40 * i

def keyEntry (s : List Byte) (i : Nat) : KeyEntry :=
  let o := keyOff i
  { core := byteAt s o, reg := byteAt s (o + 1), compartment := byteAt s (o + 2), key := BitVec.ofNat 128 (leAt s (16 + o) 16) }

def regionEntry (s : List Byte) (i : Nat) : RegionEntry :=
  let o := 8 + regionOff s i
  { core := BitVec.ofNat 8 (leAt s o 1), compartment := BitVec.ofNat 8 (leAt s (o + 1) 1)
    base := BitVec.ofNat 32 (leAt s (o + 4) 4), len := BitVec.ofNat 32 (leAt s (o + 8) 4) }

def sealEntry (s : List Byte) (i : Nat) : SealKeyEntry :=
  let o := 8 + sealOff s i
  { bin := BitVec.ofNat 8 (leAt s o 1), compartment := BitVec.ofNat 8 (leAt s (o + 1) 1), key := (s.drop (o + 8)).take 32 }

/-- Reserved bits of a key are 0 (R373, R374). -/
def keyReservedOk (v : BitVec 128) : Bool := fld v 125 3 == 0 && fld v 107 5 == 0

/-- The key is in order for its register (R383). -/
def keyOk (e : KeyEntry) : Bool :=
  let k : Key := { val := e.key, tag := true }
  keyReservedOk e.key && k.base + k.len ≤ 2 ^ 32 && (k.sealed == (k.otype != 0)) &&
    (e.reg != 8 || (!k.sealed && k.may permX)) && (e.reg != 9 || (k.sealed && k.may permX))

/-- Two sealed regions overlap (R385). -/
def regionsMeet (a b : RegionEntry) : Bool :=
  let m (r : RegionEntry) : Bool := inMbox r.base.toNat
  (m a && m b || (!m a && !m b && a.core == b.core)) && a.base.toNat < b.base.toNat + b.len.toNat && b.base.toNat < a.base.toNat + a.len.toNat

def keyrootFault (s : List Byte) : Option (Nat × Nat) :=
  andThen (lenChk s (8 + 24 * nKeys s + 16 * nRegions s + 40 * nSeals s)) fun _ =>
  let keys := (List.range (nKeys s)).map (keyEntry s)
  let regs := (List.range (nRegions s)).map (regionEntry s)
  let seals := (List.range (nSeals s)).map (sealEntry s)
  let pck (c : Byte) : Option KeyEntry := keys.find? fun e => e.core == c && e.reg == 8
  let keyCk (i : Nat) : List Chk :=
    let o := keyOff i
    let e := keyEntry s i
    let twice := (keys.take i).any fun f => f.core == e.core && f.reg == e.reg
    let comp := if e.reg = 8 ∨ e.reg = 9 then regs.any fun r => r.core == e.core && r.compartment == e.compartment
      else match pck e.core with | some p => p.compartment != e.compartment | none => false
    [ck (4 ≤ e.core.toNat) 0x20 o, ck (10 ≤ e.reg.toNat) 0x20 (o + 1), res s (o + 3) 5, ck (!keyOk e || twice || comp) 0x2A (o + 8)]
  let regCk (i : Nat) : List Chk :=
    let o := regionOff s i
    let r := regionEntry s i
    let b := r.base.toNat
    let inside := inLocal b || inMbox b
    let top := if inLocal b then 0x40000 else mboxBase + 0x10000
    [ck (4 ≤ r.core.toNat) 0x20 o, res s (o + 2) 2, ck (b % 16 != 0 || !inside) 0x20 (o + 4),
     ck ((regs.take i).any (regionsMeet r)) 0x24 (o + 4),
     ck (r.len.toNat % 16 != 0 || r.len.toNat < 16 || (inside && top < b + r.len.toNat)) 0x20 (o + 8), res s (o + 12) 4]
  let sealCk (i : Nat) : List Chk :=
    let o := sealOff s i
    [ck ((seals.take i).any fun f => f.bin == (sealEntry s i).bin) 0x24 o, res s (o + 2) 6]
  lowest (res s 6 2 :: (List.range (nKeys s)).flatMap keyCk ++ (List.range (nRegions s)).flatMap regCk ++ (List.range (nSeals s)).flatMap sealCk)

def keyrootCfg (s : List Byte) (c : Cfg) : Cfg :=
  { c with
    keys := (List.range (nKeys s)).map (keyEntry s), regions := (List.range (nRegions s)).map (regionEntry s)
    sealKeys := (List.range (nSeals s)).map (sealEntry s) }

/-! ### BINS (R66, R99, R315, R665) -/

def nBins (s : List Byte) : Nat := leAt s 8 2
def binOff (i : Nat) : Nat := 4 + 32 * i
def binNum (s : List Byte) (i : Nat) : Nat := leAt s (8 + binOff i) 1

def binEntry (s : List Byte) (i : Nat) : BinEntry :=
  let o := binOff i
  { policy := byteAt s (o + 1), ownerKind := byteAt s (o + 2), owner := byteAt s (o + 3)
    base := BitVec.ofNat 32 (leAt s (8 + o + 4) 4), size := BitVec.ofNat 32 (leAt s (8 + o + 8) 4)
    maxrec := BitVec.ofNat 16 (leAt s (8 + o + 12) 2), hostRing := byteAt s (o + 14), flags := byteAt s (o + 15)
    resTimeout := BitVec.ofNat 16 (leAt s (8 + o + 16) 2), remoteBin := byteAt s (o + 18)
    thresh := BitVec.ofNat 32 (leAt s (8 + o + 20) 4) }

/-- Two bins overlap in the Cellar. -/
def binsMeet (a b : BinEntry) : Bool :=
  a.base.toNat < b.base.toNat + b.size.toNat && b.base.toNat < a.base.toNat + a.size.toNat

/-- The host ring a bin names is enabled in `rings`, and large enough for its MAXREC (R67): the failures at HOST_RING and MAXREC. -/
def ringFaults (rings : Vector RingEntry 8) (ring maxrec : Nat) : Bool × Bool :=
  let e := at? rings ring {}
  if ring = 0xFF then (false, false)
  else if e.enable ≠ 1 then (true, false)
  else (false, 2 ^ e.sizeLog2.toNat / 4 < 8 * maxrec)

def binsFault (x : ChkCtx) (d : Dev) (sealKeys : List SealKeyEntry) (s : List Byte) : Option (Nat × Nat) :=
  let part := x.kind == .part
  let worker := x.kind == .nested || d.sys.role == 1
  andThen (lowest [ck (nBins s == 0 || 256 < nBins s) 0x20 0]) fun _ =>
  andThen (lenChk s (4 + 32 * nBins s)) fun _ =>
  let all := (List.range (nBins s)).map (binEntry s)
  let binCk (i : Nat) : List Chk :=
    let o := binOff i
    let b := binNum s i
    let e := binEntry s i
    let size := e.size.toNat
    let base := e.base.toNat
    let sizeOk := 4096 ≤ size && size ≤ 8388608 && size % 64 == 0
    let baseOk := base % 64 == 0 && base < 8388608
    let own := e.owner.toNat
    -- BLOCK requires a Steward owner or a STREAM engine (R66)
    let mayBlock := e.ownerKind == 1 || e.ownerKind == 0 && match x.topo with
      | some (a, _, c) => decide (own < 32) && bit a own && bit c own
      | none => true
    let (ringBad, maxBad) := if part then ringFaults d.cfg.hostRings e.hostRing.toNat e.maxrec.toNat else (false, false)
    let range := match e.ownerKind.toNat with
      | 0 => 32 ≤ own
      | 1 => 4 ≤ own
      | 2 => own == 0 || 31 ≤ own
      | _ => false
    [ck (0 < i && b < binNum s (i - 1)) 0x14 o, ck (0 < i && b == binNum s (i - 1)) 0x24 o,
     ck (part && d.cfg.bins.any (·.1 == b)) 0x2C o,
     ck (2 < e.policy.toNat) 0x20 (o + 1), ck (e.policy == 2 && !mayBlock) 0x27 (o + 1),
     ck (2 < e.ownerKind.toNat || (e.ownerKind == 2 && worker)) 0x20 (o + 2),
     ck range 0x20 (o + 3), ck (e.ownerKind == 0 && own < 32 && !x.activeOk own) 0x25 (o + 3),
     ck (!baseOk) 0x20 (o + 4),
     ck (baseOk && sizeOk && ((all.take i).any (binsMeet e) || (part && d.cfg.bins.any fun y => binsMeet e y.2))) 0x24 (o + 4),
     ck (!sizeOk || (baseOk && 8388608 < base + size)) 0x20 (o + 8),
     ck (e.maxrec.toNat < 2 || (sizeOk && size / 32 < e.maxrec.toNat)) 0x20 (o + 12), ck maxBad 0x28 (o + 12),
     ck (e.hostRing != 0xFF && (8 ≤ e.hostRing.toNat || worker)) 0x20 (o + 14), ck (ringBad && e.hostRing.toNat < 8) 0x28 (o + 14),
     ck (4 ≤ e.flags.toNat) 0x21 (o + 15), ck (e.sealed && e.ownerKind == 2) 0x20 (o + 15),
     ck (e.sealed && !sealKeys.any fun k => k.bin.toNat == b) 0x23 (o + 15),
     ck (e.resTimeout == 0) 0x20 (o + 16), ck (e.ownerKind != 2 && e.remoteBin != 0) 0x20 (o + 18), res s (o + 19) 1,
     ck (size < e.thresh.toNat) 0x20 (o + 20), res s (o + 24) 8]
  lowest (res s 2 2 :: (List.range (nBins s)).flatMap binCk)

/-- The bins of a BINS section. -/
def binsOf (s : List Byte) : List (Nat × BinEntry) := (List.range (nBins s)).map fun i => (binNum s i, binEntry s i)

/-- The bins that name a host ring, which DRAIN judges (R665). -/
def ringBinsOf (x : ChkCtx) (s : List Byte) : List DeferredBin :=
  (List.range (nBins s)).filterMap fun i =>
    let e := binEntry s i
    if e.hostRing = 0xFF then none else
    some { offRing := x.pos + 8 + binOff i + 14, offMax := x.pos + 8 + binOff i + 12, sect := x.sect
           ring := e.hostRing.toNat, maxrec := e.maxrec.toNat }

/-! ### DRAIN, HEDGEROW, WATCHDOG, WORKER (R67 to R70, R666) -/

def ringEntryOf (s : List Byte) (r : Nat) : RingEntry :=
  let o := 4 + 16 * r
  { enable := byteAt s o, sizeLog2 := byteAt s (o + 1), modTimer := BitVec.ofNat 16 (leAt s (8 + o + 2) 2)
    modBytes := BitVec.ofNat 32 (leAt s (8 + o + 4) 4), hostEvent := byteAt s (o + 8) }

def drainFault (s : List Byte) : Option (Nat × Nat) :=
  lowest (ck (byteAt s 0 == 0) 0x20 0 :: res s 1 3 :: (List.range 8).flatMap fun r =>
    let o := 4 + 16 * r
    let e := ringEntryOf s r
    [ck (1 < e.enable.toNat) 0x20 o, ck (e.enable == 1 && (e.sizeLog2.toNat < 12 || 30 < e.sizeLog2.toNat)) 0x20 (o + 1), res s (o + 9) 7])

def drainCfg (s : List Byte) (c : Cfg) : Cfg :=
  { c with drainInterval := byteAt s 0, hostRings := Vector.ofFn fun r : Fin 8 => ringEntryOf s r }

def nodeEntryOf (s : List Byte) (n : Nat) : NodeEntry :=
  let o := 16 + 16 * n
  { expected := BitVec.ofNat 8 (leAt s o 1), slotOffset := BitVec.ofNat 32 (leAt s (o + 4) 4)
    bytesA := BitVec.ofNat 32 (leAt s (o + 8) 4), bytesB := BitVec.ofNat 32 (leAt s (o + 12) 4) }

def hedgerowFault (x : ChkCtx) (s : List Byte) : Option (Nat × Nat) :=
  let sum (f : NodeEntry → Word) (n : Nat) : Nat := (List.range (n + 1)).foldl (fun a i => a + (f (nodeEntryOf s i)).toNat) 0
  let tooMuch (v : Nat) : Bool := match x.tick with | some t => t * 5 / 6 < v | none => false
  lowest (ck (1 < (byteAt s 0).toNat) 0x20 0 :: res s 1 7 :: (List.range 32).flatMap fun n =>
    let o := 8 + 16 * n
    let e := nodeEntryOf s n
    [ck (1 < e.expected.toNat) 0x20 o, res s (o + 1) 3,
     ck (match x.tick with | some t => t ≤ e.slotOffset.toNat + 64 | none => false) 0x20 (o + 4),
     ck (tooMuch (sum (·.bytesA) n)) 0x28 (o + 8), ck (tooMuch (sum (·.bytesB) n)) 0x28 (o + 12)])

def hedgerowCfg (s : List Byte) (c : Cfg) : Cfg :=
  { c with hedgerow := true, standby := byteAt s 0, nodes := Vector.ofFn fun n : Fin 32 => nodeEntryOf s n }

def wdEntryOf (s : List Byte) (w : Nat) : WdEntry :=
  let o := 16 * w
  { enable := byteAt s o, vlimit := byteAt s (o + 1), salt := BitVec.ofNat 16 (leAt s (10 + o) 2)
    period := BitVec.ofNat 32 (leAt s (12 + o) 4), openStart := BitVec.ofNat 32 (leAt s (16 + o) 4)
    openLen := BitVec.ofNat 32 (leAt s (20 + o) 4) }

/-- OPEN_START + OPEN_LEN beyond PERIOD is reported at OPEN_LEN, whichever of the two is too large (DESIGN CHOICE, log entry 105). -/
def watchdogFault (x : ChkCtx) (s : List Byte) : Option (Nat × Nat) :=
  lowest ((List.range 5).flatMap fun w =>
    let o := 16 * w
    let e := wdEntryOf s w
    let on := e.enable == 1
    [ck (1 < e.enable.toNat || (x.kind == .nested && w == 4 && on)) 0x20 o,
     ck (on && (e.vlimit == 0 || 7 < e.vlimit.toNat)) 0x20 (o + 1), ck (on && e.period.toNat < 15000) 0x20 (o + 4),
     ck (on && (e.openLen == 0 || e.period.toNat < e.openStart.toNat + e.openLen.toNat)) 0x20 (o + 12)])

def watchdogCfg (s : List Byte) (c : Cfg) : Cfg := { c with wds := Vector.ofFn fun w : Fin 5 => wdEntryOf s w }

def workerFault (last : Option Nat) (s : List Byte) : Option (Nat × Nat) :=
  let n := leAt s 8 1
  lowest (ck (n == 0 || 30 < n) 0x20 0 :: keyChecks last tWORKER s ++ [res s 1 3])

/-! ### The bytes as they arrive (R81 steps 1 to 3, R663) -/

/-- What one more DWORD of an image comes to. -/
inductive Parsed where
  /-- rejected: code, offset in this image, section index -/
  | bad (code off sect : Nat)
  | more (p : Parse)
  /-- the header has passed step 1 -/
  | header (p : Parse)
  /-- the section `s` has passed step 3 -/
  | sect (p : Parse) (s : List Byte)

/-- The next section starts at `p.pos` (R663). -/
def sectionStart (p : Parse) : Parsed :=
  if p.total - p.pos = 4 ∨ p.total - p.pos = 8 then .bad 0x10 p.pos p.sect else .more p

/-- The section in `p` is done (R83 0x31): the next one starts, unless the image ends here. -/
def nextSection (p : Parse) : Parsed :=
  if p.total ≤ p.pos + 12 + p.len then .bad 0x31 p.pos p.sect
  else sectionStart { p with pos := p.pos + 12 + p.len, sect := p.sect + 1, buf := [] }

/-- One more DWORD. -/
def parseDword (k : ImgKind) (role node : Nat) (must : Option Nat) (dw : List Byte) (p0 : Parse) : Parsed :=
  let p := { p0 with buf := dw.reverse ++ p0.buf }
  let n := p.buf.length
  if !p.hdr then
    if n < 64 then .more p else
    let h := p.buf.reverse
    match headerFault k role node must h with
    | some (c, o) => .bad c o 0
    | none => .header { p with
        hdr := true, total := leAt h 0x10 4, count := leAt h 0x14 2, role := leAt h 0x16 1, node := leAt h 0x17 1
        build := BitVec.ofNat 64 (leAt h 0x18 8), pos := 64, sect := 1, buf := [] }
  else if n < 8 then .more p
  else if n = 8 then
    let s := p.buf.reverse
    match frameFault k role (p.total - p.pos) p.lastType s with
    | some (c, o) => .bad c (p.pos + o) p.sect
    | none =>
      let t := leAt s 0 2
      .more { p with
        len := leAt s 4 4, lastKey := if t = p.lastType then p.lastKey else none
        lastType := t, types := if p.types.contains t then p.types else t :: p.types }
  else if n < 12 + p.len then .more p
  else
    let s := p.buf.reverse
    if leAt s (8 + p.len) 4 = (crc32 (s.take (8 + p.len))).toNat then .sect p s else .bad 0x15 (p.pos + 8 + p.len) p.sect

/-- Step 5, but for the checks that need body content (R81, R84): required sections, then `more`, SECTION_COUNT and END's position,
all at END's TYPE. -/
def endFault (k : ImgKind) (p : Parse) (more : Unit → Option (Nat × Nat × Nat)) : Option (Nat × Nat × Nat) :=
  let has (t : Nat) : Bool := p.types.contains t
  let ok := match k with
    | .full => has tGLOBAL && has tTOPOLOGY && has tBUDGETS
    | .nested => has tGLOBAL && has tTOPOLOGY && has tBUDGETS
    | .part => has tLANES || has tEVROUTE || has tCSTORE || has tBINS
    | .workers => has tWORKER
  if !ok then some (0x23, p.pos, p.sect) else
  match more () with
  | some f => some f
  | none =>
    if p.sect ≠ p.count then some (0x30, p.pos, p.sect)
    else if p.pos + 12 ≠ p.total then some (0x31, p.pos, p.sect)
    else none

end Sys2Proof.Machine
end

