-- ==== Sys2Proof/Machine/Loader.lean ====
section
/-!
DEFINITION. Sys2Proof/Machine/Loader.lean: the Trellis loader (R72 to R100): starting, receiving, checking and placing an image,
DMA chunks, worker images, commits, and what a partial image changes at a boundary.
-/
namespace Sys2Proof.Machine

/-- Change the loader. -/
def updTrl (f : Trl → Trl) (d : Dev) : Dev := { d with trl := f d.trl }

/-- STATE becomes `s`; four of the states raise source 0x607. -/
def setTrl (s : TrlSt) (d : Dev) : Dev :=
  raiseIf (s == .validated || s == .rejected || s == .committed || s == .pending) 0x607 (updTrl (fun t => { t with st := s }) d)

/-- The staging area is emptied (R79). -/
def Trl.clear (t : Trl) : Trl :=
  { t with
    p := {}, nested := none, nestedBad := none, cfg := {}, lanesIn := false, routesIn := [], binsIn := [], swaps := [], ranges := [], entries := []
    defRoutes := [], defBins := [], dmaLeft := 0 }

/-- A read of the running chunk is on its way. -/
def dmaOut (d : Dev) : Bool :=
  let f (r : Req) : Bool := match r.what with | .trl _ => true | .desc => false
  d.pe.reqs.any f || d.pe.waiting.any f

/-- The image is rejected (R81): code, image offset, section index. Every later byte of it is discarded. -/
def trlReject (code off sect : Nat) (d : Dev) : Dev :=
  let out := dmaOut d
  setTrl .rejected (updTrl (fun t => { t.clear with
    errCode := BitVec.ofNat 8 code, errOff := BitVec.ofNat 32 off, errSect := BitVec.ofNat 16 sect, dmaBusy := out, dmaDead := out }) d)

/-- The index of the section at the end of what has been received (R81). -/
def rxSect (d : Dev) : Nat := if !d.trl.p.hdr then 0 else if d.trl.st = .loading then d.trl.p.sect else d.trl.p.sect + 1

/-- A step-6 failure at the bytes received so far (R83). -/
def trlStop (code : Nat) (d : Dev) : Dev := trlReject code d.trl.rx (rxSect d) d

/-- A load is in progress: LOADING, or the W reset that precedes it. -/
def loadRuns (d : Dev) : Bool := d.trl.st == .loading || (d.trl.st == .resetting && d.trl.afterReset)

/-- A command that is ignored is counted (R72, R77, R87). -/
def stray : Dev → Dev := updTrl fun t => { t with stray := satInc t.stray }

/-! ### Placing what arrives (R61 to R64, R79, R92) -/

/-- What the sections are checked against. -/
def chkCtx (d : Dev) (p : Parse) : ChkCtx :=
  let k := loadKind d
  let whole := k == .full || k == .nested
  let c := if whole then d.trl.cfg else d.cfg
  { kind := k, pos := p.pos, sect := p.sect
    tick := if !whole || p.types.contains tGLOBAL then some c.tickClk.toNat else none
    topo := if !whole || p.types.contains tTOPOLOGY then some (c.active, c.spare, c.stream) else none }

/-- The newest word of a CSTORE, SCRATCH or STEWARD section whose header is in order is written to its target. -/
def placeWord (p : Parse) (d : Dev) : Dev :=
  let n := p.buf.length
  let t := p.lastType
  let x := chkCtx d p
  if t = tCSTORE then
    if n < 40 ∨ n % 16 ≠ 8 then d else
    let s := p.buf.reverse
    if (cstoreFault x d p.lastKey s).isSome then d else
    let e := leAt s 8 1
    let b := leAt s 9 1 == 1
    requestWake (e / 4) (bistAbortBank e b (writeCs e b (leAt s 12 2 + (n - 40) / 16) (BitVec.ofNat 128 (leAt s (n - 16) 16)) d))
  else if t = tSCRATCH then
    if n < 20 then d else
    let s := p.buf.reverse
    if (scratchFault x p.lastKey d.trl.ranges s).isSome then d else
    let e := leAt s 8 1
    requestWake (e / 4) (updEng e (fun g => { g with scr := store 0 g.scr (leAt s 10 2 + (n - 20) / 4) (BitVec.ofNat 32 (leAt s (n - 4) 4)) }) d)
  else if t = tSTEWARD then
    if n < 20 then d else
    let s := p.buf.reverse
    if (stewardFault p.lastKey d.trl.ranges s).isSome then d else
    memWrite (leAt s 8 1) (leAt s 12 4 + (n - 20)) 4 (leAt s (n - 4) 4) d
  else d

/-- Change the TRL_WSTAT entry of node `n`. -/
def updWs (n : Nat) (f : WStat → WStat) : Dev → Dev := updTrl fun t => { t with ws := upd? t.ws n f }

/-- Offsets of the loader's registers as ring commands address them (R488, R489). -/
def offTrlCtrl : Nat := 0x1000
def offRstcmd : Nat := 0x0020
/-- TRL_FIFO in a ring command: BAR2 offset 0 (DEDUCED, log entry 39). -/
def offTrlFifo : Nat := 0x01000000

/-- A nested image begins (R92, R93): SENDING to a present node, ABSENT otherwise. -/
def beginNested (p : Parse) (d : Dev) : Dev :=
  let n := leAt p.buf.reverse 8 1
  let d1 := updTrl (fun t => { t with nested := some { base := p.pos + 12, encl := some p.sect }, nestedBad := none }) d
  if n = 0 ∨ 30 < n then d1
  else if bit d.hr.present n then
    sendWr (BitVec.ofNat 5 n) offTrlCtrl 0x100
      (updTrl (fun t => { t with workers := (n, p.pos + 12) :: t.workers }) (updWs n (fun _ => { st := 2 }) d1))
  else updWs n (fun _ => { st := 1 }) d1

/-- The checks of the nested image go on with `q`. -/
def nestedGo (q : Parse) : Dev → Dev := updTrl fun t => { t with nested := some q }

/-- The nested image fails at its offset `o`. The failure is a fault of the enclosing section's content: a wrong SCRC of that
section comes before it (R82), and so do the fields before the nested image (R81). -/
def nestedFail (code o : Nat) : Dev → Dev := updTrl fun t => { t with nested := none, nestedBad := some (code, 12 + o) }

/-- A section of a nested image has passed step 3 (R70, R84). -/
def nestedSection (np : Parse) (s : List Byte) (d : Dev) : Dev :=
  let tick := (chkCtx d d.trl.p).tick
  if np.lastType == tGLOBAL && (match tick with | some t => t != leAt s 8 4 | none => false) then nestedFail 0x2E (np.pos + 8) d
  else if np.lastType = tEND then
    match endFault .nested np (fun _ => none) with
    | some (c, o, _) => nestedFail c o d
    | none => updTrl (fun t => { t with nested := none }) d
  else match nextSection np with
    | .bad c o _ => nestedFail c o d
    | .more q => nestedGo q d
    | .header q => nestedGo q d
    | .sect q _ => nestedGo q d

/-- One DWORD of a nested image is checked (R84). -/
def nestedCheck (p : Parse) (n : Nat) (dw : List Byte) (d : Dev) : Dev :=
  match d.trl.nested with
  | none => d
  | some np =>
    match parseDword .nested 1 n (some (p.len - 4)) dw np with
    | .bad c o _ => nestedFail c o d
    | .more q => nestedGo q d
    | .header q =>
      match sectionStart q with
      | .bad c o _ => nestedFail c o d
      | _ => nestedGo q d
    | .sect q s => nestedSection q s d

/-- One DWORD of a nested image: it is forwarded to a present node, and checked (R84, R92). -/
def nestedDword (p : Parse) (dw : List Byte) (d : Dev) : Dev :=
  let n := leAt p.buf.reverse 8 1
  nestedCheck p n dw
    (if d.trl.workers.any (fun w => w.1 == n && w.2 == p.pos + 12) then
      sendWr (BitVec.ofNat 5 n) offTrlFifo (BitVec.ofNat 32 (leNat dw)) d
    else d)

/-- What one more DWORD of a running section does besides the checks. -/
def streamDword (p : Parse) (dw : List Byte) (d : Dev) : Dev :=
  if p.lastType = tWORKER ∧ 12 ≤ p.buf.length then
    if p.buf.length = 12 then beginNested p d else nestedDword p dw d
  else if 8 < p.buf.length then placeWord p d else d

/-! ### Steps 4 and 5 (R81, R84, R665) -/

/-- The step-4 failure of a section. -/
def sectionFault (x : ChkCtx) (p : Parse) (s : List Byte) (d : Dev) : Option (Nat × Nat) :=
  let t := p.lastType
  let whole := x.kind == .full || x.kind == .nested
  if t = tGLOBAL then globalFault x s
  else if t = tTOPOLOGY then topologyFault s
  else if t = tLANES then lanesFault x d s
  else if t = tCONDWIRE then condwireFault x s
  else if t = tEVROUTE then evrouteFault x d s
  else if t = tCSTORE then cstoreFault x d p.lastKey s
  else if t = tSCRATCH then scratchFault x p.lastKey d.trl.ranges s
  else if t = tBUDGETS then budgetsFault x s
  else if t = tSTEWARD then stewardFault p.lastKey d.trl.ranges s
  else if t = tKEYROOT then keyrootFault s
  else if t = tBINS then binsFault x d (if whole then d.trl.cfg.sealKeys else d.cfg.sealKeys) s
  else if t = tDRAIN then drainFault s
  else if t = tHEDGEROW then hedgerowFault x s
  else if t = tWATCHDOG then watchdogFault x s
  else if t = tWORKER then match workerFault p.lastKey s with | some f => some f | none => d.trl.nestedBad
  else none

/-- TICK_ENTRY and REPLANT_ENTRY that a CSTORE gives a bank of engine `e` take effect when the image is committed, or applies at its
boundary (R10, R61, R86, R90, R134). -/
def takeEntries (t : Trl) (e : Nat) (q0 : Seq) : Seq :=
  t.entries.foldl (fun q x =>
    if x.1 ≠ e then q
    else if x.2.1 = 1 then { q with entry1 := x.2.2.1, rp1 := x.2.2.2 } else { q with entry0 := x.2.2.1, rp0 := x.2.2.2 }) q0

/-- A section that has passed step 4 is staged. -/
def stageSection (x : ChkCtx) (p : Parse) (s : List Byte) (d : Dev) : Dev :=
  let t := p.lastType
  let part := x.kind == .part
  let cfg (f : Cfg → Cfg) : Dev := updTrl (fun l => { l with cfg := f l.cfg }) d
  if t = tGLOBAL then cfg (globalCfg s)
  else if t = tTOPOLOGY then cfg (topologyCfg s)
  else if t = tLANES then updTrl (fun l => { l with cfg := lanesCfg s l.cfg, lanesIn := true }) d
  else if t = tCONDWIRE then cfg (condwireCfg s)
  else if t = tEVROUTE then
    updTrl (fun l => { l with
      cfg := if part then l.cfg else evrouteCfg s l.cfg, routesIn := if part then routesOf s else [], defRoutes := binTargets x s }) d
  else if t = tCSTORE then
    let e := leAt s 8 1
    updTrl (fun l => { l with
      entries := (e, leAt s 9 1, BitVec.ofNat 12 (leAt s 14 2), BitVec.ofNat 12 (leAt s 16 2)) :: l.entries
      swaps := if part && leAt s 2 2 % 2 == 1 then l.swaps ++ [{ eng := e, force := leAt s 2 2 / 2 % 2 == 1 }] else l.swaps }) d
  else if t = tSCRATCH then
    updTrl (fun l => { l with ranges := (tSCRATCH, leAt s 8 1, leAt s 10 2, leAt s 10 2 + (leAt s 4 4 - 8) / 4) :: l.ranges }) d
  else if t = tBUDGETS then cfg (budgetsCfg s)
  else if t = tSTEWARD then
    let c := leAt s 8 1
    updTrl (fun l => { l with
      ranges := (tSTEWARD, c, leAt s 12 4, leAt s 12 4 + (leAt s 4 4 - 8)) :: l.ranges
      cfg := if leAt s 9 1 = 1 then { l.cfg with started := setBit l.cfg.started c true } else l.cfg }) d
  else if t = tKEYROOT then cfg (keyrootCfg s)
  else if t = tBINS then
    if part then updTrl (fun l => { l with binsIn := binsOf s }) d
    else updTrl (fun l => { l with cfg := { l.cfg with bins := binsOf s }, defBins := ringBinsOf x s }) d
  else if t = tDRAIN then cfg (drainCfg s)
  else if t = tHEDGEROW then cfg (hedgerowCfg s)
  else if t = tWATCHDOG then cfg (watchdogCfg s)
  else d

/-- The first route target whose bin will not exist (R665). -/
def routeDeferred (d : Dev) : Option (Nat × Nat × Nat) :=
  let t := d.trl
  let bins := if loadKind d == .part then d.cfg.bins ++ t.binsIn else t.cfg.bins
  (t.defRoutes.find? fun r => !bins.any (·.1 == r.val)).map fun r => (0x20, r.off, r.sect)

/-- The first bin whose host ring is not enabled or too small (R665). -/
def ringDeferred (d : Dev) : Option (Nat × Nat × Nat) :=
  d.trl.defBins.findSome? fun b =>
    let (r, m) := ringFaults d.trl.cfg.hostRings b.ring b.maxrec
    if m then some (0x28, b.offMax, b.sect) else if r then some (0x28, b.offRing, b.sect) else none

/-- The content checks of step 5 (R83, R665). -/
def contentFault (p : Parse) (d : Dev) : Option (Nat × Nat × Nat) :=
  let k := loadKind d
  let c := d.trl.cfg
  let whole := k == .full || k == .nested
  let cs := (List.range 32).any fun e => bit c.active e && !d.trl.entries.any fun x => x.1 == e && x.2.1 == b2n (bit c.startBank e)
  let key (n r : Nat) : Bool := c.keys.any fun e => e.core.toNat == n && e.reg.toNat == r
  let keys := (List.range 4).any fun n => bit c.started n && !(key n 8 && key n 9)
  if whole && (cs || keys) then some (0x23, p.pos, p.sect) else
  match if p.types.contains tBINS then none else routeDeferred d with
  | some f => some f
  | none => if whole && !p.types.contains tDRAIN then ringDeferred d else none

/-- A section has passed step 3: step 4, staging, the deferred checks, and the next section or step 5. `more` says that further
bytes of the same write or chunk follow. -/
def sectionDone (more : Bool) (p : Parse) (s : List Byte) (d : Dev) : Dev :=
  let x := chkCtx d p
  let keep (q : Parse) (d : Dev) : Dev := updTrl (fun t => { t with p := q }) d
  match sectionFault x p s d with
  | some (c, o) => trlReject c (p.pos + o) p.sect d
  | none =>
    let d1 := stageSection x p s d
    let deferred := if p.lastType = tBINS then routeDeferred d1 else if p.lastType = tDRAIN then ringDeferred d1 else none
    match deferred with
    | some (c, o, i) => trlReject c o i d1
    | none =>
      if p.lastType = tEND then
        match endFault x.kind p (fun _ => contentFault p d1) with
        | some (c, o, i) => trlReject c o i d1
        | none =>
          if more then trlReject 0x33 p.total (p.sect + 1) d1
          else setTrl .validated (keep p d1)
      else
        let q := if repeatable p.lastType then { p with lastKey := some (sectKey p.lastType s) } else p
        match nextSection q with
        | .bad c o i => trlReject c o i d1
        | .more q => keep q d1
        | .header q => keep q d1
        | .sect q _ => keep q d1

/-- One DWORD of the image (R75, R81). -/
def trlDword (more : Bool) (dw : List Byte) (d0 : Dev) : Dev :=
  if d0.trl.st ≠ .loading then d0 else
  let d := updTrl (fun t => { t with rx := t.rx + 4 }) d0
  let keep (q : Parse) : Dev := updTrl (fun t => { t with p := q }) d
  match parseDword (loadKind d) d.sys.role.toNat d.sys.nodeId.toNat none dw d.trl.p with
  | .bad c o i => trlReject c o i d
  | .more q => streamDword q dw (keep q)
  | .header q => match sectionStart q with | .bad c o i => trlReject c o i d | _ => keep q
  | .sect q s => sectionDone more q s d

/-- DWORDs in order; `more` says that further bytes of the same chunk follow them. -/
def trlDwords (more : Bool) : List (List Byte) → Dev → Dev
  | [], d => d
  | w :: r, d => trlDwords more r (trlDword (more || !r.isEmpty) w d)

/-! ### Loader freeze (R36, R91, R614) -/

/-- An uncorrectable word of the staging buffer freezes the loader; which word failed is open (DESIGN CHOICE, log entry 35). -/
def freezeLoader (d : Dev) : Dev :=
  let (f, d0) := takeFree d
  let d1 := freezeRecord 0x26 0x42 false false 0 (f.toNat % 2 ^ 32) (updTrl (fun t => { t with frozen := true }) d0)
  if loadRuns d1 || d1.trl.st == .validated || d1.trl.st == .pending then trlStop 0x35 d1 else d1

/-! ### Writes (R72 to R78, R80) -/

/-- The writer may write the loader (R80). -/
def trlWriter (d : Dev) (who : Who) : Bool :=
  match who with
  | .host => true
  | .ring _ => d.sys.role == 1
  | .steward _ _ _ _ => false

/-- A write to TRL_FIFO (R75, R77). `ue` is an uncorrectable error of the staging buffer. With `ue` the staging buffer shows an uncorrectable error, whatever
the state: no DWORD of the write is taken, and an image being loaded, staged or pending is lost (R91). -/
def fifoWrite (ws : List (Word × BitVec 4)) (ue : Bool) (d : Dev) : Dev :=
  if ue then freezeLoader (if d.trl.st = .loading ∨ ws = [] then d else stray d)
  else if d.trl.st ≠ .loading then stray d
  else if ws.any (·.2 != 0xF) then trlStop 0x42 d
  else trlDwords false (ws.map fun w => leBytes 4 w.1.toNat) d

/-- Cells of this node wait to be sent: a load that forwards worker images waits for them (R92). -/
def ringBehind (d : Dev) : Bool := d.trl.workers != [] && (d.hr.sched != [] || d.hr.ports.toList.any fun q => q.own != [])

/-- Issue the next read of the running chunk (R78, R530), paced to the ring (R92). -/
def dmaPump (d : Dev) : Dev :=
  if d.trl.st = .loading ∧ d.trl.dmaLeft ≠ 0 ∧ ¬ dmaOut d ∧ mayIssue d ∧ ¬ ringBehind d then
    issueRead d.trl.dmaNext (requestLen d.trl.dmaNext.toNat d.trl.dmaLeft (maxRead d.pe)) (.trl d.trl.rx) d
  else d

/-- A write of TRL_DMA_LEN starts a chunk (R78). -/
def dmaStart (v : Word) (d : Dev) : Dev :=
  let n := 4 * fld v 2 25
  if !d.trl.src ∨ d.trl.st ≠ .loading ∨ d.trl.dmaBusy ∨ n < 4 ∨ 0x04000000 < n then stray d
  else dmaPump (updTrl (fun t => { t with dmaBusy := true, dmaNext := t.dmaAddr, dmaLeft := n }) d)

/-- Bytes of a chunk's read arrive: they are appended to the image. -/
def dmaData (ue : Bool) (data : List Byte) (d : Dev) : Dev :=
  if d.trl.dmaDead then
    if dmaOut d then d else updTrl (fun t => { t with dmaDead := false, dmaBusy := false }) d
  else if ue then freezeLoader d
  else
    let n := data.length
    let left := d.trl.dmaLeft - n
    let d1 := updTrl (fun t => { t with dmaLeft := left, dmaNext := t.dmaNext + BitVec.ofNat 64 n, dmaBusy := left != 0 }) d
    dmaPump (trlDwords (left != 0) ((List.range (n / 4)).map fun i => (data.drop (4 * i)).take 4) d1)

/-- A read of the chunk fails (R83 0x40) at image offset `off`. -/
def dmaFail (off : Nat) (d : Dev) : Dev :=
  if d.trl.dmaDead then
    if dmaOut d then d else updTrl (fun t => { t with dmaDead := false, dmaBusy := false }) d
  else if d.trl.st = .loading then trlReject 0x40 off (rxSect d) d else d

/-- TRL_CTRL.START (R72 to R74). -/
def trlStart (d : Dev) : Dev :=
  let t := d.trl
  let ok := (t.st == .empty || t.st == .rejected || t.st == .validated || t.st == .committed) && !t.frozen
  if !ok then stray d else
  let fresh (s : TrlSt) (d : Dev) : Dev := updTrl (fun t => { t.clear with rx := 0, workers := [], loadMode := t.mode, st := s }) d
  if t.mode = 0 then
    let d1 := wReset .fullLoad (updTrl (fun t => { t with afterReset := true }) (fresh .resetting d))
    if d.sys.role = 0 then
      ((List.range 31).filter fun n => n != 0 && bit d1.hr.present n).foldl (fun d n => sendWr (BitVec.ofNat 5 n) offRstcmd 0x3A5C0001 d) d1
    else d1
  else fresh .loading d

/-- TRL_CTRL.ABORT (R101). -/
def trlAbort (d : Dev) : Dev := if loadRuns d then trlStop 0x34 d else stray d

/-- The W reset of R600 ends: LOADING after a full-load start, EMPTY otherwise. A full load fills every control-store, scratch
and Steward word with 0 first (R54, R61). -/
def wResetEnd (d0 : Dev) : Dev :=
  match d0.sys.wEnd with
  | none => d0
  | some c =>
    let d := updSys (fun s => { s with wEnd := none }) (passTo c d0)
    if d.trl.st ≠ .resetting then updTrl (fun t => { t with afterReset := false }) d
    else if d.trl.afterReset then
      let d1 := updTrl (fun t => { t with st := .loading, afterReset := false }) d
      { d1 with
        engines := d1.engines.map fun g => { g with cs0 := [], cs1 := [], scr := [] }
        cores := d1.cores.map fun k => { k with mem := [], tags := [] } }
    else updTrl (fun t => { t with st := .empty }) d

/-- An H reset or FLR ends a load and resets TRL_CTRL and the DMA registers (R101 to R103). -/
def trlHF (d : Dev) : Dev :=
  let d1 := if loadRuns d then trlStop 0x34 d else d
  updTrl (fun t => { t with src := false, mode := 0, dmaAddr := 0, dmaNext := 0, dmaLeft := 0, dmaBusy := false, dmaDead := false }) d1

/-! ### Full commit (R54, R88, R89, R247, R517) -/

/-- An engine as a full commit leaves it: its program starts at TICK_ENTRY at boundary 1 (R88). -/
def engineCommit (t : Trl) (c : Cfg) (e : Nat) (g : Engine) : Engine :=
  let b := at? c.budgets e {}
  let on := bit c.active e
  let g1 : Engine := { g with
    seq := { takeEntries t e g.seq with
      bank := bit c.startBank e, budget := bf b.budget 0 21, stall := b.stall, yielded := on, fresh := on, stack := [], budcnt := 0 }
    life := { g.life with st := if on then .running else if bit c.spare e then .spare else .unused } }
  crcLoad { g1 with seq := { g1.seq with pc := g1.tickEntry } }

/-- A pair checker as a commit, or a change of its entry, starts it (R217). -/
def pairStart (clk : Nat) (c : PairEntry) (x : Pair) : Pair :=
  { x with run := c.laneA != 0xFF, count := 0, next := clk + 16 * c.ts.toNat }

/-- A manager without PPS_DISC runs at exactly 1.0 (R230). -/
def commitInc (role : BitVec 2) (c : Cfg) (v : DWord) : DWord := if role = 0 ∧ ¬ bit c.timeFlags 0 then 0x100000000 else v

/-- The committed Trellis takes hold in clk tc, with the first boundary at `tfirst` and TB_TICK `tick0` until then. -/
def commitAll (tfirst : DWord) (tick0 : Word) (d : Dev) : Dev :=
  let d0 := dueMatch 0 true d
  let c := d0.trl.cfg
  let build := d0.trl.p.build
  let d1 : Dev := { d0 with
    committed := true, cfg := c
    ev := { d0.ev with holdoff := [] }
    bank := { good := 0, fault := d0.bank.fault ||| d0.bank.good, fresh := if c.bankVSet then 0xFF else 0 }
    lanes := d0.lanes.map fun l => { l with filt := false, settled := false, onClk := d0.clk }
    pairs := Vector.ofFn fun p : Fin 16 => pairStart d0.clk c.pairs[p] d0.pairs[p]
    engines := Vector.ofFn fun e : Fin 32 => engineCommit d0.trl c e.val d0.engines[e]
    cores := Vector.ofFn fun k : Fin 4 => { d0.cores[k] with tbudget := bf c.stBudgets[k] 0 21 }
    tb := { d0.tb with
      tick := tick0, inc := commitInc d0.sys.role c d0.tb.inc
      cmps := upd? d0.tb.cmps 0 fun x => { x with
        target := tfirst, period := c.tickClk, perEn := true, latePol := false, armed := true, since := d0.clk + 1
        matched := x.mode != 0 && x.matched } }
    hr := { d0.hr with standbyOn := c.standby == 1 }
    trl := { d0.trl with first := tfirst, build := build } }
  let bins : Vector Bin 256 := Vector.ofFn fun b : Fin 256 =>
    match binCfg? d1 b.val with | some e => newBin d1 build b.val e | none => {}
  let d2 := updCl (fun l => { l with bins := bins }) d1
  let d3 := drainCommit (wdCommit ((List.range 4).foldl (fun d k => installKeys k d) d2))
  let d4 := wakeIneligible (powerBanks d3)
  if c.ringEn = 0 then updHr (fun h => { h with powered := false }) (closeBypass d4) else sendTable d4

/-- A commit command goes to worker `n` (R88, R95): a WR of TRL_CTRL.COMMIT that carries Tfirst behind its data (DEDUCED, log entry 39). -/
def sendCommit (tfirst : DWord) (n : Nat) (d : Dev) : Dev :=
  let w := BitVec.ofNat 5 n
  let id := nextId d.hr.lastId
  sendCell w tWR (cmdPayload id 1 offTrlCtrl (some 0x400) ++ leBytes 8 tfirst.toNat)
    (updTrl (fun t => { t with commits := t.commits ++ [(id, w)] }) (updHr (fun h => { h with lastId := id }) d))

/-- Commit commands go to every worker whose image validated. -/
def sendCommits (tfirst : DWord) (d : Dev) : Dev :=
  ((List.range 31).filter fun n => n != 0 && (at? d.trl.ws n {}).st == 3).foldl (fun d n => sendCommit tfirst n d) d

/-- The smallest k for which base + k·step is at least `t`. -/
def stepsTo (base step t : Nat) : Nat := if step = 0 then 0 else (t - base + step - 1) / step

/-- Another node is the committed master of a standby manager: its BEACON (R517). -/
def otherMaster (d : Dev) : Option Beacon :=
  match d.hr.beacon with
  | some b => if d.sys.role = 2 ∧ !d.hr.master ∧ b.node ≠ d.sys.nodeId ∧ b.tickClk ≠ 0 then some b else none
  | none => none

/-- Tfirst and the TB_TICK before it: 30,000 clk from now on a manager; Tfirst + m·TICK_CLK on a worker (R89), where
a target equal to TB_NOW has passed (DESIGN CHOICE, log entry 106); a boundary of the master on a standby manager (R517), whose BEACON took an unstated time to arrive (DESIGN CHOICE, log entry 40). -/
def commitTime (d : Dev) : DWord × Word × Dev :=
  let now := d.tb.now.toNat
  let tick := d.trl.cfg.tickClk.toNat
  if d.sys.role = 1 then
    let m := stepsTo d.trl.first.toNat tick (now + 1)
    (d.trl.first + BitVec.ofNat 64 (m * tick), BitVec.ofNat 32 m, d)
  else match otherMaster d with
    | some b =>
      let (f, d1) := takeFree d
      let step := b.tickClk.toNat
      let base := d.hr.beaconAt.toNat - f.toNat % step
      let k := stepsTo base step (now + 30000)
      let d2 := if b.tickClk ≠ d.trl.cfg.tickClk then updHr (fun h => { h with stbyMismatch := true }) d1 else d1
      (BitVec.ofNat 64 (base + k * step), b.tick + BitVec.ofNat 32 k - 1, d2)
    | none => (BitVec.ofNat 64 (now + 30000), 0, d)

/-- A full commit (R88): in tc the commit commands leave and the device is set up; STATE reads COMMITTING until the next clk, in which
`commitEnd` lets it read COMMITTED and the started cores begin. -/
def fullCommit (d : Dev) : Dev :=
  let (t, k, d0) := commitTime d
  let d1 := if d.sys.role = 0 then sendCommits t d0 else d0
  raiseNext 0x607 (updTrl (fun l => { l.clear with st := .committing }) (commitAll t k d1))

/-- A worker-only commit (R95): STATE reads COMMITTED at once (DESIGN CHOICE, log entry 107). -/
def workersCommit (d : Dev) : Dev :=
  let c := at? d.tb.cmps 0 {}
  let step := d.cfg.tickClk.toNat
  let t := c.target + BitVec.ofNat 64 (stepsTo c.target.toNat step (d.tb.now.toNat + 30000) * step)
  setTrl .committed (updTrl Trl.clear (sendCommits t (updTrl (fun l => { l with first := t }) d)))

/-- A new bin of the partial image needs Cellar bank `k` (R288, R456). -/
def needsBank (d : Dev) (k : Nat) : Bool :=
  d.trl.binsIn.any fun (_, c) => decide (c.base.toNat < (k + 1) * 2 ^ 19) && decide (k * 2 ^ 19 < c.base.toNat + c.size.toNat)

/-- TRL_CTRL.COMMIT (R87 to R90, R95). -/
def trlCommit (d : Dev) : Dev :=
  if d.trl.st ≠ .validated then stray d else
  match d.trl.loadMode.toNat with
  | 0 => fullCommit d
  | 1 => setTrl .pending (((List.range 16).filter (needsBank d)).foldl (fun d k => bistAbortCellar k d) d)
  | _ => workersCommit d

/-- A write of TRL_CTRL (R101): SRC and MODE (3 is reserved), then ABORT, START, COMMIT (DEDUCED, log entry 41). A load keeps the MODE it
started with. -/
def trlCtrlWrite (v : Word) (d : Dev) : Dev :=
  let d0 := updTrl (fun t => { t with src := bit v 4, mode := if fld v 0 2 = 3 then t.mode else bf v 0 2 }) d
  let d1 := if bit v 9 then trlAbort d0 else d0
  let d2 := if bit v 8 then trlStart d1 else d1
  if bit v 10 then trlCommit d2 else d2

/-! ### Worker images (R94, R95, R655) -/

/-- A worker's verdict on its nested image: code 0 is VALIDATED (DESIGN CHOICE, log entry 42). -/
def workerResult (n : BitVec 5) (code : Byte) (off : Word) (d : Dev) : Dev :=
  match d.trl.workers.find? (·.1 == n.toNat) with
  | none => d
  | some (_, base) =>
    if (at? d.trl.ws n.toNat {}).st ≠ 2 then d
    else if code = 0 then updWs n.toNat (fun w => { w with st := 3 }) d
    else updWs n.toNat (fun w => { w with st := 4, code := code, off := BitVec.ofNat 32 base + off }) d

/-- The RESP of a commit command (R89, R655): COMMITTED with its m, and the paired bins accept any SEQ next. -/
def commitResp (c : Cell) (d : Dev) : Option Dev :=
  let id : Half := BitVec.ofNat 16 (leAt c.payload 0 2)
  if d.trl.commits.any fun x => x.1 == id && x.2 == c.src then
    let d1 := updTrl (fun t => { t with commits := t.commits.filter fun x => !(x.1 == id && x.2 == c.src) }) d
    if leAt c.payload 2 1 ≠ 1 then some d1 else
    let mine (b : Nat) : Bool := d.cfg.bins.any fun x => x.1 == b && x.2.ownerKind == 2 && x.2.owner.toNat == c.src.toNat
    some (updHr (fun h => { h with recNext := h.recNext.filter fun x => !mine x.1 })
      (updWs c.src.toNat (fun w => { w with st := 5, lateM := BitVec.ofNat 8 (min 255 (leAt c.payload 4 4)) }) d1))
  else none

/-! ### A partial image at its boundary (R90, R98 to R100, R217, R671, R672) -/

/-- The lane fields whose change empties the lane's FIFOs (R672). -/
def flushes (a b : LaneEntry) : Bool :=
  a.mode != b.mode || a.filter != b.filter || a.stamp != b.stamp || a.owner != b.owner || a.ownerSlot != b.ownerSlot

/-- A lane as a partial LANES leaves it. -/
def laneChange (clk : Nat) (a b : LaneEntry) (l : Lane) : Lane :=
  let l1 := if flushes a b then { l with fifo := [], stamps := [], ser := [], cur := [] } else l
  if (a.mode == 0) != (b.mode == 0) then { l1 with filt := false, settled := false, onClk := clk } else l1

/-- The binding slots of engine `e` that a change points at another lane, or unbinds, clear their RISE and FALL flags (R672). -/
def slotsChanged (old new : Dev) (e : Nat) (p : Eport) : Eport :=
  (List.range 8).foldl (fun p s =>
    if (slotLane old e s).map (·.1) = (slotLane new e s).map (·.1) then p
    else { p with rise := setBit p.rise s false, fall := setBit p.fall s false }) p

/-- A partial LANES changes pair `p`: its entry, or the filter of a lane it compares (R217). -/
def pairChanged (old new : Cfg) (p : Fin 16) : Bool :=
  let filter (c : Cfg) (n : Byte) : Byte := (at? c.lanes n.toNat {}).filter
  let e := new.pairs[p]
  old.pairs[p] != e || filter old e.laneA != filter new e.laneA || filter old e.laneB != filter new e.laneB

/-- LANES of a partial image. -/
def applyLanes (d : Dev) : Dev :=
  let new := d.trl.cfg
  let first := !d.cfg.bankVSet
  let d1 : Dev := { d with
    cfg := { d.cfg with bankVSet := true, bankV := new.bankV, lanes := new.lanes, pairs := new.pairs }
    lanes := Vector.ofFn fun n : Fin 64 => laneChange d.clk d.cfg.lanes[n] new.lanes[n] d.lanes[n]
    pairs := Vector.ofFn fun p : Fin 16 => if pairChanged d.cfg new p then pairStart d.clk new.pairs[p] d.pairs[p] else d.pairs[p]
    bank := if first then { good := 0, fault := d.bank.fault ||| d.bank.good, fresh := 0xFF } else d.bank }
  { d1 with engines := Vector.ofFn fun e : Fin 32 => { d1.engines[e] with ep := slotsChanged d d1 e.val d1.engines[e].ep } }

/-- EVROUTE of a partial image: a new entry starts without holdoff. -/
def applyRoutes (d : Dev) : Dev :=
  d.trl.routesIn.foldl (fun d (s, r) => { d with
    cfg := { d.cfg with routes := store {} d.cfg.routes s r }, ev := { d.ev with holdoff := store 0 d.ev.holdoff s 0 } }) d

/-- Insert a bin into the list of bins, ascending. -/
def insertBin (x : Nat × BinEntry) : List (Nat × BinEntry) → List (Nat × BinEntry)
  | [] => [x]
  | y :: r => if x.1 < y.1 then x :: y :: r else y :: insertBin x r

/-- BINS of a partial image. -/
def applyBins (d : Dev) : Dev :=
  d.trl.binsIn.foldl (fun d (b, c) => updBin b (fun _ => newBin d d.trl.build b c) { d with cfg := { d.cfg with bins := insertBin (b, c) d.cfg.bins } }) d

/-- Every Cellar bank the new bins need has power (R288). -/
def banksReady (d : Dev) : Bool :=
  (List.range 16).all fun k => (at? d.cl.banks k {}).pwr || !needsBank d k

/-- A pending image applies whole (R90, R91): entries, lanes, routes, bins, then its swaps, each of which takes its engine off the bank
it then executes (R96; DESIGN CHOICE, log entry 108). -/
def applyPartial (d : Dev) : Dev :=
  if d.trl.st ≠ .pending ∨ ¬ banksReady d then d else
  let d0 : Dev := { d with engines := Vector.ofFn fun e : Fin 32 => { d.engines[e] with seq := takeEntries d.trl e.val d.engines[e].seq } }
  let d1 := if d.trl.lanesIn then applyLanes d0 else d0
  let d2 := applyBins (applyRoutes d1)
  let d3 := d.trl.swaps.foldl (fun d s => postSwap s.eng s.force (bistAbortEngine s.eng d)) d2
  setTrl .committed (updTrl Trl.clear d3)

end Sys2Proof.Machine
end

