-- ==== Sys2Proof/Machine/Boundary.lean ====
section
/-!
DEFINITION. Sys2Proof/Machine/Boundary.lean: the tick boundary (R20): its eight actions in order, and what follows action 8 in the
boundary clk and the clk after.
-/
namespace Sys2Proof.Machine

/-- CMP0 is the armed tick of a committed Trellis and fclk runs (R18, R25, R28). -/
def tickArmed (d : Dev) : Bool :=
  d.committed && (at? d.tb.cmps 0 {}).armed && d.tb.counting && d.sys.fclkOn && d.sys.wEnd.isNone

/-- Each nonzero holdoff decreases by 1 (R266). -/
def holdoffs (d : Dev) : Dev :=
  updEv (fun v => { v with holdoff := v.holdoff.filterMap fun (s, h) => if h.toNat ≤ 1 then none else some (s, h - 1) }) d

/-- Action 2: overrun and stall-limit checks in ascending engine order, and the bank supplies at the first boundary (R198). -/
def action2 (d : Dev) : Dev := bankCheck (allEngines boundaryCheck d)

/-- Action 3: staged fields, lane timing, unparks, replants and cutovers, the pending partial image, reservation ages, holdoffs
and seal tags. -/
def action3 (d : Dev) : Dev :=
  let d1 := (List.range 64).foldl (fun d n => applyTiming n d) { d with cores := d.cores.map coreApply }
  sealTags (holdoffs (ageRecs (applyPartial (allEngines boundaryApply d1))))

/-- Action 4: engines restart. -/
def action4 : Dev → Dev := allEngines boundaryRestart

/-- Action 6: every core's tick budget is reloaded and its tick request posted (R419). -/
def action6 (d : Dev) : Dev := { d with cores := d.cores.map postTick }

/-- After action 8: watchdogs that have not begun, the drain's pass boundary, a load that waited for the ring (R92), eligibility, fences
and the rotating-test count. -/
def afterActions (d : Dev) : Dev :=
  let d1 := fenceChecks (checkClusters (dmaPump (drainBoundary (wdBoundary d))))
  updBist (fun b => { b with rotCount := b.rotCount + 1 }) d1

/-- TICK_BOUNDARY (R20): clk pass until CMP0 matches, then the actions in order. -/
def tickBoundary (d0 : Dev) : Dev :=
  if !tickArmed d0 then d0 else
  let d := doMatch 0 (passToMatch 0 d0)
  let d1 := updTb (fun t => { t with tick := t.tick + 1 }) d
  let d2 := action4 (action3 (action2 d1))
  let d3 := raise 0x600 (action6 (ringBoundary d2))
  afterActions (updTb (fun t => { t with tickOut := bit d3.cfg.timeFlags 1 }) d3)

/-- STALL_LIMIT (R132): the boundary at which engine `e` exceeds its stall limit, which freezes it in action 2. -/
def stallLimit (e : Nat) (d : Dev) : Dev := if tickArmed d ∧ stallExceeded d e then tickBoundary d else d

/-- TICK_OUT_FALL: 64 clk after the boundary. -/
def tickOutFall (d : Dev) : Dev :=
  if d.tb.tickOut then updTb (fun t => { t with tickOut := false }) (passTo (d.hr.tickClk + 64) d) else d

end Sys2Proof.Machine
end

