-- ==== Sys2Proof/Machine/RegMap.lean ====
section
/-!
DEFINITION. Sys2Proof/Machine/RegMap.lean: the register map (19_register_index.md): what each BAR0 offset reads as, which reads
clear (R7, R9), and what a word write does. `none` is a reserved location (R11).
-/
namespace Sys2Proof.Machine

/-! ### Values, block by block -/

/-- The code of a link state (R563). -/
def linkCode : LinkSt → Nat
  | .down => 0 | .training => 1 | .l0 => 2 | .l0s => 3 | .l1 => 4 | .recovery => 5 | .ready23 => 6

/-- SYS (R45 to R48, R284, R462, R563, R622). -/
def sysVal (d : Dev) (o : Nat) : Option Word :=
  let s := d.sys
  let p := d.pe
  match o with
  | 0x000 => some 0x4B530002
  | 0x004 => some 0x00004200
  | 0x008 => some (pack [(16, b2n s.bistAtStart), (13, b2n s.nodeValid), (8, s.nodeId.toNat), (0, s.role.toNat)])
  | 0x00C => some (pack [(9, b2n s.ringLol), (8, b2n s.fclkLol), (2, b2n s.pcieLock), (1, b2n s.ringLock), (0, b2n s.fclkLock)])
  | 0x010 => some 0
  | 0x020 => some 0
  | 0x024 => some (pack [(24, s.rstRej.toNat), (8, s.rstCause.toNat), (0, s.rstKind.toNat)])
  | 0x030 => some (frozenEng d)
  | 0x034 => some (frozen2 d)
  | 0x038 => some 0
  | 0x03C => some 0
  | 0x040 => some (pack [(24, s.badKeys.toNat), (8, b2n s.thawArmed.isSome), (0, s.thawResult.toNat)])
  | 0x044 => some 0
  | 0x048 => some (pack [(16, b2n s.alertDis), (8, s.alertSys.toNat), (0, s.alertCore.toNat)])
  | 0x04C => some s.alertEng
  | 0x100 => some (pack [(18, b2n p.flrBusy), (17, b2n p.wire), (16, b2n p.d3), (8, p.width.toNat), (4, p.speed.toNat), (0, linkCode p.link)])
  | 0x104 => some (pack [(16, p.l1Idle.toNat), (0, p.l0sIdle.toNat)])
  | 0x108 => some (pack [(16, p.linkDown.toNat), (0, p.flrCnt.toNat)])
  | 0x10C => some p.l1Cnt
  | 0x110 => some (pack [(28, p.urKind.toNat), (26, p.urWindow.toNat), (0, p.urOffset.toNat)])
  | 0x114 => some (pack [(0, p.urCnt.toNat)])
  | 0x800 => some (pack [(31, b2n (intaRequest d)), (0, (pendingGroups d).toNat)])
  | _ => none

/-- The code of a loader state (R102). -/
def trlCode : TrlSt → Nat
  | .empty => 0 | .resetting => 1 | .loading => 2 | .validated => 3 | .rejected => 4 | .committing => 5 | .committed => 6 | .pending => 7

/-- TRL (R101 to R103). -/
def trlVal (d : Dev) (o : Nat) : Option Word :=
  let t := d.trl
  let first : DWord := if d.sys.role = 1 then 0 else t.first
  let ws (n : Nat) : WStat := if d.sys.role = 1 then {} else at? t.ws n {}
  match o with
  | 0x000 => some (pack [(4, b2n t.src), (0, t.mode.toNat)])
  | 0x004 => some (pack [(16, t.stray.toNat), (8, b2n t.dmaBusy), (0, trlCode t.st)])
  | 0x008 => some (pack [(16, t.errSect.toNat), (0, t.errCode.toNat)])
  | 0x00C => some t.errOff
  | 0x010 => some (BitVec.ofNat 32 t.rx)
  | 0x014 => some (lo32 t.dmaAddr)
  | 0x018 => some (hi32 t.dmaAddr)
  | 0x01C => some 0
  | 0x020 => some (lo32 first)
  | 0x024 => some (hi32 first)
  | 0x028 => some (lo32 t.build)
  | 0x02C => some (hi32 t.build)
  | _ =>
    let n := o % 0x80 / 4
    if 0x100 ≤ o ∧ o < 0x200 ∧ 1 ≤ n ∧ n ≤ 30 then
      let w := ws n
      if o < 0x180 then some (pack [(24, w.lateM.toNat), (8, w.code.toNat), (0, w.st.toNat)]) else some w.off
    else none

/-- A compare channel (R258). -/
def cmpVal (c : Cmp) (o : Nat) : Option Word :=
  match o with
  | 0x00 => some (lo32 c.target)
  | 0x04 => some (hi32 c.target)
  | 0x08 => some c.period
  | 0x0C => some (pack [(16, c.hold.toNat), (4, c.mode.toNat), (3, b2n c.perEn), (2, b2n c.latePol)])
  | 0x10 => some (pack [(2, b2n c.late), (1, b2n c.matched), (0, b2n c.armed)])
  | 0x18 => some (lo32 c.last)
  | 0x1C => some (hi32 c.last)
  | _ => none

/-- A gated counter (R259); GATE is the level that the counter uses in this clk (R250). -/
def gcVal (g : Gc) (o : Nat) : Option Word :=
  match o with
  | 0x00 => some (bf g.count 0 32)
  | 0x04 => some (pack [(16, g.wrapcnt.toNat), (0, fld g.count 32 16)])
  | 0x08 => some (bf g.set 0 32)
  | 0x0C => some (pack [(0, fld g.set 32 16)])
  | 0x10 => some (bf g.thr 0 32)
  | 0x14 => some (pack [(0, fld g.thr 32 16)])
  | 0x18 => some (pack [(31, b2n g.en), (30, b2n g.pol), (29, b2n g.thrEn), (16, g.index.toNat), (0, g.kind.toNat)])
  | 0x1C => some (pack [(10, b2n g.gatePrev), (9, b2n g.thrhit), (8, b2n g.ovf)])
  | _ => none

/-- A capture unit (R260). -/
def capVal (c : Cap) (o : Nat) : Option Word :=
  match o with
  | 0x00 => some (pack [(31, b2n c.en), (30, b2n c.first), (29, b2n c.gcEn), (16, c.gcSel.toNat)])
  | 0x04 => some (pack [(16, c.count.toNat), (13, b2n c.ovr), (12, b2n c.full), (0, c.src.toNat)])
  | 0x08 => some (lo32 c.time)
  | 0x0C => some (hi32 c.time)
  | 0x10 => some (bf c.gc 0 32)
  | 0x14 => some (pack [(0, fld c.gc 32 16)])
  | _ => none

/-- The reader's TB_NOW latch (R233). -/
def tbLatch (d : Dev) (who : Who) : Word :=
  match who with
  | .host => d.tb.hostLatch
  | .ring _ => d.tb.ringLatch
  | .steward c _ _ _ => at? (at? d.tb.stLatch c (Vector.replicate 4 0)) (core d c).lvl 0

/-- TB (R257 to R260). -/
def tbVal (who : Who) (d : Dev) (o : Nat) : Option Word :=
  let t := d.tb
  match o with
  | 0x000 => some (lo32 t.now)
  | 0x004 => some (tbLatch d who)
  | 0x008 => some t.frac
  | 0x010 => some (lo32 t.inc)
  | 0x014 => some (hi32 t.inc)
  | 0x018 => some t.tick
  | 0x01C => some 0
  | 0x020 => some (pack [(16, t.rej.toNat), (5, b2n t.stepped), (4, b2n (disciplined d)), (3, b2n t.ppsBad), (2, b2n t.ppsLost), (1, b2n t.ppsLock)])
  | 0x028 => some (lo32 t.set)
  | 0x02C => some (hi32 t.set)
  | 0x030 => some (lo32 t.pps)
  | 0x034 => some (hi32 t.pps)
  | 0x038 => some t.ppsclk
  | 0x03C => some t.ppserr
  | _ =>
    if 0x400 ≤ o ∧ o < 0xC00 then cmpVal (at? t.cmps ((o - 0x400) / 0x20) {}) (o % 0x20)
    else if 0xC00 ≤ o ∧ o < 0x1000 then gcVal (at? t.gcs ((o - 0xC00) / 0x20) {}) (o % 0x20)
    else if 0x1000 ≤ o ∧ o < 0x1200 then capVal (at? t.caps ((o - 0x1000) / 0x20) {}) (o % 0x20)
    else none

/-- EV_LPOPc_LO as a reader that does not pop sees it: the oldest entry (R275). -/
def larderPeek (c : Nat) (d : Dev) : Word :=
  match (at? d.ev.larders c {}).entries with | x :: _ => larderWord x | [] => 0

/-- EV_LPOPc_HI: the time of its own core's last pop, or of the oldest entry (R275). -/
def larderTime (who : Who) (c : Nat) (d : Dev) : Word :=
  let q := at? d.ev.larders c {}
  let own := match who with | .steward k _ _ _ => k.val == c | _ => false
  if own then q.popTime else match q.entries with | x :: _ => x.time | [] => 0

/-- EV (R283). -/
def evVal (who : Who) (d : Dev) (o : Nat) : Option Word :=
  let v := d.ev
  let s := v.rtsel.toNat
  match o with
  | 0x000 => some (pack [(0, s)])
  | 0x004 => some (pack [(16, (routeOf d s).tgt1.toNat), (0, (routeOf d s).tgt0.toNat)])
  | 0x008 => some (pack [(16, (look 0 v.holdoff s).toNat), (0, (routeOf d s).rate.toNat)])
  | 0x00C => some (pack [(0, b2n (srcLevel d s))])
  | 0x010 => some (pack [(16, v.rldrop.toNat), (0, v.rllast.toNat)])
  | 0x014 => some (pack [(16, v.landDrop.toNat), (0, v.landing.length)])
  | 0x018 => some (pack [(16, v.deepCl.toNat), (0, v.deepCount.toNat)])
  | 0x140 => some (pack [(0, b2n v.ien)])
  | _ =>
    if 0x020 ≤ o ∧ o < 0x060 then
      let c := (o - 0x020) / 0x10
      let q := at? v.larders c {}
      match o % 0x10 with
      | 0x0 => some (pack [(31, b2n q.lostf), (24, q.entries.length), (0, q.lost.toNat)])
      | 0x4 => some (if d.committed then pack [(0, (at? d.cfg.larderLimit c 0).toNat % 128)] else 0)
      | 0x8 => some (at? d.cfg.l2Lines c 0)
      | _ => none
    else if 0x060 ≤ o ∧ o < 0x080 then
      some (if o % 8 = 0 then larderPeek ((o - 0x060) / 8) d else larderTime who ((o - 0x060) / 8) d)
    else if 0x100 ≤ o ∧ o < 0x120 then some (at? v.hstat ((o - 0x100) / 4) 0)
    else if 0x120 ≤ o ∧ o < 0x140 then some (at? v.hen ((o - 0x120) / 4) 0)
    else if 0x200 ≤ o ∧ o < 0x240 then some 0
    else if 0x240 ≤ o ∧ o < 0x260 then some (at? v.softLvl ((o - 0x240) / 4) 0)
    else if 0x1000 ≤ o ∧ o < 0x1200 then
      let e := (o - 0x1000) / 0x10
      let i := o % 0x10 / 4
      some (pack ((List.range 4).map fun k => (8 * k, (einput d e (4 * i + k)).count.toNat)))
    else if 0x1200 ≤ o ∧ o < 0x1280 then
      let e := (o - 0x1200) / 4
      some ((List.range 16).foldl (fun w j => setBit (setBit w j (inputLevel d e j)) (16 + j) (einput d e j).edge) 0)
    else none

/-- A lane (R226). -/
def laneVal (d : Dev) (n o : Nat) : Option Word :=
  let l := lane d n
  let c := laneCfg d n
  let t := l.timing
  let stamp : DWord := match l.stamps with | x :: _ => x.1 | [] => 0
  match o with
  | 0x00 => some (if d.committed then pack [(24, c.owner.toNat), (20, c.ownerSlot.toNat % 8), (16, c.stamp.toNat % 4), (8, c.filter.toNat), (0, c.mode.toNat % 8)] else 0)
  | 0x04 => some (timingWord t)
  | 0x08 => some (pack [(0, t.perA.toNat)])
  | 0x0C => some (pack [(24, t.sjwA.toNat), (0, t.phaseA.toNat)])
  | 0x10 => some (pack [(0, t.perB.toNat)])
  | 0x14 => some (pack [(24, t.sjwB.toNat), (0, t.phaseB.toNat)])
  | 0x18 => some (pack [(8, l.pulseLen.toNat), (1, b2n l.oe), (0, b2n l.lvl)])
  | 0x1C => some (pack [(16, l.fifo.length), (8, l.stamps.length), (6, b2n (l.stamps.head?.any (·.2))), (5, b2n (laneGood d n)),
      (4, b2n (sending d n).isSome), (3, b2n (safeHeld d n).isSome), (2, b2n l.setB), (1, b2n (laneSynced d n (d.clk - 1))), (0, b2n l.filt)])
  | 0x20 => some (pack [(0, l.err.toNat)])
  | 0x24 => some (pack [(16, l.tsDrop.toNat), (0, l.fifoDrop.toNat)])
  | 0x28 => some (lo32 stamp)
  | 0x2C => some (hi32 stamp)
  | _ => none

/-- A pair (R228). -/
def pairVal (d : Dev) (p o : Nat) : Option Word :=
  let c := at? d.cfg.pairs p {}
  let x := at? d.pairs p {}
  match o with
  | 0x00 => some (if d.committed then pack [(24, c.safeLane.toNat), (20, c.safeOut.toNat % 4 + 4 * (c.safeLevel.toNat % 4)), (19, c.safeLaneLevel.toNat % 2),
      (16, c.inv.toNat % 4), (8, c.laneB.toNat), (0, c.laneA.toNat)] else 0)
  | 0x04 => some (if d.committed then pack [(16, c.n.toNat), (0, c.ts.toNat)] else 0)
  | 0x08 => some (pack [(16, x.count.toNat), (3, b2n x.a), (2, b2n x.b), (1, b2n x.run), (0, b2n x.disc)])
  | 0x0C => some 0
  | 0x10 => some (lo32 x.tripTime)
  | 0x14 => some (hi32 x.tripTime)
  | 0x18 => some (pack [(16, x.clrRej.toNat), (0, x.trips.toNat)])
  | _ => none

/-- LN and PC (R226, R228). -/
def lnVal (d : Dev) (o : Nat) : Option Word :=
  if o < 0x1000 then laneVal d (o / 0x40) (o % 0x40)
  else if o = 0x1000 then
    some (pack ((List.range 8).map fun k => (2 * k, (at? d.cfg.bankV k 0).toNat % 4)))
  else if o = 0x1004 then some (pack [(8, d.bank.fault.toNat), (0, d.bank.good.toNat)])
  else if 0x1100 ≤ o ∧ o < 0x1300 then pairVal d ((o - 0x1100) / 0x20) (o % 0x20)
  else if o = 0x1300 then
    some ((List.range 16).foldl (fun w p => setBit w (16 + p) (at? d.pairs p {}).disc)
      (pack [(3, b2n (safeOutHeld d 1).isSome), (2, b2n (safeOutHeld d 0).isSome), (1, b2n (safeOut d 1)), (0, b2n (safeOut d 0))]))
  else none

/-- BKPWR: the powered Cellar banks. -/
def bankMask (d : Dev) : Nat := (List.range 16).foldl (fun a k => a + b2n (at? d.cl.banks k {}).pwr * 2 ^ k) 0

/-- A Steward's port registers are those of its own core at its level; another's read 0 (R309). The host sees every set. -/
def portReach (who : Who) (d : Dev) (c l : Nat) : Bool :=
  match who with
  | .steward k _ _ _ => k.val == c && (core d c).lvl == l
  | _ => true

/-- A Steward port set (R329). -/
def portVal (p : Port) (o : Nat) : Option Word :=
  match o with
  | 0x00 => some 0
  | 0x04 => some p.resp
  | 0x08 => some (pack [(16, p.late.toNat), (8, p.discard.toNat), (0, p.result.toNat)])
  | 0x0C => some p.handle
  | 0x10 => some 0
  | 0x14 => some 0
  | 0x18 => some 0
  | _ => none

/-- The bin window (R330). -/
def binVal (d : Dev) (o : Nat) : Option Word :=
  let b := d.cl.bsel.toNat
  let c := (binCfg? d b).getD { hostRing := 0 }
  let x := bin d b
  let slots : Nat := (List.range 8).foldl (fun a s => a + b2n (x.openRecs.any fun r => r.slot == s) * 2 ^ s) 0
  let waits := !x.waiting.isEmpty || x.trgOpen.any fun t => t.2.isNone
  match o with
  | 0x400 => some (pack [(0, b)])
  | 0x404 => some c.base
  | 0x408 => some c.size
  | 0x40C => some (pack [(16, c.maxrec.toNat), (0, c.resTimeout.toNat)])
  | 0x410 => some (if (binCfg? d b).isSome then
      pack [(31, 1), (29, b2n c.peek), (28, b2n c.sealed), (26, c.ownerKind.toNat % 4), (24, c.policy.toNat % 4), (16, c.owner.toNat), (8, c.hostRing.toNat),
        (0, c.remoteBin.toNat)] else 0)
  | 0x414 => some c.thresh
  | 0x418 => some (BitVec.ofNat 32 x.res)
  | 0x41C => some (BitVec.ofNat 32 x.rel)
  | 0x420 => some (BitVec.ofNat 32 x.take)
  | 0x424 => some (pack [(8, b2n waits), (0, slots)])
  | 0x428 => some (pack [(24, x.tooBig.toNat), (16, x.timeout.toNat), (0, x.full.toNat)])
  | 0x42C => some x.ovwr
  | 0x430 => some (pack [(16, x.coalesced.toNat), (3, b2n x.trgOpen.isSome), (0, x.trgQueue.length)])
  | 0x434 => some (pack [(0, x.badAck.toNat)])
  | _ => none

/-- CL (R329, R330). -/
def clVal (who : Who) (d : Dev) (o : Nat) : Option Word :=
  let l := d.cl
  match o with
  | 0x000 => some (pack [(16, bankMask d), (0, b2n l.initDone)])
  | 0x004 => some (pack [(16, l.ce.toNat), (0, b2n l.ue)])
  | 0x008 => some (pack [(3, l.ueAddr.toNat)])
  | 0x00C => some (pack [(0, b2n l.peekEn)])
  | 0x010 => some (pack [(0, l.repairThr.toNat)])
  | 0x014 => some 0
  | 0x018 => some (pack [(16, l.tags.toNat), (0, min 65535 l.sealQueue.length)])
  | _ =>
    if 0x100 ≤ o ∧ o < 0x300 then
      let c := (o - 0x100) / 0x80
      let k := o % 0x80 / 0x20
      (portVal (at? (at? l.ports c (Vector.replicate 4 {})) k {}) (o % 0x20)).map fun w => if portReach who d c k then w else 0
    else if 0x300 ≤ o ∧ o < 0x400 then
      let b := at? l.banks ((o - 0x300) / 0x10) {}
      match o % 0x10 with
      | 0x0 => some (pack [(31, b2n b.pwr), (30, b2n b.repairing.isSome), (29, b2n b.nospare), (16, b.sparesUsed.toNat), (0, b.ce.toNat)])
      | 0x4 => some (pack [(16, b.repRow.toNat), (0, b.lastCe.toNat)])
      | _ => none
    else if 0x400 ≤ o ∧ o < 0x438 then binVal d o
    else if 0x1000 ≤ o ∧ o < 0x2000 then
      let b := (o - 0x1000) / 0x10
      match o % 0x10 with
      | 0x0 => some (pack [(31, b2n (binCfg? d b).isSome), (0, (bin d b).fill)])
      | 0x4 => some (bin d b).seq
      | 0x8 => some (bin d b).relSeq
      | _ => some 0
    else none

/-- A host ring (R592). -/
def hringVal (d : Dev) (r o : Nat) : Option Word :=
  let x := hring d r
  let c := hringCfg d r
  match o with
  | 0x00 => some (lo32 x.base)
  | 0x04 => some (hi32 x.base)
  | 0x08 => some (lo32 x.wb)
  | 0x0C => some (hi32 x.wb)
  | 0x10 => some (pack [(24, c.sizeLog2.toNat), (16, c.hostEvent.toNat), (8, c.enable.toNat), (0, b2n x.run)])
  | 0x14 => some x.pidx
  | 0x18 => some x.cidx
  | 0x1C => some (if d.committed then BitVec.ofNat 32 (ringFree d r x.pidx) else 0)
  | 0x20 => some (pack [(0, x.modt.toNat)])
  | 0x24 => some x.modb
  | 0x28 => some (pack [(16, x.badIdx.toNat), (8, x.nextBin.toNat), (1, b2n x.timer.isSome), (0, b2n x.stalled)])
  | 0x2C => some x.unsig
  | 0x30 => some x.hrec
  | _ => none

/-- DR (R591 to R593). -/
def drVal (d : Dev) (o : Nat) : Option Word :=
  let x := d.dr
  match o with
  | 0x000 => some (pack [(1, b2n x.skipBad), (0, b2n x.pause)])
  | 0x004 => some (pack [(24, x.overlap.toNat), (16, d.cfg.drainInterval.toNat), (9, b2n x.pass.isSome), (8, b2n x.frozen)])
  | 0x008 => some x.passBytes
  | 0x00C => some x.passMax
  | 0x010 => some (pack [(0, x.frzBin.toNat)])
  | 0x014 => some x.frzSeq
  | 0x018 => some (pack [(0, x.skipCnt.toNat)])
  | 0x400 => some (lo32 x.daddr)
  | 0x404 => some (hi32 x.daddr)
  | 0x408 => some x.dsrc
  | 0x40C => some (pack [(0, x.dlen.toNat)])
  | 0x410 => some (pack [(0, x.dkind.toNat)])
  | 0x414 => some (pack [(31, b2n x.busy), (4, x.done.toNat), (0, x.result.toNat)])
  | 0x418 => some (pack [(0, x.drej.toNat)])
  | _ => if 0x100 ≤ o ∧ o < 0x300 then hringVal d ((o - 0x100) / 0x40) (o % 0x40) else none

/-- HR_STAT.STATE (R522): off, training, control plane, scheduled (DEDUCED, log entry 43). -/
def ringState (d : Dev) : Nat :=
  if !d.hr.powered then 0 else if d.committed && d.cfg.ringEn == 1 then 3 else if d.hr.bypassOpen then 2 else 1

/-- The number of nodes in a mask. -/
def popMask (w : Word) : Nat := (setBits w 32).length

/-- A ring port (R523). -/
def rportVal (q : RingPort) (o : Nat) : Option Word :=
  match o with
  | 0x00 => some (pack [(16, q.retrains.toNat), (2, b2n q.wrap), (1, b2n q.blockLock), (0, b2n q.link)])
  | 0x04 => some (pack [(16, q.hcrc.toNat), (0, q.malformed.toNat)])
  | 0x08 => some (pack [(16, q.stompRx.toNat), (0, q.stompTx.toNat)])
  | 0x0C => some (pack [(16, q.retry.toNat), (0, q.dup.toNat)])
  | 0x10 => some (pack [(0, q.ttl.toNat)])
  | _ => none

/-- Who reaches command channel `ch` (R493): the host channel 0, core c channel c + 1, on the master only. -/
def chanReach (who : Who) (d : Dev) (ch : Nat) : Bool :=
  d.hr.master && match who with
  | .steward c _ _ _ => ch == c.val + 1
  | _ => ch == 0

/-- A command channel (R524). -/
def chanVal (x : Chan) (o : Nat) : Option Word :=
  match o with
  | 0x00 => some (pack [(24, x.kind.toNat), (16, x.count.toNat), (0, x.dst.toNat)])
  | 0x04 => some (pack [(0, x.off.toNat)])
  | 0x08 => some x.data
  | 0x0C => some (pack [(31, b2n x.busy), (0, x.id.toNat)])
  | 0x10 => some (pack [(0, x.result.toNat)])
  | 0x18 => some (lo32 x.rd)
  | 0x1C => some (hi32 x.rd)
  | _ => none

/-- HR (R522 to R525). -/
def hrVal (who : Who) (d : Dev) (o : Nat) : Option Word :=
  let h := d.hr
  match o with
  | 0x000 => some (pack [(8, b2n h.leave)])
  | 0x004 => some (pack [(31, b2n h.master), (30, b2n h.foreign), (29, b2n h.stbyMismatch), (25, b2n (h.master || h.syncLock)), (24, b2n h.syncLost),
      (16, h.refused.toNat), (8, popMask h.present - 1), (0, ringState d)])
  | 0x008 => some (lo32 Config.dieId)
  | 0x00C => some (hi32 Config.dieId)
  | 0x010 => some h.present
  | 0x014 => some (pack [(0, h.absentCnt.toNat)])
  | 0x040 => some h.theta
  | 0x044 => some h.delta
  | 0x048 => some (pack [(16, b2n h.upPort), (0, h.lostCnt.toNat)])
  | 0x050 => some (pack [(16, h.drop.toNat), (0, (transitFill d + 63) / 64)])
  | 0x054 => some (pack [(16, min 65535 h.txB), (0, min 65535 h.txA)])
  | 0x058 => some h.ingFrz
  | 0x05C => some (pack [(16, h.recOrder.toNat), (0, h.recNopair.toNat)])
  | _ =>
    if 0x020 ≤ o ∧ o < 0x040 then
      let i := (o - 0x020) / 4
      some (pack ((List.range 4).map fun k => (8 * k, match (h.topo[4 * i + k]?).join with | some n => n.toNat | none => 0xFF)))
    else if 0x100 ≤ o ∧ o < 0x180 then rportVal (rport d ((o - 0x100) / 0x40)) (o % 0x40)
    else if 0x200 ≤ o ∧ o < 0x2A0 then
      let ch := (o - 0x200) / 0x20
      (chanVal (at? h.chans ch {}) (o % 0x20)).map fun w => if chanReach who d ch then w else 0
    else if 0x400 ≤ o ∧ o < 0x500 then
      let r := at? h.relays ((o - 0x400) / 4) {}
      some (pack [(31, b2n r.en), (16, r.chan.toNat), (0, r.src.toNat)])
    else if 0x500 ≤ o ∧ o < 0x600 then
      let i := (o - 0x500) / 4
      some (pack [(24, (at? h.relayNode i 0).toNat), (0, (at? h.relayCnt i 0).toNat)])
    else none

/-- WD (R464). -/
def wdVal (d : Dev) (o : Nat) : Option Word :=
  let x := wdog d (o / 0x40)
  if 0x140 ≤ o then none else
  match o % 0x40 with
  | 0x00 => some (pack [(0, x.q.toNat)])
  | 0x04 => some 0
  | 0x08 => some x.seq
  | 0x0C => some 0
  | 0x10 => some x.period
  | 0x14 => some x.openStart
  | 0x18 => some x.openLen
  | 0x1C => some (if x.running then BitVec.ofNat 32 (wdPos d x) else 0)
  | 0x20 => some (pack [(31, b2n x.enable), (30, b2n (o < 0x100 && (core d (o / 0x40)).st == .disabled)),
      (29, b2n (wdOpen d x)), (28, b2n x.answered), (24, x.lastCause.toNat), (20, x.vlimit.toNat), (16, x.vcount.toNat),
      (8, x.foreign.toNat), (0, x.badcfg.toNat)])
  | _ => none

/-- RC (R446, R450, R465): every offset of the window reads. -/
def rcVal (d : Dev) (o : Nat) : Option Word :=
  if o < 0x400 then some (BitVec.ofNat 32 (rdLE d.rc o 4))
  else if o = 0x404 then some (pack [(0, d.sys.rcRej.toNat)])
  else if o < 0x1000 then some 0
  else none

/-- The code of an engine state (R166). -/
def engCode : EngSt → Nat
  | .unused => 0 | .spare => 1 | .running => 2 | .parked => 3 | .halted => 4 | .frozen => 5 | .cutover => 6 | .vacated => 7

/-- EN (R134, R164, R196). -/
def enVal (d : Dev) (e o : Nat) : Option Word :=
  let g := engine d e
  let s := g.seq
  let p := g.dp
  let l := g.life
  match o with
  | 0x000 => some (pack [(12, b2n s.bank), (0, s.pc.toNat)])
  | 0x004 => some (pack [(24, s.missed.toNat), (16, if isStream d e then s.stallCnt.toNat else 0), (12, s.stack.length), (4, b2n s.fresh),
      (3, b2n (l.st == .halted)), (2, b2n s.waiting), (1, b2n s.overrun), (0, b2n s.yielded)])
  | 0x008 => some (pack [(0, s.budget.toNat)])
  | 0x00C => some (pack [(0, s.stall.toNat)])
  | 0x010 => some (pack [(0, s.budcnt.toNat)])
  | 0x014 => some (pack [(0, s.lastUse.toNat)])
  | 0x018 => some (pack [(0, s.maxUse.toNat)])
  | 0x01C => some (pack [(16, s.lc1.toNat), (0, s.lc0.toNat)])
  | 0x020 => some (pack [(0, b2n s.brkEn)])
  | 0x024 => some (pack [(16, s.entry1.toNat), (0, s.entry0.toNat)])
  | 0x0C0 => some (lo32 p.sh)
  | 0x0C4 => some (hi32 p.sh)
  | 0x0C8 => some (pack [(16, b2n p.bg.isSome), (8, p.target.toNat), (0, p.sc.toNat)])
  | 0x0CC => some (pack [(6, b2n p.cmpLtu), (5, b2n p.cmpLt), (4, b2n p.cmpEq), (3, b2n p.v), (2, b2n p.c), (1, b2n p.n), (0, b2n p.z)])
  | 0x0D0 => some (pack [(31, b2n p.btRun), (0, p.btCount.toNat)])
  | 0x0D4 => some (pack [(0, p.btPer.toNat)])
  | 0x0D8 => some (pack [(0, p.btSmp.toNat)])
  | 0x0DC => some p.crc
  | 0x0E0 => some p.crcPoly
  | 0x0E4 => some p.crcInit
  | 0x0E8 => some p.crcRes
  | 0x0EC => some (pack [(0, p.crcCfg.toNat)])
  | 0x0F0 => some p.tbLatch
  | 0x0F4 => some (pack ((List.range 16).map fun j => (j, b2n (emitLevel d e j))))
  | 0x0F8 => some (pack [(16, g.ep.queue.length), (8, g.ep.late.toNat), (0, g.ep.discard.toNat)])
  | 0x0FC => some (pack [(24, g.ep.scrCe.toNat), (17, b2n g.ep.scrUe), (0, g.ep.csCe.toNat)])
  | 0x100 => some (pack [(4, g.ep.stallClk.toNat), (0, shownCause d e)])
  | 0x200 => some (pack [(16, l.partner.toNat), (7, b2n l.xpend.isSome), (6, b2n (l.rpPend == some true)), (5, b2n l.rpPend.isSome),
      (4, b2n l.parkPend), (0, engCode l.st)])
  | 0x204 => some 0
  | 0x208 => some (pack [(24, b2n l.escalate), (16, l.grace.toNat)])
  | 0x20C => some 0
  | 0x210 => some (pack [(16, s.rp1.toNat), (0, s.rp0.toNat)])
  | 0x214 => some (pack [(9, b2n l.nocopy), (0, l.xTarget.toNat)])
  | 0x218 => some (pack [(8, l.csRej.toNat), (0, l.result.toNat)])
  | 0x21C => some (pack [(0, l.resumeAt.toNat)])
  | 0x220 => some (lo32 l.shSave)
  | 0x224 => some (hi32 l.shSave)
  | 0x228 => some (pack [(31, b2n l.shValid), (16, b2n l.shBg), (8, l.shTarget.toNat), (0, l.shSc.toNat)])
  | 0x230 => some (pack [(8, b2n l.frzMulti), (0, l.frzCause.toNat)])
  | 0x234 => some l.frzDetail
  | 0x238 => some (pack [(0, l.frzPc.toNat)])
  | 0x240 => some (lo32 l.frzTime)
  | 0x244 => some (hi32 l.frzTime)
  | 0x248 => some (pack [(12, b2n l.csBank), (0, l.csAddr.toNat)])
  | _ =>
    if 0x040 ≤ o ∧ o < 0x060 then some (pack [(0, ((s.stack[(o - 0x040) / 4]?).getD 0).toNat)])
    else if 0x060 ≤ o ∧ o < 0x080 then
      some ((List.range 32).foldl (fun w i => setBit w i (cond d e (32 * ((o - 0x060) / 4) + i))) 0)
    else if 0x080 ≤ o ∧ o < 0x0C0 then some (g.g ((o - 0x080) / 4))
    else if 0x250 ≤ o ∧ o < 0x260 then some (at? l.csData ((o - 0x250) / 4) 0)
    else none

/-- The key ST_KSEL selects (R424). -/
def kselKey (k : Core) : Key :=
  match k.ksel.toNat with
  | 8 => k.pck
  | 9 => k.vkey
  | 10 => k.sets[0].spk
  | 11 => k.sets[1].spk
  | 12 => k.sets[2].spk
  | n => at? k.k n {}

/-- ST (R372, R424). -/
def stVal (d : Dev) (c o : Nat) : Option Word :=
  let k := core d c
  let set (n : Nat) : SaveSet := at? k.sets n {}
  let key := kselKey k
  match o with
  | 0x000 => some k.pc
  | 0x004 => some (pack [(0, k.status.toNat)])
  | 0x008 => some (bf k.a 0 32)
  | 0x00C => some (pack [(0, fld k.a 32 8)])
  | 0x010 => some k.x
  | 0x014 => some k.y
  | 0x018 => some k.cnt
  | 0x01C => some k.mpl
  | 0x020 => some k.mph
  | 0x024 => some (pack [(0, k.mpg.toNat)])
  | 0x028 => some (match k.resv with | some (g, _) => BitVec.ofNat 32 (16 * g + 1) | none => 0)
  | 0x02C => some (pack [(0, k.sbuf.length)])
  | 0x030 => some k.perfCyc
  | 0x034 => some k.perfIns
  | 0x038 => some k.perfWpf
  | 0x03C => some k.perfStb
  | 0x040 => some k.perfScf
  | 0x098 => some k.busAddr
  | 0x09C => some (pack [(31, b2n k.busPend), (0, k.busMore.toNat)])
  | 0x0D0 => some (pack [(24, k.gdepth), (8, k.vcomp.toNat), (0, k.comp.toNat)])
  | 0x0D4 => some (pack [(1, b2n (inSealed d c)), (0, b2n k.abort)])
  | 0x0D8 => some (pack [(0, k.mgrant.toNat)])
  | 0x0DC => some (pack [(0, k.tbudget.toNat)])
  | 0x0E0 => some (pack [(0, k.tbudcnt.toNat)])
  | 0x0E4 => some (pack [(0, k.tbudmax.toNat)])
  | 0x0E8 => some (pack [(16, k.tmiss.toNat), (0, b2n k.tickActive)])
  | 0x0EC => some (pack [(28, k.denyKind.toNat), (0, k.denyCount.toNat)])
  | 0x0F0 => some 0
  | 0x0F4 => some k.frzWord
  | 0x0F8 => some k.frzAddr
  | 0x100 => some (pack [(0, k.ksel.toNat)])
  | 0x120 => some (pack [(0, b2n key.tag)])
  | _ =>
    if 0x080 ≤ o ∧ o < 0x08C then some (set ((o - 0x080) / 4)).cause
    else if 0x08C ≤ o ∧ o < 0x098 then some (set ((o - 0x08C) / 4)).causeAddr
    else if 0x0A0 ≤ o ∧ o < 0x0AC then some (set ((o - 0x0A0) / 4)).spc
    else if 0x0AC ≤ o ∧ o < 0x0B8 then
      let s := set ((o - 0x0AC) / 4)
      some (pack [(24, s.gdepth.toNat), (16, s.comp.toNat), (0, s.status.toNat)])
    else if 0x0B8 ≤ o ∧ o < 0x0D0 then
      let s := set ((o - 0x0B8) / 8)
      some (if o % 8 = 0 then bf s.sa 0 32 else pack [(0, fld s.sa 32 8)])
    else if 0x110 ≤ o ∧ o < 0x120 then some (bf key.val (32 * ((o - 0x110) / 4)) 32)
    else if 0x140 ≤ o ∧ o < 0x1C0 then
      let j := (o - 0x140) / 8
      match k.gates[j]? with
      | none => some 0
      | some g => some (if o % 8 = 0 then g.frame else
          pack [(16, if g.limited then fld g.left 24 8 else 0), (8, g.target.toNat), (0, g.caller.toNat)])
    else none

/-- LS_STAT.STATE (R463). -/
def lsState (d : Dev) (c : Nat) : Nat := if (core d c).st = .inReset then 1 else if (core d c).st = .disabled then 2 else 0

/-- LS (R463). -/
def lsVal (d : Dev) (o : Nat) : Option Word :=
  let c := o / 0x20
  let l := at? d.ls c {}
  if 0x80 ≤ o then none else
  match o % 0x20 with
  | 0x00 => some (pack [(0, l.injPer.toNat)])
  | 0x04 => some (pack [(8, l.lastClass.toNat), (2, b2n l.unchecked), (0, lsState d c)])
  | 0x08 => some (pack [(24, l.injFail.toNat), (16, l.undet.toNat), (8, l.delay.toNat), (0, l.mismatch.toNat)])
  | 0x10 => some (lo32 l.time)
  | 0x14 => some (hi32 l.time)
  | _ => none

/-- BIST (R466). -/
def bistVal (d : Dev) (o : Nat) : Option Word :=
  let b := d.bist
  match o with
  | 0x000 => some (pack [(31, b2n b.run.isSome), (30, b2n b.rot), (16, b.index.toNat), (8, b.kind.toNat), (0, b.result.toNat)])
  | 0x008 => some (lo32 b.sig)
  | 0x00C => some (hi32 b.sig)
  | 0x010 => some (lo32 b.exp)
  | 0x014 => some (hi32 b.exp)
  | 0x018 => some (pack [(31, b2n b.rotEn), (16, b.rotMask.toNat), (0, b.rotInterval.toNat)])
  | 0x01C => some (pack [(8, b.posIndex.toNat), (0, b.posKind.toNat)])
  | 0x020 => some b.failEng
  | 0x024 => some b.failOth
  | _ => none

/-- PWR (R623). -/
def pwrVal (d : Dev) (o : Nat) : Option Word :=
  let code : ClSt → Nat := fun s => match s with | .active => 0 | .fencing => 1 | .dormant => 2 | .waking => 3
  match o with
  | 0x000 =>
    let cl := (List.range 8).foldl (fun a k => a + b2n ((cluster d k).st == .active) * 2 ^ k) 0
    some (pack [(16, bankMask d), (8, cl), (4, 1), (3, 1), (2, b2n (d.hr.powered || !d.cl.initDone)), (1, b2n (hasEndpoint d)), (0, 1)])
  | 0x004 => some (pack [(0, d.pwr.dormDly.toNat)])
  | 0x008 => some (pack [(0, d.pwr.hold.toNat)])
  | _ =>
    if 0x010 ≤ o ∧ o < 0x030 then
      let c := cluster d ((o - 0x010) / 4)
      some (pack [(16, c.wakes.toNat), (8, policyOf d ((o - 0x010) / 4)), (0, code c.st)])
    else if 0x030 ≤ o ∧ o < 0x050 then some (pack [(0, (cluster d ((o - 0x030) / 4)).lastWake.toNat)])
    else none

/-- The value a word read at BAR0 offset `o` (a multiple of 4) returns; none at a reserved location. -/
def regVal (who : Who) (o : Nat) (d : Dev) : Option Word :=
  if o < 0x1000 then sysVal d o
  else if o < 0x2000 then trlVal d (o - 0x1000)
  else if o < 0x4000 then tbVal who d (o - 0x2000)
  else if o < 0x6000 then evVal who d (o - 0x4000)
  else if o < 0x8000 then lnVal d (o - 0x6000)
  else if o < 0xA000 then clVal who d (o - 0x8000)
  else if o < 0xC000 then drVal d (o - 0xA000)
  else if o < 0xE000 then hrVal who d (o - 0xC000)
  else if o < 0xF000 then wdVal d (o - 0xE000)
  else if o < 0x10000 then rcVal d (o - 0xF000)
  else if o < 0x18000 then enVal d ((o - 0x10000) / 0x400) (o % 0x400)
  else if o < 0x1A000 then stVal d ((o - 0x18000) / 0x800) (o % 0x800)
  else if o < 0x1B000 then lsVal d (o - 0x1A000)
  else if o < 0x1C000 then bistVal d (o - 0x1B000)
  else if o < 0x1D000 then pwrVal d (o - 0x1C000)
  else none


/-! ### Clearing reads (R7, R9) -/

/-- A clearing read of the word at offset `o`: its RC fields become 0. -/
def regClear (o : Nat) (d : Dev) : Dev :=
  match o with
  | 0x0024 => updSys (fun s => { s with rstRej := 0 }) d
  | 0x0040 => updSys (fun s => { s with badKeys := 0 }) d
  | 0x0108 => updPe (fun p => { p with linkDown := 0, flrCnt := 0 }) d
  | 0x010C => updPe (fun p => { p with l1Cnt := 0 }) d
  | 0x0114 => updPe (fun p => { p with urCnt := 0 }) d
  | 0x1004 => updTrl (fun t => { t with stray := 0 }) d
  | 0x2020 => updTb (fun t => { t with rej := 0 }) d
  | 0x4010 => updEv (fun v => { v with rldrop := 0 }) d
  | 0x4014 => updEv (fun v => { v with landDrop := 0 }) d
  | 0x4018 => updEv (fun v => { v with deepCount := 0 }) d
  | 0x8004 => updCl (fun l => { l with ce := 0 }) d
  | 0x8018 => updCl (fun l => { l with tags := 0 }) d
  | 0x8428 => updBin d.cl.bsel.toNat (fun b => { b with tooBig := 0, timeout := 0, full := 0 }) d
  | 0x842C => updBin d.cl.bsel.toNat (fun b => { b with ovwr := 0 }) d
  | 0x8430 => updBin d.cl.bsel.toNat (fun b => { b with coalesced := 0 }) d
  | 0x8434 => updBin d.cl.bsel.toNat (fun b => { b with badAck := 0 }) d
  | 0xA004 => updDr (fun x => { x with overlap := 0 }) d
  | 0xA00C => updDr (fun x => { x with passMax := 0 }) d
  | 0xA018 => updDr (fun x => { x with skipCnt := 0 }) d
  | 0xA418 => updDr (fun x => { x with drej := 0 }) d
  | 0xC004 => updHr (fun h => { h with refused := 0 }) d
  | 0xC014 => updHr (fun h => { h with absentCnt := 0 }) d
  | 0xC048 => updHr (fun h => { h with lostCnt := 0 }) d
  | 0xC050 => updHr (fun h => { h with drop := 0 }) d
  | 0xC05C => updHr (fun h => { h with recOrder := 0, recNopair := 0 }) d
  | 0xF404 => updSys (fun s => { s with rcRej := 0 }) d
  | _ =>
    if 0x3000 ≤ o ∧ o < 0x3200 ∧ o % 0x20 = 4 then updCap ((o - 0x3000) / 0x20) (fun c => { c with count := 0, ovr := false, full := false }) d
    else if 0x4020 ≤ o ∧ o < 0x4060 ∧ o % 0x10 = 0 then
      updEv (fun v => { v with larders := upd? v.larders ((o - 0x4020) / 0x10) fun q => { q with lost := 0 } }) d
    else if 0x6000 ≤ o ∧ o < 0x7000 ∧ o % 0x40 = 0x24 then updLane ((o - 0x6000) / 0x40) (fun l => { l with tsDrop := 0, fifoDrop := 0 }) d
    else if 0x7100 ≤ o ∧ o < 0x7300 ∧ o % 0x20 = 0x18 then { d with pairs := upd? d.pairs ((o - 0x7100) / 0x20) fun x => { x with clrRej := 0 } }
    else if 0x8100 ≤ o ∧ o < 0x8300 ∧ o % 0x20 = 8 then
      updPort ((o - 0x8100) / 0x80) (o % 0x80 / 0x20) (fun p => { p with late := 0, discard := 0 }) d
    else if 0x8300 ≤ o ∧ o < 0x8400 ∧ o % 0x10 = 0 then updBank ((o - 0x8300) / 0x10) (fun b => { b with ce := 0 }) d
    else if 0xA100 ≤ o ∧ o < 0xA300 ∧ o % 0x40 = 0x28 then updRing ((o - 0xA100) / 0x40) (fun x => { x with badIdx := 0 }) d
    else if 0xA100 ≤ o ∧ o < 0xA300 ∧ o % 0x40 = 0x30 then updRing ((o - 0xA100) / 0x40) (fun x => { x with hrec := 0 }) d
    else if 0xC100 ≤ o ∧ o < 0xC180 then
      updRport ((o - 0xC100) / 0x40) (fun q =>
        match o % 0x40 with
        | 0x00 => { q with retrains := 0 }
        | 0x04 => { q with hcrc := 0, malformed := 0 }
        | 0x08 => { q with stompRx := 0, stompTx := 0 }
        | 0x0C => { q with retry := 0, dup := 0 }
        | 0x10 => { q with ttl := 0 }
        | _ => q) d
    else if 0xC500 ≤ o ∧ o < 0xC600 then updHr (fun h => { h with relayCnt := put? h.relayCnt ((o - 0xC500) / 4) 0 }) d
    else if 0xE000 ≤ o ∧ o < 0xE140 ∧ o % 0x40 = 0x20 then updWd ((o - 0xE000) / 0x40) (fun w => { w with foreign := 0, badcfg := 0 }) d
    else if 0x10000 ≤ o ∧ o < 0x18000 then
      let e := (o - 0x10000) / 0x400
      match o % 0x400 with
      | 0x004 => updSeq e (fun s => { s with missed := 0 }) d
      | 0x018 => updSeq e (fun s => { s with maxUse := 0 }) d
      | 0x0F8 => updEp e (fun p => { p with late := 0, discard := 0 }) d
      | 0x0FC => updEp e (fun p => { p with scrCe := 0, csCe := 0 }) d
      | 0x218 => updLife e (fun l => { l with csRej := 0 }) d
      | _ => d
    else if 0x18000 ≤ o ∧ o < 0x1A000 then
      updCore ((o - 0x18000) / 0x800) (fun k =>
        match o % 0x800 with
        | 0x038 => { k with perfWpf := 0 }
        | 0x03C => { k with perfStb := 0 }
        | 0x040 => { k with perfScf := 0 }
        | 0x0E4 => { k with tbudmax := 0 }
        | 0x0E8 => { k with tmiss := 0 }
        | 0x0EC => { k with denyCount := 0 }
        | _ => k) d
    else if 0x1A000 ≤ o ∧ o < 0x1A080 ∧ o % 0x20 = 8 then
      updLs ((o - 0x1A000) / 0x20) (fun l => { l with injFail := 0, undet := 0, delay := 0, mismatch := 0 }) d
    else if 0x1C010 ≤ o ∧ o < 0x1C030 then updCluster ((o - 0x1C010) / 4) (fun c => { c with wakes := 0 }) d
    else d

/-- The read clears for this reader: a Steward's port set and a command channel only where they are reached, a port set never
for the host (R329, R309, R493). -/
def clears (who : Who) (o : Nat) (d : Dev) : Bool :=
  if 0x8100 ≤ o ∧ o < 0x8300 then
    match who with
    | .steward _ _ _ _ => portReach who d ((o - 0x8100) / 0x80) (o % 0x80 / 0x20)
    | _ => false
  else true

/-- Store TB_NOW[63:32] in the reader's latch (R233). -/
def latchTb (who : Who) (d : Dev) : Dev :=
  let h := hi32 d.tb.now
  match who with
  | .host => updTb (fun t => { t with hostLatch := h }) d
  | .ring _ => updTb (fun t => { t with ringLatch := h }) d
  | .steward c _ _ _ => updTb (fun t => { t with stLatch := upd? t.stLatch c fun v => put? v (core d c).lvl h }) d

/-- An access to an engine register wakes its cluster (R587, R611). -/
def regWake (o : Nat) (d : Dev) : Dev := if 0x10000 ≤ o ∧ o < 0x18000 then wakeNow ((o - 0x10000) / 0x1000) d else d

/-- One word read at offset `o`. `clr`: it has read side effects (R9); `latch`: it stores the TB_NOW latch (R233). None at a
reserved location. -/
def regRead (who : Who) (clr latch : Bool) (o : Nat) (d0 : Dev) : Option (Word × Dev) :=
  if (regVal who o d0).isNone then none else
  let d := regWake o d0
  let own : Bool := match who with | .steward c _ _ _ => o == 0x4060 + 8 * c.val | _ => false
  if own ∧ clr then
    some (larderPop ((o - 0x4060) / 8) (core d ((o - 0x4060) / 8)).lvl d)
  else
    (regVal who o d).map fun v =>
      let d1 := if o = 0x2000 ∧ latch then latchTb who d else d
      (v, if clr ∧ clears who o d then regClear o d1 else d1)

/-! ### Word writes -/

/-- The halves of a 64-bit register that take a word. -/
def setLo (x : DWord) (v : Word) : DWord := join64 v (hi32 x)
def setHi (x : DWord) (v : Word) : DWord := join64 (lo32 x) v

/-- The writer is not a Steward (R80, R488). -/
def hostLike : Who → Bool
  | .steward _ _ _ _ => false
  | _ => true

/-- A Steward's store that needs SYS (R389, R453, R602, R623): without it the store is ignored and counted. -/
def needSys (who : Who) (f : Dev → Dev) (d : Dev) : Dev :=
  match who with
  | .steward c _ _ sys => if sys then f d else stDeny c 1 d
  | _ => f d

/-- A Steward's store to a freeze or thaw control needs FREEZE and SYS (R389); KIND names the one that is missing, FREEZE when
both are (DEDUCED, log entry 44). -/
def needFreeze (who : Who) (f : Dev → Dev) (d : Dev) : Dev :=
  match who with
  | .steward c fr _ sys => if !fr then stDeny c 2 d else if !sys then stDeny c 1 d else f d
  | _ => f d

/-- A write of SYS (R48, R462, R563, R602, R622). -/
def sysWrite (who : Who) (o : Nat) (v : Word) (d : Dev) : Dev :=
  match o with
  | 0x00C => updSys (fun s => { s with ringLol := s.ringLol && !bit v 9, fclkLol := s.fclkLol && !bit v 8 }) d
  | 0x010 => needSys who (bistCmd v) d
  | 0x020 => rstcmdWrite who v d
  | 0x038 => if hostLike who then thawIdWrite v d else d
  | 0x03C => if hostLike who then thawKeyWrite v d else d
  | 0x044 => if hostLike who then d else needFreeze who (mthawWrite v) d
  | 0x048 => updSys (fun s => { s with alertDis := bit v 16, alertSys := bf v 8 4, alertCore := bf v 0 4 }) d
  | 0x04C => updSys (fun s => { s with alertEng := v }) d
  | 0x104 => updPe (fun p => { p with
      l1Idle := if fld v 16 16 = 0 then p.l1Idle else bf v 16 16
      l0sIdle := if 1 ≤ fld v 0 8 ∧ fld v 0 8 ≤ 109 then bf v 0 8 else p.l0sIdle }) d
  | _ => d

/-- A write of TRL (R80, R101, R103). -/
def trlWrite (who : Who) (o : Nat) (v : Word) (d : Dev) : Dev :=
  if !trlWriter d who then d else
  match o with
  | 0x000 => trlCtrlWrite v d
  | 0x014 => updTrl (fun t => { t with dmaAddr := setLo t.dmaAddr (v &&& 0xFFFFFFFC) }) d
  | 0x018 => updTrl (fun t => { t with dmaAddr := setHi t.dmaAddr v }) d
  | 0x01C => dmaStart v d
  | _ => d

/-- A write of TB (R257 to R260). -/
def tbWrite (o : Nat) (v : Word) (d : Dev) : Dev :=
  match o with
  | 0x01C => if bit v 0 then tbLoad d else d
  | 0x020 => updTb (fun t => { t with ppsBad := t.ppsBad && !bit v 3, ppsLost := t.ppsLost && !bit v 2 }) d
  | 0x028 => updTb (fun t => { t with set := setLo t.set v }) d
  | 0x02C => updTb (fun t => { t with set := setHi t.set v }) d
  | _ =>
    if 0x400 ≤ o ∧ o < 0xC00 then
      let k := (o - 0x400) / 0x20
      match o % 0x20 with
      | 0x00 => cmpGuard k (updCmp k fun c => { c with staged := setLo c.staged v }) d
      | 0x04 => cmpGuard k (updCmp k fun c => { c with staged := setHi c.staged v }) d
      | 0x08 => cmpPeriodWrite k v d
      | 0x0C => cmpCtrlWrite k v d
      | 0x10 => updCmp k (fun c => { c with late := c.late && !bit v 2 }) d
      | _ => d
    else if 0xC00 ≤ o ∧ o < 0x1000 then
      let g := (o - 0xC00) / 0x20
      match o % 0x20 with
      | 0x08 => updGc g (fun x => { x with set := bf x.set 32 16 ++ v }) d
      | 0x0C => updGc g (fun x => { x with set := bf v 0 16 ++ bf x.set 0 32 }) d
      | 0x10 => updGc g (fun x => { x with thr := bf x.thr 32 16 ++ v }) d
      | 0x14 => updGc g (fun x => { x with thr := bf v 0 16 ++ bf x.thr 0 32 }) d
      | 0x18 => gcCfgWrite g v d
      | 0x1C => gcCtrlWrite g v d
      | _ => d
    else if 0x1000 ≤ o ∧ o < 0x1200 ∧ o % 0x20 = 0 then
      updCap ((o - 0x1000) / 0x20) (fun c => { c with en := bit v 31, first := bit v 30, gcEn := bit v 29, gcSel := bf v 16 5 }) d
    else d

/-- A write of EV (R283). -/
def evWrite (o : Nat) (v : Word) (d : Dev) : Dev :=
  match o with
  | 0x000 => updEv (fun x => { x with rtsel := bf v 0 11 }) d
  | 0x018 => updEv (fun x => { x with deepCl := w1c x.deepCl (bf v 16 8) }) d
  | 0x140 => updEv (fun x => { x with ien := bit v 0 }) d
  | _ =>
    if 0x020 ≤ o ∧ o < 0x060 ∧ o % 0x10 = 0 then
      updEv (fun x => { x with larders := upd? x.larders ((o - 0x020) / 0x10) fun q => { q with lostf := q.lostf && !bit v 31 } }) d
    else if 0x100 ≤ o ∧ o < 0x120 then updEv (fun x => { x with hstat := upd? x.hstat ((o - 0x100) / 4) fun w => w1c w v }) d
    else if 0x120 ≤ o ∧ o < 0x140 then updEv (fun x => { x with hen := put? x.hen ((o - 0x120) / 4) v }) d
    else if 0x200 ≤ o ∧ o < 0x220 then softSet ((o - 0x200) / 4) v d
    else if 0x220 ≤ o ∧ o < 0x240 then softClr ((o - 0x220) / 4) v d
    else d

/-- A write of a lane register (R226, R227). -/
def laneWrite (n o : Nat) (v : Word) : Dev → Dev :=
  updLane n fun l =>
    match o with
    | 0x04 => { l with staged := { l.staged with timing := some (timingStage n (l.staged.timing.getD (timingWord l.timing)) v) } }
    | 0x08 => if periodOk v then { l with staged := { l.staged with perA := some v } } else l
    | 0x0C => { l with staged := { l.staged with phA := some v } }
    | 0x10 => if periodOk v then { l with staged := { l.staged with perB := some v } } else l
    | 0x14 => { l with staged := { l.staged with phB := some v } }
    | 0x18 => { l with pulseLen := bf v 8 8, oe := bit v 1, lvl := bit v 0 }
    | _ => l

/-- A write of LN_ERR of lane `n`: W1C. BANK_PWR is set again in the clk after the write while the supply is still bad, which raises
source 0x003 + 4n in the clk after that (R216). -/
def laneErrWrite (n : Nat) (v : Word) (d : Dev) : Dev :=
  let again := bit v 4 && bit (lane d n).err 4 && !laneGood d n && (laneCfg d n).mode != 0
  let d1 := updLane n (fun l => { l with err := w1c l.err (bf v 0 6) }) d
  if again then raiseIn 2 (0x003 + 4 * n) (updLane n (fun l => { l with err := setBit l.err 4 true }) d1) else d1

/-- A write of LN and PC (R226, R228). -/
def lnWrite (who : Who) (o : Nat) (v : Word) (d : Dev) : Dev :=
  if o < 0x1000 then (if o % 0x40 = 0x20 then laneErrWrite (o / 0x40) v d else laneWrite (o / 0x40) (o % 0x40) v d)
  else if o = 0x1004 then { d with bank := { d.bank with fault := w1c d.bank.fault (bf v 8 8) } }
  else if 0x1100 ≤ o ∧ o < 0x1300 ∧ o % 0x20 = 0x0C then pairClear who ((o - 0x1100) / 0x20) v d
  else d

/-- A write of CL (R329, R330); a Steward's own port registers are written in `stewardPort`. -/
def clWrite (o : Nat) (v : Word) (d : Dev) : Dev :=
  match o with
  | 0x004 => updCl (fun l => { l with ue := l.ue && !bit v 0 }) d
  | 0x00C => updCl (fun l => { l with peekEn := bit v 0 }) d
  | 0x010 => updCl (fun l => { l with repairThr := bf v 0 8 }) d
  | 0x014 => clRepair v d
  | 0x400 => updCl (fun l => { l with bsel := bf v 0 8 }) d
  | _ =>
    if 0x300 ≤ o ∧ o < 0x400 ∧ o % 0x10 = 0 then updBank ((o - 0x300) / 0x10) (fun b => { b with nospare := b.nospare && !bit v 29 }) d
    else if 0x1000 ≤ o ∧ o < 0x2000 ∧ o % 0x10 = 0xC then clBack ((o - 0x1000) / 0x10) v d
    else d

/-- A write of DR (R591 to R593). -/
def drWrite (who : Who) (o : Nat) (v : Word) (d : Dev) : Dev :=
  let desc (f : Dev → Dev) : Dev := if hostLike who then f d else d
  -- DR_HBASE and DR_HWB ignore a write while RUN is 1 (R568)
  let stopped (r : Nat) (f : Dev → Dev) (d : Dev) : Dev := if (hring d r).run then d else f d
  match o with
  | 0x000 => updDr (fun x => { x with skipBad := bit v 1, pause := bit v 0 }) d
  | 0x400 => desc (updDr fun x => { x with daddr := setLo x.daddr (v &&& 0xFFFFFFF8) })
  | 0x404 => desc (updDr fun x => { x with daddr := setHi x.daddr v })
  | 0x408 => desc (updDr fun x => { x with dsrc := v })
  | 0x40C => desc (updDr fun x => { x with dlen := bf v 0 24 })
  | 0x410 => desc (dctrlWrite v)
  | _ =>
    if 0x100 ≤ o ∧ o < 0x300 then
      let r := (o - 0x100) / 0x40
      match o % 0x40 with
      | 0x00 => stopped r (updRing r (fun x => { x with base := setLo x.base (v &&& 0xFFFFF000) })) d
      | 0x04 => stopped r (updRing r (fun x => { x with base := setHi x.base v })) d
      | 0x08 => stopped r (updRing r (fun x => { x with wb := setLo x.wb (v &&& 0xFFFFFFF8) })) d
      | 0x0C => stopped r (updRing r (fun x => { x with wb := setHi x.wb v })) d
      | 0x10 => hctrlWrite r v d
      | 0x18 => cidxWrite r v d
      | 0x20 => updRing r (fun x => { x with modtNext := some (bf v 0 16) }) d
      | 0x24 => updRing r (fun x => { x with modbNext := some v }) d
      | _ => d
    else d

/-- A write of HR (R522 to R525). -/
def hrWrite (who : Who) (o : Nat) (v : Word) (d : Dev) : Dev :=
  if o = 0x000 then
    let d1 := hrLeave (bit v 8) d
    if bit v 0 then reenum d1 else d1
  else if 0x200 ≤ o ∧ o < 0x2A0 then
    let ch := (o - 0x200) / 0x20
    if !chanReach who d ch then d else
    match o % 0x20 with
    | 0x00 =>
      let d1 := updChan ch (fun x => { x with
        kind := if fld v 24 2 = 3 then x.kind else bf v 24 2
        count := if 1 ≤ fld v 16 2 ∧ fld v 16 2 ≤ 2 then bf v 16 2 else x.count, dst := bf v 0 5 }) d
      if bit v 31 then cmdGo ch d1 else d1
    | 0x04 => updChan ch (fun x => { x with off := bf (v &&& 0x000FFFFC) 0 20 }) d
    | 0x08 => updChan ch (fun x => { x with data := v }) d
    | _ => d
  else if 0x400 ≤ o ∧ o < 0x500 then
    updHr (fun h => { h with relays := upd? h.relays ((o - 0x400) / 4) fun r => { r with en := bit v 31, chan := bf v 16 6, src := bf v 0 11 } }) d
  else d

/-- A write of WD (R435, R440, R442). -/
def wdWrite (who : Who) (o : Nat) (v : Word) (d : Dev) : Dev :=
  let w := o / 0x40
  match o % 0x40 with
  | 0x04 => wdAnswer who w v d
  | 0x10 => wdConfig who w 0 v d
  | 0x14 => wdConfig who w 1 v d
  | 0x18 => wdConfig who w 2 v d
  | _ => d

/-- A write of RC (R450, R451): a Steward without SYS is denied, and at RC_CTRL also counted as rejected. -/
def rcWrite (who : Who) (o : Nat) (v : Word) (d : Dev) : Dev :=
  if o = 0x400 then rcCtrlWrite who v (needSys who id d)
  else needSys who (fun d => if 0x200 ≤ o ∧ o < 0x400 then { d with rc := wrLE d.rc o 4 v.toNat } else d) d

/-- A write of EN_BUDGET is accepted (R135, R240): TICKED, 1 to period − 64. -/
def budgetOk (d : Dev) (e : Nat) (v : Nat) : Bool := !isStream d e && decide (1 ≤ v) && decide (v + 64 ≤ d.cfg.tickClk.toNat)

/-- A write of EN (R134, R164, R196). -/
def enWrite (who : Who) (e o : Nat) (v : Word) (d : Dev) : Dev :=
  let st := engSt d e
  match o with
  | 0x008 => needSys who (fun d => if budgetOk d e (fld v 0 21) then updSeq e (fun s => { s with budgetNext := some (bf v 0 21) }) d else d) d
  | 0x00C => needSys who (fun d =>
      if isStream d e ∧ fld v 0 8 ≠ 0 then updSeq e (fun s => { s with stallNext := some (bf v 0 8) }) d else d) d
  | 0x020 => enDbgWrite e v .ok .ok d
  | 0x0FC => updEp e (fun p => { p with scrUe := p.scrUe && !bit v 17 }) d
  | 0x204 =>
    let ok := match who with | .steward _ fr _ sys => fr && sys | _ => true
    if ok || v &&& 0xC == 0 then enLifeWrite who e v d
    else needFreeze who id (enLifeWrite who e (v &&& 0xFFFFFFF3) d)
  | 0x208 => enReplantWrite e v (if bit v 0 then bistAbortEngine e d else d)
  | 0x20C => entrySet e v d
  | 0x214 => enXplantWrite e v (if bit v 8 then bistAbortEngine (fld v 0 5) (bistAbortEngine e d) else d)
  | 0x21C => updLife e (fun l => { l with resumeAt := if fld v 0 2 = 3 then l.resumeAt else bf v 0 2 }) d
  | 0x248 => csAddrWrite e v d
  | _ =>
    if 0x080 ≤ o ∧ o < 0x0C0 then (if st = .parked ∨ st = .halted ∨ st = .frozen then wrG e ((o - 0x080) / 4) v d else d)
    else if 0x250 ≤ o ∧ o < 0x260 then
      let i := (o - 0x250) / 4
      csDataWrite e i v (if i = 3 then bistAbortBank e (engine d e).life.csBank d else d)
    else d

/-- A tick budget is accepted (R421): 0, or 1 to period − 64. -/
def tbudgetOk (d : Dev) (v : Nat) : Bool := v == 0 || decide (v + 64 ≤ d.cfg.tickClk.toNat)

/-- A write of ST (R424). -/
def stWrite (who : Who) (c o : Nat) (v : Word) (d : Dev) : Dev :=
  match o with
  | 0x0D8 => needSys who (updCore c fun k => { k with mgrant := bf v 0 2 }) d
  | 0x0DC => needSys who (fun d => if tbudgetOk d (fld v 0 21) then updCore c (fun k => { k with tbudNext := some (bf v 0 21) }) d else d) d
  | 0x0F0 =>
    if v &&& 3 = 0 then d else
    needFreeze who (fun d =>
      let d1 := if bit v 0 then stFreeze c d else d
      if bit v 1 && !hostLike who then stThaw c d1 else d1) d
  | 0x100 => if fld v 0 4 < 13 then updCore c (fun k => { k with ksel := bf v 0 4 }) d else d
  | _ => d

/-- A write of BIST (R466). -/
def bistWrite (who : Who) (o : Nat) (v : Word) (d : Dev) : Dev :=
  match o with
  | 0x018 => needSys who (updBist fun b => { b with
      rotEn := bit v 31, rotMask := bf v 16 8, rotInterval := if fld v 0 16 = 0 then b.rotInterval else bf v 0 16 }) d
  | 0x020 => updBist (fun b => { b with failEng := w1c b.failEng v }) d
  | 0x024 => updBist (fun b => { b with failOth := w1c b.failOth v }) d
  | _ => d

/-- A write of PWR (R623). -/
def pwrWrite (who : Who) (o : Nat) (v : Word) : Dev → Dev :=
  match o with
  | 0x004 => needSys who fun d => if fld v 0 16 = 0 then d else { d with pwr := { d.pwr with dormDly := bf v 0 16 } }
  | 0x008 => needSys who (pwrHold v)
  | _ => id

/-- A word write at BAR0 offset `o` (a multiple of 4). A reserved location ignores it (R11). -/
def regWrite (who : Who) (o : Nat) (v : Word) (d0 : Dev) : Dev :=
  if (regVal who o d0).isNone then d0 else
  let d := regWake o d0
  if o < 0x1000 then sysWrite who o v d
  else if o < 0x2000 then trlWrite who (o - 0x1000) v d
  else if o < 0x4000 then tbWrite (o - 0x2000) v d
  else if o < 0x6000 then evWrite (o - 0x4000) v d
  else if o < 0x8000 then lnWrite who (o - 0x6000) v d
  else if o < 0xA000 then clWrite (o - 0x8000) v d
  else if o < 0xC000 then drWrite who (o - 0xA000) v d
  else if o < 0xE000 then hrWrite who (o - 0xC000) v d
  else if o < 0xF000 then wdWrite who (o - 0xE000) v d
  else if o < 0x10000 then rcWrite who (o - 0xF000) v d
  else if o < 0x18000 then enWrite who ((o - 0x10000) / 0x400) (o % 0x400) v d
  else if o < 0x1A000 then stWrite who ((o - 0x18000) / 0x800) (o % 0x800) v d
  else if o < 0x1B000 then (if o % 0x20 = 0 then needSys who (lsCtrlWrite ((o - 0x1A000) / 0x20) v) d else d)
  else if o < 0x1C000 then bistWrite who (o - 0x1B000) v d
  else pwrWrite who (o - 0x1C000) v d

/-! ### Designated 64-bit registers (R657) -/

/-- The low half of a designated 64-bit register lies at `o`. -/
def designated (o : Nat) : Bool :=
  [0x1020, 0x1028, 0x2000, 0x2010, 0x2028, 0x2030, 0xA400, 0xC008, 0x1B008, 0x1B010].contains o ||
  (0x2400 ≤ o && o < 0x2C00 && (o % 0x20 == 0x00 || o % 0x20 == 0x18)) ||
  (0x3000 ≤ o && o < 0x3200 && (o % 0x20 == 0x08 || o % 0x20 == 0x10)) ||
  (0x6000 ≤ o && o < 0x7000 && o % 0x40 == 0x28) || (0x7100 ≤ o && o < 0x7300 && o % 0x20 == 0x10) ||
  (0xA100 ≤ o && o < 0xA300 && (o % 0x40 == 0x00 || o % 0x40 == 0x08)) || (0xC200 ≤ o && o < 0xC2A0 && o % 0x20 == 0x18) ||
  (0x10000 ≤ o && o < 0x18000 && (o % 0x400 == 0x0C0 || o % 0x400 == 0x220 || o % 0x400 == 0x240)) ||
  (0x18000 ≤ o && o < 0x1A000 && 0x0B8 ≤ o % 0x800 && o % 0x800 < 0x0D0 && o % 8 == 0) ||
  (0x1A000 ≤ o && o < 0x1A080 && o % 0x20 == 0x10)

/-- It also takes an aligned 8-byte write (`wideWrite`). -/
def designatedW (o : Nat) : Bool :=
  o == 0x2028 || o == 0xA400 || (0x2400 ≤ o && o < 0x2C00 && o % 0x20 == 0x00) ||
  (0xA100 ≤ o && o < 0xA300 && (o % 0x40 == 0x00 || o % 0x40 == 0x08))

/-- An aligned 8-byte write of a designated register writes both halves in one clk (R657). As one write, it is refused once by CMP0
while a Trellis is committed (R246). -/
def wideWrite (who : Who) (o : Nat) (lo hi : Word) (d : Dev) : Dev :=
  if o = 0x2400 ∧ d.committed then regWrite who o lo d else regWrite who (o + 4) hi (regWrite who o lo d)

end Sys2Proof.Machine
end

