-- ==== Sys2Proof/Machine/Host.lean ====
section
/-!
DEFINITION. Sys2Proof/Machine/Host.lean: accesses from outside a block: the host's configuration and memory requests (R533,
R543, R544, R586 to R588), its resets (R558 to R562), completions of Breta's own requests (R531, R549), and word accesses by a
ring command or a Steward core.
-/
namespace Sys2Proof.Machine

/-- Return read data, in one completion where a host reads (R532). -/
def answer (bs : List Byte) (d : Dev) : Dev := { d with rdata := bs, rcpl := [bs.length] }

/-- Return the data of a host's read at byte `a` of a BAR in completions of at most Max_Payload_Size bytes (R532). -/
def answerAt (a : Nat) (bs : List Byte) (d : Dev) : Dev :=
  { d with rdata := bs, rcpl := cplSplit (maxPayload d.pe) (bs.length + 1) a bs.length }

/-! ### The host reaches Breta -/

/-- A request of the host can arrive: the endpoint exists and its data link is up (R526, R559). -/
def hostLive (d : Dev) : Bool := hasEndpoint d && !d.sys.inP && d.pe.dlUp && d.pe.link != .ready23

/-- A request that arrives shows that the link is in L0 (R547). -/
def arrive (d : Dev) : Dev := if d.pe.link = .l0 then d else linkReachesL0 d

/-- BAR0 and BAR2 are decoded (R543, R560). -/
def barOn (d : Dev) : Bool := d.pe.mse && !d.pe.d3 && !d.pe.flrBusy
/-- The expansion ROM is decoded (R543). -/
def romOn (d : Dev) : Bool := barOn d && d.pe.romEn

/-- The first byte of a request at DWORD address `a` whose first byte enables are `be`. -/
def firstByte (a : Nat) (be : BitVec 4) : BitVec 24 :=
  BitVec.ofNat 24 (a + if bit be 0 then 0 else if bit be 1 then 1 else if bit be 2 then 2 else if bit be 3 then 3 else 0)

/-- A BAR0 location that takes single bytes: the Steward area of the root cellar (R450). -/
def byteWritable (o : Nat) : Bool := 0xF200 ≤ o && o < 0xF400
/-- A reserved location (R11). -/
def reservedAt (o : Nat) (d : Dev) : Bool := (regVal .host o d).isNone
/-- A write of one DWORD that R586 drops. -/
def dropped (o : Nat) (be : BitVec 4) (d : Dev) : Bool := !reservedAt o d && be != 0 && be != 0xF && !byteWritable o

/-- One DWORD read of BAR0: side effects only with all four enables (R9, R234). -/
def hostWord (o : Nat) (be : BitVec 4) (d : Dev) : Word × Dev :=
  (regRead .host (be == 0xF) (be == 0xF) o d).getD (0, d)

/-- A BAR0 read (R586). -/
def barRead (o : Nat) (bes : List (BitVec 4)) (d : Dev) : Dev :=
  match bes with
  | [] => d
  | [be] =>
    let (v, d1) := hostWord o be d
    answer (leBytes 4 v.toNat) d1
  | [b0, b1] =>
    if o % 8 ≠ 0 then urFree 5 false 0 (firstByte o b0) d
    else if designated o then
      let hi := hi32 d.tb.now
      let (lo, d1) := hostWord o b0 d
      let (h, d2) := hostWord (o + 4) b1 d1
      answer (leBytes 4 lo.toNat ++ leBytes 4 (if o = 0x2000 then hi else h).toNat) d2
    else
      let (lo, d1) := hostWord o b0 d
      let (h, d2) := hostWord (o + 4) b1 (pass 1 d1)
      answer (leBytes 4 lo.toNat ++ leBytes 4 h.toNat) d2
  | be :: _ => urFree 3 false 0 (firstByte o be) d

/-- One DWORD write of BAR0 that is not dropped. -/
def barWord (o : Nat) (v : Word) (be : BitVec 4) (d : Dev) : Dev :=
  if be = 0xF then regWrite .host o v d
  else if byteWritable o ∧ be ≠ 0 then regWrite .host o (mergeBits (beMask be) (BitVec.ofNat 32 (rdLE d.rc (o - 0xF000) 4)) v) d
  else d

/-- A BAR0 write (R586). -/
def barWrite (o : Nat) (ws : List (Word × BitVec 4)) (d : Dev) : Dev :=
  match ws with
  | [] => d
  | [(v, be)] => if dropped o be d then urFree 4 true 0 (firstByte o be) d else barWord o v be d
  | [(v, be), (w, be')] =>
    if o % 8 ≠ 0 then urFree 5 true 0 (firstByte o be) d
    else if designatedW o ∧ be = 0xF ∧ be' = 0xF then wideWrite .host o v w d
    else if dropped o be d ∨ dropped (o + 4) be' d then urFree 4 true 0 (firstByte o be) d
    else barWord (o + 4) w be' (pass 1 (barWord o v be d))
  | (_, be) :: _ => urFree 3 true 0 (firstByte o be) d

/-! ### BAR2 and the ROM (R543, R588) -/

/-- A peek read reaches Cellar byte `a` (R322). -/
def peeks (d : Dev) (a : Nat) : Bool := peekOk d a

/-- The bytes of a peek read from Cellar byte `a`, where a read of the Cellar would give `bs` (R302, R323); a byte that the window does
not show is 0, and the bytes of an uncorrectable word are as read, free values (R325; DESIGN CHOICE, log entry 55). -/
def peekMask (ue : List (BitVec 23)) (a : Nat) : List Byte → Dev → List Byte × Dev
  | [], d => ([], d)
  | b :: bs, d =>
    let (x, d1) :=
      if !peeks d a then (0, d)
      else if ue.any fun u => u.toNat / 8 == a / 8 then (let (f, d') := takeFree d; (bf f 0 8, d'))
      else (b, d)
    let (xs, d2) := peekMask ue (a + 1) bs d1
    (x :: xs, d2)

/-- The `n` bytes of a peek read from Cellar byte `a`. -/
def peekBytes (ue : List (BitVec 23)) (a n : Nat) (d : Dev) : List Byte × Dev :=
  let (bs, d1) := cellarBytes a n d
  peekMask ue a bs d1

/-- A BAR2 read of `n` bytes, with the ECC errors its Cellar reads meet. -/
def bar2Read (o n : Nat) (ce ue : List (BitVec 23)) (d : Dev) : Dev :=
  if o < 0x800000 then answerAt o (List.replicate n 0) d else
  let a := o - 0x800000
  let hit (u : BitVec 23) : Bool := peeks d u.toNat && decide (a / 8 ≤ u.toNat / 8) && decide (u.toNat < a + n)
  let (bs, d1) := peekBytes (ue.filter hit) a n d
  answerAt o bs (cellarErrors ((ce.filter hit).map (·.toNat)) ((ue.filter hit).map (·.toNat)) d1)

/-- A memory read of the host, one set of byte enables for each DWORD. -/
def hostRead (sp : Space) (off : BitVec 24) (bes : List (BitVec 4)) (ce ue : List (BitVec 23)) (d0 : Dev) : Dev :=
  let a := off.toNat / 4 * 4
  let n := 4 * bes.length
  if !hostLive d0 then d0 else
  let d := arrive d0
  match sp with
  | .bar0 => if !barOn d ∨ 0x100000 ≤ a then urFree 1 false 3 0 d else if !d.sys.fclkOn then d else barRead a bes d
  | .bar2 => if !barOn d then urFree 1 false 3 0 d else if !d.sys.fclkOn then d else bar2Read a n ce ue d
  | .rom =>
    if !romOn d ∨ 0x10000 ≤ a then urFree 1 false 3 0 d
    else answerAt a ((List.range n).map fun i => romByte (a + i)) d
  | .config => if d.pe.flrBusy then emit .crs d else answer (leBytes 4 (cfgRead (a % 4096) d).toNat) d

/-! ### Configuration writes, FLR, H reset (R533, R536, R556, R558 to R562) -/

/-- The loader's and the drain's reads that may be issued now are issued (R78, R584). -/
def pumpReads (d : Dev) : Dev := descRead (dmaPump d)

/-- An FLR starts (R560, R561): the F values, the load in progress ends, INTA is withdrawn. -/
def flrStart (d : Dev) : Dev :=
  deassertInta (updPe (fun p => { p with flrBusy := true }) (trlHF (hostSide (updPe peF d))))

/-- A configuration write that arrives. INIT_FLR completes the write, then starts the FLR (R537). -/
def cfgWriteRow (a : Nat) (v : Word) (be : BitVec 4) (d : Dev) : Dev :=
  if d.pe.flrBusy then emit .crs d else
  let d1 := cfgWrite a v be d
  if a = 0x58 ∧ bit be 1 ∧ bit v 15 then flrStart d1 else pumpReads d1

/-- FLR_END (R560): FLR_BUSY and TRANS_PEND read 0. -/
def flrEnd (d : Dev) : Dev :=
  if d.pe.flrBusy then updPe (fun p => { p with flrBusy := false, flrCnt := satInc p.flrCnt }) d else d

/-- An H reset (R562). The virtual wire falls without a message (R545). -/
def hReset (d : Dev) : Dev := trlHF (hostSide (updPe peH d))

/-- HOT_RESET and DL_DOWN (R558). -/
def hotReset (d : Dev) : Dev := if hasEndpoint d ∧ !d.sys.inP ∧ d.sys.pcieLock then hReset d else d
def dlDown (d : Dev) : Dev :=
  if hasEndpoint d ∧ !d.sys.inP ∧ d.pe.dlUp then updPe (fun p => { p with linkDown := satInc p.linkDown }) (hReset d) else d

/-- LINK_REACHES_L0: what waited for the link is sent, and what may be issued is. -/
def linkL0 (d : Dev) : Dev := pumpReads (linkReachesL0 d)

/-- A memory or configuration write of the host. A poisoned memory write changes nothing (R549). -/
def hostWrite (sp : Space) (off : BitVec 24) (ws : List (Word × BitVec 4)) (poison ue : Bool) (d0 : Dev) : Dev :=
  let a := off.toNat / 4 * 4
  if !hostLive d0 then d0 else
  let d := arrive d0
  let bad (f : Dev → Dev) : Dev := if poison then (let (h, d1) := freeHeader d; poisoned h d1) else f d
  match sp with
  | .bar0 => if !barOn d ∨ 0x100000 ≤ a then urFree 1 true 3 0 d else bad fun d => if !d.sys.fclkOn then d else barWrite a ws d
  | .bar2 =>
    if !barOn d then urFree 1 true 3 0 d
    else bad fun d =>
      if !d.sys.fclkOn then d
      else if a < 0x10000 then fifoWrite ws ue d
      else urFree 5 true 1 (firstByte a ((ws.head?.map (·.2)).getD 0xF)) d
  | .rom =>
    if !romOn d ∨ 0x10000 ≤ a then urFree 1 true 3 0 d
    else bad fun d => urFree 6 true 2 (firstByte a ((ws.head?.map (·.2)).getD 0xF)) d
  | .config => match ws with | [(v, be)] => cfgWriteRow (a % 4096) v be d | _ => d

/-- D3HOT_ENTRY (R556): no request is issued, INTA is withdrawn, and with nothing outstanding Breta enters L1. -/
def d3hotEntry (v : Word) (be : BitVec 4) (d : Dev) : Dev :=
  let d1 := hostWrite .config 0x44 [(v, be)] false false d
  if d1.pe.d3 ∧ !d.pe.d3 then l1Entry true (deassertInta d1) else d1

/-- D0_RETURN (R556): every register is as before, and INTA is asserted again when its condition holds. -/
def d0Return (v : Word) (be : BitVec 4) (d : Dev) : Dev :=
  let d1 := hostWrite .config 0x44 [(v, be)] false false d
  if !d1.pe.d3 ∧ d.pe.d3 then assertInta d1 else d1

/-! ### Completions (R531, R549, R560) -/

/-- The purpose of a request gets its data, or learns that the request failed. -/
def reqData (r : Req) (ue last : Bool) (data : List Byte) (d : Dev) : Dev :=
  match r.what with
  | .trl _ => dmaData ue data d
  | .desc => descData data last d
def reqFail (r : Req) (d : Dev) : Dev :=
  match r.what with
  | .trl off => dmaFail off d
  | .desc => if d.dr.busy then endDesc 7 d else d

/-- The request `r` after `n` bytes of it have come. A read of the loader keeps the offset of its first byte (R83). -/
def Req.rest (r : Req) (n : Nat) : Req :=
  { r with addr := r.addr + BitVec.ofNat 64 n, len := r.len - n }

/-- Take the request with tag `t` out, or put `r'` in its place. -/
def replaceReq (t : Byte) (r' : Option Req) (p : Pe) : Pe :=
  { p with reqs := p.reqs.filterMap fun r => if r.tag = t then r' else some r }

/-- COMPLETION_RECEIVED. `ue` is an uncorrectable error of the loader's staging buffer. -/
def completionReceived (tag : Byte) (status : CplStatus) (poison ue : Bool) (data : List Byte) (hdr : List Word) (d0 : Dev) : Dev :=
  if !hostLive d0 then d0 else
  let d := arrive d0
  match d.pe.reqs.find? (·.tag == tag) with
  | none =>
    match d.pe.stale.find? (·.1 == tag) with
    | some (_, n) =>
      updPe (fun p => { p with stale :=
        let rest := p.stale.filter (·.1 != tag)
        if status = .sc ∧ data.length < n then rest ++ [(tag, n - data.length)] else rest }) d
    | none => ueError 16 true false (some hdr) d
  | some r =>
    let fail (d : Dev) : Dev := pumpReads (reqFail r (updPe (replaceReq tag none) d))
    if poison then
      fail (poisoned hdr (updPe (fun p => { p with mdpe := p.mdpe || p.perrResp }) d))
    else match status with
    | .ur => fail (updPe (fun p => { p with rxMa := true }) d)
    | .ca => fail (updPe (fun p => { p with rxTa := true }) d)
    | .sc =>
      let n := min r.len data.length
      let last := decide (r.len ≤ n)
      pumpReads (reqData r ue last (data.take n) (updPe (replaceReq tag (if last then none else some (r.rest n))) d))

/-- COMPLETION_TIMEOUT (R531): the time of the table, from the request's transmission, has passed; with Completion Timeout Disable set
Breta waits without limit. -/
def completionTimeout (tag : Byte) (hdr : List Word) (d0 : Dev) : Dev :=
  if d0.pe.ctoDis then d0 else
  let d := match d0.pe.reqs.find? (·.tag == tag) with | some r => passTo (r.sent + completionClk d0.pe) d0 | none => d0
  match d.pe.reqs.find? (·.tag == tag) with
  | some r => pumpReads (reqFail r (ueError 14 false false (some hdr) (updPe (replaceReq tag none) d)))
  | none => updPe (fun p => { p with stale := p.stale.filter (·.1 != tag) }) d

/-! ### Stores of a Steward to register space (R32, R309 to R311, R338, R407 to R409, R493) -/

/-- A store that failed is reported (R407, R408). -/
def busError (c detail addr : Nat) (sealed : Bool) : Dev → Dev :=
  updCore c fun k =>
    if k.busPend then { k with busMore := satInc k.busMore }
    else { k with
      busPend := true, busMore := 0, busDetail := BitVec.ofNat 8 detail, busSealed := sealed
      busAddr := if sealed then 0 else BitVec.ofNat 32 addr }

/-- A store to register `o` of a core's own port set at level `l`. The second result says that it is refused. -/
def portStore (c l : Fin 4) (comp : Byte) (o : Nat) (v : Word) (d : Dev) : Dev × Bool :=
  match o with
  | 0x00 => portRequest c l comp v d
  | 0x0C => (updPort c l (fun p => { p with handle := v }) d, false)
  | 0x10 => portOp c l d.cl.ports[c][l].handle (fun issue b e r d => (append4 issue b e r v d).1) d
  | 0x14 => portOp c l v commitIssue d
  | 0x18 => portOp c l v voidIssue d
  | _ => (d, false)

/-- A word store of core `c` to BAR0 offset `o`, issued at level `l` in compartment `comp`. The second result is the DETAIL of
the store error it raises. -/
def stewardStore (c : Fin 4) (freeze safe sys : Bool) (l : Fin 4) (comp : Byte) (o : Nat) (v : Word) (d : Dev) : Dev × Option Nat :=
  let who : Who := .steward c freeze safe sys
  if (regVal who o d).isNone then (d, some 0)
  else if 0x8100 ≤ o && o < 0x8300 then
    if (o - 0x8100) / 0x80 = c ∧ o % 0x80 / 0x20 = l then
      let (d1, e) := portStore c l comp (o % 0x20) v d
      (d1, if e then some 2 else none)
    else (d, some 2)
  else if 0xC200 ≤ o && o < 0xC2A0 && d.hr.master && (o - 0xC200) / 0x20 != c + 1 then (d, some 2)
  else (regWrite who o v d, none)

/-- A store of core `c` to BAR0 offset `o` that reaches the register now, at the core's level and in its compartment. -/
def stewardWrite (c : Fin 4) (freeze safe sys : Bool) (o : Nat) (v : Word) (be : BitVec 4) (d : Dev) : Dev :=
  let k := core d c
  let err (n : Nat) : Dev → Dev := busError c n (regBase + o) (inSealed d c)
  if be ≠ 0xF then err 3 d else
  match stewardStore c freeze safe sys (Fin.ofNat 4 k.lvl) k.comp o v d with
  | (d1, some n) => err n d1
  | (d1, none) => d1

/-! ### Word accesses by any reader or writer -/

/-- The register planes have their clock and no P reset holds them. -/
def regsLive (d : Dev) : Bool := d.sys.fclkOn && !d.sys.inP

/-- A write of the register at BAR0 offset `o`. Ring commands write whole words (R487). -/
def wordWrite (who : Who) (o : Nat) (v : Word) (be : BitVec 4) (d : Dev) : Dev :=
  match who with
  | .host => hostWrite .bar0 (BitVec.ofNat 24 o) [(v, be)] false false d
  | .ring _ => if regsLive d ∧ be = 0xF then regWrite who o v d else d
  | .steward c freeze safe sys => if regsLive d then stewardWrite c freeze safe sys o v be d else d

/-- A read of the register at BAR0 offset `o`: the host with its byte enables, a ring RD, a Steward's word load. -/
def wordRead (who : Who) (o : Nat) (be : BitVec 4) (d : Dev) : Dev :=
  match who with
  | .host => hostRead .bar0 (BitVec.ofNat 24 o) [be] [] [] d
  | _ =>
    if !regsLive d ∨ be ≠ 0xF then d else
    match regRead who true true o d with
    | some (v, d1) => answer (leBytes 4 v.toNat) d1
    | none => d

/-- RC_FIELD_READ: a read of any register (R7, R9, R586). Only the host reads more than one word or another space. -/
def rcFieldRead (who : Who) (sp : Space) (off : BitVec 24) (bes : List (BitVec 4)) (ce ue : List (BitVec 23)) (d : Dev) : Dev :=
  match who with
  | .host => hostRead sp off bes ce ue d
  | _ => match sp, bes with
    | .bar0, [be] => wordRead who (off.toNat / 4 * 4) be d
    | _, _ => d

/-- REGISTER_WRITE: a write of any register (R5, R586). -/
def registerWrite (who : Who) (sp : Space) (off : BitVec 24) (ws : List (Word × BitVec 4)) (poison : Bool) (d : Dev) : Dev :=
  match who with
  | .host => hostWrite sp off ws poison false d
  | _ => match sp, ws with
    | .bar0, [(v, be)] => wordWrite who (off.toNat / 4 * 4) v be d
    | _, _ => d

end Sys2Proof.Machine
end

