-- ==== Sys2Proof/Machine/Lift.lean ====
section
/-!
DEFINITION. Sys2Proof/Machine/Lift.lean: a change of the device as the outcome of a command.
-/
namespace Sys2Proof.Machine

/-- The command changes the device by `f`; the queue stays. -/
def act (f : Dev → Dev) (s : State) : Host.Outcome State Fault Refusal := .next { s with dev := f s.dev }

/-- A command of logic that runs on fclk changes the device by `f`; with fclk stopped nothing happens (R28). -/
def actClk (f : Dev → Dev) (s : State) : Host.Outcome State Fault Refusal := act (fun d => if d.sys.fclkOn then f d else d) s

end Sys2Proof.Machine
end

