-- ==== Sys2Proof/Machine/ExecCellar.lean ====
section
/-!
DEFINITION. Sys2Proof/Machine/ExecCellar.lean: the commands of records, ports, seals and repair (09_cellar.md).
-/
namespace Sys2Proof.Machine

/-- BLOCK_GRANT (R301): the requests that wait on a bin are granted when there is room, the owner's own last. -/
def blockGrant (b : Nat) (d : Dev) : Dev :=
  match binCfg? d b with
  | none => d
  | some c =>
    let d1 := serveWaiting b c d
    match (bin d1 b).waiting with
    | .engine e _ :: _ => if blockFull d1 e (engine d1 e).current then d1 else grantEngine e d1
    | _ => d1

/-- RES_TIMEOUT (R306). -/
def execResTimeout (b : Fin 256) (slot : Fin 8) (s : State) : Host.Outcome State Fault Refusal :=
  actClk (recTimeout b slot) s

/-- RECORD_RELEASE (R291). -/
def execRecordRelease (b : Fin 256) (s : State) : Host.Outcome State Fault Refusal :=
  actClk (releaseOne b) s

/-- TRIGGER_RECORD (R317). -/
def execTriggerRecord (b : Fin 256) (s : State) : Host.Outcome State Fault Refusal :=
  actClk (triggerRecord b) s

/-- CL_BACK (R293). -/
def execClBack (who : Who) (b : Fin 256) (v : Word) (s : State) : Host.Outcome State Fault Refusal :=
  act (wordWrite who (0x900C + 0x10 * b.val) v 0xF) s

/-- CL_SREQ (R310). -/
def execClSreq (c : Fin 4) (v : Word) (s : State) : Host.Outcome State Fault Refusal :=
  act (fun d => wordWrite (.steward c false false false) (0x8100 + 0x80 * c.val + 0x20 * (core d c).lvl + 0) v 0xF d) s

/-- CL_SAPPEND (R311). -/
def execClSappend (c : Fin 4) (v : Word) (s : State) : Host.Outcome State Fault Refusal :=
  act (fun d => wordWrite (.steward c false false false) (0x8100 + 0x80 * c.val + 0x20 * (core d c).lvl + 0x10) v 0xF d) s

/-- CL_SCOMMIT (R311). -/
def execClScommit (c : Fin 4) (v : Word) (s : State) : Host.Outcome State Fault Refusal :=
  act (fun d => wordWrite (.steward c false false false) (0x8100 + 0x80 * c.val + 0x20 * (core d c).lvl + 0x14) v 0xF d) s

/-- CL_SVOID (R311). -/
def execClSvoid (c : Fin 4) (v : Word) (s : State) : Host.Outcome State Fault Refusal :=
  act (fun d => wordWrite (.steward c false false false) (0x8100 + 0x80 * c.val + 0x20 * (core d c).lvl + 0x18) v 0xF d) s

/-- BLOCK_GRANT (R301). -/
def execBlockGrant (b : Fin 256) (s : State) : Host.Outcome State Fault Refusal :=
  actClk (blockGrant b) s

/-- SEAL_RECORD (R319). -/
def execSealRecord (ecc : SealEcc) (s : State) : Host.Outcome State Fault Refusal :=
  act (sealRecord ecc) s

/-- REPAIR_GO (R326). -/
def execRepairGo (who : Who) (v : Word) (s : State) : Host.Outcome State Fault Refusal :=
  act (wordWrite who 0x8014 v 0xF) s

/-- REPAIR_START (R326). -/
def execRepairStart (bank : Fin 16) (row : BitVec 9) (s : State) : Host.Outcome State Fault Refusal :=
  actClk (repairStart bank row) s

/-- REPAIR_SWITCH (R327). -/
def execRepairSwitch (copy : RowCopy) (s : State) : Host.Outcome State Fault Refusal :=
  act (repairSwitch copy.bank copy.ce copy.ue) s

end Sys2Proof.Machine
end

