-- ==== Sys2Proof/Machine/ExecDatapath.lean ====
section
/-!
DEFINITION. Sys2Proof/Machine/ExecDatapath.lean: the commands of the datapath of the engines (04_engine_datapath.md).
-/
namespace Sys2Proof.Machine

/-- SHIN (R141). -/
def execShin (e : Fin 32) (cs scr : Ecc) (s : State) : Host.Outcome State Fault Refusal :=
  act (engineRow (·.shop == 1) e cs scr) s

/-- SHINR (R141). -/
def execShinr (e : Fin 32) (cs scr : Ecc) (s : State) : Host.Outcome State Fault Refusal :=
  act (engineRow (·.shop == 2) e cs scr) s

/-- SHOUT (R141). -/
def execShout (e : Fin 32) (cs scr : Ecc) (s : State) : Host.Outcome State Fault Refusal :=
  act (engineRow (·.shop == 3) e cs scr) s

/-- SHOUTR (R141). -/
def execShoutr (e : Fin 32) (cs scr : Ecc) (s : State) : Host.Outcome State Fault Refusal :=
  act (engineRow (·.shop == 4) e cs scr) s

/-- BGIN (R142). -/
def execBgin (e : Fin 32) (cs scr : Ecc) (s : State) : Host.Outcome State Fault Refusal :=
  act (engineRow (·.shop == 5) e cs scr) s

/-- XFER (R142). -/
def execXfer (e : Fin 32) (cs scr : Ecc) (s : State) : Host.Outcome State Fault Refusal :=
  act (engineRow (·.shop == 6) e cs scr) s

/-- BACKGROUND_END (R142). -/
def execBackgroundEnd (e : Fin 32) (s : State) : Host.Outcome State Fault Refusal :=
  actClk (backgroundEnd e) s

/-- TSPOP (R149). -/
def execTspop (e : Fin 32) (cs scr : Ecc) (s : State) : Host.Outcome State Fault Refusal :=
  act (engineRow (fun w => 0x18 ≤ w.memop && w.memop < 0x20) e cs scr) s

/-- RESERVE (R151). -/
def execReserve (e : Fin 32) (cs scr : Ecc) (s : State) : Host.Outcome State Fault Refusal :=
  act (engineRow (·.memop == 8) e cs scr) s

/-- RESERVEG (R151). -/
def execReserveg (e : Fin 32) (cs scr : Ecc) (s : State) : Host.Outcome State Fault Refusal :=
  act (engineRow (·.memop == 9) e cs scr) s

/-- APPEND (R153). -/
def execAppend (e : Fin 32) (cs scr : Ecc) (s : State) : Host.Outcome State Fault Refusal :=
  act (engineRow (·.memop == 10) e cs scr) s

/-- APPENDSL (R146). -/
def execAppendsl (e : Fin 32) (cs scr : Ecc) (s : State) : Host.Outcome State Fault Refusal :=
  act (engineRow (·.memop == 11) e cs scr) s

/-- APPENDSH (R146). -/
def execAppendsh (e : Fin 32) (cs scr : Ecc) (s : State) : Host.Outcome State Fault Refusal :=
  act (engineRow (·.memop == 12) e cs scr) s

/-- COMMIT (R303). -/
def execCommit (e : Fin 32) (cs scr : Ecc) (s : State) : Host.Outcome State Fault Refusal :=
  act (engineRow (·.memop == 13) e cs scr) s

/-- VOID (R304). -/
def execVoid (e : Fin 32) (cs scr : Ecc) (s : State) : Host.Outcome State Fault Refusal :=
  act (engineRow (·.memop == 14) e cs scr) s

end Sys2Proof.Machine
end

