-- ==== Sys2Proof/Machine/ExecDrain.lean ====
section
/-!
DEFINITION. Sys2Proof/Machine/ExecDrain.lean: the commands of the drain, host rings and command descriptors (15_drain_host_access.md).
-/
namespace Sys2Proof.Machine

/-- DRAIN_PASS (R564). -/
def execDrainPass (ce : List (BitVec 23)) (ue : Option (Byte × Word)) (s : State) : Host.Outcome State Fault Refusal :=
  act (drainPass ce ue) s

/-- MODERATION_TIMER (R576). -/
def execModerationTimer (r : Fin 8) (s : State) : Host.Outcome State Fault Refusal :=
  act (moderationTimer r) s

/-- DR_CIDX (R570). -/
def execDrCidx (who : Who) (r : Fin 8) (v : Word) (s : State) : Host.Outcome State Fault Refusal :=
  act (wordWrite who (0xA118 + 0x40 * r.val) v 0xF) s

/-- RUN (R571). -/
def execRun (who : Who) (r : Fin 8) (v : Word) (s : State) : Host.Outcome State Fault Refusal :=
  act (wordWrite who (0xA110 + 0x40 * r.val) v 0xF) s

/-- DESCRIPTOR_GO (R582). -/
def execDescriptorGo (who : Who) (v : Word) (s : State) : Host.Outcome State Fault Refusal :=
  act (wordWrite who 0xA410 v 0xF) s

/-- DESCRIPTOR_END (R585). -/
def execDescriptorEnd (ce : List (BitVec 23)) (ue : Option Nat) (s : State) : Host.Outcome State Fault Refusal :=
  actClk (descEnd ce ue) s

end Sys2Proof.Machine
end

