-- ==== Sys2Proof/Machine/ExecEvents.lean ====
section
/-!
DEFINITION. Sys2Proof/Machine/ExecEvents.lean: the commands of events, larders and the register file (08_events.md, 19_register_index.md).
-/
namespace Sys2Proof.Machine

/-- SOFTSET (R263). -/
def execSoftset (who : Who) (g : Fin 8) (v : Word) (s : State) : Host.Outcome State Fault Refusal :=
  act (wordWrite who (0x4200 + 4 * g.val) v 0xF) s

/-- SOFTCLR (R263). -/
def execSoftclr (who : Who) (g : Fin 8) (v : Word) (s : State) : Host.Outcome State Fault Refusal :=
  act (wordWrite who (0x4220 + 4 * g.val) v 0xF) s

/-- EVENT_DELIVERY (R267). -/
def execEventDelivery (s : State) : Host.Outcome State Fault Refusal :=
  act (fun d => fenceChecks (eventDelivery d)) s

/-- LARDER_POP (R275). -/
def execLarderPop (c : Fin 4) (s : State) : Host.Outcome State Fault Refusal :=
  act (wordRead (.steward c false false false) (0x4060 + 8 * c.val) 0xF) s

/-- ASSERT_INTA (R545). -/
def execAssertInta (s : State) : Host.Outcome State Fault Refusal :=
  act (assertInta) s

/-- DEASSERT_INTA (R545). -/
def execDeassertInta (s : State) : Host.Outcome State Fault Refusal :=
  act (deassertInta) s

/-- RC_FIELD_READ (R7). -/
def execRcFieldRead (who : Who) (sp : Space) (off : BitVec 24) (bes : List (BitVec 4)) (ce ue : List (BitVec 23)) (s : State) : Host.Outcome State Fault Refusal :=
  act (rcFieldRead who sp off bes ce ue) s

/-- REGISTER_WRITE (R5). -/
def execRegisterWrite (who : Who) (sp : Space) (off : BitVec 24) (ws : List (Word × BitVec 4)) (poison : Bool) (s : State) : Host.Outcome State Fault Refusal :=
  act (registerWrite who sp off ws poison) s

end Sys2Proof.Machine
end

