-- ==== Sys2Proof/Machine/ExecLanes.lean ====
section
/-!
DEFINITION. Sys2Proof/Machine/ExecLanes.lean: the commands of lanes and paired inputs (06_lanes.md).
-/
namespace Sys2Proof.Machine

/-- LANE_EDGE (R201). -/
def execLaneEdge (n : Fin 64) (dt : Nat) (s : State) : Host.Outcome State Fault Refusal :=
  actClk (fun d => laneEdge n (pass dt d)) s

/-- LANE_FIRST_LEVEL (R671). -/
def execLaneFirstLevel (n : Fin 64) (s : State) : Host.Outcome State Fault Refusal :=
  actClk (laneFirstLevel n) s

/-- LANE_SAMPLE (R205). -/
def execLaneSample (n : Fin 64) (s : State) : Host.Outcome State Fault Refusal :=
  actClk (laneSample n) s

/-- SERIALISER_BIT (R670). -/
def execSerialiserBit (n : Fin 64) (s : State) : Host.Outcome State Fault Refusal :=
  actClk (serialiserBit n) s

/-- LANE_PULSE_END (R214). -/
def execLanePulseEnd (n : Fin 64) (s : State) : Host.Outcome State Fault Refusal :=
  actClk (lanePulseEnd n) s

/-- CONTENTION (R215). -/
def execContention (n : Fin 64) (s : State) : Host.Outcome State Fault Refusal :=
  actClk (contention n) s

/-- PAIR_SAMPLE (R217). -/
def execPairSample (p : Fin 16) (s : State) : Host.Outcome State Fault Refusal :=
  actClk (pairSample p) s

/-- PAIR_CLEAR (R223). -/
def execPairClear (who : Who) (p : Fin 16) (v : Word) (s : State) : Host.Outcome State Fault Refusal :=
  act (wordWrite who (0x710C + 0x20 * p.val) v 0xF) s

/-- CLKGEN_CLOCK_EDGE (R211). -/
def execClkgenClockEdge (n : Fin 64) (s : State) : Host.Outcome State Fault Refusal :=
  actClk (clkgenEdge n) s

/-- LANE_PIN_CHANGE (R200). -/
def execLanePinChange (n : Fin 64) (level : Bool) (s : State) : Host.Outcome State Fault Refusal :=
  act (lanePin n level) s

end Sys2Proof.Machine
end

