-- ==== Sys2Proof/Machine/ExecLife.lean ====
section
/-!
DEFINITION. Sys2Proof/Machine/ExecLife.lean: the commands of parking, replanting and transplanting engines (05_engine_life.md).
-/
namespace Sys2Proof.Machine

/-- STEP (R127): a write of EN_DBG whose stepped microword meets the ECC results of its control store and scratch. -/
def stepRow (who : Who) (e : Fin 32) (v : Word) (cs scr : Ecc) (d : Dev) : Dev :=
  let f (d : Dev) : Dev := if cs = .ok ∧ scr = .ok then wordWrite who (0x10000 + 0x400 * e.val + 0x020) v 0xF d
    else enDbgWrite e v cs scr (regWake (0x10000 + 0x400 * e.val) d)
  match who with
  | .host => if hostLive d ∧ barOn d then (if d.sys.fclkOn then f (arrive d) else d) else wordWrite who (0x10000 + 0x400 * e.val + 0x020) v 0xF d
  | _ => if regsLive d then f d else d

/-- GRACE_EXPIRED (R180). -/
def execGraceExpired (e : Fin 32) (s : State) : Host.Outcome State Fault Refusal :=
  actClk (graceExpired e) s

/-- PRECOPY_END (R184). -/
def execPrecopyEnd (e : Fin 32) (ecc : Ecc) (s : State) : Host.Outcome State Fault Refusal :=
  actClk (precopyEnd e ecc) s

/-- CUTOVER_END (R185). -/
def execCutoverEnd (e : Fin 32) (s : State) : Host.Outcome State Fault Refusal :=
  actClk (cutoverEnd e) s

/-- PARK_REQUEST (R169). -/
def execParkRequest (who : Who) (e : Fin 32) (v : Word) (s : State) : Host.Outcome State Fault Refusal :=
  act (wordWrite who (0x10000 + 0x400 * e.val + 0x204) v 0xF) s

/-- UNPARK (R172). -/
def execUnpark (who : Who) (e : Fin 32) (v : Word) (s : State) : Host.Outcome State Fault Refusal :=
  act (wordWrite who (0x10000 + 0x400 * e.val + 0x204) v 0xF) s

/-- EN_FREEZE (R193). -/
def execEnFreeze (who : Who) (e : Fin 32) (v : Word) (s : State) : Host.Outcome State Fault Refusal :=
  act (wordWrite who (0x10000 + 0x400 * e.val + 0x204) v 0xF) s

/-- EN_THAW (R194). -/
def execEnThaw (who : Who) (e : Fin 32) (v : Word) (s : State) : Host.Outcome State Fault Refusal :=
  act (wordWrite who (0x10000 + 0x400 * e.val + 0x204) v 0xF) s

/-- EN_RESET (R195). -/
def execEnReset (who : Who) (e : Fin 32) (v : Word) (s : State) : Host.Outcome State Fault Refusal :=
  act (wordWrite who (0x10000 + 0x400 * e.val + 0x204) v 0xF) s

/-- REPLANT_GO (R177). -/
def execReplantGo (who : Who) (e : Fin 32) (v : Word) (s : State) : Host.Outcome State Fault Refusal :=
  act (wordWrite who (0x10000 + 0x400 * e.val + 0x208) v 0xF) s

/-- REPLANT_CANCEL (R196). -/
def execReplantCancel (who : Who) (e : Fin 32) (v : Word) (s : State) : Host.Outcome State Fault Refusal :=
  act (wordWrite who (0x10000 + 0x400 * e.val + 0x208) v 0xF) s

/-- XPLANT_GO (R183). -/
def execXplantGo (who : Who) (e : Fin 32) (v : Word) (s : State) : Host.Outcome State Fault Refusal :=
  act (wordWrite who (0x10000 + 0x400 * e.val + 0x214) v 0xF) s

/-- XPLANT_CANCEL (R196). -/
def execXplantCancel (who : Who) (e : Fin 32) (v : Word) (s : State) : Host.Outcome State Fault Refusal :=
  act (wordWrite who (0x10000 + 0x400 * e.val + 0x214) v 0xF) s

/-- ENTRYSET (R176). -/
def execEntryset (who : Who) (e : Fin 32) (v : Word) (s : State) : Host.Outcome State Fault Refusal :=
  act (wordWrite who (0x10000 + 0x400 * e.val + 0x20C) v 0xF) s

/-- CSADDR_WRITE (R196). -/
def execCsaddrWrite (who : Who) (e : Fin 32) (v : Word) (s : State) : Host.Outcome State Fault Refusal :=
  act (wordWrite who (0x10000 + 0x400 * e.val + 0x248) v 0xF) s

/-- CSDATA_WRITE (R175). -/
def execCsdataWrite (who : Who) (e : Fin 32) (v : Word) (s : State) : Host.Outcome State Fault Refusal :=
  act (wordWrite who (0x10000 + 0x400 * e.val + 0x25C) v 0xF) s

/-- RESUME (R127). -/
def execResume (who : Who) (e : Fin 32) (v : Word) (s : State) : Host.Outcome State Fault Refusal :=
  act (wordWrite who (0x10000 + 0x400 * e.val + 0x020) v 0xF) s

/-- STEP (R127). -/
def execStep (who : Who) (e : Fin 32) (v : Word) (cs scr : Ecc) (s : State) : Host.Outcome State Fault Refusal :=
  act (stepRow who e v cs scr) s

end Sys2Proof.Machine
end

