-- ==== Sys2Proof/Machine/ExecPcie.lean ====
section
/-!
DEFINITION. Sys2Proof/Machine/ExecPcie.lean: the commands of the PCI Express endpoint (14_pcie_endpoint.md).
-/
namespace Sys2Proof.Machine

/-- D3HOT_ENTRY (R556). -/
def execD3hotEntry (v : Word) (be : BitVec 4) (s : State) : Host.Outcome State Fault Refusal :=
  act (d3hotEntry v be) s

/-- D0_RETURN (R556). -/
def execD0Return (v : Word) (be : BitVec 4) (s : State) : Host.Outcome State Fault Refusal :=
  act (d0Return v be) s

/-- PME_TURN_OFF (R557). -/
def execPmeTurnOff (s : State) : Host.Outcome State Fault Refusal :=
  act (pmeTurnOff) s

/-- COMPLETION_RECEIVED (R549). -/
def execCompletionReceived (tag : Byte) (status : CplStatus) (poison ue : Bool) (data : List Byte) (hdr : List Word) (s : State) : Host.Outcome State Fault Refusal :=
  act (completionReceived tag status poison ue data hdr) s

/-- COMPLETION_TIMEOUT (R531). -/
def execCompletionTimeout (tag : Byte) (hdr : List Word) (s : State) : Host.Outcome State Fault Refusal :=
  act (completionTimeout tag hdr) s

/-- PCIE_ERROR (R551). -/
def execPcieError (e : PcieErr) (hdr : List Word) (s : State) : Host.Outcome State Fault Refusal :=
  act (pcieError e hdr) s

/-- L0S_ENTRY (R553). -/
def execL0sEntry (s : State) : Host.Outcome State Fault Refusal :=
  act (l0sEntry) s

/-- L1_ENTRY (R554). -/
def execL1Entry (accepted : Bool) (s : State) : Host.Outcome State Fault Refusal :=
  act (l1Entry accepted) s

/-- L1_EXIT (R555). -/
def execL1Exit (s : State) : Host.Outcome State Fault Refusal :=
  act (l1Exit) s

/-- DL_UP (R559). -/
def execDlUp (speed : BitVec 4) (width : BitVec 6) (s : State) : Host.Outcome State Fault Refusal :=
  act (dlUpRow speed width) s

/-- LINK_REACHES_L0 (R547). -/
def execLinkReachesL0 (s : State) : Host.Outcome State Fault Refusal :=
  act (linkL0) s

end Sys2Proof.Machine
end

