-- ==== Sys2Proof/Machine/ExecPower.lean ====
section
/-!
DEFINITION. Sys2Proof/Machine/ExecPower.lean: the commands of cluster dormancy (16_reset_power_startup.md).
-/
namespace Sys2Proof.Machine

/-- FENCE_START (R608). -/
def execFenceStart (k : Fin 8) (s : State) : Host.Outcome State Fault Refusal :=
  actClk (fenceStart k) s

/-- CLUSTER_DORMANT (R608). -/
def execClusterDormant (k : Fin 8) (s : State) : Host.Outcome State Fault Refusal :=
  actClk (clusterDormant k) s

/-- CLUSTER_WAKE (R611). -/
def execClusterWake (k : Fin 8) (s : State) : Host.Outcome State Fault Refusal :=
  actClk (clusterWake k) s

/-- CLUSTER_AWAKE (R612). -/
def execClusterAwake (k : Fin 8) (s : State) : Host.Outcome State Fault Refusal :=
  actClk (clusterAwake k) s

/-- ELIGIBILITY_CHECK (R607). -/
def execEligibilityCheck (s : State) : Host.Outcome State Fault Refusal :=
  actClk (eligibilityCheck) s

end Sys2Proof.Machine
end

