-- ==== Sys2Proof/Machine/ExecReset.lean ====
section
/-!
DEFINITION. Sys2Proof/Machine/ExecReset.lean: the commands of resets, clocks and freezes (16_reset_power_startup.md, 01_architecture.md).
-/
namespace Sys2Proof.Machine

/-- P_RESET (R594). -/
def execPReset (cause : BitVec 2) (s : State) : Host.Outcome State Fault Refusal :=
  act (pReset cause) s

/-- P_RESET_END (R596). -/
def execPResetEnd (role : BitVec 2) (bistAtStart : Bool) (s : State) : Host.Outcome State Fault Refusal :=
  act (pResetEnd role bistAtStart) s

/-- CORE_PLL_LOCK (R231). -/
def execCorePllLock (s : State) : Host.Outcome State Fault Refusal :=
  act (corePllLock) s

/-- MEMORY_CLEAR_END (R287). -/
def execMemoryClearEnd (s : State) : Host.Outcome State Fault Refusal :=
  act (memoryClearEnd) s

/-- FCLK_LOSS_OF_LOCK (R29). -/
def execFclkLossOfLock (s : State) : Host.Outcome State Fault Refusal :=
  act (fclkLossOfLock) s

/-- RING_PLL_LOSS_OF_LOCK (R48). -/
def execRingPllLossOfLock (s : State) : Host.Outcome State Fault Refusal :=
  act (ringPllLossOfLock) s

/-- REFCLK_STOP (R28). -/
def execRefclkStop (s : State) : Host.Outcome State Fault Refusal :=
  act (refclkStop) s

/-- VDD_AON_LOSS (R449). -/
def execVddAonLoss (s : State) : Host.Outcome State Fault Refusal :=
  act (vddAonLoss) s

/-- VDDA_SER_LOSS (R638). -/
def execVddaSerLoss (s : State) : Host.Outcome State Fault Refusal :=
  act (vddaSerLoss) s

/-- BANK_SUPPLY_LOSS (R198). -/
def execBankSupplyLoss (k : Fin 8) (s : State) : Host.Outcome State Fault Refusal :=
  act (bankLoss k) s

/-- BANK_SUPPLY_RETURN (R198). -/
def execBankSupplyReturn (k : Fin 8) (s : State) : Host.Outcome State Fault Refusal :=
  act (bankReturn k) s

/-- W_RESET (R600). -/
def execWReset (cause : WCause) (s : State) : Host.Outcome State Fault Refusal :=
  act (wReset cause) s

/-- W_RESET_END (R600). -/
def execWResetEnd (s : State) : Host.Outcome State Fault Refusal :=
  act (wResetEnd) s

/-- RSTCMD (R602). -/
def execRstcmd (who : Who) (v : Word) (be : BitVec 4) (s : State) : Host.Outcome State Fault Refusal :=
  act (wordWrite who 0x0020 v be) s

/-- HOT_RESET (R562). -/
def execHotReset (s : State) : Host.Outcome State Fault Refusal :=
  act (hotReset) s

/-- DL_DOWN (R558). -/
def execDlDown (s : State) : Host.Outcome State Fault Refusal :=
  act (dlDown) s

/-- INIT_FLR (R560). -/
def execInitFlr (v : Word) (be : BitVec 4) (s : State) : Host.Outcome State Fault Refusal :=
  act (hostWrite .config 0x58 [(v, be)] false false) s

/-- FLR_END (R560). -/
def execFlrEnd (s : State) : Host.Outcome State Fault Refusal :=
  act (flrEnd) s

/-- THAWID (R619). -/
def execThawid (who : Who) (v : Word) (s : State) : Host.Outcome State Fault Refusal :=
  act (wordWrite who 0x0038 v 0xF) s

/-- THAWKEY (R619). -/
def execThawkey (who : Who) (v : Word) (s : State) : Host.Outcome State Fault Refusal :=
  act (wordWrite who 0x003C v 0xF) s

/-- MTHAW (R618). -/
def execMthaw (who : Who) (v : Word) (s : State) : Host.Outcome State Fault Refusal :=
  act (wordWrite who 0x0044 v 0xF) s

/-- RING_PLL_LOCK (R48). -/
def execRingPllLock (s : State) : Host.Outcome State Fault Refusal :=
  act (ringPllLock) s

/-- PCIE_PLL_LOCK (R48). -/
def execPciePllLock (s : State) : Host.Outcome State Fault Refusal :=
  act (pciePllLock) s

end Sys2Proof.Machine
end

