-- ==== Sys2Proof/Machine/RingCmd.lean ====
section
/-!
DEFINITION. Sys2Proof/Machine/RingCmd.lean: ring commands at their target (R487 to R491) and the arrival of their responses.
-/
namespace Sys2Proof.Machine

/-- What executing a command answers: its status, its data and the device. -/
structure CmdOut where
  status : Nat
  data : List Byte
  dev : Dev

/-- The offset and the count of a command. -/
def cmdOffset (c : Cell) : Nat := leAt c.payload 4 4
def cmdCount (c : Cell) : Nat := leAt c.payload 2 1

/-- Status 6 REFUSED (R487, R491). -/
def cmdRefused (d : Dev) : CmdOut := { status := 6, data := [], dev := d }

/-- One word read of a ring command; `clr` gives it its side effects. A reserved location reads 0 (R488). -/
def cmdWord (c : Cell) (clr : Bool) (o : Nat) (d : Dev) : Word × Dev :=
  if regsLive d then (regRead (.ring c.src) clr true o d).getD (0, d) else (0, d)

/-- RD and RDNS. -/
def readCmd (clr : Bool) (c : Cell) (d : Dev) : CmdOut :=
  let o := cmdOffset c
  let n := cmdCount c
  if o % 4 ≠ 0 then cmdRefused d
  else if n = 1 then
    let (v, d1) := cmdWord c clr o d
    { status := 1, data := leBytes 4 v.toNat, dev := d1 }
  else if n = 2 ∧ o % 8 = 0 ∧ designated o then
    let hi := hi32 d.tb.now
    let (v, d1) := cmdWord c clr o d
    let (w, d2) := cmdWord c clr (o + 4) d1
    { status := 1, data := leBytes 4 v.toNat ++ leBytes 4 (if o = 0x2000 then hi else w).toNat, dev := d2 }
  else cmdRefused d

/-- A WR takes effect at `o`: a register, or on a worker the image stream (R487, DEDUCED, log entry 39). -/
def ringWrite' (c : Cell) (o : Nat) (v : Word) (d : Dev) : Dev :=
  let who : Who := .ring c.src
  if !regsLive d then d
  else if offTrlFifo ≤ o ∧ o < offTrlFifo + 0x10000 then (if trlWriter d who then fifoWrite [(v, 0xF)] false d else d)
  else regWrite who o v d

/-- A commit command: a WR of TRL_CTRL.COMMIT. -/
def isCommit (c : Cell) : Bool := cmdOffset c == offTrlCtrl && bit (BitVec.ofNat 32 (leAt c.payload 8 4)) 10

/-- A worker takes the Tfirst that a commit command carries behind its data (R88, R89, DEDUCED, log entry 39). -/
def takeTfirst (c : Cell) (d : Dev) : Dev :=
  if d.sys.role = 1 ∧ isCommit c ∧ 20 ≤ c.payload.length ∧ trlWriter d (.ring c.src) then
    updTrl (fun t => { t with first := BitVec.ofNat 64 (leAt c.payload 12 8) }) d
  else d

/-- WR. The response to a commit command brings TB_TICK, which is its m (R89, DEDUCED, log entry 39). -/
def writeCmd (c : Cell) (d : Dev) : CmdOut :=
  let o := cmdOffset c
  let v := BitVec.ofNat 32 (leAt c.payload 8 4)
  if o % 4 ≠ 0 ∨ cmdCount c ≠ 1 then cmdRefused d else
  let d1 := ringWrite' c o v (takeTfirst c d)
  { status := 1, data := if isCommit c then leBytes 4 d1.tb.tick.toNat else [], dev := d1 }

/-- SCHED. -/
def schedCmd (c : Cell) (d : Dev) : CmdOut := { status := 1, data := [], dev := onSched c d }

/-- How far ID `b` lies above ID `a`, modulo 65,535 (R490). -/
def idAbove (a b : Half) : Nat := (b.toNat + 65535 - a.toNat) % 65535

/-- What a target does with a command of ID `i` (R490). -/
inductive CmdFate | execute (high : Half) | kept (resp : List Byte) | duplicate | stale

def cmdFate (x : CmdSeen) (i : Half) : CmdFate :=
  if !x.any then .execute i
  else if 1 ≤ idAbove x.high i ∧ idAbove x.high i ≤ 32767 then .execute i
  else if 4095 < idAbove i x.high then .stale
  else if i ∉ x.done then .execute x.high
  else match x.kept.find? (·.1 == i) with
    | some (_, r) => .kept r
    | none => .duplicate

/-- The response to a command. -/
def respPayload (i : Half) (status : Nat) (data : List Byte) : List Byte := leBytes 2 i.toNat ++ leBytes 1 status ++ leBytes 1 0 ++ data

/-- Remember an executed command and its response. -/
def remember (high i : Half) (r : List Byte) (x : CmdSeen) : CmdSeen :=
  { any := true, high := high
    done := i :: x.done.filter fun j => decide (idAbove j high ≤ 4095)
    kept := (x.kept ++ [(i, r)]).drop (x.kept.length + 1 - 8) }

/-- A command arrives: it is executed as R490 decides, and answered. -/
def runCommand (f : Cell → Dev → CmdOut) (c : Cell) (d : Dev) : Dev :=
  let i : Half := BitVec.ofNat 16 (leAt c.payload 0 2)
  let reply (r : List Byte) (d : Dev) : Dev := sendCell c.src tRESP r d
  if i = 0 then
    let o := f c d
    reply (respPayload i o.status o.data) o.dev
  else match cmdFate (at? d.hr.seen c.src.toNat {}) i with
    | .execute h =>
      let o := f c d
      let r := respPayload i o.status o.data
      reply r (updHr (fun x => { x with seen := upd? x.seen c.src.toNat (remember h i r) }) o.dev)
    | .kept r => reply r d
    | .duplicate => reply (respPayload i 4 []) d
    | .stale => reply (respPayload i 5 []) d

/-- RESP: a commit command's response, or that of a channel. -/
def onRespCell (c : Cell) (d : Dev) : Dev :=
  match commitResp c d with
  | some d1 => d1
  | none => onResp c d

end Sys2Proof.Machine
end

