-- ==== Sys2Proof/Machine/ExecRing.lean ====
section
/-!
DEFINITION. Sys2Proof/Machine/ExecRing.lean: the commands of Hedgerow: links, cells, commands, records and time (13_hedgerow.md).
-/
namespace Sys2Proof.Machine

/-- A BEACON arrives on an open link, or passes by behind the closed bypass (R510, R515). -/
def beaconRow (p : Fin 2) (bytes : List Byte) (fin : CellEnd) (d : Dev) : Dev :=
  if (rport d p).link then onCell tBEACON p bytes fin (onBeacon p) d else monitorBeacon p bytes fin d

/-- A command of the ring; then a load that waited for the ring reads on (R92). -/
def ringRow (f : Dev → Dev) (s : State) : Host.Outcome State Fault Refusal := actClk (fun d => dmaPump (f d)) s

/-- LINK_UP (R468). -/
def execLinkUp (p : Fin 2) (s : State) : Host.Outcome State Fault Refusal :=
  ringRow (linkUp p) s

/-- LINK_DOWN (R468). -/
def execLinkDown (p : Fin 2) (s : State) : Host.Outcome State Fault Refusal :=
  ringRow (linkDown p) s

/-- BYPASS_OPEN (R511). -/
def execBypassOpen (s : State) : Host.Outcome State Fault Refusal :=
  ringRow (bypassOpen) s

/-- LEAVE (R510). -/
def execLeave (who : Who) (v : Word) (s : State) : Host.Outcome State Fault Refusal :=
  act (wordWrite who 0xC000 v 0xF) s

/-- REENUM (R474). -/
def execReenum (who : Who) (v : Word) (s : State) : Host.Outcome State Fault Refusal :=
  act (wordWrite who 0xC000 v 0xF) s

/-- BECOME_MASTER (R515). -/
def execBecomeMaster (s : State) : Host.Outcome State Fault Refusal :=
  ringRow (becomeMaster) s

/-- BEACON_TIMER (R516). -/
def execBeaconTimer (s : State) : Host.Outcome State Fault Refusal :=
  ringRow (beaconTimer) s

/-- STANDBY_TAKEOVER (R518). -/
def execStandbyTakeover (s : State) : Host.Outcome State Fault Refusal :=
  ringRow (standbyTakeover) s

/-- CELL_FORWARD (R480). -/
def execCellForward (p : Fin 2) (bytes : List Byte) (fin : CellEnd) (s : State) : Host.Outcome State Fault Refusal :=
  ringRow (cellForward p bytes fin) s

/-- LINK (R485). -/
def execLink (p : Fin 2) (bytes : List Byte) (fin : CellEnd) (s : State) : Host.Outcome State Fault Refusal :=
  ringRow (onCell tLINK p bytes fin (fun _ d => d)) s

/-- NAK (R486). -/
def execNak (p : Fin 2) (bytes : List Byte) (fin : CellEnd) (s : State) : Host.Outcome State Fault Refusal :=
  ringRow (onCell tNAK p bytes fin (onNak p)) s

/-- HOP_RETRY_TIMEOUT (R486). -/
def execHopRetryTimeout (p : Fin 2) (s : State) : Host.Outcome State Fault Refusal :=
  ringRow (hopTimeout p) s

/-- SYNC_EXCHANGE (R504). -/
def execSyncExchange (t1 : DWord) (s : State) : Host.Outcome State Fault Refusal :=
  ringRow (syncExchange t1) s

/-- SYNC (R504). -/
def execSync (p : Fin 2) (bytes : List Byte) (fin : CellEnd) (t2 t3 : DWord) (s : State) : Host.Outcome State Fault Refusal :=
  ringRow (onCell tSYNC p bytes fin (onSync p t2 t3)) s

/-- SYNCR (R505). -/
def execSyncr (p : Fin 2) (bytes : List Byte) (fin : CellEnd) (t4 : DWord) (s : State) : Host.Outcome State Fault Refusal :=
  ringRow (onCell tSYNCR p bytes fin (onSyncr t4)) s

/-- BEACON (R516). -/
def execBeacon (p : Fin 2) (bytes : List Byte) (fin : CellEnd) (s : State) : Host.Outcome State Fault Refusal :=
  ringRow (beaconRow p bytes fin) s

/-- DISCOVER (R472). -/
def execDiscover (p : Fin 2) (bytes : List Byte) (fin : CellEnd) (s : State) : Host.Outcome State Fault Refusal :=
  ringRow (onCell tDISCOVER p bytes fin (onDiscover p)) s

/-- HELLO (R472). -/
def execHello (p : Fin 2) (bytes : List Byte) (fin : CellEnd) (s : State) : Host.Outcome State Fault Refusal :=
  ringRow (onCell tHELLO p bytes fin onHello) s

/-- TOPO (R471). -/
def execTopo (p : Fin 2) (bytes : List Byte) (fin : CellEnd) (s : State) : Host.Outcome State Fault Refusal :=
  ringRow (onCell tTOPO p bytes fin (onTopo p)) s

/-- ASSIGN (R473). -/
def execAssign (p : Fin 2) (bytes : List Byte) (fin : CellEnd) (s : State) : Host.Outcome State Fault Refusal :=
  ringRow (onCell tASSIGN p bytes fin onAssign) s

/-- RD (R487). -/
def execRd (p : Fin 2) (bytes : List Byte) (fin : CellEnd) (s : State) : Host.Outcome State Fault Refusal :=
  ringRow (onCell tRD p bytes fin (runCommand (readCmd true))) s

/-- RDNS (R487). -/
def execRdns (p : Fin 2) (bytes : List Byte) (fin : CellEnd) (s : State) : Host.Outcome State Fault Refusal :=
  ringRow (onCell tRDNS p bytes fin (runCommand (readCmd false))) s

/-- WR (R488). -/
def execWr (p : Fin 2) (bytes : List Byte) (fin : CellEnd) (s : State) : Host.Outcome State Fault Refusal :=
  ringRow (onCell tWR p bytes fin (runCommand writeCmd)) s

/-- SCHED (R499). -/
def execSched (p : Fin 2) (bytes : List Byte) (fin : CellEnd) (s : State) : Host.Outcome State Fault Refusal :=
  ringRow (onCell tSCHED p bytes fin (runCommand schedCmd)) s

/-- RESP (R491). -/
def execResp (p : Fin 2) (bytes : List Byte) (fin : CellEnd) (s : State) : Host.Outcome State Fault Refusal :=
  ringRow (onCell tRESP p bytes fin onRespCell) s

/-- CMD_GO (R492). -/
def execCmdGo (who : Who) (ch : Fin 5) (v : Word) (s : State) : Host.Outcome State Fault Refusal :=
  act (wordWrite who (0xC200 + 0x20 * ch.val) v 0xF) s

/-- CMD_TIMEOUT (R492). -/
def execCmdTimeout (ch : Fin 5) (s : State) : Host.Outcome State Fault Refusal :=
  ringRow (cmdTimeout ch) s

/-- SLOT_OPEN (R500). -/
def execSlotOpen (slot : Slot) (s : State) : Host.Outcome State Fault Refusal :=
  ringRow (slotOpen slot.ring slot.ce slot.ue) s

/-- REC (R496). -/
def execRecCell (p : Fin 2) (bytes : List Byte) (fin : CellEnd) (s : State) : Host.Outcome State Fault Refusal :=
  ringRow (onCell tREC p bytes fin onRec) s

/-- RECACK (R497). -/
def execRecack (p : Fin 2) (bytes : List Byte) (fin : CellEnd) (s : State) : Host.Outcome State Fault Refusal :=
  ringRow (onCell tRECACK p bytes fin onRecack) s

/-- RECNAK (R497). -/
def execRecnak (p : Fin 2) (bytes : List Byte) (fin : CellEnd) (s : State) : Host.Outcome State Fault Refusal :=
  ringRow (onCell tRECNAK p bytes fin onRecnak) s

/-- REC_RESEND (R497). -/
def execRecResend (b : Fin 256) (s : State) : Host.Outcome State Fault Refusal :=
  ringRow (recResend b) s

/-- EVREL (R498). -/
def execEvrel (p : Fin 2) (bytes : List Byte) (fin : CellEnd) (s : State) : Host.Outcome State Fault Refusal :=
  ringRow (onCell tEVREL p bytes fin onEvrel) s

/-- BLOCK_LOCK (R468). -/
def execBlockLock (p : Fin 2) (s : State) : Host.Outcome State Fault Refusal :=
  ringRow (blockLock p) s

end Sys2Proof.Machine
end

