-- ==== Sys2Proof/Machine/ExecSequencer.lean ====
section
/-!
DEFINITION. Sys2Proof/Machine/ExecSequencer.lean: the commands of the sequencer of the engines (03_engine_sequencer.md).
-/
namespace Sys2Proof.Machine

/-- FAULT (R110). -/
def execFault (e : Fin 32) (cs scr : Ecc) (s : State) : Host.Outcome State Fault Refusal :=
  act (engineRow (·.seqop == 0) e cs scr) s

/-- NEXT (R110). -/
def execNext (e : Fin 32) (cs scr : Ecc) (s : State) : Host.Outcome State Fault Refusal :=
  act (engineRow (fun w => w.seqop == 1 || 12 ≤ w.seqop) e cs scr) s

/-- JUMP (R110). -/
def execJump (e : Fin 32) (cs scr : Ecc) (s : State) : Host.Outcome State Fault Refusal :=
  act (engineRow (·.seqop == 2) e cs scr) s

/-- BR2 (R110). -/
def execBr2 (e : Fin 32) (cs scr : Ecc) (s : State) : Host.Outcome State Fault Refusal :=
  act (engineRow (·.seqop == 3) e cs scr) s

/-- BR4 (R111). -/
def execBr4 (e : Fin 32) (cs scr : Ecc) (s : State) : Host.Outcome State Fault Refusal :=
  act (engineRow (·.seqop == 4) e cs scr) s

/-- SEQ_CALL (R114). -/
def execSeqCall (e : Fin 32) (cs scr : Ecc) (s : State) : Host.Outcome State Fault Refusal :=
  act (engineRow (·.seqop == 5) e cs scr) s

/-- SEQ_RET (R114). -/
def execSeqRet (e : Fin 32) (cs scr : Ecc) (s : State) : Host.Outcome State Fault Refusal :=
  act (engineRow (·.seqop == 6) e cs scr) s

/-- LOOP (R118). -/
def execLoop (e : Fin 32) (cs scr : Ecc) (s : State) : Host.Outcome State Fault Refusal :=
  act (engineRow (·.seqop == 7) e cs scr) s

/-- SEQ_WAIT (R110). -/
def execSeqWait (e : Fin 32) (cs scr : Ecc) (s : State) : Host.Outcome State Fault Refusal :=
  act (engineRow (·.seqop == 8) e cs scr) s

/-- DISPATCH (R110). -/
def execDispatch (e : Fin 32) (cs scr : Ecc) (s : State) : Host.Outcome State Fault Refusal :=
  act (engineRow (·.seqop == 9) e cs scr) s

/-- YIELD (R130). -/
def execYield (e : Fin 32) (cs scr : Ecc) (s : State) : Host.Outcome State Fault Refusal :=
  act (engineRow (·.seqop == 10) e cs scr) s

/-- PARK (R110). -/
def execPark (e : Fin 32) (cs scr : Ecc) (s : State) : Host.Outcome State Fault Refusal :=
  act (engineRow (·.seqop == 11) e cs scr) s

/-- BUDGET_OVERRUN (R129). -/
def execBudgetOverrun (e : Fin 32) (s : State) : Host.Outcome State Fault Refusal :=
  actClk (budgetOverrun e) s

/-- STALL_LIMIT (R132). -/
def execStallLimit (e : Fin 32) (s : State) : Host.Outcome State Fault Refusal :=
  actClk (stallLimit e) s

end Sys2Proof.Machine
end

