-- ==== Sys2Proof/Machine/ExecSupervise.lean ====
section
/-!
DEFINITION. Sys2Proof/Machine/ExecSupervise.lean: the commands of lockstep, watchdogs and self-test (12_lockstep_watchdog_bist.md, 10_steward_isa.md).
-/
namespace Sys2Proof.Machine

/-- ST_FREEZE (R422). -/
def execStFreeze (who : Who) (c : Fin 4) (v : Word) (s : State) : Host.Outcome State Fault Refusal :=
  act (wordWrite who (0x180F0 + 0x800 * c.val) v 0xF) s

/-- ST_THAW (R423). -/
def execStThaw (who : Who) (c : Fin 4) (v : Word) (s : State) : Host.Outcome State Fault Refusal :=
  act (wordWrite who (0x180F0 + 0x800 * c.val) v 0xF) s

/-- LOCKSTEP_EVENT (R426). -/
def execLockstepEvent (c : Fin 4) (dis : List (Nat × BitVec 16)) (parityIn parityOut : List Nat) (s : State) :
    Host.Outcome State Fault Refusal :=
  actClk (lockstepEvent c dis (parityIn ++ parityOut)) s

/-- CORE_WARM_RESET_END (R431). -/
def execCoreWarmResetEnd (c : Fin 4) (s : State) : Host.Outcome State Fault Refusal :=
  actClk (coreWarmResetEnd c) s

/-- COMPARATOR_INJECTION (R428). -/
def execComparatorInjection (c : Fin 4) (reported : Option Bool) (rails : Bool) (s : State) : Host.Outcome State Fault Refusal :=
  actClk (comparatorInjection c reported rails) s

/-- WD_PERIOD_START (R437). -/
def execWdPeriodStart (w : Fin 5) (s : State) : Host.Outcome State Fault Refusal :=
  actClk (wdPeriodStart w) s

/-- WD_ANSWER (R440). -/
def execWdAnswer (who : Who) (w : Fin 5) (v : Word) (s : State) : Host.Outcome State Fault Refusal :=
  act (wordWrite who (0xE004 + 0x40 * w.val) v 0xF) s

/-- WD_WINDOW_END (R440). -/
def execWdWindowEnd (w : Fin 5) (s : State) : Host.Outcome State Fault Refusal :=
  act (wdWindowEnd w) s

/-- WD_CONFIG_WRITE (R442). -/
def execWdConfigWrite (who : Who) (w : Fin 5) (r : Fin 3) (v : Word) (s : State) : Host.Outcome State Fault Refusal :=
  act (wordWrite who (0xE010 + 0x40 * w.val + 4 * r.val) v 0xF) s

/-- CLEARLOG (R451). -/
def execClearlog (who : Who) (v : Word) (be : BitVec 4) (s : State) : Host.Outcome State Fault Refusal :=
  act (wordWrite who 0xF400 v be) s

/-- BIST_GO (R453). -/
def execBistGo (who : Who) (v : Word) (s : State) : Host.Outcome State Fault Refusal :=
  act (wordWrite who 0x0010 v 0xF) s

/-- ROTATING_TEST (R459). -/
def execRotatingTest (s : State) : Host.Outcome State Fault Refusal :=
  act (rotatingTest) s

/-- BIST_END (R457). -/
def execBistEnd (sig : DWord) (patternUe : Bool) (s : State) : Host.Outcome State Fault Refusal :=
  act (bistEnd sig patternUe) s

end Sys2Proof.Machine
end

