-- ==== Sys2Proof/Machine/ExecTime.lean ====
section
/-!
DEFINITION. Sys2Proof/Machine/ExecTime.lean: the commands of the Sundial: time, compares, counters (07_sundial.md).
-/
namespace Sys2Proof.Machine

/-- TB_LOAD (R232). -/
def execTbLoad (who : Who) (v : Word) (s : State) : Host.Outcome State Fault Refusal :=
  act (wordWrite who 0x201C v 0xF) s

/-- TB_NOW_LO_READ (R233). -/
def execTbNowLoRead (who : Who) (be : BitVec 4) (s : State) : Host.Outcome State Fault Refusal :=
  act (wordRead who 0x2000 be) s

/-- PPS_EDGE (R235). -/
def execPpsEdge (dt : Nat) (s : State) : Host.Outcome State Fault Refusal :=
  actClk (ppsEdge dt) s

/-- PPS_LOST (R237). -/
def execPpsLost (s : State) : Host.Outcome State Fault Refusal :=
  actClk (ppsLost) s

/-- ARM (R242). -/
def execArm (who : Who) (k : Fin 64) (v : Word) (s : State) : Host.Outcome State Fault Refusal :=
  act (wordWrite who (0x240C + 0x20 * k.val) v 0xF) s

/-- DISARM (R246). -/
def execDisarm (who : Who) (k : Fin 64) (v : Word) (s : State) : Host.Outcome State Fault Refusal :=
  act (wordWrite who (0x240C + 0x20 * k.val) v 0xF) s

/-- CLRM (R667). -/
def execClrm (who : Who) (k : Fin 64) (v : Word) (s : State) : Host.Outcome State Fault Refusal :=
  act (wordWrite who (0x240C + 0x20 * k.val) v 0xF) s

/-- COMPARE_MATCH (R243). -/
def execCompareMatch (k : Fin 64) (s : State) : Host.Outcome State Fault Refusal :=
  actClk (compareMatch k) s

/-- MATCHED_PULSE_END (R245). -/
def execMatchedPulseEnd (k : Fin 64) (s : State) : Host.Outcome State Fault Refusal :=
  actClk (matchedPulseEnd k) s

/-- GC_WRAP (R251). -/
def execGcWrap (g : Fin 32) (s : State) : Host.Outcome State Fault Refusal :=
  actClk (gcWrap g) s

/-- GC_THRESHOLD (R251). -/
def execGcThreshold (g : Fin 32) (s : State) : Host.Outcome State Fault Refusal :=
  actClk (gcThreshold g) s

/-- GC_LOAD (R253). -/
def execGcLoad (who : Who) (g : Fin 32) (v : Word) (s : State) : Host.Outcome State Fault Refusal :=
  act (wordWrite who (0x2C1C + 0x20 * g.val) v 0xF) s

/-- CLRWRAP (R253). -/
def execClrwrap (who : Who) (g : Fin 32) (v : Word) (s : State) : Host.Outcome State Fault Refusal :=
  act (wordWrite who (0x2C1C + 0x20 * g.val) v 0xF) s

end Sys2Proof.Machine
end

