-- ==== Sys2Proof/Machine/ExecTrellis.lean ====
section
/-!
DEFINITION. Sys2Proof/Machine/ExecTrellis.lean: the commands of loading and committing a Trellis, the tick boundary (02_trellis.md, 01_architecture.md).
-/
namespace Sys2Proof.Machine

/-- A write of the image stream: the host through BAR2, another node through the ring (R75, R487, DEDUCED, log entry 39). -/
def trlFifoWrite (who : Who) (ws : List (Word × BitVec 4)) (poison ue : Bool) (d : Dev) : Dev :=
  match who with
  | .host => hostWrite .bar2 0 ws poison ue d
  | .ring _ => if regsLive d ∧ trlWriter d who then fifoWrite ws ue d else d
  | .steward _ _ _ _ => d

/-- TRL_START (R72). -/
def execTrlStart (who : Who) (v : Word) (be : BitVec 4) (s : State) : Host.Outcome State Fault Refusal :=
  act (wordWrite who 0x1000 v be) s

/-- TRL_ABORT (R101). -/
def execTrlAbort (who : Who) (v : Word) (be : BitVec 4) (s : State) : Host.Outcome State Fault Refusal :=
  act (wordWrite who 0x1000 v be) s

/-- TRL_FIFO_WRITE (R75). -/
def execTrlFifoWrite (who : Who) (ws : List (Word × BitVec 4)) (poison ue : Bool) (s : State) : Host.Outcome State Fault Refusal :=
  act (trlFifoWrite who ws poison ue) s

/-- TRL_DMA_CHUNK (R78). -/
def execTrlDmaChunk (who : Who) (v : Word) (be : BitVec 4) (s : State) : Host.Outcome State Fault Refusal :=
  act (wordWrite who 0x101C v be) s

/-- TRL_COMMIT (R88). -/
def execTrlCommit (who : Who) (v : Word) (be : BitVec 4) (s : State) : Host.Outcome State Fault Refusal :=
  act (wordWrite who 0x1000 v be) s

/-- WORKER_IMAGE_RESULT (R94). -/
def execWorkerImageResult (node : BitVec 5) (code : Byte) (off : Word) (s : State) : Host.Outcome State Fault Refusal :=
  actClk (workerResult node code off) s

/-- CELLAR_BANK_POWER_UP (R288). -/
def execCellarBankPowerUp (k : Fin 16) (s : State) : Host.Outcome State Fault Refusal :=
  actClk (bankPowerUp k) s

/-- TICK_BOUNDARY (R20). -/
def execTickBoundary (s : State) : Host.Outcome State Fault Refusal :=
  act (tickBoundary) s

/-- TICK_OUT_FALL (R20). -/
def execTickOutFall (s : State) : Host.Outcome State Fault Refusal :=
  actClk (tickOutFall) s

end Sys2Proof.Machine
end

