-- ==== Sys2Proof/Machine/StewardCode.lean ====
section
/-!
DEFINITION. Sys2Proof/Machine/StewardCode.lean: how a Steward instruction is fetched, decoded and reaches memory
(10_steward_isa.md): encodings (R334 to R338, R366, R367), fetch checks and prefetching (R368 to R371), loads, the store buffer
(R339) and the frame every instruction runs in (R340 to R342).
-/
namespace Sys2Proof.Machine

/-! ### Instructions (R366) -/

/-- The instructions of the opcode map. -/
inductive StOp
  | ld | st | ldr | str | addr | cmpr | push | pop | clra | sexb | sexh | clrmp | nop | fence
  | add | adc | sub | sbc | cmp | and | or | xor | tst | neg | not | shift
  | addf | subf | sat | rnd | mul | mulu | mulf | mac | macu | macf | div | divu
  | addd | subd | daa | das | cvbd | movs | fils | cmps | scns | crcs | tas | lrw | scw
  | bcc | jmp | call | ret | gcall | gret | trap | rte | wait | signal | mask | mfs | mts
  | kmove | kclr | kderive | kseal | kunseal | kbase | klen | kcur | kperm | ksetc | kaddc | kmfs | kmts | ktag | kld | kst
  deriving DecidableEq, Repr

/-- An instruction as fetched: its base word, its extension, its PC and the PC after it. -/
structure Ins where
  w : Word
  ext : Word
  pc : Word
  next : Word

def Ins.op (i : Ins) : Nat := fld i.w 10 6
def Ins.sz (i : Ins) : Nat := fld i.w 8 2
def Ins.md (i : Ins) : Nat := fld i.w 5 3
def Ins.k (i : Ins) : Nat := fld i.w 2 3
def Ins.f (i : Ins) : Nat := fld i.w 0 2
/-- The operand size in bytes. -/
def Ins.size (i : Ins) : Nat := 2 ^ i.sz
/-- The 16-bit extension, sign-extended. -/
def Ins.d16 (i : Ins) : Word := (bf i.ext 0 16).signExtend 32
/-- The fields of formats KO and KM. -/
def Ins.kd (i : Ins) : Nat := fld i.w 7 3
def Ins.ks (i : Ins) : Nat := fld i.w 4 3
def Ins.md' (i : Ins) : Nat := fld i.w 5 2

/-- The operation is of format M. -/
def formatM (op : Nat) : Bool := (1 ≤ op && op ≤ 0x16) || (0x18 ≤ op && op ≤ 0x1C)

/-- Bytes of extension after base word `w`. -/
def extBytes (w : Word) : Nat :=
  let op := fld w 10 6
  if formatM op then (match fld w 5 3 with | 1 | 6 => 4 | 5 | 7 => 0 | _ => 2)
  else if op = 0x1D ∨ op = 0x1E then (if fld w 5 2 ≤ 1 then 2 else 0)
  else if op = 0x2C then (if fld w 0 4 ∈ [3, 4, 0xB, 0xC] then 2 else 0)
  else if op = 0x30 then 2
  else 0

/-- System-group functions (R366). -/
def systemOp (f : Nat) : Option StOp :=
  match f with
  | 0x001 => some .nop | 0x002 => some .ret | 0x003 => some .gret | 0x004 => some .rte | 0x005 => some .wait | 0x006 => some .fence
  | 0x007 => some .clra | 0x008 => some .neg | 0x009 => some .not | 0x00A => some .sat | 0x00B => some .rnd | 0x00C => some .daa
  | 0x00D => some .das | 0x00E => some .cvbd | 0x00F => some .sexb | 0x010 => some .sexh | 0x011 => some .clrmp
  | _ =>
    if 0x020 ≤ f ∧ f ≤ 0x023 then some .push
    else if 0x028 ≤ f ∧ f ≤ 0x02B then some .pop
    else if 0x040 ≤ f ∧ f ≤ 0x07F then some .mfs
    else if 0x080 ≤ f ∧ f ≤ 0x0BF then some .mts
    else none

/-- Key-register functions (R365). -/
def keyOp (f : Nat) : Option StOp :=
  match f with
  | 0x0 => some .kmove | 0x1 => some .kclr | 0x2 => some .kderive | 0x3 => some .kseal | 0x4 => some .kunseal | 0x5 => some .kbase
  | 0x6 => some .klen | 0x7 => some .kcur | 0x8 => some .kperm | 0x9 => some .ksetc | 0xA => some .kaddc | 0xB => some .kmfs
  | 0xC => some .kmts | 0xD => some .ktag | _ => none

/-- The instruction of a base word; none where an OP, FUNC, KO function or selecting F is reserved (R350, R353, R366). -/
def opOf (w : Word) : Option StOp :=
  let f := fld w 0 2
  match fld w 10 6 with
  | 0x00 => systemOp (fld w 0 10)
  | 0x01 => some .ld | 0x02 => some .st | 0x03 => some .ldr | 0x04 => some .str | 0x05 => some .add | 0x06 => some .adc
  | 0x07 => some .sub | 0x08 => some .sbc | 0x09 => some .cmp | 0x0A => some .and | 0x0B => some .or | 0x0C => some .xor
  | 0x0D => some .tst | 0x0E => some .addf | 0x0F => some .subf | 0x10 => some .addd | 0x11 => some .subd
  | 0x12 => if f = 0 then some .mul else if f = 1 then some .mulu else if f = 2 then some .mulf else none
  | 0x13 => if f = 0 then some .mac else if f = 1 then some .macu else if f = 2 then some .macf else none
  | 0x14 => if f = 0 then some .div else if f = 1 then some .divu else none
  | 0x15 => some .addr | 0x16 => some .cmpr | 0x18 => some .tas | 0x19 => some .lrw | 0x1A => some .scw | 0x1B => some .jmp
  | 0x1C => some .call | 0x1D => some .kld | 0x1E => some .kst | 0x20 => some .movs | 0x21 => some .fils | 0x22 => some .cmps
  | 0x23 => some .scns | 0x24 => some .crcs | 0x2C => keyOp (fld w 0 4) | 0x2D => some .gcall | 0x30 => some .bcc | 0x3B => some .shift
  | 0x3C => some .mask | 0x3D => some .signal | 0x3E => some .trap
  | _ => none

/-- The exception level whose save set special register `s` of MFS and MTS belongs to (R364, R391); 0 for the others. -/
def saveLevel (s : Nat) : Nat :=
  if 9 ≤ s ∧ s ≤ 11 then s - 8 else if 13 ≤ s ∧ s ≤ 15 then s - 12 else if 16 ≤ s ∧ s ≤ 21 then (s - 16) / 2 + 1 else 0

/-- The illegal forms of R367 beyond a reserved code. -/
def illegalForm (o : StOp) (i : Ins) (k : Core) : Bool :=
  let imm := i.md ≤ 1
  let reg := i.md == 7
  let szBad := i.sz == 3 || ((imm || reg) && i.sz != 2)
  let m (sel store word : Bool) : Bool :=
    szBad || (reg && 6 ≤ i.k) || (sel && i.f == 3) || (store && imm) || (word && i.sz != 2)
  match o with
  | .ld => m false false false
  | .st => m false true false
  | .ldr | .addr | .cmpr => m true false false
  | .str => m true true false
  | .add | .adc | .sub | .sbc | .cmp | .and | .or | .xor | .tst | .div | .divu => m false false false
  | .addf | .subf | .addd | .subd | .mul | .mulu | .mulf | .mac | .macu | .macf => m false false true
  | .tas => szBad || imm || reg || i.sz != 0
  | .lrw | .scw => szBad || imm || reg || i.sz != 2
  | .jmp | .call => szBad || i.sz != 2 || (reg && 2 ≤ i.k)
  | .movs | .cmps => i.sz == 3
  | .fils => i.sz == 3 || i.md != 0
  | .scns | .crcs => i.sz == 3 || i.k != 0
  | .kld | .kst => i.f != 0 || i.md' == 3
  | .kclr | .ksetc | .kaddc => i.ks != 0
  | .kbase | .klen | .kcur | .kperm | .ktag => i.kd != 0
  | .kmfs => let sk := fld i.ext 0 4; 4 < sk || (2 ≤ sk && k.lvl < sk - 1)
  | .kmts => let sk := fld i.ext 0 4; sk == 0 || 4 < sk || (2 ≤ sk && k.lvl < sk - 1)
  | .bcc => fld i.w 0 6 != 0 || bit i.ext 0
  | .shift => fld i.w 8 2 == 3 && bit i.w 7
  | .mask => fld i.w 2 8 != 0
  | .signal => fld i.w 5 5 != 0
  | .trap => fld i.w 8 2 != 0
  | .gcall => fld i.w 5 5 != 0 || fld i.w 0 2 != 0
  | .rte => k.lvl == 0
  | .mfs => let s := fld i.w 0 6; !(s ≤ 4 || (saveLevel s != 0 && saveLevel s ≤ k.lvl))
  | .mts => let s := fld i.w 0 6; !(s == 0 || (saveLevel s != 0 && saveLevel s ≤ k.lvl))
  | _ => false

/-! ### Faults of an instruction (R404) -/

/-- A fault that an instruction raises. A SOURCE or a CAUSE_ADDR that the spec does not state is none, a free value (log entry
46). `ue` is the Cellar byte whose word could not be read (R325). -/
structure StFault where
  code : Nat
  detail : Nat := 0
  source : Option Nat := some 0
  addr : Option Nat
  ue : Option Nat := none

/-- What an instruction computes, or the fault it raises. -/
abbrev StRes (α : Type) := Except StFault α

/-- Raise the fault of an instruction with resume PC `pc`. -/
def raiseIns (c : Nat) (f : StFault) (pc : Word) (d0 : Dev) : Dev :=
  let d := match f.ue with | some a => cellarUe a d0 | none => d0
  let (s, d1) := match f.source with | some s => (s, d) | none => (let (v, d') := takeFree d; (fld v 0 4, d'))
  let (a, d2) := match f.addr with | some a => (a, d1) | none => (let (v, d') := takeFree d1; (fld v 0 32, d'))
  raiseFault c f.code f.detail s a pc d2

/-! ### Fetch (R368, R369) -/

/-- The byte the core fetches at local address `a`: from a prefetched block, or from memory. -/
def fetchByte (k : Core) (a : Nat) : Byte :=
  match k.pre.find? (·.1 == a / 16) with
  | some (_, _, bs) => bs[a % 16]?.getD 0
  | none => rd8 k.mem a

/-- `n` fetched bytes, little-endian. -/
def fetchLE (k : Core) (a n : Nat) : Nat := leNat ((List.range n).map fun i => fetchByte k (a + i))

/-- The checks of R368 and R386 on the `n` bytes at PC `pc`; a sealed PCK is refused after its tag (R336, R382). -/
def fetchCheck (d : Dev) (c : Nat) (pc n : Nat) : Option StFault :=
  let k := core d c
  let p := k.pck
  let a := p.base + pc
  let f (code detail addr : Nat) : Option StFault := some { code := code, detail := detail, source := some 8, addr := some addr }
  if !p.tag then f 0x01 0 a
  else if p.sealed then f 0x04 0 a
  else if !p.may permX then f 0x03 0 a
  else if p.len < pc + n then f 0x02 0 (p.base + max pc p.len)
  else if pc % 2 ≠ 0 then f 0x05 0 a
  else if !regionOk d c k.comp a n then f 0x03 1 (a + ((List.range n).find? fun i => !regionOk d c k.comp (a + i) 1).getD 0)
  else if 0x40000 < a + n then some { code := 0x0E, addr := some (max a 0x40000) }
  else none

/-- The base word at PC `pc`. -/
def baseWord (k : Core) (pc : Nat) : Word := BitVec.ofNat 32 (fetchLE k (k.pck.base + pc) 2)

/-- The checks of R368 on the whole instruction at PC `pc`: its base word, then its extension. -/
def fetchFault (d : Dev) (c : Nat) (pc : Nat) : Option StFault :=
  match fetchCheck d c pc 2 with
  | some f => some f
  | none => fetchCheck d c pc (2 + extBytes (baseWord (core d c) pc))

/-- The instruction at PC `pc`. -/
def insAt (k : Core) (pc : Nat) : Ins :=
  let w := baseWord k pc
  let n := extBytes w
  { w := w, ext := BitVec.ofNat 32 (fetchLE k (k.pck.base + pc + 2) n), pc := BitVec.ofNat 32 pc, next := BitVec.ofNat 32 (pc + 2 + n) }

/-- The static prediction of a Bcc (R362): AL, CNZ and backward displacements are taken. -/
def Ins.expectTaken (i : Ins) : Bool := fld i.w 6 4 == 0 || fld i.w 6 4 == 15 || bit i.ext 15

/-- The PC after `i` on the predicted path (R362, R369); none where the prefetcher stops. -/
def predicted (i : Ins) : Option Nat :=
  match opOf i.w with
  | none => none
  | some .bcc => some (if i.expectTaken then i.next + i.d16 else i.next).toNat
  | some .jmp | some .call => if i.md = 0 then some (i.next + i.d16).toNat else if i.md = 1 then some i.ext.toNat else none
  | some .ret | some .gcall | some .gret | some .rte | some .trap | some .wait => none
  | _ => some i.next.toNat

/-- The fetch blocks an instruction at PC `pc` touches. -/
def blocksOf (k : Core) (pc : Nat) : List Nat :=
  let a := k.pck.base + pc
  let z := a + 1 + extBytes (baseWord k pc)
  if a / 16 = z / 16 then [a / 16] else [a / 16, z / 16]

/-- The blocks ahead of the executing instruction's own on the predicted path, in its order, at most two (R369). -/
def ahead (k : Core) (own : List Nat) : Nat → Nat → List Nat → List Nat
  | 0, _, acc => acc
  | n + 1, pc, acc =>
    let acc' := acc ++ (blocksOf k pc).filter fun b => !own.contains b && !acc.contains b
    if 2 ≤ acc'.length then acc'.take 2 else
    match predicted (insAt k pc) with
    | some pc' => ahead k own n pc' acc'
    | none => acc'

/-- The blocks ahead of the executing instruction: a path of at most 24 instructions leaves the two blocks. -/
def aheadBlocks (k : Core) : List Nat := ahead k (blocksOf k k.pc.toNat) 24 k.pc.toNat []

/-- The prefetcher may fetch block `b` (R369, R387). -/
def mayFetch (d : Dev) (c b : Nat) : Bool :=
  let k := core d c
  k.pck.tag && !k.pck.sealed && k.pck.may permX && decide (k.pck.base ≤ 16 * b) && decide (16 * b + 16 ≤ k.pck.base + k.pck.len) &&
    decide (16 * b + 16 ≤ 0x40000) && regionOk d c k.comp (16 * b) 16

/-- PREFETCH (R369): the next block ahead is read. -/
def prefetch (c : Nat) (d : Dev) : Dev :=
  if !coreIssues d c then d else
  let k := core d c
  match (aheadBlocks k).find? fun b => !k.pre.any (·.1 == b) with
  | none => d
  | some b => if mayFetch d c b then updCore c (fun k => { k with pre := k.pre ++ [(b, false, rdBytes k.mem (16 * b) 16)] }) d else d

/-- Blocks that the executing instruction leaves aside are discarded and counted (R370); its own count as executed. -/
def pruneBlocks (k : Core) : Core :=
  let own := blocksOf k k.pc.toNat
  let keep := own ++ aheadBlocks k
  let gone := k.pre.filter fun b => !keep.contains b.1 && !b.2.1
  { k with
    perfWpf := satInc k.perfWpf gone.length
    pre := (k.pre.filter fun b => keep.contains b.1).map fun b => (b.1, b.2.1 || own.contains b.1, b.2.2) }

/-- Every prefetched block is discarded (R371). -/
def dropBlocks (k : Core) : Core := { k with pre := [], perfWpf := satInc k.perfWpf (k.pre.filter (!·.2.1)).length }

/-! ### Access checks (R336, R337, R386) -/

/-- What an access needs of its key. -/
inductive Acc | load | store | both
  deriving DecidableEq, Repr

/-- Orders 1 to 5 of R336, then R386, for `n` bytes at offset `o` of key register `i` (or of `p` in its place). `stack` marks
PUSH, POP, CALL and RET. -/
def accessFault (d : Dev) (c i : Nat) (p : Key) (o n : Nat) (acc : Acc) (stack : Bool) : Option StFault :=
  let a := (p.base + o) % 2 ^ 32
  let f (code detail : Nat) : Option StFault :=
    some { code := if stack then 0x0A else code, detail := detail, source := some i, addr := some a }
  let perm := match acc with | .load => p.may permR | .store => p.may permW | .both => p.may permR && p.may permW
  if !p.tag then f 0x01 0
  else if p.sealed then f 0x04 0
  else if !perm then f 0x03 0
  else if p.len < o + n then f 0x02 0
  else if 4 ≤ n && a % n != 0 then f 0x05 0
  else if !regionOk d c (core d c).comp a n then f 0x03 1
  else none

/-- The `n` bytes at `a` lie in local memory or in the mailbox. -/
def inTagged (a n : Nat) : Bool := (inLocal a && inLocal (a + n - 1)) || (inMbox a && inMbox (a + n - 1))

/-- The slots core `c` waits for the mailbox port, 0 to 3, or for a system slot of a Cellar bank, at most 110 clk (R286, R338): what the
other requesters decide is a free value for each slot of the core (DESIGN CHOICE, log entry 86). -/
def accessWait (c : Nat) (k : Core) (a : Nat) : Nat :=
  let v := Config.portGap (48 + c) k.perfCyc.toNat
  if inMbox a then v % 4 else if inCellar a then v % 111 else 0

/-- Slots an access of core `c` to `n` bytes at `a` adds to those of local memory (R337, R338, R340). -/
def extraSlots (c : Nat) (k : Core) (a n : Nat) : Nat :=
  (if inLocal a then 0 else if inMbox a ∨ inCellar a then 3 else if inRegs a then 11 else 0) + accessWait c k a +
    (if n = 2 ∧ a % 2 = 1 then 1 else 0)

/-! ### The store buffer (R338, R339) -/

/-- The oldest buffered store reaches memory, or fails. -/
def drainOne (c : Nat) (d0 : Dev) : Dev :=
  match (core d0 c).sbuf with
  | [] => d0
  | e :: r =>
    let d := updCore c (fun k => { k with sbuf := r }) d0
    let a := e.addr.toNat
    let err (n : Nat) : Dev → Dev := busError c n a e.sealed
    if inTagged a e.size then memWrite c a e.size e.val.toNat d
    else if inCellar a then err 1 d
    else if inRegs a then
      if e.size ≠ 4 then err 3 d else
      match stewardStore (Fin.ofNat 4 c) (bit e.perm permFREEZE) (bit e.perm permSAFE) e.sys (Fin.ofNat 4 e.lvl) e.comp (a - regBase) e.val d with
      | (d1, some n) => err n d1
      | (d1, none) => d1
    else err 0 d

/-- STORE_DRAIN. -/
def storeDrain (c : Nat) (d : Dev) : Dev :=
  if !d.sys.fclkOn ∨ d.sys.wEnd.isSome ∨ (core d c).st = .inReset then d else drainOne c d

/-- The core waits while `n` stores drain, one slot each (DEDUCED, log entry 47). -/
def drainN (c : Nat) : Nat → Dev → Dev
  | 0, d => d
  | n + 1, d => drainN c n (updCore c (slots 1) (drainOne c d))

/-- The core waits until the buffer is empty. -/
def drainAll (c : Nat) (d : Dev) : Dev := drainN c (core d c).sbuf.length d

/-- A store enters the buffer; a full one first stalls the core until an entry frees. -/
def bufferStore (c : Nat) (p : Key) (a n : Nat) (v : Nat) (d0 : Dev) : Dev :=
  let d := if 4 ≤ (core d0 c).sbuf.length then updCore c (fun k => { k with perfStb := satInc k.perfStb }) (drainN c 1 d0) else d0
  let sealed := inSealed d c
  updCore c (fun k => { k with sbuf := k.sbuf ++ [{
    addr := BitVec.ofNat 32 a, size := n, val := BitVec.ofNat 32 v, perm := p.perm, sys := k.pck.may permSYS, comp := k.comp
    sealed := sealed, lvl := k.lvl }] }) d

/-- A store of `n` bytes at `a`; a half-word at an odd address is two byte stores (R337). -/
def storeBytes (c : Nat) (p : Key) (a n : Nat) (v : Nat) (d : Dev) : Dev :=
  if n = 2 ∧ a % 2 = 1 then bufferStore c p (a + 1) 1 (v / 256 % 256) (bufferStore c p a 1 (v % 256) d)
  else bufferStore c p a n (v % 256 ^ n) d

/-! ### Loads (R325, R337 to R339) -/

/-- A buffered store touches the `n` bytes at `a`. -/
def StoreEnt.meets (e : StoreEnt) (a n : Nat) : Bool := decide (e.addr.toNat < a + n) && decide (a < e.addr.toNat + e.size)

/-- A load from local memory: served from the last overlapping store when that has the same bytes; else the overlapping stores
drain first. -/
def loadLocal (c a n : Nat) (d : Dev) : Nat × Dev :=
  let q := (core d c).sbuf
  match q.reverse.find? (·.meets a n) with
  | none => (memRead d c a n, d)
  | some e =>
    if e.addr.toNat = a ∧ e.size = n then (e.val.toNat, d)
    else
      let m := q.length - (q.reverse.takeWhile fun e => !e.meets a n).length
      let d1 := drainN c m d
      (memRead d1 c a n, d1)

/-- The bytes of a Cellar load; those of a bank without power are free values (DESIGN CHOICE, log entry 48). -/
def loadCellar (a n : Nat) (d : Dev) : Nat × Dev :=
  if (at? d.cl.banks (a / 2 ^ 19) {}).pwr then
    let (bs, d1) := cellarBytes a n d
    (leNat bs, d1)
  else
    let (v, d1) := takeFree d
    (v.toNat % 256 ^ n, d1)

/-- One byte of a register word, without side effects; none at a reserved location. -/
def regByte (who : Who) (d : Dev) (o : Nat) : Option Nat :=
  (regVal who (o / 4 * 4) d).map fun w => fld w (8 * (o % 4)) 8

/-- A load of register space: a word with its side effects, or bytes without (R9, R338). The clk in which it wakes a dormant cluster
are slots of the core. -/
def loadReg (c : Nat) (who : Who) (o n : Nat) (d : Dev) : Option (Nat × Dev) :=
  let d0 := regWake o d
  let d1 := updCore c (slots (d0.clk - d.clk)) d0
  if n = 4 then (regRead who true true o d1).map fun x => (x.1.toNat, x.2)
  else
    match (List.range n).mapM fun i => regByte who d1 (o + i) with
    | some bs => some (bs.foldr (fun b v => b + 256 * v) 0, d1)
    | none => none

/-- One access that loads `n` bytes at `a` through key `p`, past the checks of R336 orders 1 to 5. `ecc` is what the Cellar read finds. -/
def loadOnce (c : Nat) (p : Key) (a n : Nat) (ecc : Ecc) (d : Dev) : StRes (Nat × Dev) :=
  let z := a + n - 1
  if inLocal a && inLocal z then .ok (loadLocal c a n d)
  else
    let d1 := drainAll c d
    if inMbox a && inMbox z then .ok (memRead d1 c a n, d1)
    else if inCellar a && inCellar z then
      match ecc with
      | .ue => .error { code := 0x0E, addr := some a, ue := some (a - cellarBase) }
      | .ce => .ok (loadCellar (a - cellarBase) n (cellarCe (a - cellarBase) d1))
      | .ok => .ok (loadCellar (a - cellarBase) n d1)
    else if inRegs a && inRegs z then
      let who : Who := .steward (Fin.ofNat 4 c) (p.may permFREEZE) (p.may permSAFE) ((core d c).pck.may permSYS)
      match loadReg c who (a - regBase) n d1 with
      | some r => .ok r
      | none => .error { code := 0x0E, addr := some a }
    else .error { code := 0x0E, addr := some a }

/-- A load of `n` bytes at `a`; a half-word at an odd address is two byte loads (R337), whose fault names `a` (R336). -/
def loadBytes (c : Nat) (p : Key) (a n : Nat) (ecc : Ecc) (d : Dev) : StRes (Nat × Dev) :=
  if n = 2 ∧ a % 2 = 1 then
    match loadOnce c p a 1 ecc d with
    | .error f => .error f
    | .ok (lo, d1) =>
      match loadOnce c p (a + 1) 1 (if a / 8 = (a + 1) / 8 then ecc else .ok) d1 with
      | .error f => .error { f with addr := some a }
      | .ok (hi, d2) => .ok (lo + 256 * hi, d2)
  else loadOnce c p a n ecc d

/-! ### Operands of format M (R335) -/

/-- An operand: a value, a register, or memory at an offset of a key; `post` advances the cursor afterwards. -/
inductive Opnd
  | imm (v : Word)
  | reg (i : Nat)
  | mem (key : Nat) (o : Nat) (post : Bool)

/-- The operand of a format-M instruction. -/
def Ins.opnd (i : Ins) (k : Core) : Opnd :=
  let cur := BitVec.ofNat 32 (k.key i.k).cursor
  match i.md with
  | 0 => .imm i.d16
  | 1 => .imm i.ext
  | 2 => .mem i.k (cur + i.d16).toNat false
  | 3 => .mem i.k (cur + k.x + i.d16).toNat false
  | 4 => .mem i.k (cur + k.y + i.d16).toNat false
  | 5 => .mem i.k cur.toNat true
  | 6 => .mem i.k (cur + i.ext).toNat false
  | _ => .reg i.k

/-- The registers of mode 7. -/
def Core.reg (k : Core) (i : Nat) : Word :=
  match i with
  | 0 => k.x | 1 => k.y | 2 => k.cnt | 3 => k.mpl | 4 => k.mph | _ => k.mpg.signExtend 32
def Core.setReg (i : Nat) (v : Word) (k : Core) : Core :=
  match i with
  | 0 => { k with x := v } | 1 => { k with y := v } | 2 => { k with cnt := v } | 3 => { k with mpl := v } | 4 => { k with mph := v }
  | _ => { k with mpg := bf v 0 8 }

/-- Advance the cursor of key register `i`. -/
def advance (c i n : Nat) : Dev → Dev := updCore c fun k => k.setKey i ((k.key i).withCursor ((k.key i).cursor + n))

/-- A checked load of `n` bytes at offset `o` of key register `i`. -/
def loadKey (c i o n : Nat) (stack : Bool) (ecc : Ecc) (d : Dev) : StRes (Nat × Dev) :=
  let p := (core d c).key i
  match accessFault d c i p o n .load stack with
  | some f => .error f
  | none => loadBytes c p ((p.base + o) % 2 ^ 32) n ecc d

/-- A checked store of `n` bytes at offset `o` of key register `i`. -/
def storeKey (c i o n v : Nat) (stack : Bool) (d : Dev) : StRes Dev :=
  let p := (core d c).key i
  match accessFault d c i p o n .store stack with
  | some f => .error f
  | none => .ok (storeBytes c p ((p.base + o) % 2 ^ 32) n v d)

/-- Read the operand; a narrow one is extended by `sext`. -/
def readOp (c : Nat) (i : Ins) (sext : Bool) (ecc : Ecc) (d : Dev) : StRes (Word × Dev) :=
  match i.opnd (core d c) with
  | .imm v => .ok (v, d)
  | .reg r => .ok ((core d c).reg r, d)
  | .mem key o post =>
    match loadKey c key o i.size false ecc d with
    | .error f => .error f
    | .ok (v, d1) =>
      let w : Word := if i.size = 4 ∨ !sext then BitVec.ofNat 32 v
        else if i.size = 1 then (BitVec.ofNat 8 v).signExtend 32 else (BitVec.ofNat 16 v).signExtend 32
      .ok (w, if post then advance c key i.size d1 else d1)

/-- Write the operand. -/
def writeOp (c : Nat) (i : Ins) (v : Word) (d : Dev) : StRes Dev :=
  match i.opnd (core d c) with
  | .imm _ => .ok d
  | .reg r => .ok (updCore c (Core.setReg r v) d)
  | .mem key o post =>
    match storeKey c key o i.size v.toNat false d with
    | .error f => .error f
    | .ok d1 => .ok (if post then advance c key i.size d1 else d1)

/-- Slots of a format-M operand: 1, or 2 with memory and the extras of its range. -/
def opSlots (c : Nat) (k : Core) (i : Ins) : Nat :=
  match i.opnd k with
  | .mem key o _ => 2 + extraSlots c k ((k.key key).base + o) i.size
  | _ => 1

/-! ### The frame of an instruction (R340 to R342, R367) -/

/-- The address of the executing instruction. -/
def Core.insAddr (k : Core) : Nat := k.pck.base + k.pc.toNat

/-- An instruction has completed: it counts, and RP becomes 0 (R357, R372). -/
def completeIns (k : Core) : Core := { (k.setFlag stRP false) with perfIns := k.perfIns + 1 }

/-- A core may execute its next instruction: it issues, no fault 0x0C is due and no request must be taken first (R399). -/
def mayExecute (d : Dev) (c : Nat) : Bool := coreIssues d c && (core d c).dueFault.isNone && (asyncRequest d c).isNone

/-- Run `f` on the instruction at PC when it is `o`. A fetch fault, a reserved code or an illegal form raises its fault whatever
was commanded; another instruction leaves the state as it is. -/
def withIns (c : Nat) (o : StOp) (f : Ins → Dev → Dev) (d : Dev) : Dev :=
  if !mayExecute d c then d else
  let k := core d c
  let fault (x : StFault) : Dev := raiseIns c x k.pc (updCore c (slots 1) d)
  match fetchFault d c k.pc.toNat with
  | some x => fault x
  | none =>
    let i := insAt k k.pc.toNat
    match opOf i.w with
    | none => fault { code := 0x06, addr := some k.insAddr }
    | some o' =>
      if illegalForm o' i k then fault { code := 0x06, addr := some k.insAddr }
      else if o' ≠ o then d
      else f i (updCore c pruneBlocks d)

/-- An instruction of `n` slots that says itself where it goes on: `body` acts in the last one. A fault changes nothing but the time. -/
def runJump (c n : Nat) (i : Ins) (body : Dev → StRes Dev) (d : Dev) : Dev :=
  let d0 := updCore c (slots (n - 1)) d
  match body d0 with
  | .ok d1 => updCore c (fun k => slots 1 (completeIns k)) d1
  | .error f => raiseIns c f i.pc (updCore c (slots 1) d0)

/-- An instruction of `n` slots that goes on at the next one: PC names it until it has completed (R331). -/
def runIns (c n : Nat) (i : Ins) (body : Dev → StRes Dev) : Dev → Dev :=
  runJump c n i fun d => (body d).map (updCore c fun k => { k with pc := i.next })

/-- A whole row of an instruction that says itself where it goes on. -/
def jumpRow (c : Nat) (o : StOp) (n : Ins → Core → Nat) (body : Ins → Dev → StRes Dev) (d : Dev) : Dev :=
  withIns c o (fun i d => runJump c (n i (core d c)) i (body i) d) d

/-- A whole instruction row. -/
def stRow (c : Nat) (o : StOp) (n : Ins → Core → Nat) (body : Ins → Dev → StRes Dev) (d : Dev) : Dev :=
  withIns c o (fun i d => runIns c (n i (core d c)) i (body i) d) d

end Sys2Proof.Machine
end

