-- ==== Sys2Proof/Machine/StewardAlu.lean ====
section
/-!
DEFINITION. Sys2Proof/Machine/StewardAlu.lean: Steward data movement, integer, shift, fixed-point, multiplier, division and
packed-decimal instructions (R333, R343 to R356).
-/
namespace Sys2Proof.Machine

/-! ### A and its flags (R332, R333) -/

/-- A[31:0]. -/
def Core.a32 (k : Core) : Word := bf k.a 0 32
/-- Write an integer value: AG is the sign extension of bit 31. -/
def Core.setA (v : Word) (k : Core) : Core := { k with a := v.signExtend 40 }
/-- N and Z from an `n`-bit result. -/
def Core.flagsNZ {n : Nat} (r : BitVec n) (k : Core) : Core := (k.setFlag stN r.msb).setFlag stZ (r == 0)
/-- The flags of a logic operation. -/
def Core.flagsLogic (r : Word) (k : Core) : Core := (k.flagsNZ r).setFlag stV false

/-- The result and the flags N, Z, C, V, H of a width-`w` sum (R344, R345). -/
structure Arith (w : Nat) where
  r : BitVec w
  c : Bool
  v : Bool
  h : Bool

def addW {w : Nat} (a b : BitVec w) (ci : Bool) : Arith w :=
  let r := a + b + BitVec.ofNat w (b2n ci)
  { r := r, c := decide (2 ^ w ≤ a.toNat + b.toNat + b2n ci), v := a.msb == b.msb && r.msb != a.msb
    h := decide (16 ≤ a.toNat % 16 + b.toNat % 16 + b2n ci) }

/-- A difference with borrow-in `bi`; C and H are 1 when nothing is borrowed. -/
def subW {w : Nat} (a b : BitVec w) (bi : Bool) : Arith w :=
  let r := a - b - BitVec.ofNat w (b2n bi)
  { r := r, c := decide (b.toNat + b2n bi ≤ a.toNat), v := a.msb != b.msb && r.msb != a.msb
    h := decide (b.toNat % 16 + b2n bi ≤ a.toNat % 16) }

def Core.flagsArith {w : Nat} (x : Arith w) (k : Core) : Core :=
  (((k.flagsNZ x.r).setFlag stC x.c).setFlag stV x.v).setFlag stH x.h

/-- Write a width-`w` result into A: the bits from `w` to 31 stay (R344), AG follows bit 31 (R333). -/
def Core.setAW {w : Nat} (r : BitVec w) (k : Core) : Core := k.setA (mergeBits (BitVec.ofNat 32 (2 ^ w - 1)) k.a32 (r.zeroExtend 32))

/-- ADD, ADC, SUB, SBC, CMP at the width of SZ. -/
def arithRow (c : Nat) (o : StOp) (ecc : Ecc) (wr ov : Bool) (f : {w : Nat} → Core → BitVec w → BitVec w → Arith w) (d : Dev) : Dev :=
  stRow c o (fun i k => opSlots c k i) (fun i d => do
    let (b, d1) ← readOp c i false ecc d
    let k := core d1 c
    let go (w : Nat) : StRes Dev :=
      let x := f k (bf k.a 0 w) (bf b 0 w)
      if ov && x.v && k.flag stOVEN then .error { code := 0x09, addr := some (k.pck.base + i.pc.toNat) }
      else .ok (updCore c (fun k => ((if wr then k.setAW x.r else k).flagsArith x)) d1)
    go (8 * i.size)) d

/-- AND, OR, XOR and TST. -/
def logicRow (c : Nat) (o : StOp) (ecc : Ecc) (wr : Bool) (f : Word → Word → Word) (d : Dev) : Dev :=
  stRow c o (fun i k => opSlots c k i) (fun i d => do
    let (b, d1) ← readOp c i false ecc d
    let r := f (core d1 c).a32 b
    .ok (updCore c (fun k => (if wr then k.setA r else k).flagsLogic r) d1)) d

/-- A one-slot instruction without an operand. -/
def plainRow (c : Nat) (o : StOp) (f : Core → Core) (d : Dev) : Dev :=
  stRow c o (fun _ _ => 1) (fun _ d => .ok (updCore c f d)) d

/-! ### Data movement (R343) -/

/-- LD. -/
def execLd (c : Fin 4) (ecc : Ecc) (s : State) : Host.Outcome State Fault Refusal :=
  act (stRow c .ld (fun i k => opSlots c k i) fun i d => do
    let (v, d1) ← readOp c i (bit i.w 0) ecc d
    .ok (updCore c (fun k => (k.setA v).flagsNZ v) d1)) s

/-- ST. -/
def execSt (c : Fin 4) (s : State) : Host.Outcome State Fault Refusal :=
  act (stRow c .st (fun i k => opSlots c k i) fun i d => writeOp c i (core d c).a32 d) s

/-- LDR. -/
def execLdr (c : Fin 4) (ecc : Ecc) (s : State) : Host.Outcome State Fault Refusal :=
  act (stRow c .ldr (fun i k => opSlots c k i) fun i d => do
    let (v, d1) ← readOp c i false ecc d
    .ok (updCore c (Core.setReg i.f v) d1)) s

/-- STR. -/
def execStr (c : Fin 4) (s : State) : Host.Outcome State Fault Refusal :=
  act (stRow c .str (fun i k => opSlots c k i) fun i d => writeOp c i ((core d c).reg i.f) d) s

/-- ADDR. -/
def execAddr (c : Fin 4) (ecc : Ecc) (s : State) : Host.Outcome State Fault Refusal :=
  act (stRow c .addr (fun i k => opSlots c k i) fun i d => do
    let (v, d1) ← readOp c i false ecc d
    .ok (updCore c (fun k => let r := k.reg i.f + v; (k.setReg i.f r).setFlag stZ (r == 0)) d1)) s

/-- CMPR. -/
def execCmpr (c : Fin 4) (ecc : Ecc) (s : State) : Host.Outcome State Fault Refusal :=
  act (stRow c .cmpr (fun i k => opSlots c k i) fun i d => do
    let (v, d1) ← readOp c i false ecc d
    .ok (updCore c (fun k =>
      let x := subW (k.reg i.f) v false
      ((k.flagsNZ x.r).setFlag stV x.v).setFlag stC x.c) d1)) s

/-- The registers of PUSH and POP: A[31:0], X, Y, CNT. -/
def Core.stackReg (k : Core) (r : Nat) : Word := if r = 0 then k.a32 else k.reg (r - 1)
def Core.setStackReg (r : Nat) (v : Word) (k : Core) : Core := if r = 0 then k.setA v else k.setReg (r - 1) v

/-- Push a word through K7 below its cursor. -/
def pushWord (c : Nat) (v : Word) (d : Dev) : StRes Dev := do
  let cur := BitVec.ofNat 32 ((core d c).key 7).cursor
  let d1 ← storeKey c 7 (cur - 4).toNat 4 v.toNat true d
  .ok (updCore c (fun k => k.setKey 7 ((k.key 7).withCursor (cur - 4).toNat)) d1)

/-- Pop a word through K7. -/
def popWord (c : Nat) (ecc : Ecc) (d : Dev) : StRes (Word × Dev) := do
  let (v, d1) ← loadKey c 7 ((core d c).key 7).cursor 4 true ecc d
  .ok (BitVec.ofNat 32 v, advance c 7 4 d1)

/-- The extra slots of a push and of a pop. -/
def pushExtra (c : Nat) (k : Core) : Nat := extraSlots c k (((k.key 7).base + (k.key 7).cursor + 2 ^ 32 - 4) % 2 ^ 32) 4
def popExtra (c : Nat) (k : Core) : Nat := extraSlots c k (((k.key 7).base + (k.key 7).cursor) % 2 ^ 32) 4

/-- PUSH. -/
def execPush (c : Fin 4) (s : State) : Host.Outcome State Fault Refusal :=
  act (stRow c .push (fun _ k => 2 + pushExtra c k) fun i d => pushWord c ((core d c).stackReg i.f) d) s

/-- POP. -/
def execPop (c : Fin 4) (ecc : Ecc) (s : State) : Host.Outcome State Fault Refusal :=
  act (stRow c .pop (fun _ k => 2 + popExtra c k) fun i d => do
    let (v, d1) ← popWord c ecc d
    .ok (updCore c (Core.setStackReg i.f v) d1)) s

/-- CLRA. -/
def execClra (c : Fin 4) (s : State) : Host.Outcome State Fault Refusal :=
  act (plainRow c .clra fun k => (({ k with a := 0 } : Core).setFlag stZ true).setFlag stN false) s

/-- SEXB. -/
def execSexb (c : Fin 4) (s : State) : Host.Outcome State Fault Refusal :=
  act (plainRow c .sexb fun k => let r : Word := (bf k.a 0 8).signExtend 32; (k.setA r).flagsNZ r) s

/-- SEXH. -/
def execSexh (c : Fin 4) (s : State) : Host.Outcome State Fault Refusal :=
  act (plainRow c .sexh fun k => let r : Word := (bf k.a 0 16).signExtend 32; (k.setA r).flagsNZ r) s

/-- CLRMP. -/
def execClrmp (c : Fin 4) (s : State) : Host.Outcome State Fault Refusal :=
  act (plainRow c .clrmp fun k => { k with mpg := 0, mph := 0, mpl := 0 }) s

/-- NOP. -/
def execNop (c : Fin 4) (s : State) : Host.Outcome State Fault Refusal := act (plainRow c .nop id) s

/-- FENCE: the buffer drains, and what was prefetched is fetched again (R371). -/
def execFence (c : Fin 4) (s : State) : Host.Outcome State Fault Refusal :=
  act (stRow c .fence (fun _ _ => 1) fun _ d => .ok (updCore c dropBlocks (drainAll c d))) s

/-! ### Integer arithmetic and logic (R344 to R347) -/

/-- ADD. -/
def execAdd (c : Fin 4) (ecc : Ecc) (s : State) : Host.Outcome State Fault Refusal :=
  act (arithRow c .add ecc true true fun _ a b => addW a b false) s
/-- ADC. -/
def execAdc (c : Fin 4) (ecc : Ecc) (s : State) : Host.Outcome State Fault Refusal :=
  act (arithRow c .adc ecc true true fun k a b => addW a b (k.flag stC)) s
/-- SUB. -/
def execSub (c : Fin 4) (ecc : Ecc) (s : State) : Host.Outcome State Fault Refusal :=
  act (arithRow c .sub ecc true true fun _ a b => subW a b false) s
/-- SBC. -/
def execSbc (c : Fin 4) (ecc : Ecc) (s : State) : Host.Outcome State Fault Refusal :=
  act (arithRow c .sbc ecc true true fun k a b => subW a b (!k.flag stC)) s
/-- CMP. -/
def execCmp (c : Fin 4) (ecc : Ecc) (s : State) : Host.Outcome State Fault Refusal :=
  act (arithRow c .cmp ecc false false fun _ a b => subW a b false) s
/-- AND. -/
def execAnd (c : Fin 4) (ecc : Ecc) (s : State) : Host.Outcome State Fault Refusal := act (logicRow c .and ecc true (· &&& ·)) s
/-- OR. -/
def execOr (c : Fin 4) (ecc : Ecc) (s : State) : Host.Outcome State Fault Refusal := act (logicRow c .or ecc true (· ||| ·)) s
/-- XOR. -/
def execXor (c : Fin 4) (ecc : Ecc) (s : State) : Host.Outcome State Fault Refusal := act (logicRow c .xor ecc true (· ^^^ ·)) s
/-- TST. -/
def execTst (c : Fin 4) (ecc : Ecc) (s : State) : Host.Outcome State Fault Refusal := act (logicRow c .tst ecc false (· &&& ·)) s

/-- NEG. -/
def execNeg (c : Fin 4) (s : State) : Host.Outcome State Fault Refusal :=
  act (stRow c .neg (fun _ _ => 1) fun i d =>
    let k := core d c
    let x := subW 0 k.a32 false
    if x.v && k.flag stOVEN then .error { code := 0x09, addr := some (k.pck.base + i.pc.toNat) }
    else .ok (updCore c (fun k => (k.setA x.r).flagsArith x) d)) s

/-- NOT. -/
def execNot (c : Fin 4) (s : State) : Host.Outcome State Fault Refusal :=
  act (plainRow c .not fun k => let r := ~~~k.a32; (k.setA r).flagsLogic r) s

/-- A shift of a `w`-bit value by `n` (R347): the result, and the last bit shifted out, none for a count of 0. -/
def shiftW {w : Nat} (kind n : Nat) (a : BitVec w) : BitVec w × Option Bool :=
  match kind with
  | 0 => (a <<< n, if n = 0 then none else some (decide (n ≤ w) && a.getLsbD (w - n)))
  | 1 => (a >>> n, if n = 0 then none else some (a.getLsbD (n - 1)))
  | 2 => (a.sshiftRight n, if n = 0 then none else some (a.getLsbD (min (n - 1) (w - 1))))
  | _ => (a.rotateLeft (n % w), if n % w = 0 then none else some (a.getLsbD (w - n % w)))

/-- SHIFT. -/
def execShift (c : Fin 4) (s : State) : Host.Outcome State Fault Refusal :=
  act (stRow c .shift (fun _ _ => 1) fun i d =>
    let k := core d c
    let n := if bit i.w 6 then fld k.x 0 6 else fld i.w 0 6
    let flags (co : Option Bool) (k : Core) : Core := (match co with | some b => k.setFlag stC b | none => k).setFlag stV false
    if bit i.w 7 then
      let (r, co) := shiftW (fld i.w 8 2) n k.a
      .ok (updCore c (fun k => flags co (({ k with a := r } : Core).flagsNZ r)) d)
    else
      let (r, co) := shiftW (fld i.w 8 2) n k.a32
      .ok (updCore c (fun k => flags co ((k.setA r).flagsNZ r)) d)) s

/-! ### Fixed point (R348, R349) -/

/-- sat40: write a value limited to the 40-bit range, with N, Z, V and S. -/
def Core.setSat (lo hi : Int) (v : Int) (k : Core) : Core :=
  let lim := v < lo || hi < v
  let r := BitVec.ofInt 40 (if v < lo then lo else if hi < v then hi else v)
  let k1 := (({ k with a := r } : Core).flagsNZ r).setFlag stV lim
  if lim then k1.setFlag stS true else k1

def Core.sat40 (v : Int) (k : Core) : Core := k.setSat (-2 ^ 39) (2 ^ 39 - 1) v

/-- ADDF. -/
def execAddf (c : Fin 4) (ecc : Ecc) (s : State) : Host.Outcome State Fault Refusal :=
  act (stRow c .addf (fun i k => opSlots c k i) fun i d => do
    let (b, d1) ← readOp c i false ecc d
    .ok (updCore c (fun k => k.sat40 (k.a.toInt + b.toInt)) d1)) s

/-- SUBF. -/
def execSubf (c : Fin 4) (ecc : Ecc) (s : State) : Host.Outcome State Fault Refusal :=
  act (stRow c .subf (fun i k => opSlots c k i) fun i d => do
    let (b, d1) ← readOp c i false ecc d
    .ok (updCore c (fun k => k.sat40 (k.a.toInt - b.toInt)) d1)) s

/-- SAT. -/
def execSat (c : Fin 4) (s : State) : Host.Outcome State Fault Refusal :=
  act (plainRow c .sat fun k => k.setSat (-2 ^ 31) (2 ^ 31 - 1) k.a.toInt) s

/-- The rounding increment of R349. -/
def roundInc (rm : Nat) (v : Int) (f : Nat) : Int :=
  match rm with
  | 1 => if 0x80000000 ≤ f then 1 else 0
  | 2 => if 0x80000000 < f ∨ (f = 0x80000000 ∧ v % 2 = 1) then 1 else 0
  | 3 => if v < 0 ∧ f ≠ 0 then 1 else 0
  | _ => 0

/-- RND. -/
def execRnd (c : Fin 4) (s : State) : Host.Outcome State Fault Refusal :=
  act (plainRow c .rnd fun k =>
    let v := (k.mpg ++ k.mph).toInt
    k.sat40 (v + roundInc k.rm v k.mpl.toNat)) s

/-! ### Multiplier (R350, R351) -/

/-- The product and whether it is limited. -/
def product (kind : MulKind) (a b : Word) : DWord × Bool :=
  match kind with
  | .mul | .mac => (BitVec.ofInt 64 (a.toInt * b.toInt), false)
  | .mulu | .macu => (BitVec.ofNat 64 (a.toNat * b.toNat), false)
  | .mulf | .macf =>
    if a = 0x80000000 ∧ b = 0x80000000 then (0x7FFFFFFFFFFFFFFF, true) else (BitVec.ofInt 64 (2 * (a.toInt * b.toInt)), false)

/-- Issue a multiply: it lands at the end of the third slot after its own (R351). -/
def mulRow (c : Nat) (o : StOp) (kind : MulKind) (ecc : Ecc) (d : Dev) : Dev :=
  stRow c o (fun i k => opSlots c k i) (fun i d => do
    let (b, d1) ← readOp c i false ecc d
    .ok (updCore c (fun k =>
      let (p, lim) := product kind k.a32 b
      let k1 := { k with muls := k.muls ++ [{ kind := kind, p := p, left := 4 }] }
      if lim then k1.setFlag stS true else k1) d1)) d

/-- MUL. -/
def execMul (c : Fin 4) (ecc : Ecc) (s : State) : Host.Outcome State Fault Refusal := act (mulRow c .mul .mul ecc) s
/-- MULU. -/
def execMulu (c : Fin 4) (ecc : Ecc) (s : State) : Host.Outcome State Fault Refusal := act (mulRow c .mulu .mulu ecc) s
/-- MULF. -/
def execMulf (c : Fin 4) (ecc : Ecc) (s : State) : Host.Outcome State Fault Refusal := act (mulRow c .mulf .mulf ecc) s
/-- MAC. -/
def execMac (c : Fin 4) (ecc : Ecc) (s : State) : Host.Outcome State Fault Refusal := act (mulRow c .mac .mac ecc) s
/-- MACU. -/
def execMacu (c : Fin 4) (ecc : Ecc) (s : State) : Host.Outcome State Fault Refusal := act (mulRow c .macu .macu ecc) s
/-- MACF. -/
def execMacf (c : Fin 4) (ecc : Ecc) (s : State) : Host.Outcome State Fault Refusal := act (mulRow c .macf .macf ecc) s

/-- A core stalls or waits for `n` slots: those of a WAIT are clk of the device (R363). A frozen core has none (R36, R37). -/
def stallSlots (c n : Nat) (d : Dev) : Dev :=
  let k := core d c
  if !d.sys.fclkOn || k.frozen then d
  else if k.st = .waiting then pass n d
  else if k.st = .running then updCore c (slots n) d
  else d

/-- A core lets slots pass until its oldest multiply has landed (R352). -/
def multiplyLanding (c : Nat) (d : Dev) : Dev :=
  match (core d c).muls with
  | [] => d
  | m :: _ => stallSlots c m.left d

/-- MULTIPLY_LANDING. -/
def execMultiplyLanding (c : Fin 4) (s : State) : Host.Outcome State Fault Refusal := act (multiplyLanding c) s

/-! ### Division (R353) -/

/-- What a division does: a fault code, or quotient, remainder and V. A DIV that would set V raises 0x09 under OVEN (R346), a DIVU does
not (DEDUCED, log entry 98). -/
def divide (signed dzen oven : Bool) (a b : Word) : Except Nat (Word × Word × Bool) :=
  if b = 0 then
    if dzen then .error 0x08
    else if signed && oven then .error 0x09
    else .ok (if !signed then 0xFFFFFFFF else if a.msb then 0x80000000 else 0x7FFFFFFF, a, true)
  else if signed then
    if a = 0x80000000 ∧ b = 0xFFFFFFFF then
      if oven then .error 0x09 else .ok (0x80000000, 0, true)
    else .ok (BitVec.ofInt 32 (a.toInt.tdiv b.toInt), BitVec.ofInt 32 (a.toInt.tmod b.toInt), false)
  else .ok (a / b, a % b, false)

/-- DIV and DIVU: 34 slots and those of a memory operand. -/
def divRow (c : Nat) (o : StOp) (signed : Bool) (ecc : Ecc) (d : Dev) : Dev :=
  stRow c o (fun i k => 33 + opSlots c k i) (fun i d => do
    let (b, d1) ← readOp c i false ecc d
    let k := core d1 c
    match divide signed (k.flag stDZEN) (k.flag stOVEN) k.a32 b with
    | .error code => .error { code := code, addr := some (k.pck.base + i.pc.toNat) }
    | .ok (q, r, v) => .ok (updCore c (fun k => (((({ k with y := r } : Core).setA q).flagsNZ q).setFlag stC false).setFlag stV v) d1)) d

/-- DIV. -/
def execDiv (c : Fin 4) (ecc : Ecc) (s : State) : Host.Outcome State Fault Refusal := act (divRow c .div true ecc) s
/-- DIVU. -/
def execDivu (c : Fin 4) (ecc : Ecc) (s : State) : Host.Outcome State Fault Refusal := act (divRow c .divu false ecc) s

/-! ### Packed decimal (R354 to R356) -/

/-- Digit `i` of a value. -/
def digit (v i : Nat) : Nat := v / 16 ^ i % 16

/-- ADDD digit by digit: result, carry, H. -/
def bcdAdd (a b : Nat) (ci : Bool) : Nat × Bool × Bool :=
  (List.range 8).foldl (fun (r, c, h) i =>
    let s := digit a i + digit b i + b2n c
    let c' := decide (9 < s)
    (r + (if c' then (s - 10) % 16 else s) * 16 ^ i, c', if i = 0 then c' else h)) (0, ci, false)

/-- SUBD digit by digit: result, borrow, H (1 when digit 0 borrows nothing). -/
def bcdSub (a b : Nat) (bi : Bool) : Nat × Bool × Bool :=
  (List.range 8).foldl (fun (r, w, h) i =>
    let s : Int := digit a i - digit b i - b2n w
    let w' := decide (s < 0)
    (r + (if w' then ((s + 10) % 16).toNat else s.toNat) * 16 ^ i, w', if i = 0 then !w' else h)) (0, bi, false)

/-- Some digit is above 9. -/
def badDigits (v : Nat) : Bool := (List.range 8).any fun i => decide (9 < digit v i)

/-- ADDD and SUBD. -/
def bcdRow (c : Nat) (o : StOp) (sub : Bool) (ecc : Ecc) (d : Dev) : Dev :=
  stRow c o (fun i k => opSlots c k i) (fun i d => do
    let (b, d1) ← readOp c i false ecc d
    .ok (updCore c (fun k =>
      let a := k.a32.toNat
      let (r, co, h) :=
        if sub then (let (r, w, h) := bcdSub a b.toNat (bit i.w 0 && !k.flag stC); (r, !w, h))
        else bcdAdd a b.toNat (bit i.w 0 && k.flag stC)
      ((((({ k with a := BitVec.ofNat 40 r } : Core).setFlag stH h).setFlag stC co).setFlag stZ (r == 0)).setFlag stN false).setFlag stV
        (badDigits a || badDigits b.toNat)) d1)) d

/-- ADDD. -/
def execAddd (c : Fin 4) (ecc : Ecc) (s : State) : Host.Outcome State Fault Refusal := act (bcdRow c .addd false ecc) s
/-- SUBD. -/
def execSubd (c : Fin 4) (ecc : Ecc) (s : State) : Host.Outcome State Fault Refusal := act (bcdRow c .subd true ecc) s

/-- The adjusted byte of DAA and DAS and their carry. -/
def decAdjust (sub : Bool) (a : Nat) (cf hf : Bool) : Nat × Bool :=
  let lo := decide (9 < a % 16) || (hf != sub)
  let hi := decide (0x99 < a) || (cf != sub)
  let x := (if lo then 0x06 else 0) + (if hi then 0x60 else 0)
  ((if sub then a + 256 - x else a + x) % 256, hi != sub)

/-- Write an adjusted byte: A[31:8] stays, AG is 0. -/
def Core.adjust (sub : Bool) (k : Core) : Core :=
  let (r, co) := decAdjust sub (fld k.a 0 8) (k.flag stC) (k.flag stH)
  let a := BitVec.ofNat 40 (fld k.a 8 24 * 256 + r)
  (({ k with a := a } : Core).flagsNZ (BitVec.ofNat 8 r)).setFlag stC co

/-- DAA. -/
def execDaa (c : Fin 4) (s : State) : Host.Outcome State Fault Refusal := act (plainRow c .daa (Core.adjust false)) s
/-- DAS. -/
def execDas (c : Fin 4) (s : State) : Host.Outcome State Fault Refusal := act (plainRow c .das (Core.adjust true)) s

/-- One step of CVBD. -/
def cvbdStep (k : Core) : Core :=
  let a := (List.range 10).foldl (fun v i =>
    let g := digit k.a.toNat i
    v + (if 5 ≤ g then (g + 3) % 16 else g) * 16 ^ i) 0
  { k with a := BitVec.ofNat 40 (2 * a + b2n (bit k.x 31)), x := k.x <<< 1, cnt := k.cnt - 1 }

/-- At most `n` steps of CVBD, one slot each, while CNT is not 0. -/
def cvbdSteps : Nat → Core → Core
  | 0, k => k
  | n + 1, k => if k.cnt = 0 then k else cvbdSteps n (slots 1 (cvbdStep k))

/-- CVBD: at most `n` steps from now on; with CNT not 0 it is then suspended with RP 1. -/
def cvbdRun (n : Nat) (i : Ins) (k0 : Core) : Core :=
  let k := cvbdSteps n (if k0.flag stRP then k0 else slots 1 { k0 with a := 0, cnt := 32 })
  if k.cnt = 0 then
    { completeIns (((k.setFlag stZ (k.a == 0)).setFlag stN false).setFlag stC false) with pc := i.next, x := 0 }
  else k.setFlag stRP true

/-- CVBD. -/
def execCvbd (c : Fin 4) (n : Nat) (s : State) : Host.Outcome State Fault Refusal :=
  act (withIns c .cvbd fun i d => updCore c (cvbdRun n i) d) s

end Sys2Proof.Machine
end

