-- ==== Sys2Proof/Machine/StewardRepeat.lean ====
section
/-!
DEFINITION. Sys2Proof/Machine/StewardRepeat.lean: Steward block repeats (R357, R358), atomics (R359, R360) and the buffer and
prefetch events of a core.
-/
namespace Sys2Proof.Machine

/-! ### Block repeats -/

/-- What an element does to a repeat: go on, or end with these flags set. -/
inductive EltEnd | more | stop (z c : Bool)

/-- The memory side of a repeat: the key registers it loads from and stores to, and an element's action. -/
structure Repeat where
  loads : List Nat
  stores : List Nat
  slots : Nat
  elem : Dev → StRes (Dev × EltEnd)
  /-- flags at an end by CNT or by bounds -/
  atEnd : Bool → Core → Core

/-- The next element lies outside the bounds of a key the repeat uses (R357). -/
def outside (k : Core) (ks : List Nat) (n : Nat) : Bool := ks.any fun i => (k.key i).len < (k.key i).cursor + n

/-- The slots of an element: those of local memory and the extras of the ranges it touches. -/
def elemSlots (c : Nat) (k : Core) (r : Repeat) (n : Nat) : Nat :=
  (r.loads ++ r.stores).foldl (fun t i => t + extraSlots c k (((k.key i).base + (k.key i).cursor) % 2 ^ 32) n) r.slots

/-- How a run of elements ended: CNT or bounds or a match, a fault, or with elements left. -/
inductive RunEnd | done (f : Core → Core) | fault (f : StFault) | open

/-- At most `n` elements. A key register named twice has one cursor, which advances once (R357; DEDUCED, log entry 51). -/
def repElems (c : Nat) (size : Nat) (r : Bool → Repeat) : Nat → Bool → Dev → Dev × RunEnd
  | 0, first, d => (d, if (core d c).cnt = 0 then .done ((r first).atEnd false) else .open)
  | n + 1, first, d =>
    let k := core d c
    let x := r first
    if k.cnt = 0 then (d, .done (x.atEnd false))
    else if k.cnt = 0xFFFFFFFF ∧ outside k (x.loads ++ x.stores) size then (d, .done (x.atEnd true))
    else
      let t := elemSlots c k x size
      let d0 := updCore c (slots (t - 1)) d
      match x.elem d0 with
      | .error f => (updCore c (slots 1) d0, .fault f)
      | .ok (d1, .stop z cf) => (updCore c (slots 1) d1, .done fun k => (k.setFlag stZ z).setFlag stC cf)
      | .ok (d1, .more) =>
        let d2 := (x.loads ++ x.stores).eraseDups.foldl (fun d i => advance c i size d) d1
        repElems c size r n false (updCore c (fun k => slots 1 { k with cnt := if k.cnt = 0xFFFFFFFF then k.cnt else k.cnt - 1 }) d2)

/-- A repeat row: setup, at most `n` elements, then its end, its fault, or a suspension with RP 1 (R357). -/
def repeatRow (c : Nat) (o : StOp) (n : Nat) (r : Ins → Bool → Repeat) (d : Dev) : Dev :=
  withIns c o (fun i d =>
    let k0 := core d c
    let fresh := !k0.flag stRP
    let d0 := if fresh then updCore c (slots 1) d else d
    if fresh ∧ k0.cnt = 0 then updCore c (fun k => { completeIns k with pc := i.next }) d0 else
    match repElems c i.size (r i) n true d0 with
    | (d1, .done f) => updCore c (fun k => { completeIns (f k) with pc := i.next }) d1
    | (d1, .fault f) => raiseIns c f i.pc (updCore c (fun k => k.setFlag stRP true) d1)
    | (d1, .open) => updCore c (fun k => k.setFlag stRP true) d1) d

/-- Load the element at the cursor of key register `i`; only the first one meets `ecc`. -/
def loadElem (c i n : Nat) (ecc : Ecc) (first : Bool) (d : Dev) : StRes (Nat × Dev) :=
  loadKey c i ((core d c).key i).cursor n false (if first then ecc else .ok) d

/-- Store an element at the cursor of key register `i`. -/
def storeElem (c i n v : Nat) (d : Dev) : StRes Dev := storeKey c i ((core d c).key i).cursor n v false d

/-- The low `n` bytes of A. -/
def Core.aLow (k : Core) (n : Nat) : Nat := k.a32.toNat % 256 ^ n

/-- MOVS. -/
def execMovs (c : Fin 4) (n : Nat) (ecc : Ecc) (s : State) : Host.Outcome State Fault Refusal :=
  act (repeatRow c .movs n fun i first => {
    loads := [i.md], stores := [i.k], slots := 2, atEnd := fun b k => k.setFlag stC b
    elem := fun d => do
      let (v, d1) ← loadElem c i.md i.size ecc first d
      let d2 ← storeElem c i.k i.size v d1
      .ok (d2, .more) }) s

/-- FILS. -/
def execFils (c : Fin 4) (n : Nat) (_ecc : Ecc) (s : State) : Host.Outcome State Fault Refusal :=
  act (repeatRow c .fils n fun i _ => {
    loads := [], stores := [i.k], slots := 1, atEnd := fun b k => k.setFlag stC b
    elem := fun d => do
      let d1 ← storeElem c i.k i.size ((core d c).aLow i.size) d
      .ok (d1, .more) }) s

/-- CMPS. `ecc` is what the reads of the first element through KA and KB find. -/
def execCmps (c : Fin 4) (n : Nat) (ecc : Ecc × Ecc) (s : State) : Host.Outcome State Fault Refusal :=
  act (repeatRow c .cmps n fun i first => {
    loads := [i.md, i.k], stores := [], slots := 2, atEnd := fun b k => (k.setFlag stZ true).setFlag stC b
    elem := fun d => do
      let (a, d1) ← loadElem c i.md i.size ecc.1 first d
      let (b, d2) ← loadElem c i.k i.size ecc.2 first d1
      .ok (d2, if a = b then .more else .stop false (decide (b ≤ a))) }) s

/-- SCNS. -/
def execScns (c : Fin 4) (n : Nat) (ecc : Ecc) (s : State) : Host.Outcome State Fault Refusal :=
  act (repeatRow c .scns n fun i first => {
    loads := [i.md], stores := [], slots := 1, atEnd := fun b k => (k.setFlag stZ false).setFlag stC b
    elem := fun d => do
      let (a, d1) ← loadElem c i.md i.size ecc first d
      .ok (d1, if (a == (core d1 c).aLow i.size) != bit i.w 0 then .stop true false else .more) }) s

/-- CRCS. -/
def execCrcs (c : Fin 4) (n : Nat) (ecc : Ecc) (s : State) : Host.Outcome State Fault Refusal :=
  act (repeatRow c .crcs n fun i first => {
    loads := [i.md], stores := [], slots := 1, atEnd := fun b k => k.setFlag stC b
    elem := fun d => do
      let (v, d1) ← loadElem c i.md i.size ecc first d
      let poly := if bit i.w 0 then 0xEDB88320 else 0x82F63B78
      .ok (updCore c (fun k => k.setA (BitVec.ofNat 32 (crcBytesR poly k.a32.toNat (leBytes i.size v)))) d1, .more) }) s

/-! ### Atomics (R359, R360) -/

/-- The memory operand of an atomic: it waits for the buffer, is checked for R and W, and must lie in local memory or the
mailbox (R338). `f` gets the address. -/
def atomic (c : Nat) (i : Ins) (f : Nat → Dev → Dev) (d0 : Dev) : StRes Dev :=
  let d := drainAll c d0
  match i.opnd (core d c) with
  | .mem key o post =>
    let p := (core d c).key key
    let a := (p.base + o) % 2 ^ 32
    match accessFault d c key p o i.size .both false with
    | some x => .error x
    | none =>
      if !inTagged a i.size then .error { code := 0x0E, addr := some a }
      else .ok (f a (if post then advance c key i.size d else d))
  | _ => .ok d

/-- Slots of an atomic. -/
def atomicSlots (c : Nat) (i : Ins) (k : Core) : Nat := opSlots c k i

/-- TAS. -/
def execTas (c : Fin 4) (s : State) : Host.Outcome State Fault Refusal :=
  act (stRow c .tas (atomicSlots c) fun i d => atomic c i (fun a d =>
    let v := memRead d c a 1
    updCore c (fun k => (k.setA (BitVec.ofNat 32 v)).setFlag stZ (v == 0)) (memWrite c a 1 0xFF d)) d) s

/-- LR.W. The reservation is gone in the 256th slot after it. No Cellar word is reached, so `ecc` acts on nothing. -/
def execLrW (c : Fin 4) (_ecc : Ecc) (s : State) : Host.Outcome State Fault Refusal :=
  act (stRow c .lrw (atomicSlots c) fun i d => atomic c i (fun a d =>
    let v := BitVec.ofNat 32 (memRead d c a 4)
    updCore c (fun k => ({ k with resv := some (a / 16, 256) }.setA v).flagsNZ v) d) d) s

/-- SC.W. -/
def execScW (c : Fin 4) (s : State) : Host.Outcome State Fault Refusal :=
  act (stRow c .scw (atomicSlots c) fun i d => atomic c i (fun a d =>
    let k := core d c
    let ok := match k.resv with | some (g, _) => g == a / 16 | none => false
    let d1 := if ok then memWrite c a 4 k.a32.toNat d else updCore c (fun k => { k with perfScf := satInc k.perfScf }) d
    updCore c (fun k => { k with resv := none }.setFlag stZ ok) d1) d) s

/-- The slots until a reservation lapses pass. -/
def reservationLapse (c : Nat) (d : Dev) : Dev :=
  match (core d c).resv with
  | none => d
  | some (_, l) => stallSlots c l d

/-- RESERVATION_LAPSE. -/
def execReservationLapse (c : Fin 4) (s : State) : Host.Outcome State Fault Refusal := act (reservationLapse c) s

/-! ### Buffer, prefetch and requests -/

/-- STORE_DRAIN. -/
def execStoreDrain (c : Fin 4) (s : State) : Host.Outcome State Fault Refusal := act (storeDrain c) s
/-- PREFETCH. -/
def execPrefetch (c : Fin 4) (s : State) : Host.Outcome State Fault Refusal := act (prefetch c) s

/-- A request can be taken (R399); the clock runs and no W reset holds. -/
def mayTake (d : Dev) : Bool := d.sys.fclkOn && d.sys.wEnd.isNone

/-- EXCEPTION_ENTRY. -/
def execExceptionEntry (c : Fin 4) (s : State) : Host.Outcome State Fault Refusal :=
  act (fun d => if mayTake d then exceptionEntry c d else d) s

/-- The `det` count (0 tick budget, 1 gate limit) is due, in a core that waits after the clk that are left to it; 0x0C is raised. -/
def dueRow (c det : Nat) (d : Dev) : Dev :=
  let k := core d c
  if !mayTake d || k.frozen || !(k.st == .running || k.st == .waiting) then d else
  let left := if det = 0 then (if k.tickActive && k.tickCount && k.tbudget != 0 then some (k.tbudget.toNat - k.tbudcnt.toNat) else none)
    else (k.gates.filter (·.limited)).foldl (fun m g => some (match m with | some x => min x g.left.toNat | none => g.left.toNat)) none
  match left with
  | none => d
  | some n =>
    if n ≠ 0 ∧ k.st = .running then d
    else
      let d1 := pass n d
      if (core d1 c).dueFault = some det then raiseDue c d1 else d

/-- GATE_LIMIT. -/
def execGateLimit (c : Fin 4) (s : State) : Host.Outcome State Fault Refusal := act (dueRow c 1) s
/-- TICK_BUDGET_FAULT. -/
def execTickBudgetFault (c : Fin 4) (s : State) : Host.Outcome State Fault Refusal := act (dueRow c 0) s

end Sys2Proof.Machine
end

