-- ==== Sys2Proof/Machine/StewardCtl.lean ====
section
/-!
DEFINITION. Sys2Proof/Machine/StewardCtl.lean: Steward control, special-register, key and gate instructions, TRAP and RTE
(R361 to R365, R376 to R382, R390 to R397, R405, R411).
-/
namespace Sys2Proof.Machine

/-! ### Branches, jumps, calls (R361 to R363, R368) -/

/-- The condition of a Bcc on a core; CNZ looks at CNT. -/
def branchTaken (k : Core) (cond : Nat) : Bool :=
  let n := k.flag stN
  let z := k.flag stZ
  let cf := k.flag stC
  let v := k.flag stV
  match cond with
  | 0 => true | 1 => z | 2 => !z | 3 => cf | 4 => !cf | 5 => n | 6 => !n | 7 => v | 8 => !v
  | 9 => cf && !z | 10 => !cf || z | 11 => n == v | 12 => n != v | 13 => !z && n == v | 14 => z || n != v
  | _ => k.cnt != 0 && k.cnt != 1

/-- BCC: 1 slot where the static prediction holds, 3 where it does not. -/
def execBcc (c : Fin 4) (s : State) : Host.Outcome State Fault Refusal :=
  act (jumpRow c .bcc (fun i k => if branchTaken k (fld i.w 6 4) = i.expectTaken then 1 else 3)
    fun i d => .ok (updCore c (fun k =>
      let k1 := if fld i.w 6 4 = 15 ∧ k.cnt ≠ 0 then { k with cnt := k.cnt - 1 } else k
      { k1 with pc := if branchTaken k (fld i.w 6 4) then i.next + i.d16 else i.next }) d)) s

/-- Continue at `pc`, whose checks raise at the jump with CAUSE_ADDR the target (R368). -/
def jumpTo (c : Nat) (pc : Word) (d : Dev) : StRes Dev :=
  match fetchFault d c pc.toNat with
  | some f => .error { f with addr := some (((core d c).pck.base + pc.toNat) % 2 ^ 32) }
  | none => .ok (updCore c (fun k => { k with pc := pc }) d)

/-- The target of JMP and CALL. A CALL that reads it through K7 raises 0x0A for its key (R336). -/
def jumpTarget (c : Nat) (i : Ins) (call : Bool) (ecc : Ecc) (d : Dev) : StRes (Word × Dev) :=
  if i.md = 0 then .ok (i.next + i.d16, d) else
  match readOp c i false ecc d with
  | .error f => .error (if call && i.md != 7 && i.k == 7 && 1 ≤ f.code && f.code ≤ 5 then { f with code := 0x0A } else f)
  | .ok r => .ok r

/-- Slots of a jump. -/
def jumpSlots (c : Nat) (k : Core) (i : Ins) : Nat :=
  match i.opnd k with
  | .imm _ => 1
  | .reg _ => 3
  | .mem key o _ => 4 + extraSlots c k (((k.key key).base + o) % 2 ^ 32) 4

/-- JMP. -/
def execJmp (c : Fin 4) (ecc : Ecc) (s : State) : Host.Outcome State Fault Refusal :=
  act (jumpRow c .jmp (fun i k => jumpSlots c k i) fun i d => do
    let (t, d1) ← jumpTarget c i false ecc d
    jumpTo c t d1) s

/-- CALL. -/
def execCall (c : Fin 4) (ecc : Ecc) (s : State) : Host.Outcome State Fault Refusal :=
  act (jumpRow c .call (fun i k => 1 + jumpSlots c k i + pushExtra c k) fun i d => do
    let d0 ← pushWord c i.next d
    let (t, d1) ← jumpTarget c i true ecc d0
    jumpTo c t d1) s

/-- RET. -/
def execRet (c : Fin 4) (ecc : Ecc) (s : State) : Host.Outcome State Fault Refusal :=
  act (jumpRow c .ret (fun _ k => 4 + popExtra c k) fun _ d => do
    let (t, d1) ← popWord c ecc d
    jumpTo c t d1) s

/-! ### Gates (R392 to R397) -/

/-- An argument rule of a gate descriptor. -/
def argWord (d : Dev) (c a i : Nat) : DWord := BitVec.ofNat 64 (memRead d c (a + 0x20 + 8 * (i - 1)) 8)
def argMode (w : DWord) : Nat := fld w 0 2
def argNullOk (w : DWord) : Bool := bit w 2
def argUnsealed (w : DWord) : Bool := bit w 3
def argPerm (w : DWord) : Half := bf w 16 16
def argMinLen (w : DWord) : Nat := fld w 32 32

/-- The key in a granule. -/
def keyAt (d : Dev) (c a : Nat) : Key := { val := BitVec.ofNat 128 (memRead d c a 16), tag := tagAt d c a }

/-- The descriptor at `a` meets R392. -/
def gateOk (d : Dev) (c a : Nat) : Bool :=
  let e := keyAt d c a
  let t := keyAt d c (a + 16)
  e.tag && !e.sealed && e.may permX && t.tag && !t.sealed && t.may permR && t.may permW && decide (48 ≤ t.cursor) && decide (t.cursor ≤ t.len) &&
    ([1, 2, 3].all fun i => argMode (argWord d c a i) != 3 && fld (argWord d c a i) 4 12 == 0) && memRead d c (a + 0x39) 3 == 0

/-- The first of the checks `f 1`, `f 2`, `f 3` that fails. -/
def firstArg (f : Nat → Bool) : Option Nat := [1, 2, 3].find? fun i => !f i

/-- The checks of R393, in order, on gate key register `g`; `here` is the address of the GCALL. -/
def gateFault (d : Dev) (c g here : Nat) : Option StFault :=
  let k := core d c
  let p := k.key g
  let a := (p.base + p.cursor) % 2 ^ 32
  let byKey (code det : Nat) : Option StFault := some { code := code, detail := det, source := some g, addr := some a }
  let gate (det : Nat) : Option StFault := some { code := 0x0B, detail := det, addr := some here }
  let comp : Byte := BitVec.ofNat 8 (memRead d c (a + 0x38) 1)
  let t := keyAt d c (a + 16)
  let arg (i : Nat) (f : DWord → Key → Bool) : Bool := argMode (argWord d c a i) != 1 || f (argWord d c a i) (k.key i)
  let tagged (i : Nat) (f : DWord → Key → Bool) : Bool := arg i fun w q => !q.tag || f w q
  let frame := (t.base + t.cursor + 2 ^ 32 - 48) % 2 ^ 32
  if !p.tag then byKey 0x01 0
  else if !(p.sealed && p.may permGATE) then byKey 0x03 0
  else if a % 16 ≠ 0 then byKey 0x05 0
  else if p.len < p.cursor + 64 then byKey 0x02 0
  else if !inTagged a 64 then some { code := 0x0E, addr := some a }
  else if !regionOk d c comp a 64 then byKey 0x03 1
  else if !gateOk d c a then gate 0x70
  else if 16 ≤ k.gates.length then gate 0x60
  else if comp = k.comp ∨ k.gates.any (fun e => e.target == comp) then gate 0x50
  else match firstArg fun i => arg i fun w q => q.tag || argNullOk w with
  | some i => gate (0x10 + i)
  | none => match firstArg fun i => tagged i fun w q => !(argUnsealed w && q.sealed) with
  | some i => gate (0x20 + i)
  | none => match firstArg fun i => tagged i fun w q => argPerm w &&& q.perm == argPerm w with
  | some i => gate (0x30 + i)
  | none => match firstArg fun i => tagged i fun w q => decide (argMinLen w ≤ q.len) with
  | some i => gate (0x40 + i)
  | none =>
    if frame % 16 ≠ 0 || !inTagged frame 48 || !regionOk d c comp frame 48 then
      some { code := 0x0A, detail := 1, source := some 10, addr := some frame }
    else none

/-- Write a key into a granule with its tag. -/
def putKey (c a : Nat) (p : Key) (d : Dev) : Dev := setTag c a p.tag (memWrite c a 16 p.val.toNat d)

/-- The acts of R394 through gate key register `g`; `next` is the return PC and `spent` the slots that the call has spent. -/
def gateEnter (c g : Nat) (next : Word) (spent : Nat) (d : Dev) : Dev :=
  let k := core d c
  let p := k.key g
  let a := (p.base + p.cursor) % 2 ^ 32
  let e := keyAt d c a
  let t := keyAt d c (a + 16)
  let comp : Byte := BitVec.ofNat 8 (memRead d c (a + 0x38) 1)
  let limit := memRead d c (a + 0x3C) 4
  let frame := (t.base + t.cursor + 2 ^ 32 - 48) % 2 ^ 32
  let clear (i : Nat) : Bool := argMode (argWord d c a i) == 2 || (argMode (argWord d c a i) == 1 && !(k.key i).tag)
  let d1 := memWrite c (frame + 32) 16 (next.toNat + k.comp.toNat * 2 ^ 32) (putKey c (frame + 16) k.pck (putKey c frame (k.key 7) d))
  updCore c (fun k =>
    let k1 := [1, 2, 3].foldl (fun (k : Core) i => if clear i then k.setKey i {} else k) k
    let k2 := [4, 5, 6].foldl (fun (k : Core) i => k.setKey i {}) k1
    let k0 := mkKey p.base p.len p.cursor (setBit p.perm permGATE false).toNat 0 false p.tag
    { (k2.setKey 0 k0).setKey 7 (t.withCursor (t.cursor - 48)) with
      pck := e, pc := BitVec.ofNat 32 e.cursor, comp := comp
      gates := k.gates ++ [{ frame := BitVec.ofNat 32 frame, caller := k.comp, target := comp, limited := limit != 0
                             left := BitVec.ofNat 32 (limit - spent) }] }) d1

/-- GCALL: 24 slots, which count under its LIMIT with those in which the buffer drains before the frame is written (R397). -/
def execGcall (c : Fin 4) (s : State) : Host.Outcome State Fault Refusal :=
  act (jumpRow c .gcall (fun _ _ => 24) fun i d0 =>
    let d := drainAll c d0
    match gateFault d c i.k ((core d c).pck.base + i.pc.toNat) with
    | some f => .error f
    | none => .ok (gateEnter c i.k i.next (23 + (core d0 c).sbuf.length) d)) s

/-- The acts of GRET (R396). -/
def gateReturn (c : Nat) (d : Dev) : StRes Dev :=
  match (core d c).gates.getLast? with
  | none => .error { code := 0x0A, detail := 2, source := some 10, addr := none }
  | some g =>
    let (k7, pck, ret, comp) := readFrame d c g.frame
    if !k7.tag || !pck.tag then .error { code := 0x0A, detail := 3, source := some 10, addr := some g.frame.toNat }
    else .ok (updCore c (fun k =>
      let k1 := [0, 4, 5, 6].foldl (fun (k : Core) i => k.setKey i {}) k
      { k1.setKey 7 k7 with pck := pck, pc := ret, comp := comp, gates := k.gates.dropLast }) d)

/-- The top call has reached its LIMIT (R397). -/
def limitHit (k : Core) : Bool := match k.gates.getLast? with | some g => g.limited && g.left == 0 | none => false

/-- GRET: 22 slots and those in which the buffer drains. A call that reached its LIMIT before the GRET completes raises 0x0C at the
boundary after it (R397). -/
def execGret (c : Fin 4) (s : State) : Host.Outcome State Fault Refusal :=
  act (withIns c .gret fun i d =>
    let d0 := updCore c (slots 21) d
    let d1 := drainAll c d0
    match gateReturn c d1 with
    | .error f => raiseIns c f i.pc (updCore c (slots 1) d0)
    | .ok d2 =>
      let d3 := updCore c (fun k => slots 1 (completeIns k)) d2
      let k := core d3 c
      if limitHit (core d1 c) then raiseFault c 0x0C 1 k.gdepth k.pc.toNat k.pc d3 else d3) s

/-! ### Levels (R390, R399, R405, R411) -/

/-- TRAP #n: level 1 from level 0 with MASK 0, else 0x11. Its saved PC is the next instruction. -/
def execTrap (c : Fin 4) (s : State) : Host.Outcome State Fault Refusal :=
  act (withIns c .trap fun i d =>
    let k := core d c
    let n := fld i.w 0 8
    let a := k.pck.base + i.pc.toNat
    if k.lvl = 0 ∧ k.mask = 0 then
      enterLevel c 1 0x10 n 0 a i.next (updCore c (fun k => { slots 1 (completeIns k) with pc := i.next }) d)
    else raiseFault c 0x11 n 0 a i.next (updCore c (slots 1) d)) s

/-- The acts of RTE at level `n` (R405). -/
def rteBody (c : Nat) (i : Ins) (d : Dev) : StRes Dev :=
  let k := core d c
  let n := k.lvl
  let x := at? k.sets (n - 1) {}
  if sealedComp d c x.comp then .error { code := 0x03, detail := 3, source := none, addr := none }
  else if x.gdepth.toNat ≠ k.gdepth then .error { code := 0x0B, detail := 0x80, addr := some (k.pck.base + i.pc.toNat) }
  else .ok (updCore c (fun k => { k with
    status := x.status, comp := x.comp, pc := x.spc, pck := x.spk, a := x.sa, abort := if n = 3 then false else k.abort }) d)

/-- An RTE that leaves the tick entry ends its count (R420). -/
def leaveTick (k : Core) : Core :=
  if k.tickActive && decide (k.lvl < 2) then
    { k with
      tickActive := false, tickCount := false
      tbudmax := if k.tickCount && decide (k.tbudmax.toNat < k.tbudcnt.toNat) then k.tbudcnt else k.tbudmax }
  else k

/-- RTE: 6 slots. The restored RP stands. A tick entry whose count reached ST_TBUDGET before the RTE that leaves it completes raises 0x0C
at the boundary after it (R420). -/
def execRte (c : Fin 4) (s : State) : Host.Outcome State Fault Refusal :=
  act (withIns c .rte fun i d =>
    let d0 := updCore c (slots 5) d
    match rteBody c i d0 with
    | .error f => raiseIns c f i.pc (updCore c (slots 1) d0)
    | .ok d1 =>
      let d2 := updCore c (fun k => leaveTick (slots 1 { k with perfIns := k.perfIns + 1 })) d1
      let k := core d2 c
      if (core d0 c).dueFault = some 0 ∧ !k.tickActive then raiseFault c 0x0C 0 k.gdepth k.pc.toNat k.pc d2 else d2) s

/-- WAIT: it stops issuing; EXCEPTION_ENTRY ends the wait, and every clk of it is a slot (`waitPass`). -/
def execWait (c : Fin 4) (s : State) : Host.Outcome State Fault Refusal :=
  act (plainRow c .wait fun k => { k with st := .waiting }) s

/-- SIGNAL #j. -/
def execSignal (c : Fin 4) (s : State) : Host.Outcome State Fault Refusal :=
  act (stRow c .signal (fun _ _ => 1) fun i d => .ok (raiseNext (0x400 + 32 * c + fld i.w 0 5) (drainAll c d))) s

/-- MASK #m. -/
def execMask (c : Fin 4) (s : State) : Host.Outcome State Fault Refusal :=
  act (stRow c .mask (fun _ _ => 1) fun i d =>
    let k := core d c
    let m := fld i.w 0 2
    if k.mask < m ∧ k.mgrant.toNat < m ∧ !k.pck.may permSYS then .error { code := 0x07, addr := some (k.pck.base + i.pc.toNat) }
    else .ok (updCore c (Core.setMask m) d)) s

/-! ### Special registers (R364, R391, R403, R404) -/

/-- SSTn. -/
def SaveSet.word (x : SaveSet) : Word := pack [(24, x.gdepth.toNat), (16, x.comp.toNat), (0, x.status.toNat)]

/-- What MFS reads. -/
def mfsVal (k : Core) (c s : Nat) : Word :=
  let x := at? k.sets (saveLevel s - 1) {}
  let own := at? k.sets (k.lvl - 1) {}
  match s with
  | 0 => k.status.zeroExtend 32
  | 1 => if k.lvl = 0 then 0 else own.cause
  | 2 => if k.lvl = 0 then 0 else own.causeAddr
  | 3 => k.busAddr
  | 4 => BitVec.ofNat 32 c
  | _ => if s ≤ 11 then x.spc else if s ≤ 15 then x.word else if s % 2 = 0 then bf x.sa 0 32 else (bf x.sa 32 8).zeroExtend 32

/-- What MTS writes. STATUS takes C, V, Z, N, H, S, OVEN, DZEN and RM; COMP and GDEPTH need SYS. -/
def mtsWrite (s : Nat) (v : Word) (k : Core) : Core :=
  if s = 0 then { k with status := mergeBits 0x3FF k.status (bf v 0 15) } else
  { k with sets := upd? k.sets (saveLevel s - 1) fun x =>
    if s ≤ 11 then { x with spc := v }
    else if s ≤ 15 then
      let y := { x with status := bf v 0 15 }
      if k.pck.may permSYS then { y with comp := bf v 16 8, gdepth := bf v 24 5 } else y
    else if s % 2 = 0 then { x with sa := bf x.sa 32 8 ++ v }
    else { x with sa := bf v 0 8 ++ bf x.sa 0 32 } }

/-- MFS. -/
def execMfs (c : Fin 4) (s : State) : Host.Outcome State Fault Refusal :=
  act (stRow c .mfs (fun _ _ => 1) fun i d => .ok (updCore c (fun k => k.setA (mfsVal k c (fld i.w 0 6))) d)) s

/-- MTS. -/
def execMts (c : Fin 4) (s : State) : Host.Outcome State Fault Refusal :=
  act (stRow c .mts (fun _ _ => 1) fun i d => .ok (updCore c (fun k => mtsWrite (fld i.w 0 6) k.a32 k) d)) s

/-! ### Keys (R365, R376 to R382) -/

/-- A fault of a key instruction on key register `i`; the spec states no CAUSE_ADDR. -/
def keyFault (code detail i : Nat) : StFault := { code := code, detail := detail, source := some i, addr := none }

/-- The first of the given failures. -/
def firstFault (l : List (Bool × StFault)) : Option StFault := (l.find? (·.1)).map (·.2)

/-- A key instruction that writes key register `i` with what `f` makes. -/
def keyRow (c : Nat) (o : StOp) (n : Nat) (bad : Ins → Core → List (Bool × StFault)) (f : Ins → Core → Core) (d : Dev) : Dev :=
  stRow c o (fun _ _ => n) (fun i d =>
    match firstFault (bad i (core d c)) with
    | some x => .error x
    | none => .ok (updCore c (f i) d)) d

/-- KMOVE. -/
def execKmove (c : Fin 4) (s : State) : Host.Outcome State Fault Refusal :=
  act (keyRow c .kmove 1 (fun _ _ => []) fun i k => k.setKey i.kd (k.key i.ks)) s
/-- KCLR. -/
def execKclr (c : Fin 4) (s : State) : Host.Outcome State Fault Refusal :=
  act (keyRow c .kclr 1 (fun _ _ => []) fun i k => k.setKey i.kd {}) s
/-- KDERIVE. -/
def execKderive (c : Fin 4) (s : State) : Host.Outcome State Fault Refusal :=
  act (keyRow c .kderive 2
    (fun i k =>
      let p := k.key i.ks
      [(!p.tag, keyFault 0x01 0 i.ks), (p.sealed, keyFault 0x04 0 i.ks), (decide (p.len < k.x.toNat + k.y.toNat), keyFault 0x02 0 i.ks)])
    fun i k =>
      let p := k.key i.ks
      k.setKey i.kd (mkKey (p.base + k.x.toNat) k.y.toNat 0 (p.perm &&& bf k.a 0 16).toNat 0 false true)) s
/-- KSEAL. -/
def execKseal (c : Fin 4) (s : State) : Host.Outcome State Fault Refusal :=
  act (keyRow c .kseal 3
    (fun i k =>
      let p := k.key i.ks
      let kc := fld i.ext 0 3
      let q := k.key kc
      [(!p.tag, keyFault 0x01 0 i.ks), (p.sealed, keyFault 0x04 0 i.ks), (!q.tag, keyFault 0x01 0 kc), (q.sealed, keyFault 0x04 0 kc),
       (!q.may permSEAL, keyFault 0x03 0 kc),
       (!(decide (q.cursor < q.len) && decide (1 ≤ q.base + q.cursor) && decide (q.base + q.cursor ≤ 4095)), keyFault 0x02 0 kc)])
    fun i k =>
      let p := k.key i.ks
      let q := k.key (fld i.ext 0 3)
      k.setKey i.kd (mkKey p.base p.len p.cursor p.perm.toNat (q.base + q.cursor) true true)) s
/-- KUNSEAL. -/
def execKunseal (c : Fin 4) (s : State) : Host.Outcome State Fault Refusal :=
  act (keyRow c .kunseal 3
    (fun i k =>
      let p := k.key i.ks
      let kc := fld i.ext 0 3
      let q := k.key kc
      [(!p.tag, keyFault 0x01 0 i.ks), (!q.tag, keyFault 0x01 0 kc), (q.sealed, keyFault 0x04 0 kc), (!q.may permUNSEAL, keyFault 0x03 0 kc),
       (!(p.sealed && decide (q.cursor < q.len) && q.base + q.cursor == p.otype), keyFault 0x03 2 i.ks)])
    fun i k => k.setKey i.kd (k.key i.ks).unsealed) s
/-- KBASE. -/
def execKbase (c : Fin 4) (s : State) : Host.Outcome State Fault Refusal :=
  act (keyRow c .kbase 1 (fun _ _ => []) fun i k => k.setA (BitVec.ofNat 32 (k.key i.ks).base)) s
/-- KLEN. -/
def execKlen (c : Fin 4) (s : State) : Host.Outcome State Fault Refusal :=
  act (keyRow c .klen 1 (fun _ _ => []) fun i k => k.setA (BitVec.ofNat 32 (k.key i.ks).len)) s
/-- KCUR. -/
def execKcur (c : Fin 4) (s : State) : Host.Outcome State Fault Refusal :=
  act (keyRow c .kcur 1 (fun _ _ => []) fun i k => k.setA (BitVec.ofNat 32 (k.key i.ks).cursor)) s
/-- KPERM. -/
def execKperm (c : Fin 4) (s : State) : Host.Outcome State Fault Refusal :=
  act (keyRow c .kperm 1 (fun _ _ => []) fun i k => k.setA (bf (k.key i.ks).val 96 32)) s

/-- The checks of KSETC and KADDC. -/
def cursorChecks (i : Ins) (k : Core) : List (Bool × StFault) :=
  [(!(k.key i.kd).tag, keyFault 0x01 0 i.kd), ((k.key i.kd).sealed, keyFault 0x04 0 i.kd)]

/-- KSETC. -/
def execKsetc (c : Fin 4) (s : State) : Host.Outcome State Fault Refusal :=
  act (keyRow c .ksetc 1 cursorChecks fun i k => k.setKey i.kd ((k.key i.kd).withCursor k.a32.toNat)) s
/-- KADDC. -/
def execKaddc (c : Fin 4) (s : State) : Host.Outcome State Fault Refusal :=
  act (keyRow c .kaddc 1 cursorChecks fun i k => k.setKey i.kd ((k.key i.kd).withCursor ((k.key i.kd).cursor + k.a32.toNat))) s

/-- The key register of special key `sk`: PCK, VKEY, SPK1 to SPK3. -/
def specialKey (i : Ins) : Nat := 8 + fld i.ext 0 4

/-- KMFS. It accepts no sealed key (R382), where a register without its tag holds no key (DEDUCED, log entry 99); R404 numbers no
save-set key. -/
def execKmfs (c : Fin 4) (s : State) : Host.Outcome State Fault Refusal :=
  act (keyRow c .kmfs 1
    (fun i k =>
      let n := specialKey i
      [((k.key n).tag && (k.key n).sealed, { code := 0x04, source := if n ≤ 9 then some n else none, addr := none })])
    fun i k => k.setKey i.kd (k.key (specialKey i))) s
/-- KMTS: VKEY needs SYS in PCK. -/
def execKmts (c : Fin 4) (s : State) : Host.Outcome State Fault Refusal :=
  act (keyRow c .kmts 1
    (fun i k => [(specialKey i == 9 && !k.pck.may permSYS, { code := 0x07, addr := some (k.pck.base + i.pc.toNat) })])
    fun i k => k.setKey (specialKey i) (k.key i.ks)) s
/-- KTAG. -/
def execKtag (c : Fin 4) (s : State) : Host.Outcome State Fault Refusal :=
  act (keyRow c .ktag 1 (fun _ _ => []) fun i k => k.setFlag stZ (k.key i.ks).tag) s

/-- The granule of KLD and KST: the key register and the offset (R335). -/
def granuleOffset (i : Ins) (k : Core) : Nat :=
  let cur := BitVec.ofNat 32 (k.key i.k).cursor
  (match i.md' with | 0 => cur + i.d16 | 1 => cur + k.x + i.d16 | _ => cur).toNat

/-- A checked key access in the tagged memories; `f` gets the key and the address, then the cursor advances in mode 2. -/
def keyAccess (c : Nat) (i : Ins) (acc : Acc) (f : Key → Nat → Dev → Dev) (d0 : Dev) : StRes Dev :=
  let d := drainAll c d0
  let k := core d c
  let p := k.key i.k
  let o := granuleOffset i k
  let a := (p.base + o) % 2 ^ 32
  match accessFault d c i.k p o 16 acc false with
  | some x => .error x
  | none =>
    if !inTagged a 16 then .error { code := 0x0E, addr := some a }
    else .ok (f p a (if i.md' = 2 then advance c i.k 16 d else d))

/-- Slots of KLD and KST. -/
def keySlots (c : Nat) (i : Ins) (k : Core) : Nat := 2 + extraSlots c k (((k.key i.k).base + granuleOffset i k) % 2 ^ 32) 16

/-- KLD: the tag comes along through an LK key (R376). -/
def execKld (c : Fin 4) (s : State) : Host.Outcome State Fault Refusal :=
  act (stRow c .kld (keySlots c) fun i d => keyAccess c i .load (fun p a d =>
    let g := keyAt d c a
    updCore c (fun k => k.setKey i.kd { g with tag := g.tag && p.may permLK }) d) d) s

/-- A key may keep its tag when it is stored through `p` at `a` (R377). -/
def keepsTag (p g : Key) (a : Nat) : Bool := g.tag && p.may permSK && (!inMbox a || g.len == 0 || decide (0x40000 ≤ g.base))

/-- KST: performed after the buffer drains (R377). -/
def execKst (c : Fin 4) (s : State) : Host.Outcome State Fault Refusal :=
  act (stRow c .kst (keySlots c) fun i d =>
    let g := (core d c).key i.kd
    keyAccess c i .store (fun p a d => putKey c a { g with tag := keepsTag p g a } d) d) s

end Sys2Proof.Machine
end

