-- ==== Sys2Proof/Machine/Tap.lean ====
section
/-!
DEFINITION. Sys2Proof/Machine/Tap.lean: the test access port (R646, R647) as IEEE 1149.1-2013 gives it, and the levels at the output
balls while it takes them over. Instruction codes, register lengths and the order of the boundary cells are free (DESIGN CHOICE, log entry 49).
-/
namespace Sys2Proof.Machine

/-- Take the next free bit of the TAP. -/
def tapBit (t : Tap) : Bool × Tap := (Config.tapFree t.freeCtr, { t with freeCtr := t.freeCtr + 1 })

/-- The state a rising TCK edge leads to. -/
def tapNext : TapSt → Bool → TapSt
  | .reset, tms => if tms then .reset else .idle
  | .idle, tms => if tms then .selDr else .idle
  | .selDr, tms => if tms then .selIr else .capDr
  | .capDr, tms => if tms then .ex1Dr else .shDr
  | .shDr, tms => if tms then .ex1Dr else .shDr
  | .ex1Dr, tms => if tms then .updDr else .pauseDr
  | .pauseDr, tms => if tms then .ex2Dr else .pauseDr
  | .ex2Dr, tms => if tms then .updDr else .shDr
  | .updDr, tms => if tms then .selDr else .idle
  | .selIr, tms => if tms then .reset else .capIr
  | .capIr, tms => if tms then .ex1Ir else .shIr
  | .shIr, tms => if tms then .ex1Ir else .shIr
  | .ex1Ir, tms => if tms then .updIr else .pauseIr
  | .pauseIr, tms => if tms then .ex2Ir else .pauseIr
  | .ex2Ir, tms => if tms then .updIr else .shIr
  | .updIr, tms => if tms then .selDr else .idle

/-- The instruction a code selects: all ones and every unlisted code select BYPASS (IEEE 1149.1). -/
def tapInstrOf (code : List Bool) : TapInstr :=
  if code.all id then .bypass else
  match Config.tapCode code with
  | 1 => .sample
  | 2 => .preload
  | 3 => .extest
  | 4 => .clamp
  | 5 => .highz
  | _ => .bypass

/-- The instruction has the boundary register as its data register. -/
def usesBoundary : TapInstr → Bool
  | .sample | .preload | .extest => true
  | .bypass | .clamp | .highz => false

/-- The level the boundary cell of kind `k` samples, none where the spec states none: 0 to 63 the input of lane k, 64 to 127 its
output data, 128 to 191 its output enable, 193 TICK_OUT, 194 and 195 SAFE_OUT0 and SAFE_OUT1, 196 ALERT_N; 192 and 197 to 201 the system
inputs, whose levels no state holds. -/
def cellCapture (d : Dev) (k : Nat) : Option Bool :=
  if k < 64 then some (lane d k).sync
  else if k < 128 then laneDrive d (k - 64)
  else if k < 192 then some (laneDrive d (k - 128)).isSome
  else if k = 193 then some d.tb.tickOut
  else if k = 194 then some (safeOut d 0)
  else if k = 195 then some (safeOut d 1)
  else if k = 196 then some (!alertLow d)
  else none

/-- The cells capture: SAMPLE every cell, EXTEST the inputs; what any other cell captures is free. -/
def captureCells (d : Dev) : List Nat → Tap → List Bool × Tap
  | [], t => ([], t)
  | c :: cs, t =>
    let k := Config.tapCell c
    let v := if t.instr = .sample ∨ (t.instr = .extest ∧ k < 64) then cellCapture d k else none
    let (b, t1) := match v with
      | some b => (b, t)
      | none => tapBit t
    let (bs, t2) := captureCells d cs t1
    (b :: bs, t2)

/-- The instruction register captures 1, 0 and free bits above (IEEE 1149.1). -/
def captureIr : Nat → Tap → List Bool × Tap
  | 0, t => ([true, false], t)
  | n + 1, t =>
    let (bs, t1) := captureIr n t
    let (b, t2) := tapBit t1
    (bs ++ [b], t2)

/-- Shift one bit towards TDO. -/
def tapShift (l : List Bool) (tdi : Bool) : List Bool := l.tail ++ [tdi]

/-- What a rising TCK edge does in the state it ends. -/
def tapAct (d : Dev) (tdi : Bool) (t : Tap) : Tap :=
  match t.st with
  | .capDr =>
    if usesBoundary t.instr then
      let (bs, t1) := captureCells d (List.range Config.tapCells) t
      { t1 with shift := bs }
    else { t with shift := [false] }
  | .capIr =>
    let (bs, t1) := captureIr Config.tapIrExtra t
    { t1 with irShift := bs }
  | .shDr => { t with shift := tapShift t.shift tdi }
  | .shIr => { t with irShift := tapShift t.irShift tdi }
  | _ => t

/-- A rising TCK edge: the action of the state it ends, then the next state. -/
def tapRise (d : Dev) (tms tdi : Bool) (t : Tap) : Tap := { tapAct d tdi t with st := tapNext t.st tms }

/-- A falling TCK edge: updates act, and TDO is driven in the shift states only (R628). -/
def tapFall (t : Tap) : Tap :=
  let t1 : Tap := match t.st with
    | .reset => { t with instr := .bypass }
    | .updIr => { t with instr := tapInstrOf t.irShift }
    | .updDr => if t.instr == TapInstr.preload || t.instr == TapInstr.extest then { t with latch := t.shift } else t
    | _ => t
  { t1 with tdo := match t.st with
      | .shDr => t.shift.head?
      | .shIr => t.irShift.head?
      | _ => none }

/-- TCK takes the level `rising` with TRST_N at its level; TRST_N low holds Test-Logic-Reset, and without a change of TCK there is
no edge. -/
def tckEdge (rising tms tdi trstN : Bool) (d : Dev) (t : Tap) : Tap :=
  if !trstN then { t with tck := rising, st := .reset, instr := .bypass, tdo := none }
  else if rising == t.tck then t
  else if rising then tapRise d tms tdi { t with tck := true }
  else tapFall { t with tck := false }

/-! ### The levels at the output balls (R213, R221, R628, R647) -/

/-- The latch of the boundary cell of kind `k`. -/
def cellLatch (t : Tap) (k : Nat) : Option Bool :=
  ((List.range Config.tapCells).find? fun c => Config.tapCell c == k).bind fun c => t.latch[c]?

/-- The boundary cells set the covered outputs. -/
def scanHeld (t : Tap) : Bool := t.instr == .extest || t.instr == .clamp

/-- What drives the ball of lane `n`, none for high impedance. A bank outside its window drives nothing (R637). -/
def laneBall (s : State) (n : Nat) : Option Bool :=
  if s.dev.committed ∧ !laneGood s.dev n then none
  else if s.tap.instr = .highz then none
  else if scanHeld s.tap then (if cellLatch s.tap (128 + n) = some true then cellLatch s.tap (64 + n) else none)
  else laneDrive s.dev n

/-- What drives a push-pull system output whose own level is `own` and whose cell is of kind `k`. -/
def sysBall (t : Tap) (k : Nat) (own : Bool) : Option Bool :=
  if t.instr = .highz then none else if scanHeld t then cellLatch t k else some own

/-- TICK_OUT and SAFE_OUT`i`. -/
def tickBall (s : State) : Option Bool := sysBall s.tap 193 s.dev.tb.tickOut
def safeBall (s : State) (i : Nat) : Option Bool := sysBall s.tap (194 + i) (safeOut s.dev i)

/-- ALERT_N, open drain: driven low or not driven (R617). -/
def alertBall (s : State) : Option Bool :=
  if s.tap.instr = .highz then none
  else if (if scanHeld s.tap then cellLatch s.tap 196 == some false else alertLow s.dev) then some false else none

/-- TCK_EDGE: nothing but the TAP changes (R646). -/
def execTckEdge (rising tms tdi trstN : Bool) (s : State) : Host.Outcome State Fault Refusal :=
  .next { s with tap := tckEdge rising tms tdi trstN s.dev s.tap }

end Sys2Proof.Machine
end

