-- ==== Sys2Proof/Machine/Dispatch.lean ====
section
/-!
DEFINITION. Sys2Proof/Machine/Dispatch.lean: the meaning of every command, one arm per row of spec/opcode_table.json.
-/
namespace Sys2Proof.Machine

/-- The command's effect on everything but the queue. -/
def exec (i : Instr) (s : State) : Host.Outcome State Fault Refusal :=
  match i with
  | .pReset cause => Sys2Proof.Machine.execPReset cause s
  | .pResetEnd role bistAtStart => Sys2Proof.Machine.execPResetEnd role bistAtStart s
  | .corePllLock => Sys2Proof.Machine.execCorePllLock s
  | .memoryClearEnd => Sys2Proof.Machine.execMemoryClearEnd s
  | .fclkLossOfLock => Sys2Proof.Machine.execFclkLossOfLock s
  | .ringPllLossOfLock => Sys2Proof.Machine.execRingPllLossOfLock s
  | .refclkStop => Sys2Proof.Machine.execRefclkStop s
  | .vddAonLoss => Sys2Proof.Machine.execVddAonLoss s
  | .vddaSerLoss => Sys2Proof.Machine.execVddaSerLoss s
  | .bankSupplyLoss k => Sys2Proof.Machine.execBankSupplyLoss k s
  | .bankSupplyReturn k => Sys2Proof.Machine.execBankSupplyReturn k s
  | .wReset cause => Sys2Proof.Machine.execWReset cause s
  | .wResetEnd => Sys2Proof.Machine.execWResetEnd s
  | .rstcmd who v be => Sys2Proof.Machine.execRstcmd who v be s
  | .hotReset => Sys2Proof.Machine.execHotReset s
  | .dlDown => Sys2Proof.Machine.execDlDown s
  | .initFlr v be => Sys2Proof.Machine.execInitFlr v be s
  | .flrEnd => Sys2Proof.Machine.execFlrEnd s
  | .trlStart who v be => Sys2Proof.Machine.execTrlStart who v be s
  | .trlAbort who v be => Sys2Proof.Machine.execTrlAbort who v be s
  | .trlFifoWrite who ws poison ue => Sys2Proof.Machine.execTrlFifoWrite who ws poison ue s
  | .trlDmaChunk who v be => Sys2Proof.Machine.execTrlDmaChunk who v be s
  | .trlCommit who v be => Sys2Proof.Machine.execTrlCommit who v be s
  | .workerImageResult node code off => Sys2Proof.Machine.execWorkerImageResult node code off s
  | .cellarBankPowerUp k => Sys2Proof.Machine.execCellarBankPowerUp k s
  | .tickBoundary => Sys2Proof.Machine.execTickBoundary s
  | .tickOutFall => Sys2Proof.Machine.execTickOutFall s
  | .budgetOverrun e => Sys2Proof.Machine.execBudgetOverrun e s
  | .stallLimit e => Sys2Proof.Machine.execStallLimit e s
  | .resTimeout b slot => Sys2Proof.Machine.execResTimeout b slot s
  | .graceExpired e => Sys2Proof.Machine.execGraceExpired e s
  | .precopyEnd e ecc => Sys2Proof.Machine.execPrecopyEnd e ecc s
  | .cutoverEnd e => Sys2Proof.Machine.execCutoverEnd e s
  | .fault e cs scr => Sys2Proof.Machine.execFault e cs scr s
  | .next e cs scr => Sys2Proof.Machine.execNext e cs scr s
  | .jump e cs scr => Sys2Proof.Machine.execJump e cs scr s
  | .br2 e cs scr => Sys2Proof.Machine.execBr2 e cs scr s
  | .br4 e cs scr => Sys2Proof.Machine.execBr4 e cs scr s
  | .seqCall e cs scr => Sys2Proof.Machine.execSeqCall e cs scr s
  | .seqRet e cs scr => Sys2Proof.Machine.execSeqRet e cs scr s
  | .loop e cs scr => Sys2Proof.Machine.execLoop e cs scr s
  | .seqWait e cs scr => Sys2Proof.Machine.execSeqWait e cs scr s
  | .dispatch e cs scr => Sys2Proof.Machine.execDispatch e cs scr s
  | .yield e cs scr => Sys2Proof.Machine.execYield e cs scr s
  | .park e cs scr => Sys2Proof.Machine.execPark e cs scr s
  | .shin e cs scr => Sys2Proof.Machine.execShin e cs scr s
  | .shinr e cs scr => Sys2Proof.Machine.execShinr e cs scr s
  | .shout e cs scr => Sys2Proof.Machine.execShout e cs scr s
  | .shoutr e cs scr => Sys2Proof.Machine.execShoutr e cs scr s
  | .bgin e cs scr => Sys2Proof.Machine.execBgin e cs scr s
  | .xfer e cs scr => Sys2Proof.Machine.execXfer e cs scr s
  | .backgroundEnd e => Sys2Proof.Machine.execBackgroundEnd e s
  | .tspop e cs scr => Sys2Proof.Machine.execTspop e cs scr s
  | .reserve e cs scr => Sys2Proof.Machine.execReserve e cs scr s
  | .reserveg e cs scr => Sys2Proof.Machine.execReserveg e cs scr s
  | .append e cs scr => Sys2Proof.Machine.execAppend e cs scr s
  | .appendsl e cs scr => Sys2Proof.Machine.execAppendsl e cs scr s
  | .appendsh e cs scr => Sys2Proof.Machine.execAppendsh e cs scr s
  | .commit e cs scr => Sys2Proof.Machine.execCommit e cs scr s
  | .void e cs scr => Sys2Proof.Machine.execVoid e cs scr s
  | .recordRelease b => Sys2Proof.Machine.execRecordRelease b s
  | .parkRequest who e v => Sys2Proof.Machine.execParkRequest who e v s
  | .unpark who e v => Sys2Proof.Machine.execUnpark who e v s
  | .enFreeze who e v => Sys2Proof.Machine.execEnFreeze who e v s
  | .enThaw who e v => Sys2Proof.Machine.execEnThaw who e v s
  | .enReset who e v => Sys2Proof.Machine.execEnReset who e v s
  | .replantGo who e v => Sys2Proof.Machine.execReplantGo who e v s
  | .replantCancel who e v => Sys2Proof.Machine.execReplantCancel who e v s
  | .xplantGo who e v => Sys2Proof.Machine.execXplantGo who e v s
  | .xplantCancel who e v => Sys2Proof.Machine.execXplantCancel who e v s
  | .entryset who e v => Sys2Proof.Machine.execEntryset who e v s
  | .csaddrWrite who e v => Sys2Proof.Machine.execCsaddrWrite who e v s
  | .csdataWrite who e v => Sys2Proof.Machine.execCsdataWrite who e v s
  | .resume who e v => Sys2Proof.Machine.execResume who e v s
  | .step who e v cs scr => Sys2Proof.Machine.execStep who e v cs scr s
  | .laneEdge n dt => Sys2Proof.Machine.execLaneEdge n dt s
  | .laneFirstLevel n => Sys2Proof.Machine.execLaneFirstLevel n s
  | .laneSample n => Sys2Proof.Machine.execLaneSample n s
  | .serialiserBit n => Sys2Proof.Machine.execSerialiserBit n s
  | .lanePulseEnd n => Sys2Proof.Machine.execLanePulseEnd n s
  | .contention n => Sys2Proof.Machine.execContention n s
  | .pairSample p => Sys2Proof.Machine.execPairSample p s
  | .pairClear who p v => Sys2Proof.Machine.execPairClear who p v s
  | .tbLoad who v => Sys2Proof.Machine.execTbLoad who v s
  | .tbNowLoRead who be => Sys2Proof.Machine.execTbNowLoRead who be s
  | .ppsEdge dt => Sys2Proof.Machine.execPpsEdge dt s
  | .ppsLost => Sys2Proof.Machine.execPpsLost s
  | .arm who k v => Sys2Proof.Machine.execArm who k v s
  | .disarm who k v => Sys2Proof.Machine.execDisarm who k v s
  | .clrm who k v => Sys2Proof.Machine.execClrm who k v s
  | .compareMatch k => Sys2Proof.Machine.execCompareMatch k s
  | .matchedPulseEnd k => Sys2Proof.Machine.execMatchedPulseEnd k s
  | .gcWrap g => Sys2Proof.Machine.execGcWrap g s
  | .gcThreshold g => Sys2Proof.Machine.execGcThreshold g s
  | .gcLoad who g v => Sys2Proof.Machine.execGcLoad who g v s
  | .clrwrap who g v => Sys2Proof.Machine.execClrwrap who g v s
  | .softset who g v => Sys2Proof.Machine.execSoftset who g v s
  | .softclr who g v => Sys2Proof.Machine.execSoftclr who g v s
  | .eventDelivery => Sys2Proof.Machine.execEventDelivery s
  | .triggerRecord b => Sys2Proof.Machine.execTriggerRecord b s
  | .larderPop c => Sys2Proof.Machine.execLarderPop c s
  | .assertInta => Sys2Proof.Machine.execAssertInta s
  | .deassertInta => Sys2Proof.Machine.execDeassertInta s
  | .rcFieldRead who sp off bes ce ue => Sys2Proof.Machine.execRcFieldRead who sp off bes ce ue s
  | .registerWrite who sp off ws poison => Sys2Proof.Machine.execRegisterWrite who sp off ws poison s
  | .clBack who b v => Sys2Proof.Machine.execClBack who b v s
  | .clSreq c v => Sys2Proof.Machine.execClSreq c v s
  | .clSappend c v => Sys2Proof.Machine.execClSappend c v s
  | .clScommit c v => Sys2Proof.Machine.execClScommit c v s
  | .clSvoid c v => Sys2Proof.Machine.execClSvoid c v s
  | .blockGrant b => Sys2Proof.Machine.execBlockGrant b s
  | .sealRecord ecc => Sys2Proof.Machine.execSealRecord ecc s
  | .repairGo who v => Sys2Proof.Machine.execRepairGo who v s
  | .repairStart bank row => Sys2Proof.Machine.execRepairStart bank row s
  | .repairSwitch copy => Sys2Proof.Machine.execRepairSwitch copy s
  | .ld c ecc => Sys2Proof.Machine.execLd c ecc s
  | .st c => Sys2Proof.Machine.execSt c s
  | .ldr c ecc => Sys2Proof.Machine.execLdr c ecc s
  | .str c => Sys2Proof.Machine.execStr c s
  | .addr c ecc => Sys2Proof.Machine.execAddr c ecc s
  | .cmpr c ecc => Sys2Proof.Machine.execCmpr c ecc s
  | .push c => Sys2Proof.Machine.execPush c s
  | .pop c ecc => Sys2Proof.Machine.execPop c ecc s
  | .clra c => Sys2Proof.Machine.execClra c s
  | .sexb c => Sys2Proof.Machine.execSexb c s
  | .sexh c => Sys2Proof.Machine.execSexh c s
  | .clrmp c => Sys2Proof.Machine.execClrmp c s
  | .nop c => Sys2Proof.Machine.execNop c s
  | .fence c => Sys2Proof.Machine.execFence c s
  | .add c ecc => Sys2Proof.Machine.execAdd c ecc s
  | .adc c ecc => Sys2Proof.Machine.execAdc c ecc s
  | .sub c ecc => Sys2Proof.Machine.execSub c ecc s
  | .sbc c ecc => Sys2Proof.Machine.execSbc c ecc s
  | .cmp c ecc => Sys2Proof.Machine.execCmp c ecc s
  | .and c ecc => Sys2Proof.Machine.execAnd c ecc s
  | .or c ecc => Sys2Proof.Machine.execOr c ecc s
  | .xor c ecc => Sys2Proof.Machine.execXor c ecc s
  | .tst c ecc => Sys2Proof.Machine.execTst c ecc s
  | .neg c => Sys2Proof.Machine.execNeg c s
  | .not c => Sys2Proof.Machine.execNot c s
  | .shift c => Sys2Proof.Machine.execShift c s
  | .addf c ecc => Sys2Proof.Machine.execAddf c ecc s
  | .subf c ecc => Sys2Proof.Machine.execSubf c ecc s
  | .sat c => Sys2Proof.Machine.execSat c s
  | .rnd c => Sys2Proof.Machine.execRnd c s
  | .mul c ecc => Sys2Proof.Machine.execMul c ecc s
  | .mulu c ecc => Sys2Proof.Machine.execMulu c ecc s
  | .mulf c ecc => Sys2Proof.Machine.execMulf c ecc s
  | .mac c ecc => Sys2Proof.Machine.execMac c ecc s
  | .macu c ecc => Sys2Proof.Machine.execMacu c ecc s
  | .macf c ecc => Sys2Proof.Machine.execMacf c ecc s
  | .multiplyLanding c => Sys2Proof.Machine.execMultiplyLanding c s
  | .div c ecc => Sys2Proof.Machine.execDiv c ecc s
  | .divu c ecc => Sys2Proof.Machine.execDivu c ecc s
  | .addd c ecc => Sys2Proof.Machine.execAddd c ecc s
  | .subd c ecc => Sys2Proof.Machine.execSubd c ecc s
  | .daa c => Sys2Proof.Machine.execDaa c s
  | .das c => Sys2Proof.Machine.execDas c s
  | .cvbd c n => Sys2Proof.Machine.execCvbd c n s
  | .movs c n ecc => Sys2Proof.Machine.execMovs c n ecc s
  | .fils c n ecc => Sys2Proof.Machine.execFils c n ecc s
  | .cmps c n ecc => Sys2Proof.Machine.execCmps c n ecc s
  | .scns c n ecc => Sys2Proof.Machine.execScns c n ecc s
  | .crcs c n ecc => Sys2Proof.Machine.execCrcs c n ecc s
  | .tas c => Sys2Proof.Machine.execTas c s
  | .lrW c ecc => Sys2Proof.Machine.execLrW c ecc s
  | .scW c => Sys2Proof.Machine.execScW c s
  | .reservationLapse c => Sys2Proof.Machine.execReservationLapse c s
  | .bcc c => Sys2Proof.Machine.execBcc c s
  | .jmp c ecc => Sys2Proof.Machine.execJmp c ecc s
  | .call c ecc => Sys2Proof.Machine.execCall c ecc s
  | .ret c ecc => Sys2Proof.Machine.execRet c ecc s
  | .gcall c => Sys2Proof.Machine.execGcall c s
  | .gret c => Sys2Proof.Machine.execGret c s
  | .gateLimit c => Sys2Proof.Machine.execGateLimit c s
  | .trap c => Sys2Proof.Machine.execTrap c s
  | .rte c => Sys2Proof.Machine.execRte c s
  | .wait c => Sys2Proof.Machine.execWait c s
  | .signal c => Sys2Proof.Machine.execSignal c s
  | .mask c => Sys2Proof.Machine.execMask c s
  | .mfs c => Sys2Proof.Machine.execMfs c s
  | .mts c => Sys2Proof.Machine.execMts c s
  | .kmove c => Sys2Proof.Machine.execKmove c s
  | .kclr c => Sys2Proof.Machine.execKclr c s
  | .kderive c => Sys2Proof.Machine.execKderive c s
  | .kseal c => Sys2Proof.Machine.execKseal c s
  | .kunseal c => Sys2Proof.Machine.execKunseal c s
  | .kbase c => Sys2Proof.Machine.execKbase c s
  | .klen c => Sys2Proof.Machine.execKlen c s
  | .kcur c => Sys2Proof.Machine.execKcur c s
  | .kperm c => Sys2Proof.Machine.execKperm c s
  | .ksetc c => Sys2Proof.Machine.execKsetc c s
  | .kaddc c => Sys2Proof.Machine.execKaddc c s
  | .kmfs c => Sys2Proof.Machine.execKmfs c s
  | .kmts c => Sys2Proof.Machine.execKmts c s
  | .ktag c => Sys2Proof.Machine.execKtag c s
  | .kld c => Sys2Proof.Machine.execKld c s
  | .kst c => Sys2Proof.Machine.execKst c s
  | .storeDrain c => Sys2Proof.Machine.execStoreDrain c s
  | .prefetch c => Sys2Proof.Machine.execPrefetch c s
  | .exceptionEntry c => Sys2Proof.Machine.execExceptionEntry c s
  | .tickBudgetFault c => Sys2Proof.Machine.execTickBudgetFault c s
  | .stFreeze who c v => Sys2Proof.Machine.execStFreeze who c v s
  | .stThaw who c v => Sys2Proof.Machine.execStThaw who c v s
  | .lockstepEvent c dis parityIn parityOut => Sys2Proof.Machine.execLockstepEvent c dis parityIn parityOut s
  | .coreWarmResetEnd c => Sys2Proof.Machine.execCoreWarmResetEnd c s
  | .comparatorInjection c reported rails => Sys2Proof.Machine.execComparatorInjection c reported rails s
  | .wdPeriodStart w => Sys2Proof.Machine.execWdPeriodStart w s
  | .wdAnswer who w v => Sys2Proof.Machine.execWdAnswer who w v s
  | .wdWindowEnd w => Sys2Proof.Machine.execWdWindowEnd w s
  | .wdConfigWrite who w r v => Sys2Proof.Machine.execWdConfigWrite who w r v s
  | .clearlog who v be => Sys2Proof.Machine.execClearlog who v be s
  | .bistGo who v => Sys2Proof.Machine.execBistGo who v s
  | .rotatingTest => Sys2Proof.Machine.execRotatingTest s
  | .bistEnd sig patternUe => Sys2Proof.Machine.execBistEnd sig patternUe s
  | .linkUp p => Sys2Proof.Machine.execLinkUp p s
  | .linkDown p => Sys2Proof.Machine.execLinkDown p s
  | .bypassOpen => Sys2Proof.Machine.execBypassOpen s
  | .leave who v => Sys2Proof.Machine.execLeave who v s
  | .reenum who v => Sys2Proof.Machine.execReenum who v s
  | .becomeMaster => Sys2Proof.Machine.execBecomeMaster s
  | .beaconTimer => Sys2Proof.Machine.execBeaconTimer s
  | .standbyTakeover => Sys2Proof.Machine.execStandbyTakeover s
  | .cellForward p bytes fin => Sys2Proof.Machine.execCellForward p bytes fin s
  | .link p bytes fin => Sys2Proof.Machine.execLink p bytes fin s
  | .nak p bytes fin => Sys2Proof.Machine.execNak p bytes fin s
  | .hopRetryTimeout p => Sys2Proof.Machine.execHopRetryTimeout p s
  | .syncExchange t1 => Sys2Proof.Machine.execSyncExchange t1 s
  | .sync p bytes fin t2 t3 => Sys2Proof.Machine.execSync p bytes fin t2 t3 s
  | .syncr p bytes fin t4 => Sys2Proof.Machine.execSyncr p bytes fin t4 s
  | .beacon p bytes fin => Sys2Proof.Machine.execBeacon p bytes fin s
  | .discover p bytes fin => Sys2Proof.Machine.execDiscover p bytes fin s
  | .hello p bytes fin => Sys2Proof.Machine.execHello p bytes fin s
  | .topo p bytes fin => Sys2Proof.Machine.execTopo p bytes fin s
  | .assign p bytes fin => Sys2Proof.Machine.execAssign p bytes fin s
  | .rd p bytes fin => Sys2Proof.Machine.execRd p bytes fin s
  | .rdns p bytes fin => Sys2Proof.Machine.execRdns p bytes fin s
  | .wr p bytes fin => Sys2Proof.Machine.execWr p bytes fin s
  | .sched p bytes fin => Sys2Proof.Machine.execSched p bytes fin s
  | .resp p bytes fin => Sys2Proof.Machine.execResp p bytes fin s
  | .cmdGo who ch v => Sys2Proof.Machine.execCmdGo who ch v s
  | .cmdTimeout ch => Sys2Proof.Machine.execCmdTimeout ch s
  | .slotOpen slot => Sys2Proof.Machine.execSlotOpen slot s
  | .recCell p bytes fin => Sys2Proof.Machine.execRecCell p bytes fin s
  | .recack p bytes fin => Sys2Proof.Machine.execRecack p bytes fin s
  | .recnak p bytes fin => Sys2Proof.Machine.execRecnak p bytes fin s
  | .recResend b => Sys2Proof.Machine.execRecResend b s
  | .evrel p bytes fin => Sys2Proof.Machine.execEvrel p bytes fin s
  | .d3hotEntry v be => Sys2Proof.Machine.execD3hotEntry v be s
  | .d0Return v be => Sys2Proof.Machine.execD0Return v be s
  | .pmeTurnOff => Sys2Proof.Machine.execPmeTurnOff s
  | .completionReceived tag status poison ue data hdr => Sys2Proof.Machine.execCompletionReceived tag status poison ue data hdr s
  | .completionTimeout tag hdr => Sys2Proof.Machine.execCompletionTimeout tag hdr s
  | .pcieError e hdr => Sys2Proof.Machine.execPcieError e hdr s
  | .l0sEntry => Sys2Proof.Machine.execL0sEntry s
  | .l1Entry accepted => Sys2Proof.Machine.execL1Entry accepted s
  | .l1Exit => Sys2Proof.Machine.execL1Exit s
  | .drainPass ce ue => Sys2Proof.Machine.execDrainPass ce ue s
  | .moderationTimer r => Sys2Proof.Machine.execModerationTimer r s
  | .drCidx who r v => Sys2Proof.Machine.execDrCidx who r v s
  | .run who r v => Sys2Proof.Machine.execRun who r v s
  | .descriptorGo who v => Sys2Proof.Machine.execDescriptorGo who v s
  | .descriptorEnd ce ue => Sys2Proof.Machine.execDescriptorEnd ce ue s
  | .fenceStart k => Sys2Proof.Machine.execFenceStart k s
  | .clusterDormant k => Sys2Proof.Machine.execClusterDormant k s
  | .clusterWake k => Sys2Proof.Machine.execClusterWake k s
  | .clusterAwake k => Sys2Proof.Machine.execClusterAwake k s
  | .thawid who v => Sys2Proof.Machine.execThawid who v s
  | .thawkey who v => Sys2Proof.Machine.execThawkey who v s
  | .mthaw who v => Sys2Proof.Machine.execMthaw who v s
  | .blockLock p => Sys2Proof.Machine.execBlockLock p s
  | .dlUp speed width => Sys2Proof.Machine.execDlUp speed width s
  | .eligibilityCheck => Sys2Proof.Machine.execEligibilityCheck s
  | .ringPllLock => Sys2Proof.Machine.execRingPllLock s
  | .pciePllLock => Sys2Proof.Machine.execPciePllLock s
  | .clkgenClockEdge n => Sys2Proof.Machine.execClkgenClockEdge n s
  | .lanePinChange n level => Sys2Proof.Machine.execLanePinChange n level s
  | .tckEdge rising tms tdi trstN => Sys2Proof.Machine.execTckEdge rising tms tdi trstN s
  | .linkReachesL0 => Sys2Proof.Machine.execLinkReachesL0 s

end Sys2Proof.Machine
end

