-- ==== Sys2Proof/WellFormed.lean ====
section
/-!
DEFINITION. Sys2Proof/WellFormed.lean: which terms of `Instr` stand for something that can reach Breta. The machine has a meaning for
every term; the checks say which ones a test or a trace should hold.
-/
namespace Sys2Proof
open Sys2Proof.Machine (bit)

/-- What is wrong with a term. -/
inductive Ill where
  /-- a P reset without a cause (R447) -/
  | cause
  /-- an access without a word -/
  | words
  /-- an access its sender cannot make: only the host bursts or reaches a space other than BAR0, and no Steward loads an image -/
  | who
  /-- an offset beyond its space (R529, R586) -/
  | range
  /-- a register write without the bit that its row is about -/
  | bit
  /-- more bytes than a LEN field can name (R475) -/
  | cell
  /-- a header that is not three or four DWORDs -/
  | header
  /-- more completion data than one request asks for (R530) -/
  | data
  /-- a speed or width the link does not have (R527) -/
  | link
  deriving DecidableEq, Repr

/-- One check. -/
def ill (k : Ill) (b : Bool) : List Ill := if b then [k] else []

/-- Who sends. -/
def isHost : Who → Bool
  | .host => true
  | .ring _ => false
  | .steward _ _ _ _ => false
def isSteward : Who → Bool
  | .host => false
  | .ring _ => false
  | .steward _ _ _ _ => true

/-- The offset lies beyond its space: BAR0 1 MiB, BAR2 16 MiB, the ROM 64 KiB, configuration space 4 KiB. -/
def beyond (sp : Space) (off : BitVec 24) : Bool :=
  match sp with
  | .bar0 => 0x100000 ≤ off.toNat
  | .bar2 => false
  | .rom => 0x10000 ≤ off.toNat
  | .config => 0x1000 ≤ off.toNat

/-- More bytes than header, 511 bytes of payload and CCRC. -/
def longCell (bytes : List Byte) : Bool := 531 < bytes.length

/-- A TLP header has three or four DWORDs. -/
def badHeader (hdr : List Word) : Bool := !(hdr.length == 3 || hdr.length == 4)

/-- Everything that is wrong with a term. -/
def Instr.ills : Instr → List Ill
  | .pReset cause => ill .cause (cause == 0)
  | .pResetEnd _ _ => []
  | .corePllLock => []
  | .memoryClearEnd => []
  | .fclkLossOfLock => []
  | .ringPllLossOfLock => []
  | .refclkStop => []
  | .vddAonLoss => []
  | .vddaSerLoss => []
  | .bankSupplyLoss _ => []
  | .bankSupplyReturn _ => []
  | .wReset _ => []
  | .wResetEnd => []
  | .rstcmd _ _ _ => []
  | .hotReset => []
  | .dlDown => []
  | .initFlr v be => ill .bit (!(bit v 15 && bit be 1))
  | .flrEnd => []
  | .trlStart _ v _ => ill .bit (!bit v 8)
  | .trlAbort _ v _ => ill .bit (!bit v 9)
  | .trlFifoWrite who ws _ _ => ill .words ws.isEmpty ++ ill .who (isSteward who)
  | .trlDmaChunk _ _ _ => []
  | .trlCommit _ v _ => ill .bit (!bit v 10)
  | .workerImageResult _ _ _ => []
  | .cellarBankPowerUp _ => []
  | .tickBoundary => []
  | .tickOutFall => []
  | .budgetOverrun _ => []
  | .stallLimit _ => []
  | .resTimeout _ _ => []
  | .graceExpired _ => []
  | .precopyEnd _ _ => []
  | .cutoverEnd _ => []
  | .fault _ _ _ => []
  | .next _ _ _ => []
  | .jump _ _ _ => []
  | .br2 _ _ _ => []
  | .br4 _ _ _ => []
  | .seqCall _ _ _ => []
  | .seqRet _ _ _ => []
  | .loop _ _ _ => []
  | .seqWait _ _ _ => []
  | .dispatch _ _ _ => []
  | .yield _ _ _ => []
  | .park _ _ _ => []
  | .shin _ _ _ => []
  | .shinr _ _ _ => []
  | .shout _ _ _ => []
  | .shoutr _ _ _ => []
  | .bgin _ _ _ => []
  | .xfer _ _ _ => []
  | .backgroundEnd _ => []
  | .tspop _ _ _ => []
  | .reserve _ _ _ => []
  | .reserveg _ _ _ => []
  | .append _ _ _ => []
  | .appendsl _ _ _ => []
  | .appendsh _ _ _ => []
  | .commit _ _ _ => []
  | .void _ _ _ => []
  | .recordRelease _ => []
  | .parkRequest _ _ v => ill .bit (!bit v 0)
  | .unpark _ _ v => ill .bit (!bit v 1)
  | .enFreeze _ _ v => ill .bit (!bit v 2)
  | .enThaw _ _ v => ill .bit (!bit v 3)
  | .enReset _ _ v => ill .bit (!bit v 4)
  | .replantGo _ _ v => ill .bit (!bit v 0)
  | .replantCancel _ _ v => ill .bit (!bit v 2)
  | .xplantGo _ _ v => ill .bit (!bit v 8)
  | .xplantCancel _ _ v => ill .bit (!bit v 10)
  | .entryset _ _ _ => []
  | .csaddrWrite _ _ _ => []
  | .csdataWrite _ _ _ => []
  | .resume _ _ v => ill .bit (!bit v 8)
  | .step _ _ v _ _ => ill .bit (!bit v 9)
  | .laneEdge _ _ => []
  | .laneFirstLevel _ => []
  | .laneSample _ => []
  | .serialiserBit _ => []
  | .lanePulseEnd _ => []
  | .contention _ => []
  | .pairSample _ => []
  | .pairClear _ _ _ => []
  | .tbLoad _ v => ill .bit (!bit v 0)
  | .tbNowLoRead _ _ => []
  | .ppsEdge _ => []
  | .ppsLost => []
  | .arm _ _ v => ill .bit (!bit v 8)
  | .disarm _ _ v => ill .bit (!bit v 9)
  | .clrm _ _ v => ill .bit (!bit v 10)
  | .compareMatch _ => []
  | .matchedPulseEnd _ => []
  | .gcWrap _ => []
  | .gcThreshold _ => []
  | .gcLoad _ _ v => ill .bit (!bit v 0)
  | .clrwrap _ _ v => ill .bit (!bit v 1)
  | .softset _ _ _ => []
  | .softclr _ _ _ => []
  | .eventDelivery => []
  | .triggerRecord _ => []
  | .larderPop _ => []
  | .assertInta => []
  | .deassertInta => []
  | .rcFieldRead who sp off bes _ _ => ill .words bes.isEmpty ++ ill .who (!isHost who && (sp != .bar0 || 1 < bes.length)) ++ ill .range (beyond sp off)
  | .registerWrite who sp off ws _ => ill .words ws.isEmpty ++ ill .who (!isHost who && (sp != .bar0 || 1 < ws.length)) ++ ill .range (beyond sp off)
  | .clBack _ _ _ => []
  | .clSreq _ _ => []
  | .clSappend _ _ => []
  | .clScommit _ _ => []
  | .clSvoid _ _ => []
  | .blockGrant _ => []
  | .sealRecord _ => []
  | .repairGo _ v => ill .bit (!bit v 31)
  | .repairStart _ _ => []
  | .repairSwitch _ => []
  | .ld _ _ => []
  | .st _ => []
  | .ldr _ _ => []
  | .str _ => []
  | .addr _ _ => []
  | .cmpr _ _ => []
  | .push _ => []
  | .pop _ _ => []
  | .clra _ => []
  | .sexb _ => []
  | .sexh _ => []
  | .clrmp _ => []
  | .nop _ => []
  | .fence _ => []
  | .add _ _ => []
  | .adc _ _ => []
  | .sub _ _ => []
  | .sbc _ _ => []
  | .cmp _ _ => []
  | .and _ _ => []
  | .or _ _ => []
  | .xor _ _ => []
  | .tst _ _ => []
  | .neg _ => []
  | .not _ => []
  | .shift _ => []
  | .addf _ _ => []
  | .subf _ _ => []
  | .sat _ => []
  | .rnd _ => []
  | .mul _ _ => []
  | .mulu _ _ => []
  | .mulf _ _ => []
  | .mac _ _ => []
  | .macu _ _ => []
  | .macf _ _ => []
  | .multiplyLanding _ => []
  | .div _ _ => []
  | .divu _ _ => []
  | .addd _ _ => []
  | .subd _ _ => []
  | .daa _ => []
  | .das _ => []
  | .cvbd _ _ => []
  | .movs _ _ _ => []
  | .fils _ _ _ => []
  | .cmps _ _ _ => []
  | .scns _ _ _ => []
  | .crcs _ _ _ => []
  | .tas _ => []
  | .lrW _ _ => []
  | .scW _ => []
  | .reservationLapse _ => []
  | .bcc _ => []
  | .jmp _ _ => []
  | .call _ _ => []
  | .ret _ _ => []
  | .gcall _ => []
  | .gret _ => []
  | .gateLimit _ => []
  | .trap _ => []
  | .rte _ => []
  | .wait _ => []
  | .signal _ => []
  | .mask _ => []
  | .mfs _ => []
  | .mts _ => []
  | .kmove _ => []
  | .kclr _ => []
  | .kderive _ => []
  | .kseal _ => []
  | .kunseal _ => []
  | .kbase _ => []
  | .klen _ => []
  | .kcur _ => []
  | .kperm _ => []
  | .ksetc _ => []
  | .kaddc _ => []
  | .kmfs _ => []
  | .kmts _ => []
  | .ktag _ => []
  | .kld _ => []
  | .kst _ => []
  | .storeDrain _ => []
  | .prefetch _ => []
  | .exceptionEntry _ => []
  | .tickBudgetFault _ => []
  | .stFreeze _ _ v => ill .bit (!bit v 0)
  | .stThaw _ _ v => ill .bit (!bit v 1)
  | .lockstepEvent _ _ _ _ => []
  | .coreWarmResetEnd _ => []
  | .comparatorInjection _ _ _ => []
  | .wdPeriodStart _ => []
  | .wdAnswer _ _ _ => []
  | .wdWindowEnd _ => []
  | .wdConfigWrite _ _ _ _ => []
  | .clearlog _ _ _ => []
  | .bistGo _ v => ill .bit (!bit v 31)
  | .rotatingTest => []
  | .bistEnd _ _ => []
  | .linkUp _ => []
  | .linkDown _ => []
  | .bypassOpen => []
  | .leave _ v => ill .bit (!bit v 8)
  | .reenum _ v => ill .bit (!bit v 0)
  | .becomeMaster => []
  | .beaconTimer => []
  | .standbyTakeover => []
  | .cellForward _ bytes _ => ill .cell (longCell bytes)
  | .link _ bytes _ => ill .cell (longCell bytes)
  | .nak _ bytes _ => ill .cell (longCell bytes)
  | .hopRetryTimeout _ => []
  | .syncExchange _ => []
  | .sync _ bytes _ _ _ => ill .cell (longCell bytes)
  | .syncr _ bytes _ _ => ill .cell (longCell bytes)
  | .beacon _ bytes _ => ill .cell (longCell bytes)
  | .discover _ bytes _ => ill .cell (longCell bytes)
  | .hello _ bytes _ => ill .cell (longCell bytes)
  | .topo _ bytes _ => ill .cell (longCell bytes)
  | .assign _ bytes _ => ill .cell (longCell bytes)
  | .rd _ bytes _ => ill .cell (longCell bytes)
  | .rdns _ bytes _ => ill .cell (longCell bytes)
  | .wr _ bytes _ => ill .cell (longCell bytes)
  | .sched _ bytes _ => ill .cell (longCell bytes)
  | .resp _ bytes _ => ill .cell (longCell bytes)
  | .cmdGo _ _ v => ill .bit (!bit v 31)
  | .cmdTimeout _ => []
  | .slotOpen _ => []
  | .recCell _ bytes _ => ill .cell (longCell bytes)
  | .recack _ bytes _ => ill .cell (longCell bytes)
  | .recnak _ bytes _ => ill .cell (longCell bytes)
  | .recResend _ => []
  | .evrel _ bytes _ => ill .cell (longCell bytes)
  | .d3hotEntry _ _ => []
  | .d0Return _ _ => []
  | .pmeTurnOff => []
  | .completionReceived _ _ _ _ data hdr => ill .header (badHeader hdr) ++ ill .data (4096 < data.length)
  | .completionTimeout _ hdr => ill .header (badHeader hdr)
  | .pcieError _ hdr => ill .header (badHeader hdr)
  | .l0sEntry => []
  | .l1Entry _ => []
  | .l1Exit => []
  | .drainPass _ _ => []
  | .moderationTimer _ => []
  | .drCidx _ _ _ => []
  | .run _ _ _ => []
  | .descriptorGo _ v => ill .bit (!bit v 31)
  | .descriptorEnd _ _ => []
  | .fenceStart _ => []
  | .clusterDormant _ => []
  | .clusterWake _ => []
  | .clusterAwake _ => []
  | .thawid _ _ => []
  | .thawkey _ _ => []
  | .mthaw _ _ => []
  | .blockLock _ => []
  | .dlUp speed width => ill .link (speed == 0 || 4 < speed.toNat || !(width == 1 || width == 2 || width == 4))
  | .eligibilityCheck => []
  | .ringPllLock => []
  | .pciePllLock => []
  | .clkgenClockEdge _ => []
  | .lanePinChange _ _ => []
  | .tckEdge _ _ _ _ => []
  | .linkReachesL0 => []

/-- The term is well-formed: no check finds anything. -/
def Instr.wellFormed (i : Instr) : Bool := i.ills.isEmpty

end Sys2Proof
end

