-- ==== Sys2Proof/Safety.lean ====
section
/-!
DEFINITION. Sys2Proof/Safety.lean: the terms the statements use: when a register access reaches its register, when an engine, a
Steward core or a link may act, and the invariants every step keeps.
-/
namespace Sys2Proof.Machine

/-! ### Register accesses -/

/-- The device as a whole-word write of `who` at BAR0 offset `o` meets the register: the link in L0 (R547) and the cluster of an
engine register awake (R611). None where the write does not reach a register: no endpoint, BAR0 not decoded, fclk stopped, a
reserved location (R11), or, for a Steward, a location outside what a store reaches (R309, R408, R493). -/
def reached (who : Who) (o : Nat) (d : Dev) : Option Dev :=
  match who with
  | .host =>
    if hostLive d && barOn (arrive d) && (arrive d).sys.fclkOn && (regVal .host o (arrive d)).isSome then some (regWake o (arrive d))
    else none
  | .ring n => if regsLive d && (regVal (.ring n) o d).isSome then some (regWake o d) else none
  | .steward c fr sf sys =>
    if regsLive d && (regVal (.steward c fr sf sys) o d).isSome && !(0x8100 ≤ o && o < 0x8300)
        && !(0xC200 ≤ o && o < 0xC2A0 && d.hr.master && (o - 0xC200) / 0x20 != c + 1) then some (regWake o d)
    else none

/-- The writer may use a control that only a key with SYS opens (R389). -/
def maySys : Who → Bool
  | .steward _ _ _ sys => sys
  | _ => true

/-- The writer may use a freeze or thaw control: a Steward needs FREEZE and SYS (R389). -/
def mayFreeze : Who → Bool
  | .steward _ freeze _ sys => freeze && sys
  | _ => true

/-- BAR0 offset of a register of engine `e`, and of core `c` (R196, R424). -/
def enOff (e : Fin 32) (o : Nat) : Nat := 0x10000 + 0x400 * e.val + o
def stOff (c : Fin 4) (o : Nat) : Nat := 0x18000 + 0x800 * c.val + o

/-- The core and the KIND of ST_DENY that a Steward's write without SYS reports. -/
def denied (who : Who) (kind : BitVec 4) (d : Dev) : Dev :=
  match who with
  | .steward c _ _ _ => stDeny c kind d
  | _ => d

/-! ### Commands of fclk logic -/

/-- The command is an act of logic that runs on fclk and that no access carries: with fclk stopped it changes nothing (R28). -/
def onFclk : Instr → Bool
  | .resTimeout _ _ | .recordRelease _ | .triggerRecord _ | .blockGrant _ | .repairStart _ _ | .backgroundEnd _
  | .descriptorEnd _ _ | .laneEdge _ _ | .laneFirstLevel _ | .laneSample _ | .serialiserBit _ | .lanePulseEnd _
  | .contention _ | .pairSample _ | .clkgenClockEdge _ | .graceExpired _ | .precopyEnd _ _ | .cutoverEnd _ | .fenceStart _
  | .clusterDormant _ | .clusterWake _ | .clusterAwake _ | .eligibilityCheck | .linkUp _ | .linkDown _ | .bypassOpen
  | .becomeMaster | .beaconTimer | .standbyTakeover | .cellForward _ _ _ | .link _ _ _ | .nak _ _ _ | .hopRetryTimeout _
  | .syncExchange _ | .sync _ _ _ _ _ | .syncr _ _ _ _ | .beacon _ _ _ | .discover _ _ _ | .hello _ _ _ | .topo _ _ _
  | .assign _ _ _ | .rd _ _ _ | .rdns _ _ _ | .wr _ _ _ | .sched _ _ _ | .resp _ _ _ | .cmdTimeout _ | .slotOpen _
  | .recCell _ _ _ | .recack _ _ _ | .recnak _ _ _ | .recResend _ | .evrel _ _ _ | .blockLock _ | .budgetOverrun _
  | .stallLimit _ | .lockstepEvent _ _ _ _ | .coreWarmResetEnd _ | .comparatorInjection _ _ _ | .wdPeriodStart _ | .ppsEdge _
  | .ppsLost | .compareMatch _ | .matchedPulseEnd _ | .gcWrap _ | .gcThreshold _ | .workerImageResult _ _ _
  | .cellarBankPowerUp _ | .tickOutFall => true
  | _ => false

/-! ### Engines -/

/-- The device in the next clk of engine `e` that its commands have not counted and in which its microword is due (R111, R128). -/
def due (d : Dev) (e : Fin 32) : Dev := passTo (max d.engines[e].seq.covered d.engines[e].seq.reached) d

/-- A microword fetched with `cs` is whole: no uncorrectable word, and a corrected one has spent its CS_FIX clk (R161, R162). -/
def fetched (g : Engine) (cs : Ecc) : Prop := cs ≠ .ue ∧ (cs = .ce → g.seq.fixed = true)

/-- Engine `e` executes its microword in the next clk in which it is due: it may run, the microword commits no violation, nothing stalls
it (R108, R110, R113, R151, R159). -/
def executes (d : Dev) (e : Fin 32) (cs : Ecc) : Prop :=
  canRun d e.val = true ∧ fetched d.engines[e] cs ∧ violations (due d e) e.val d.engines[e].current = [] ∧
    stallCause (due d e) e.val d.engines[e].current = 0 ∧ portViolations (due d e) e.val d.engines[e].current = []

/-- The microword at PC does not swap banks: it is not SAFE, or no graceful replant is pending (R179). -/
def noSwap (d : Dev) (e : Fin 32) : Prop := (engine d e.val).current.ctlSafe = false ∨ (engine d e.val).life.rpPend ≠ some false

/-- A clk of engine `e` changes that engine, event, lane and Cellar fields, relay counts and the free values taken: no clk, no
register outside those blocks, no other engine, no control store. -/
def EngineFrame (d t : Dev) (e : Fin 32) : Prop :=
  t = { d with
    engines := t.engines, ev := t.ev, lanes := t.lanes, cl := t.cl, freeCtr := t.freeCtr, hr := { d.hr with relays := t.hr.relays } } ∧
  (∀ f : Fin 32, f ≠ e → t.engines[f] = d.engines[f]) ∧ t.engines[e].cs0 = d.engines[e].cs0 ∧ t.engines[e].cs1 = d.engines[e].cs1

/-- The microword executed: the successor and the return stack it leaves, within the frame of an engine's clk. -/
def WentTo (d t : Dev) (e : Fin 32) (pc : BitVec 12) (stack : List (BitVec 12)) : Prop :=
  EngineFrame d t e ∧ t.engines[e].seq.pc = pc ∧ t.engines[e].seq.stack = stack ∧ t.engines[e].seq.bank = d.engines[e].seq.bank

/-! ### Steward instructions -/

/-- Core `c` may execute, and the instruction at its PC passes the fetch checks and is `i`, a legal form of kind `o` (R367, R368). -/
def Ready (d : Dev) (c : Fin 4) (o : StOp) (i : Ins) : Prop :=
  mayExecute d c.val = true ∧ fetchFault d c.val d.cores[c].pc.toNat = none ∧ insAt d.cores[c] d.cores[c].pc.toNat = i ∧
    opOf i.w = some o ∧ illegalForm o i d.cores[c] = false

/-- The device in the last of `n` slots of an instruction (R340); PC still names it (R331). -/
def lastSlot (d : Dev) (c : Fin 4) (n : Nat) : Dev := { d with cores := put d.cores c (slots (n - 1) (pruneBlocks d.cores[c])) }

/-- An instruction that has set its own successor completes on `d` with its core as `k`: it counts, RP becomes 0, its last slot passes. -/
def jumped (d : Dev) (c : Fin 4) (k : Core) : Dev := { d with cores := put d.cores c (slots 1 (completeIns k)) }

/-- Instruction `i` completes on `d` with its core as `k`: PC names the next one then (R331). -/
def completed (d : Dev) (c : Fin 4) (i : Ins) (k : Core) : Dev := jumped d c { k with pc := i.next }

/-- The instruction of `n` slots fails: nothing but its slots has changed when its fault is raised (R342). -/
def failing (d : Dev) (c : Fin 4) (n : Nat) : Dev :=
  { d with cores := put d.cores c (slots 1 (slots (n - 1) (pruneBlocks d.cores[c]))) }

/-- A format-M instruction is ready and its operand reads as `b`, which leaves the device as `d2` (R335 to R339). -/
def Reads (d : Dev) (c : Fin 4) (o : StOp) (n : Nat) (i : Ins) (sext : Bool) (ecc : Ecc) (b : Word) (d2 : Dev) : Prop :=
  Ready d c o i ∧ readOp c.val i sext ecc (lastSlot d c n) = .ok (b, d2)

/-- `k'` is `k` but for A and the STATUS bits listed. -/
def OnlyA (k k' : Core) (flags : List Nat) : Prop :=
  k' = { k with a := k'.a, status := k'.status } ∧ ∀ j, j ∉ flags → bit k'.status j = bit k.status j

/-- A 40-bit A holds the integer value `v`: AG is its sign extension (R333). -/
def holds (a : BitVec 40) (v : Word) : Prop := a = v.signExtend 40

/-- The memory operand of format-M instruction `i` passes its checks for `acc`: it lies at address `a` through key register `p`,
whose cursor advances afterwards when `post` (R335 to R337). -/
def MemOp (d : Dev) (c : Fin 4) (i : Ins) (acc : Acc) (p a : Nat) (post : Bool) : Prop :=
  ∃ o, i.opnd d.cores[c] = .mem p o post ∧ accessFault d c.val p (d.cores[c].key p) o i.size acc false = none ∧
    a = ((d.cores[c].key p).base + o) % 2 ^ 32

/-- The core with the cursor of key register `p` advanced by `n` when `post`. -/
def stepped (k : Core) (p n : Nat) (post : Bool) : Core :=
  if post then k.setKey p ((k.key p).withCursor ((k.key p).cursor + n)) else k

/-- What a store of `n` bytes of `v` at `a` through key register `p` puts into the buffer: a half-word at an odd address is two
byte stores (R337, R339). -/
def bufferEntries (d : Dev) (c : Fin 4) (p a n v : Nat) : List StoreEnt :=
  let k := d.cores[c]
  let e (a n v : Nat) : StoreEnt := {
    addr := BitVec.ofNat 32 a, size := n, val := BitVec.ofNat 32 v, perm := (k.key p).perm, sys := k.pck.may permSYS, comp := k.comp
    sealed := inSealed d c.val, lvl := k.lvl }
  if n = 2 ∧ a % 2 = 1 then [e a 1 (v % 256), e (a + 1) 1 (v / 256 % 256)] else [e a n (v % 256 ^ n)]

/-! ### Watchdogs and lockstep -/

/-- The writer owns watchdog `w` (R435): core `w`, or for WD4 the host and ring commands. -/
def ownsWd (who : Who) (w : Fin 5) : Prop :=
  match who with
  | .steward c _ _ _ => c.val = w.val
  | _ => w = 4

/-- Watchdog `w`, left as `x` by the act, has its period violated with `cause` (R440): later acts add nothing; below VLIMIT the
count and the source of the next clk; at VLIMIT the domain reset as well (R443). -/
def Violates (w : Fin 5) (cause : BitVec 3) (x : Wd) (d t : Dev) : Prop :=
  (x.violated = true → t = { d with wd := put d.wd w x }) ∧
  (x.violated = false → (satInc x.vcount).toNat < x.vlimit.toNat →
    t = raiseNext (0x610 + w.val) { d with wd := put d.wd w { x with violated := true, lastCause := cause, vcount := satInc x.vcount } }) ∧
  (x.violated = false → x.vlimit.toNat ≤ (satInc x.vcount).toNat → t.wd[w].vcount = 0 ∧
    (w ≠ 4 → (core d w.val).st ≠ .inReset → (core t w.val).st = .inReset ∧ (at? t.ls w.val {}).resetEnd = d.clk + 257) ∧
    (w = 4 → d.sys.inP = false → d.sys.fclkOn = true → d.sys.wEnd = none → t.sys.wEnd = some (d.clk + 6000) ∧ t.committed = false))

/-! ### Ring ports -/

/-- The port has taken the next cell `c` that its partner sent: SEQ advances, an acknowledgement is due, and the replay buffer loses
the cells that `c` acknowledges (R485, R486). -/
def acked (c : Cell) (q : RingPort) : RingPort :=
  let kept := if c.ackv then ackUpTo c.ack q.replay else q.replay
  { q with rxSeq := c.seq + 1, ackDue := true, replay := kept, tries := if kept.length < q.replay.length then 0 else q.tries }

/-- The tick whose count a scheduled cell adds to: its TICK when it is this tick or the one before (R502). -/
def tickOf (d : Dev) (c : Cell) : Half :=
  let cur := bf d.tb.tick 0 16
  if c.tick = cur ∨ c.tick = cur - 1 then c.tick else cur

/-- The wire bytes counted for the source, ring and tick of scheduled cell `c`, its own included (R477, R502). -/
def wireTaken (d : Dev) (c : Cell) : Nat :=
  ((d.hr.rxCounts.find? fun x => x.src == c.src && x.ring == c.ring && x.tick == tickOf d c).map (·.bytes)).getD 0 +
    (8 * ((c.payload.length + 27) / 8) + 8)

/-- The wire bytes that the source of `c` may send in a tick on its ring; none without an installed table. -/
def allowance (d : Dev) (c : Cell) : Option Nat :=
  (tableEntry d c.src).map fun e => if c.ring then e.bytesB.toNat else e.bytesA.toNat

/-- Port `p` has taken cell `c`; in an open window scheduled cells of this node start that waited for room (R486, R500). -/
def taken (p : Fin 2) (c : Cell) (d : Dev) : Dev := pumpSlots (updRport p (acked c) d)

/-- The device after hop reception of cell `c` on port `p`, before the cell itself is acted on: while a Trellis is committed, a scheduled
cell is counted for its source (R502). -/
def accepted (p : Fin 2) (c : Cell) (d : Dev) : Dev :=
  let d1 := taken p c d
  let n : RxCount := { src := c.src, ring := c.ring, tick := tickOf d c, bytes := wireTaken d c }
  let rest := d.hr.rxCounts.filter fun x => !(x.src == c.src && x.ring == c.ring && x.tick == tickOf d c)
  if isSched c.typ && d.committed then updHr (fun h => { h with rxCounts := n :: rest }) d1 else d1

/-- `c` has the SEQ that port `p` expects: fclk runs, the port's link is up, nothing waits there to be sent, and LEN is legal. -/
def Expected (d : Dev) (p : Fin 2) (c : Cell) : Prop :=
  d.sys.fclkOn = true ∧ (rport d p).link = true ∧ (rport d p).transit = [] ∧ (rport d p).own = [] ∧ c.payload.length ≤ 256 ∧ c.seq = (rport d p).rxSeq

/-- `c` is expected on port `p`, and a scheduled one meets no frozen ingress and stays within its source's allowance. -/
def InOrder (d : Dev) (p : Fin 2) (c : Cell) : Prop :=
  Expected d p c ∧ (isSched c.typ = true → bit d.hr.ingFrz c.src.toNat = false ∧ bit d.hr.ingWait c.src.toNat = false ∧
    (d.committed = true → ∀ n, allowance d c = some n → wireTaken d c ≤ n))

/-- Cell `c` as port `p` sends it next: the per-hop fields (R484, R485). -/
def onHop (d : Dev) (p : Fin 2) (c : Cell) : Cell :=
  { c with seq := (rport d p).txSeq + 1, ackv := true, ack := (rport d p).rxSeq - 1, ring := p == 1 }

/-- Port `p` sends cell `c`, with its per-hop fields, and keeps a copy (R484). -/
def emits (p : Fin 2) (c : Cell) (d : Dev) : Dev :=
  let x := onHop d p c
  let d1 := updRport p (fun q => { q with
    txSeq := x.seq, replay := q.replay ++ [x], tries := if q.replay = [] then 0 else q.tries, ackDue := false }) d
  { d1 with out := d1.out ++ [.cell p x.bytes false] }

/-- A link cell of this node. -/
def linkCell (d : Dev) (t : Byte) (payload : List Byte) : Cell :=
  { dst := 0, pri := 3, src := d.sys.nodeId, typ := t, tick := 0, payload := payload, ttl := 63 }

/-- A LINK cell acknowledges what port `p` has taken. -/
def acks (p : Fin 2) (d : Dev) : Dev := emits p (linkCell d tLINK []) d

/-- Port `p` asks for the SEQ that it expects. -/
def naks (p : Fin 2) (d : Dev) : Dev := emits p (linkCell d tNAK (leBytes 2 (rport d p).rxSeq.toNat)) d

/-- Port `p` sends the cells `l` of its replay buffer again, which keeps `l0` before them (R486). -/
def resends (p : Fin 2) (l0 l : List Cell) (d : Dev) : Dev :=
  let l' := l.map fun c => { c with ackv := true, ack := (rport d p).rxSeq - 1 }
  let d1 := updRport p (fun q => { q with retry := satInc q.retry l.length, replay := l0 ++ l', tries := q.tries + 1 }) d
  { d1 with out := d1.out ++ l'.map fun c => .cell p c.bytes false }

/-- The port sends a cell at once: its link is up and unwrapped, nothing waits there, and the replay buffer has room for more than ten
cells. -/
def Idle (q : RingPort) : Prop :=
  q.link = true ∧ q.wrap = false ∧ q.transit = [] ∧ q.own = [] ∧ q.replay.length ≤ 2000 ∧
    q.replay.foldl (fun a c => a + 20 + c.payload.length) 0 ≤ 12000

/-- A cell of this node (R475, R478). -/
def ownCell (d : Dev) (dst : BitVec 5) (t : Byte) (payload : List Byte) : Cell :=
  { dst := dst, pri := priOf t, src := d.sys.nodeId, typ := t, tick := bf d.tb.tick 0 16, payload := payload }

/-- The port on the shorter way to a node: East for ring A, West for ring B (R500). -/
def wayTo (d : Dev) (dst : BitVec 5) : Fin 2 := if shorterB d dst then 1 else 0

/-- A HELLO's payload. -/
def helloOf (die : DWord) (role : BitVec 2) (num : Option (BitVec 5)) (pos : Nat) : List Byte :=
  leBytes 8 die.toNat ++ leBytes 1 role.toNat ++ leBytes 1 ((num.map (·.toNat)).getD 0xFF) ++ leBytes 2 pos

/-- A BEACON's payload. -/
def beaconCell (b : Beacon) : List Byte :=
  leBytes 4 b.tick.toNat ++ leBytes 4 b.tickClk.toNat ++ leBytes 1 b.node.toNat ++ leBytes 8 b.die.toNat

/-- The master starts a discovery: DISCOVER with 0 hops on ring A (R472). -/
def asks (d : Dev) : Dev :=
  let d1 := updHr (fun h => { h with disc := true, discHops := none, discAns := [] }) d
  emits 0 (ownCell d1 d1.sys.nodeId tDISCOVER [0, 0]) d1

/-- The master sends its BEACON on ring A and ring B, with the tick under `ticks` (R515, R516). -/
def beacons (ticks : Bool) (d : Dev) : Dev :=
  let b := ownCell d d.sys.nodeId tBEACON (beaconCell {
    tick := if ticks then d.tb.tick else 0, tickClk := if ticks then d.cfg.tickClk else 0, node := d.sys.nodeId, die := Config.dieId })
  updHr (fun h => { h with lastBeacon := d.clk }) (emits 1 b (emits 0 b d))

/-- A cell of this node can go: the node is not passive; before a commit its port is idle, and under one its windows are closed, so that
a scheduled cell waits for the next (R500, R501, R516). -/
def CanSend (d : Dev) (dst : BitVec 5) : Prop :=
  d.hr.foreign = false ∧ (d.committed = true → d.hr.slotA = false ∧ d.hr.slotB = false) ∧
    (d.committed = false → Idle (rport d (wayTo d dst)))

/-- A scheduled cell of this node goes out, or under a commit waits for its window (R481, R500, R501). -/
def sends (dst : BitVec 5) (t : Byte) (payload : List Byte) (d : Dev) : Dev :=
  let c := ownCell d dst t payload
  if d.committed then updHr (fun h => { h with sched := insertPri c h.sched }) d else emits (wayTo d dst) c d

/-- A LINK cell goes out where an acknowledgement is still due (R485). -/
def settles (p : Fin 2) (d : Dev) : Dev := if (rport d p).ackDue && (rport d p).link then acks p d else d

/-- A command of the ring leaves the device as `d`; a load that forwards worker images then reads on (R92). -/
def onward (s : State) (d : Dev) : State := { s with dev := dmaPump d }

/-- Scheduled cell `c` starts: a record's last fragment is noted with its tick (R497). -/
def marked (c : Cell) (d : Dev) : Dev :=
  let last (x : SentRec) : Bool := x.bin == leAt c.payload 0 1 && x.seq == BitVec.ofNat 32 (leAt c.payload 4 4)
  if c.typ ≠ tREC then d
  else updHr (fun h => { h with sent := h.sent.map fun x => if last x then { x with tick := d.tb.tick } else x }) d

/-! ### The endpoint -/

/-- Neither the loader nor the drain has a read left to issue (R78, R584). -/
def NoReads (d : Dev) : Prop := d.trl.dmaLeft = 0 ∧ d.dr.busy = false

/-- The device without the outstanding request of tag `t`. -/
def without (t : Byte) (d : Dev) : Dev := updPe (fun p => { p with reqs := p.reqs.filter (·.tag != t) }) d

/-- The running descriptor ends with result `k`; what still comes of its reads is discarded (R585). -/
def endsDesc (k : BitVec 4) (d : Dev) : Dev := { d with
  dr := { d.dr with busy := false, result := k, half := [] }
  pe := { d.pe with
    stale := d.pe.stale ++ (d.pe.reqs.filter Req.isDesc).map fun r => (r.tag, r.len)
    reqs := d.pe.reqs.filter (!Req.isDesc ·), waiting := d.pe.waiting.filter (!Req.isDesc ·) } }

/-! ### Invariants -/

/-- TDO is driven only in Shift-DR and Shift-IR (R628), up to the falling TCK edge after they are left; and Test-Logic-Reset selects
the bypass register (R646) from the falling TCK edge in it on. -/
def TapInv (t : Tap) : Prop :=
  (t.tdo.isSome = true → t.st = .shDr ∨ t.st = .shIr ∨ (t.tck = true ∧ (t.st = .ex1Dr ∨ t.st = .ex1Ir))) ∧
  (t.st = .reset → t.tck = false → t.instr = .bypass)

/-- A byte memory is in its canonical form. -/
abbrev Memory.wf (m : Bytes) : Prop := canon (0 : Byte) m = true

/-- Every memory of the device is in its canonical form: the root cellar, the Cellar, the mailbox, the local memories. -/
def MemInv (d : Dev) : Prop :=
  Memory.wf d.rc ∧ Memory.wf d.cl.mem ∧ Memory.wf d.mbox ∧ ∀ c : Fin 4, Memory.wf d.cores[c].mem

end Sys2Proof.Machine
end

