-- ==== Sys2Proof/Certificates/Slice0/Obligations.lean ====
section
/-!
DEFINITION. Sys2Proof/Certificates/Slice0/Obligations.lean: the statements about Breta, each over all states. A next state written
`{ s with dev := … }` says the whole frame: what it does not name is as before, the queue and the TAP included.
-/
open Sys2Proof Sys2Proof.Machine

/-- A step runs the command at the front of the queue; with none waiting one clk passes (the model's choice, DESIGN CHOICE, log
entry 50); no word spells a command. -/
def Obligations.StepRunsTheFrontCommand : Prop :=
  (∀ (s : State) (c : Instr) (r : List Instr), step { s with pending := c :: r } = exec c { s with pending := r }) ∧
  (∀ s : State, s.pending = [] → step s = .next { s with dev := pass 1 s.dev }) ∧
  (∀ s : State, s.pending = [] → s.dev.sys.fclkOn = false → step s = .next s) ∧
  (∀ nbits w : Nat, decodeTableWord nbits w = none) ∧ (∀ (s : State) (nbits w : Nat), s.withFetchWord nbits w = s)

/-- Every command answers a next state with the queue as it was; only a TCK edge changes the TAP, and it reaches no register,
memory or key. (R646) -/
def Obligations.EveryCommandLeavesTheQueueAndOnlyTckMovesTheTap : Prop :=
  ∀ (c : Instr) (s : State), ∃ t, exec c s = .next t ∧ t.pending = s.pending ∧
    ((∀ r m i n, c ≠ .tckEdge r m i n) → t.tap = s.tap) ∧ (∀ r m i n, c = .tckEdge r m i n → t.dev = s.dev)

/-- Every step keeps: TDO driven only in Shift-DR and Shift-IR (up to the falling edge after), bypass selected in
Test-Logic-Reset. (R628; R646) -/
def Obligations.EveryStepKeepsTheTapInvariant : Prop :=
  ∀ s t : State, TapInv s.tap → step s = .next t → TapInv t.tap

/-- State.reset holds what the spec gives: a P reset in force, no Trellis committed, memories zero and canonical, the tables' P
values, the TAP in reset. (R231; R594; R598; R599; R622; R623; R463; R261) -/
def Obligations.ResetHoldsTheSpecsValues : Prop :=
  let d := State.reset.dev
  TapInv State.reset.tap ∧ MemInv d ∧ State.reset.tap.st = .reset ∧ State.reset.tap.instr = .bypass ∧
  d.sys.inP = true ∧ d.sys.fclkOn = false ∧ d.committed = false ∧ State.reset.pending = [] ∧ d.trl.st = .empty ∧
  d.tb.now = 0 ∧ d.tb.counting = false ∧ d.tb.inc = 0x100000000 ∧ d.tb.tick = 0 ∧
  (∀ n : Fin 64, d.cfg.lanes[n].mode = 0) ∧
  (∀ e : Fin 32, d.engines[e].life.st = .unused ∧ d.engines[e].seq.pc = 0 ∧ d.engines[e].cs0 = [] ∧ d.engines[e].cs1 = []) ∧
  (∀ c : Fin 4, d.cores[c].st = .idle ∧ ∀ k : Fin 8, d.cores[c].k[k].tag = false) ∧
  (∀ a : Nat, rd8 d.cl.mem a = 0 ∧ rd8 d.mbox a = 0 ∧ rd8 d.rc a = 0) ∧ d.cl.initDone = false ∧
  d.pwr.dormDly = 4 ∧ (∀ c : Fin 4, d.ls[c].injPer = 10) ∧ d.pe.mrrs = 2 ∧ (∀ c : Fin 4, d.ev.larders[c].entries = [])

/-- A byte written to a canonical memory reads back, every other byte is as before, and the memory stays canonical. (R287) -/
def Obligations.MemoriesReadBackAndStayCanonical : Prop :=
  (∀ (m : Bytes) (a b : Nat) (v : Byte), Memory.wf m →
    rd8 (wr8 m a v) b = (if b = a then v else rd8 m b) ∧ Memory.wf (wr8 m a v)) ∧
  (∀ m m' : Bytes, Memory.wf m → Memory.wf m' → (∀ a, rd8 m a = rd8 m' a) → m = m')

/-- P_RESET puts every field at its P value and keeps the root cellar; P_RESET_END samples the straps and gives the node its
number. (R594; R595; R596; R598; R599; R1; R47) -/
def Obligations.PResetClearsAllButTheRootCellar : Prop :=
  (∀ (s : State) (cause : BitVec 2), cause ≠ 0 → s.dev.sys.inP = false →
    exec (.pReset cause) s = .next { s with dev := { State.reset.dev with
      rc := s.dev.rc, lanes := s.dev.lanes.map fun l => { sync := l.sync, syncOld := l.sync }
      sys := { State.reset.dev.sys with
        pCause := cause.zeroExtend 8, rstCause := cause.zeroExtend 8, pTime := if s.dev.sys.fclkOn then s.dev.tb.now else 0 }
      freeCtr := s.dev.freeCtr, rdata := s.dev.rdata, rcpl := s.dev.rcpl, out := s.dev.out } }) ∧
  (∀ (s : State) (cause : BitVec 2), s.dev.sys.inP = true → exec (.pReset cause) s = .next s) ∧
  (∀ (s : State) (role : BitVec 2) (b : Bool), s.dev.sys.inP = true →
    exec (.pResetEnd role b) s = .next { s with dev := { s.dev with sys := { s.dev.sys with
      inP := false, role := role, bistAtStart := b
      nodeValid := decide (role = 0 ∨ role = 2), nodeId := if role = 2 then 31 else 0 } } })

/-- PLL locks start fclk, TB_NOW and training, a loss sets its LOL bit; lost supplies zero the root cellar, close the bypass,
set BANK_PWR; with fclk stopped the commands of fclk logic change nothing. (R231; R28; R29; R48; R198; R449; R510; R526; R633; R637; R638) -/
def Obligations.LocksAndSuppliesAreLostAndReturn : Prop :=
  (∀ s : State, s.dev.sys.inP = false → exec .corePllLock s = .next { s with dev := { s.dev with
    sys := { s.dev.sys with fclkLock := true, fclkOn := true }, tb := { s.dev.tb with counting := true } } }) ∧
  (∀ s : State, s.dev.sys.inP = false → exec .ringPllLock s = .next { s with dev := { s.dev with
    sys := { s.dev.sys with ringLock := true } } }) ∧
  (∀ s : State, s.dev.sys.inP = false → s.dev.sys.role = 0 ∨ s.dev.sys.role = 2 →
    exec .pciePllLock s = .next { s with dev := { s.dev with
      sys := { s.dev.sys with pcieLock := true }
      pe := { s.dev.pe with link := if s.dev.pe.link = .down then .training else s.dev.pe.link } } }) ∧
  (∀ s : State, s.dev.sys.fclkOn = true → exec .fclkLossOfLock s = .next { s with
    dev :=
      raise 0x602 { s.dev with sys := { s.dev.sys with fclkLol := true, fclkLock := false } } }) ∧
  (∀ s : State, s.dev.sys.inP = false → exec .ringPllLossOfLock s = .next { s with
    dev :=
      raise 0x602 { s.dev with sys := { s.dev.sys with ringLol := true, ringLock := false } } }) ∧
  (∀ s : State, exec .refclkStop s = .next { s with dev := { s.dev with
    sys := { s.dev.sys with fclkOn := false, fclkLock := false, ringLock := false, pcieLock := false } } }) ∧
  (∀ s : State, exec .vddAonLoss s = .next { s with dev := { s.dev with rc := [] } } ∧ ∀ a, rd8 ([] : Bytes) a = 0) ∧
  (∀ s : State, ∃ t : Dev, exec .vddaSerLoss s = .next { s with dev := t } ∧
    t = { s.dev with ev := t.ev, hr := { s.dev.hr with bypassOpen := false, ports := t.hr.ports, relays := t.hr.relays } } ∧
    (∀ p : Fin 2, t.hr.ports[p] = if s.dev.hr.ports[p].link then { s.dev.hr.ports[p] with
      link := false, blockLock := false, wrap := true, retrains := satInc s.dev.hr.ports[p].retrains, replay := [] } else s.dev.hr.ports[p]) ∧
    ∀ p : Fin 2, s.dev.hr.ports[p].link = true → (s.dev.clk, 0x5A0 + p.val) ∈ t.ev.pulses ∧ (s.dev.clk, 0x5A2) ∈ t.ev.pulses) ∧
  (∀ (s : State) (k : Fin 8), ∃ t : State, exec (.bankSupplyLoss k) s = .next t ∧
    t = { s with dev := { s.dev with bank := t.dev.bank, lanes := t.dev.lanes, ev := t.dev.ev, hr := { s.dev.hr with relays := t.dev.hr.relays } } } ∧
    t.dev.bank.fresh = s.dev.bank.fresh ∧ bit t.dev.bank.good k.val = false ∧
    bit t.dev.bank.fault k.val = (bit s.dev.bank.fault k.val || bit s.dev.bank.good k.val) ∧
    (∀ j : Fin 8, j ≠ k → bit t.dev.bank.good j.val = bit s.dev.bank.good j.val ∧ bit t.dev.bank.fault j.val = bit s.dev.bank.fault j.val) ∧
    (∀ n : Fin 64, t.dev.lanes[n] = { s.dev.lanes[n] with
      err := if n.val / 8 = k.val ∧ bit s.dev.bank.good k.val = true ∧ s.dev.cfg.lanes[n].mode ≠ 0 then setBit s.dev.lanes[n].err 4 true
        else s.dev.lanes[n].err })) ∧
  (∀ (s : State) (k : Fin 8), exec (.bankSupplyReturn k) s = .next (
    if s.dev.committed = true ∧ s.dev.cfg.bankVSet = true ∧ bit s.dev.bank.good k.val = false then { s with dev := { s.dev with
      bank := { s.dev.bank with good := setBit s.dev.bank.good k.val true }
      lanes := Vector.ofFn fun n : Fin 64 => if n.val / 8 = k.val then { s.dev.lanes[n] with onClk := s.dev.clk } else s.dev.lanes[n] } }
    else s)) ∧
  (∀ (s : State) (c : Instr), s.dev.sys.fclkOn = false → onFclk c = true → exec c s = .next s)

/-- MEMORY_CLEAR_END: INITDONE reads 1, PCOUNT counts and saturates, a KIND 1 history entry fills slot HIST_NEXT, ring training
starts. (R287; R446; R447; R448; R461; R599; R603) -/
def Obligations.StartUpClearEndsWithHistoryAndCount : Prop :=
  ∀ s : State, s.dev.sys.inP = false → s.dev.sys.fclkOn = true → s.dev.cl.initDone = false → Memory.wf s.dev.rc →
    ∃ rc : Bytes,
      (let d : Dev := { s.dev with
        rc := rc, cl := { s.dev.cl with initDone := true }, hr := { s.dev.hr with powered := s.dev.sys.role != 3 } }
      exec .memoryClearEnd s = .next { s with dev := if s.dev.sys.bistAtStart then bistStart 0xF 0 false d else d }) ∧
      (let i := (rd8 s.dev.rc 0x00D).toNat % 8
       let a := 0x20 + 16 * i
      rdLE rc a 8 = s.dev.sys.pTime.toNat ∧ rdLE rc (a + 8) 1 = 1 ∧ rdLE rc (a + 9) 1 = s.dev.sys.pCause.toNat ∧
      rdLE rc (a + 10) 2 = 0 ∧ rdLE rc (a + 12) 3 = 0 ∧ rdLE rc (a + 15) 1 = 1 ∧
      (rd8 rc 0x00D).toNat = (i + 1) % 8 ∧ rdLE rc 0 4 = min 0xFFFFFFFF (rdLE s.dev.rc 0 4 + 1) ∧
      ∀ b, 4 ≤ b → b ≠ 0x00D → (b < a ∨ a + 16 ≤ b) → rd8 rc b = rd8 s.dev.rc b)

/-- A W reset writes its history entry and WCOUNT, stops the acquisition and supervisory planes, and ends 6,000 clk later. (R73;
R447; R597; R598; R600; R602; R660) -/
def Obligations.WResetStartsAndEnds : Prop :=
  (∀ (s : State) (c : WCause), s.dev.sys.inP = false → s.dev.sys.fclkOn = true → s.dev.sys.wEnd = none →
    ∃ d : Dev, exec (.wReset c) s = .next { s with dev := d } ∧
      d.rc = (rcCount 0x004 4 (history 2 (wCode c) (if c = .wd4 then 4 else 0) s.dev.tb.now s.dev)).rc ∧
      d.sys = { s.dev.sys with rstKind := 2, rstCause := BitVec.ofNat 8 (wCode c), wEnd := some (s.dev.clk + 6000) } ∧
      d.committed = false ∧ d.cfg = {} ∧ d.trl.st = .resetting ∧ d.clk = s.dev.clk ∧ d.out = s.dev.out ∧ d.pe = (if s.dev.dr.busy then (endsDesc 8 s.dev).pe else s.dev.pe) ∧
      d.tb.now = s.dev.tb.now ∧ d.tb.frac = s.dev.tb.frac ∧ d.tb.inc = s.dev.tb.inc ∧ d.tb.counting = s.dev.tb.counting ∧
      d.tb.tick = 0 ∧ (∀ k : Fin 64, d.tb.cmps[k].armed = false) ∧ (∀ n : Fin 64, d.lanes[n] = {
        sync := s.dev.lanes[n].sync, syncClk := s.dev.lanes[n].syncClk, syncOld := s.dev.lanes[n].syncOld, syncPrev := s.dev.lanes[n].syncPrev }) ∧
      (∀ e : Fin 32, d.engines[e] = { cs0 := s.dev.engines[e].cs0, cs1 := s.dev.engines[e].cs1, scr := s.dev.engines[e].scr }) ∧
      (∀ c : Fin 4, d.cores[c] = { mem := s.dev.cores[c].mem, st := if s.dev.cores[c].st = .disabled then .disabled else .idle }) ∧
      d.mbox = s.dev.mbox ∧ d.mtags = [] ∧ d.cl.mem = s.dev.cl.mem ∧ d.cl.initDone = s.dev.cl.initDone ∧
      (∀ b : Fin 256, d.cl.bins[b] = {}) ∧ d.ev.larders = Vector.replicate 4 {} ∧ d.ev.landing = [] ∧ d.ev.flights = [] ∧
      (∀ w : Fin 5, d.wd[w] = {}) ∧ d.ls = s.dev.ls ∧
      (∀ p : Fin 16, d.pairs[p].latch = s.dev.pairs[p].latch ∧ d.pairs[p].disc = s.dev.pairs[p].disc)) ∧
  (∀ (s : State) (c : WCause), s.dev.sys.wEnd.isSome = true → exec (.wReset c) s = .next s) ∧
  (∀ (s : State) (n : Nat), s.dev.sys.wEnd = some n →
    (let d := { passTo n s.dev with sys := { (passTo n s.dev).sys with wEnd := none } }
    s.dev.trl.st = .resetting → s.dev.trl.afterReset = false →
      exec .wResetEnd s = .next { s with dev := { d with trl := { d.trl with st := .empty } } }) ∧
    (s.dev.trl.st = .resetting → s.dev.trl.afterReset = true → ∃ d : Dev, exec .wResetEnd s = .next { s with dev := d } ∧
      d.sys = { (passTo n s.dev).sys with wEnd := none } ∧ d.trl.st = .loading ∧ d.trl.afterReset = false ∧
      (∀ e : Fin 32, d.engines[e].cs0 = [] ∧ d.engines[e].cs1 = [] ∧ d.engines[e].scr = []) ∧
      (∀ c : Fin 4, d.cores[c].mem = [] ∧ d.cores[c].tags = []) ∧ d.cl = (passTo n s.dev).cl))

/-- SYS_RSTCMD starts a W reset only with CONFIRM and GO; SYS_THAWID and SYS_THAWKEY thaw in two writes; SYS_MTHAW is the
Stewards'. (R389; R602; R618; R619; R620; R621; R34) -/
def Obligations.WritesOfTheResetAndThawRegisters : Prop :=
  (∀ (who : Who) (v : Word) (s : State) (d : Dev), reached who 0x0020 s.dev = some d →
    exec (.rstcmd who v 0xF) s = .next { s with
      dev :=
        if maySys who = false then denied who 1 d
      else if fld v 16 16 = 0x3A5C ∧ bit v 0 = true then wReset (match who with | .ring _ => .ring | _ => .command) d
      else { d with sys := { d.sys with rstRej := satInc d.sys.rstRej } } }) ∧
  (∀ (who : Who) (v : Word) (s : State) (d : Dev), reached who 0x0038 s.dev = some d →
    exec (.thawid who v) s = .next { s with
      dev :=
        if hostLike who then { d with sys := { d.sys with thawId := bf v 0 8, thawArmed := some d.clk } } else d }) ∧
  (∀ (who : Who) (v : Word) (s : State) (d : Dev), reached who 0x003C s.dev = some d →
    (hostLike who = false → exec (.thawkey who v) s = .next { s with dev := d }) ∧
    (hostLike who = true → ∃ r : BitVec 3,
      exec (.thawkey who v) s = .next { s with dev := (if r = 1 then thawMaster d.sys.thawId.toNat else id) { d with
        sys := { d.sys with thawArmed := none, thawResult := r, badKeys := if r = 4 then satInc d.sys.badKeys else d.sys.badKeys } } } ∧
      (d.sys.thawArmed = none → r = 6) ∧
      ∀ c, d.sys.thawArmed = some c →
        (c + 1500000 < d.clk → r = 5) ∧
        (d.clk ≤ c + 1500000 → fld v 0 16 ≠ 0xC0DE → r = 4) ∧
        (d.clk ≤ c + 1500000 → fld v 0 16 = 0xC0DE →
          r = if freezable d.sys.thawId.toNat = false then 3 else if isFrozen d d.sys.thawId.toNat = false then 2 else 1))) ∧
  (∀ (who : Who) (v : Word) (s : State) (d : Dev), reached who 0x0044 s.dev = some d →
    exec (.mthaw who v) s = .next { s with
      dev :=
        match who with
      | .steward c fr _ sys => if fr = false then stDeny c 2 d else if sys = false then stDeny c 1 d
        else if 0x24 ≤ fld v 0 8 ∧ freezable (fld v 0 8) = true ∧ isFrozen d (fld v 0 8) = true then thawMaster (fld v 0 8) d else d
      | _ => d })

/-- A hot reset and DL_Down act as an H reset, INIT_FLR starts a Function Level Reset, FLR_END counts it. (R536; R545; R558;
R560; R561; R562; R598; R659) -/
def Obligations.HostResetsAndFlr : Prop :=
  (∀ s : State, hasEndpoint s.dev = true → s.dev.sys.inP = false → s.dev.sys.pcieLock = true →
    exec .hotReset s = .next { s with dev := trlHF (hostSide { s.dev with pe := peH s.dev.pe }) } ∧
    (trlHF (hostSide { s.dev with pe := peH s.dev.pe })).pe.wire = false) ∧
  (∀ s : State, hasEndpoint s.dev = true → s.dev.sys.inP = false → s.dev.pe.dlUp = true → ∃ d : Dev,
    exec .dlDown s = .next { s with dev := d } ∧ d.pe.linkDown = satInc s.dev.pe.linkDown ∧ d.pe.wire = false ∧ d.pe.dlUp = false ∧
    d.pe.mse = false ∧ d.pe.bme = false ∧ d.ev.ien = false ∧ (∀ g : Fin 8, d.ev.hstat[g] = 0 ∧ d.ev.hen[g] = 0) ∧
    d.cl.peekEn = false ∧ d.sys.thawArmed = none ∧ d.trl.dmaBusy = false ∧ d.rc = s.dev.rc ∧ d.engines = s.dev.engines) ∧
  (∀ (s : State) (v : Word) (be : BitVec 4), hostLive s.dev = true → (arrive s.dev).pe.flrBusy = false → bit be 1 = true → bit v 15 = true →
    exec (.initFlr v be) s = .next { s with dev := flrStart (cfgWrite 0x58 v be (arrive s.dev)) } ∧
    (flrStart (cfgWrite 0x58 v be (arrive s.dev))).pe.flrBusy = true) ∧
  (∀ s : State, exec .flrEnd s = .next (if s.dev.pe.flrBusy then
    { s with dev := { s.dev with pe := { s.dev.pe with flrBusy := false, flrCnt := satInc s.dev.pe.flrCnt } } } else s))

/-- START begins a load of the kind in MODE, with a W reset for a full load; ABORT rejects a load in progress with 0x34; others
are counted. (R72; R73; R80; R101; R83; R600) -/
def Obligations.LoadsStartAndAbort : Prop :=
  ∀ (who : Who) (v : Word) (s : State) (d : Dev), reached who 0x1000 s.dev = some d →
    let mode : BitVec 2 := if fld v 0 2 = 3 then d.trl.mode else bf v 0 2
    let ready := d.trl.frozen = false ∧ (d.trl.st = .empty ∨ d.trl.st = .rejected ∨ d.trl.st = .validated ∨ d.trl.st = .committed)
    let counted : Dev := { d with trl := { d.trl with src := bit v 4, mode := mode, stray := satInc d.trl.stray } }
    (trlWriter d who = false → exec (.trlStart who v 0xF) s = .next { s with dev := d } ∧ exec (.trlAbort who v 0xF) s = .next { s with dev := d }) ∧
    (trlWriter d who = true → bit v 8 = true → bit v 9 = false → bit v 10 = false → ∃ t : Dev,
      exec (.trlStart who v 0xF) s = .next { s with dev := t } ∧
      (¬ ready → t = counted) ∧
      (ready → mode ≠ 0 → t = { d with trl := t.trl } ∧ t.trl.st = .loading ∧ t.trl.loadMode = mode ∧ t.trl.rx = 0 ∧ t.trl.p = {}) ∧
      (ready → mode = 0 → t.trl.st = .resetting ∧ t.trl.afterReset = true) ∧
      (ready → mode = 0 → d.sys.inP = false → d.sys.fclkOn = true → d.sys.wEnd = none →
        t.committed = false ∧ t.sys.wEnd = some (d.clk + 6000) ∧ t.sys.rstCause = 4)) ∧
    (trlWriter d who = true → bit v 8 = false → bit v 9 = true → bit v 10 = false → ∃ t : Dev,
      exec (.trlAbort who v 0xF) s = .next { s with dev := t } ∧
      (loadRuns d = true → t = { d with trl := t.trl, ev := t.ev, hr := { d.hr with relays := t.hr.relays } } ∧
        t.trl.st = .rejected ∧ t.trl.errCode = 0x34 ∧ t.trl.errOff = BitVec.ofNat 32 d.trl.rx) ∧
      (loadRuns d = false → t = counted))

/-- COMMIT of a validated full image puts it in force and arms CMP0 for Tfirst; a partial one waits; a worker's verdict sets its
TRL_WSTAT entry. (R87; R88; R89; R90; R94; R95; R18; R20; R230; R288) -/
def Obligations.CommitsVerdictsAndPendingBanks : Prop :=
  (∀ (who : Who) (v : Word) (s : State) (d : Dev), reached who 0x1000 s.dev = some d → trlWriter d who = true →
    d.sys.fclkOn = true → d.sys.wEnd = none → bit v 8 = false → bit v 9 = false → bit v 10 = true → ∃ t : Dev,
      exec (.trlCommit who v 0xF) s = .next { s with dev := t } ∧
      (d.trl.st ≠ .validated → t = { d with trl := { d.trl with
        src := bit v 4, mode := if fld v 0 2 = 3 then d.trl.mode else bf v 0 2, stray := satInc d.trl.stray } }) ∧
      (d.trl.st = .validated → d.trl.loadMode = 0 →
        t.committed = true ∧ t.cfg = d.trl.cfg ∧ t.trl.st = .committing ∧ t.clk = d.clk ∧
        (at? t.tb.cmps 0 {}).armed = true ∧ (at? t.tb.cmps 0 {}).perEn = true ∧
        (at? t.tb.cmps 0 {}).target = (commitTime d).1 ∧ (at? t.tb.cmps 0 {}).period = d.trl.cfg.tickClk ∧ t.tb.tick = (commitTime d).2.1 ∧
        ∀ e : Fin 32, t.engines[e].life.st =
          if bit d.trl.cfg.active e.val then .running else if bit d.trl.cfg.spare e.val then .spare else .unused) ∧
      (d.trl.st = .validated → d.trl.loadMode = 1 → t.trl.st = .pending ∧ t.committed = d.committed ∧ t.cfg = d.cfg) ∧
      (d.trl.st = .validated → d.trl.loadMode = 2 → t.trl.st = .committed ∧ t.committed = d.committed ∧ t.cfg = d.cfg)) ∧
  (∀ d : Dev, d.sys.fclkOn = true → d.trl.st = .committing → (pass 1 d).trl.st = .committed ∧ (pass 1 d).clk = d.clk + 1 ∧
    ∀ c : Fin 4, (pass 1 d).cores[c].st =
      if d.cores[c].st = .disabled then .disabled else if bit d.cfg.started c.val then .running else .idle) ∧
  (∀ d : Dev, d.sys.role = 0 → commitTime d = (BitVec.ofNat 64 (d.tb.now.toNat + 30000), 0, d)) ∧
  (∀ d : Dev, d.sys.role = 1 → 0 < d.trl.cfg.tickClk.toNat → d.trl.first.toNat ≤ d.tb.now.toNat →
    d.tb.now.toNat + d.trl.cfg.tickClk.toNat < 2 ^ 64 →
    ∃ m : Nat, (commitTime d).2.1 = BitVec.ofNat 32 m ∧ (commitTime d).1.toNat = d.trl.first.toNat + m * d.trl.cfg.tickClk.toNat ∧
      d.tb.now.toNat < (commitTime d).1.toNat ∧ (commitTime d).1.toNat ≤ d.tb.now.toNat + d.trl.cfg.tickClk.toNat) ∧
  (∀ (n : BitVec 5) (code : Byte) (off : Word) (s : State) (base : Nat),
    s.dev.sys.fclkOn = true →
    s.dev.trl.workers.find? (fun w => w.1 == n.toNat) = some (n.toNat, base) → (at? s.dev.trl.ws n.toNat {}).st = 2 →
    exec (.workerImageResult n code off) s = .next { s with dev := { s.dev with trl := { s.dev.trl with
      ws := upd? s.dev.trl.ws n.toNat fun w => if code = 0 then { w with st := 3 }
        else { w with st := 4, code := code, off := BitVec.ofNat 32 base + off } } } }) ∧
  (∀ (n : BitVec 5) (code : Byte) (off : Word) (s : State),
    s.dev.trl.workers.find? (fun w => w.1 == n.toNat) = none ∨ (at? s.dev.trl.ws n.toNat {}).st ≠ 2 →
    exec (.workerImageResult n code off) s = .next s) ∧
  (∀ (k : Fin 16) (s : State), s.dev.sys.fclkOn = true → exec (.cellarBankPowerUp k) s = .next { s with
    dev := if s.dev.trl.st = .pending ∧ ∃ x ∈ s.dev.trl.binsIn, x.2.base.toNat < (k.val + 1) * 2 ^ 19 ∧ k.val * 2 ^ 19 < x.2.base.toNat + x.2.size.toNat
      then bankOn k.val s.dev else s.dev }) ∧
  (∀ s : State, s.dev.sys.fclkOn = true → s.dev.tb.tickOut = true → exec .tickOutFall s = .next { s with
    dev := { passTo (s.dev.hr.tickClk + 64) s.dev with tb := { (passTo (s.dev.hr.tickClk + 64) s.dev).tb with tickOut := false } } })

/-- A write to TRL_FIFO appends its DWORDs while LOADING, is counted otherwise; TRL_DMA_LEN starts a chunk. (R75; R76; R77; R78;
R83; R91; R487; R586) -/
def Obligations.ImageBytesReachTheLoader : Prop :=
  (∀ (who : Who) (ws : List (Word × BitVec 4)) (ue : Bool) (s : State) (d : Dev),
    (match who with
      | .host => hostLive s.dev = true ∧ d = arrive s.dev ∧ barOn d = true ∧ d.sys.fclkOn = true
      | .ring _ => regsLive s.dev = true ∧ s.dev.sys.role = 1 ∧ d = s.dev
      | .steward _ _ _ _ => False) → ∃ t : Dev,
    exec (.trlFifoWrite who ws false ue) s = .next { s with dev := t } ∧
    (ue = false → d.trl.st ≠ .loading → t = { d with trl := { d.trl with stray := satInc d.trl.stray } }) ∧
    (ue = false → d.trl.st = .loading → (∃ w ∈ ws, w.2 ≠ 0xF) → t.trl.st = .rejected ∧ t.trl.errCode = 0x42) ∧
    (ue = false → d.trl.st = .loading → (∀ w ∈ ws, w.2 = 0xF) → t = trlDwords false (ws.map fun w => leBytes 4 w.1.toNat) d ∧
      (t.trl.st = .loading → t.trl.rx = d.trl.rx + 4 * ws.length)) ∧
    (ue = true → t.trl.frozen = true)) ∧
  (∀ (who : Who) (v : Word) (s : State) (d : Dev), reached who 0x101C s.dev = some d → trlWriter d who = true → ∃ t : Dev,
    exec (.trlDmaChunk who v 0xF) s = .next { s with dev := t } ∧
    (let n := 4 * fld v 2 25
    let bad := d.trl.src = false ∨ d.trl.st ≠ .loading ∨ d.trl.dmaBusy = true ∨ n < 4 ∨ 0x04000000 < n
    (bad → t = { d with trl := { d.trl with stray := satInc d.trl.stray } }) ∧
    (¬ bad → t.trl = { d.trl with dmaBusy := true, dmaNext := d.trl.dmaAddr, dmaLeft := n } ∧
      t = { d with trl := t.trl, pe := t.pe, out := t.out })))

/-- At the boundary CMP0 matches, TB_TICK counts, staged fields apply, tick requests are posted and TICK_OUT rises when enabled.
(R18; R20; R132; R243; R419; R421) -/
def Obligations.TheTickBoundaryActs : Prop :=
  (∀ s : State, tickArmed s.dev = true → ∃ t : Dev, exec .tickBoundary s = .next { s with dev := t } ∧
    (let d := passToMatch 0 s.dev
    t.tb.tick = s.dev.tb.tick + 1 ∧ t.tb.now = d.tb.now ∧ t.clk = d.clk ∧ t.committed = true ∧
    at? t.tb.cmps 0 {} = cmpMatch d.clk d.tb.now (at? s.dev.tb.cmps 0 {}) ∧
    t.tb.tickOut = bit s.dev.cfg.timeFlags 1 ∧ t.hr.tickClk = d.clk ∧
    ∀ c : Fin 4, t.cores[c] = postTick (coreApply d.cores[c]))) ∧
  (∀ s : State, tickArmed s.dev = false → exec .tickBoundary s = .next s) ∧
  (∀ (s : State) (e : Fin 32), s.dev.sys.fclkOn = true →
    (tickArmed s.dev = true → stallExceeded s.dev e.val = true → ∃ t : Dev, exec (.stallLimit e) s = .next { s with dev := t } ∧
      exec .tickBoundary s = .next { s with dev := t }) ∧
    (tickArmed s.dev = false ∨ stallExceeded s.dev e.val = false → exec (.stallLimit e) s = .next s))

/-- NEXT, JUMP, BR2, BR4, CALL, RET, LOOP, WAIT and DISPATCH continue where the table of successors says, with the stack it
says. (R107; R108; R110; R111; R114; R118; R119) -/
def Obligations.SequencerSuccessors : Prop :=
  ∀ (e : Fin 32) (cs scr : Ecc) (s : State), executes s.dev e cs → noSwap s.dev e →
    let d := due s.dev e
    let g := s.dev.engines[e]
    let w := g.current
    (w.seqop = 1 → ∃ t : Dev, exec (.next e cs scr) s = .next { s with dev := t } ∧ WentTo d t e (g.seq.pc + 1) g.seq.stack) ∧
    (w.seqop = 2 → ∃ t : Dev, exec (.jump e cs scr) s = .next { s with dev := t } ∧ WentTo d t e w.naddr g.seq.stack) ∧
    (w.seqop = 3 → ∃ t : Dev, exec (.br2 e cs scr) s = .next { s with dev := t } ∧
      WentTo d t e (setBit w.naddr 0 (condA d e.val w)) g.seq.stack) ∧
    (w.seqop = 4 → ∃ t : Dev, exec (.br4 e cs scr) s = .next { s with dev := t } ∧
      WentTo d t e (setBit (setBit w.naddr 0 (condA d e.val w)) 1 (condB d e.val w)) g.seq.stack) ∧
    (w.seqop = 5 → ∃ t : Dev, exec (.seqCall e cs scr) s = .next { s with dev := t } ∧
      WentTo d t e w.naddr (g.seq.stack ++ [g.seq.pc + 1])) ∧
    (w.seqop = 6 → ∃ (t : Dev) (r : BitVec 12) (l : List (BitVec 12)), g.seq.stack = l ++ [r] ∧
      exec (.seqRet e cs scr) s = .next { s with dev := t } ∧ WentTo d t e r l) ∧
    (w.seqop = 7 → ∃ t : Dev, exec (.loop e cs scr) s = .next { s with dev := t } ∧
      (let c := if w.lsel then g.seq.lc1 else g.seq.lc0
      WentTo d t e (if c ≠ 0 then w.naddr else g.seq.pc + 1) g.seq.stack ∧
      (if w.lsel then t.engines[e].seq.lc1 else t.engines[e].seq.lc0) = if c = 0 then 0 else c - 1)) ∧
    (w.seqop = 8 → condA d e.val w = true ∧ ∃ t : Dev, exec (.seqWait e cs scr) s = .next { s with dev := t } ∧
      WentTo d t e w.naddr g.seq.stack) ∧
    (w.seqop = 9 → ∃ t : Dev, exec (.dispatch e cs scr) s = .next { s with dev := t } ∧
      WentTo d t e (w.naddr ||| (((if bit w.aux 8 then bf d.engines[e].dp.sh 0 8 else bf (d.engines[e].g w.srca) 0 8) &&& bf w.aux 0 8).zeroExtend 12)) g.seq.stack)

/-- YIELD ends the engine's work in the tick, PARK parks it, FAULT freezes it with cause FAULT and detail AUX, an overrun
latches. (R110; R129; R130; R131; R169; R170; R191; R614) -/
def Obligations.YieldParkAndFault : Prop :=
  (∀ (e : Fin 32) (cs scr : Ecc) (s : State), executes s.dev e cs → noSwap s.dev e →
    let d := due s.dev e
    let g := s.dev.engines[e]
    let w := g.current
    (w.seqop = 10 → ∃ t : Dev, exec (.yield e cs scr) s = .next { s with dev := t } ∧ WentTo d t e w.naddr g.seq.stack ∧
      t.engines[e].seq.yielded = true ∧ t.engines[e].seq.fresh = false ∧ t.engines[e].seq.lastUse = t.engines[e].seq.budcnt) ∧
    (w.seqop = 11 → ∃ t : Dev, exec (.park e cs scr) s = .next { s with dev := t } ∧ WentTo d t e w.naddr g.seq.stack ∧
      t.engines[e].life.st = .parked ∧ t.engines[e].life.parkPend = false)) ∧
  (∀ (e : Fin 32) (cs scr : Ecc) (s : State),
    let d := due s.dev e
    let g := d.engines[e]
    let w := g.current
    canRun s.dev e.val = true → w.seqop = 0 → fetched g cs → illegal d e.val w = false → stallCause d e.val w = 0 →
    portViolations d e.val w = [] →
    exec (.fault e cs scr) s = .next { s with
      dev := freezeRecord e.val 0x05 false false w.aux.toNat (g.seq.pc.toNat + 4096 * b2n g.seq.bank) { d with
        engines := put d.engines e { g with
          ep := { g.ep with cause := 0 }, seq := { g.seq with step := false }
          life := { g.life with
            st := .frozen, parkPend := false, frzMulti := false, frzCause := 0x05, frzDetail := w.aux.zeroExtend 32
            frzPc := BitVec.ofNat 13 (g.seq.pc.toNat + 4096 * b2n g.seq.bank), frzTime := d.tb.now } } } }) ∧
  (∀ (e : Fin 32) (s : State), canRun s.dev e.val = true → isStream s.dev e.val = false →
    let q := s.dev.engines[e].seq
    let d := passTo (max (max s.dev.clk q.covered) q.budFrom + (q.budget.toNat - q.budcnt.toNat)) s.dev
    let g := d.engines[e]
    exec (.budgetOverrun e) s = .next { s with dev := if q.overrun then s.dev else { d with engines := put d.engines e { g with seq := { g.seq with
      overrun := true, budcnt := if g.seq.budcnt.toNat < g.seq.budget.toNat then g.seq.budget else g.seq.budcnt } } } })

/-- A microword that commits a violation performs nothing: the engine freezes with the lowest cause; a corrected word first spends its
CS_FIX clk. (R42; R110; R113; R114; R161; R191) -/
def Obligations.MicrowordViolationsFreezeTheEngine : Prop :=
  ∀ (e : Fin 32) (cs scr : Ecc) (s : State), canRun s.dev e.val = true →
    let d := due s.dev e
    let g := d.engines[e]
    let w := g.current
    let frozen (c : Byte) (t : Dev) : Prop :=
      t.engines[e] = { g with
        ep := { g.ep with cause := BitVec.ofNat 4 (stallCause d e.val w) }, seq := { g.seq with step := false }
        life := { g.life with
          st := .frozen, parkPend := false, frzMulti := t.engines[e].life.frzMulti, frzCause := c, frzDetail := g.seq.pc.zeroExtend 32
          frzPc := BitVec.ofNat 13 (g.seq.pc.toNat + 4096 * b2n g.seq.bank), frzTime := d.tb.now } } ∧
      (∀ f : Fin 32, f ≠ e → t.engines[f] = d.engines[f]) ∧
      t = { d with engines := t.engines, rc := t.rc, ev := t.ev, hr := { d.hr with relays := t.hr.relays } }
    (w.seqop = 1 → cs = .ue → ∃ t : Dev, exec (.next e cs scr) s = .next { s with dev := t } ∧ frozen 1 t) ∧
    (w.seqop = 1 → fetched g cs → illegal d e.val w = true → ∃ t : Dev, exec (.next e cs scr) s = .next { s with dev := t } ∧ frozen 2 t) ∧
    (w.seqop = 5 → fetched g cs → illegal d e.val w = false → stallCause d e.val w = 0 → 8 ≤ g.seq.stack.length →
      ∃ t : Dev, exec (.seqCall e cs scr) s = .next { s with dev := t } ∧ frozen 3 t) ∧
    (w.seqop = 6 → fetched g cs → illegal d e.val w = false → stallCause d e.val w = 0 → g.seq.stack = [] →
      ∃ t : Dev, exec (.seqRet e cs scr) s = .next { s with dev := t } ∧ frozen 4 t) ∧
    (w.seqop = 1 → cs = .ce → g.seq.fixed = false → ∃ t : Dev, exec (.next e cs scr) s = .next { s with dev := t } ∧
      t.engines[e].ep.csCe = satInc g.ep.csCe ∧ t.engines[e].seq.fixed = true ∧ t.engines[e].seq.pc = g.seq.pc ∧
      t.engines[e].seq.reached = d.clk + 1 ∧ EngineFrame d t e)

/-- The ALU's ADD and SUB write the destination and set Z, N, C and V of the exact result; other registers stay. (R108; R137;
R138; R139) -/
def Obligations.EnginesAddAndSubtractWithFlags : Prop :=
  ∀ (e : Fin 32) (cs scr : Ecc) (s : State), executes s.dev e cs →
    let g := (due s.dev e).engines[e]
    let w := g.current
    w.seqop = 1 → w.memop = 0 → (w.aluop = 2 ∨ w.aluop = 4) → ∃ t : Dev, exec (.next e cs scr) s = .next { s with dev := t } ∧
      (let a := g.g w.srca
      let b := if w.bsel then w.imm else g.g w.srcb
      let r := if w.aluop = 2 then a + b else a - b
      let p := t.engines[e].dp
      at? p.g w.dst 0 = r ∧ (∀ k : Nat, k ≠ w.dst → at? p.g k 0 = at? g.dp.g k 0) ∧
      p.z = decide (r = 0) ∧ p.n = bit r 31 ∧
      (w.aluop = 2 → p.c = decide (2 ^ 32 ≤ a.toNat + b.toNat) ∧
        p.v = decide (a.toInt + b.toInt < -2 ^ 31 ∨ 2 ^ 31 ≤ a.toInt + b.toInt)) ∧
      (w.aluop = 4 → p.c = decide (b.toNat ≤ a.toNat) ∧
        p.v = decide (a.toInt - b.toInt < -2 ^ 31 ∨ 2 ^ 31 ≤ a.toInt - b.toInt)))

/-- SHIN and SHINR take bit-times from the slot's lane FIFO into SH, SHOUT and SHOUTR give bits to its serialiser, BGIN and XFER
start a background input, which takes one a clk. (R140; R141; R142; R143; R210) -/
def Obligations.ShiftOperationsMoveBits : Prop :=
  (∀ (e : Fin 32) (cs scr : Ecc) (s : State) (l : Fin 64) (own : Bool), executes s.dev e cs →
    let d := due s.dev e
    let g := d.engines[e]
    let w := g.current
    let n := w.count
    slotLane d e.val w.shsub = some (l.val, own) →
    (w.shop = 1 → ∃ t : Dev, exec (.shin e cs scr) s = .next { s with dev := t } ∧ EngineFrame d t e ∧
      t.engines[e].dp.sh = shiftIn g.dp.sh false (d.lanes[l].fifo.take n) ∧ t.engines[e].dp.sc = BitVec.ofNat 7 n ∧
      t.engines[e].dp.target = BitVec.ofNat 7 n ∧ n ≤ d.lanes[l].fifo.length ∧ t.lanes[l].fifo = d.lanes[l].fifo.drop n) ∧
    (w.shop = 2 → ∃ t : Dev, exec (.shinr e cs scr) s = .next { s with dev := t } ∧ EngineFrame d t e ∧
      t.engines[e].dp.sh = shiftIn g.dp.sh true (d.lanes[l].fifo.take n) ∧ t.engines[e].dp.sc = BitVec.ofNat 7 n ∧
      t.engines[e].dp.target = BitVec.ofNat 7 n ∧ n ≤ d.lanes[l].fifo.length ∧ t.lanes[l].fifo = d.lanes[l].fifo.drop n) ∧
    (w.shop = 3 → ∃ t : Dev, exec (.shout e cs scr) s = .next { s with dev := t } ∧ EngineFrame d t e ∧
      t.lanes[l].ser = d.lanes[l].ser ++ (List.range n).map (fun i => bit g.dp.sh (63 - i)) ∧ t.engines[e].dp.sh = g.dp.sh <<< n ∧
      t.engines[e].dp.sc = BitVec.ofNat 7 n) ∧
    (w.shop = 4 → ∃ t : Dev, exec (.shoutr e cs scr) s = .next { s with dev := t } ∧ EngineFrame d t e ∧
      t.lanes[l].ser = d.lanes[l].ser ++ (List.range n).map (fun i => bit g.dp.sh i) ∧ t.engines[e].dp.sh = g.dp.sh >>> n ∧
      t.engines[e].dp.sc = BitVec.ofNat 7 n) ∧
    (w.shop = 5 → ∃ t : Dev, exec (.bgin e cs scr) s = .next { s with dev := t } ∧ EngineFrame d t e ∧
      t.engines[e].dp.bg = some (BitVec.ofNat 3 w.shsub) ∧ t.engines[e].dp.sc = 0 ∧ t.engines[e].dp.target = BitVec.ofNat 7 n ∧
      t.engines[e].dp.sh = g.dp.sh) ∧
    (w.shop = 6 → ∃ t : Dev, exec (.xfer e cs scr) s = .next { s with dev := t } ∧ EngineFrame d t e ∧
      t.lanes[l].ser = d.lanes[l].ser ++ (List.range n).map (fun i => bit g.dp.sh (63 - i)) ∧
      t.engines[e].dp.bg = some (BitVec.ofNat 3 (w.shsub + 1)) ∧ t.engines[e].dp.sc = 0 ∧ t.engines[e].dp.target = BitVec.ofNat 7 n ∧
      t.engines[e].dp.sh = g.dp.sh)) ∧
  (∀ (e : Fin 32) (s : State) (slot : BitVec 3),
    let g := s.dev.engines[e]
    let k := g.dp.target.toNat - g.dp.sc.toNat
    let t := passTo (max s.dev.clk g.seq.covered + k) s.dev
    s.dev.sys.fclkOn = true → g.life.st = .running → g.dp.bg = some slot →
    exec (.backgroundEnd e) s = .next { s with dev := t } ∧
    ∀ (l : Fin 64) (own : Bool), slotLane s.dev e.val slot.toNat = some (l.val, own) → (∀ f : Fin 32, f ≠ e → s.dev.engines[f].dp.bg = none) →
      0 < k → k ≤ s.dev.lanes[l].fifo.length →
      t.engines[e].dp.sh = shiftIn g.dp.sh false (s.dev.lanes[l].fifo.take k) ∧ t.engines[e].dp.sc = g.dp.target ∧
      t.engines[e].dp.bg = none ∧ t.lanes[l].fifo = s.dev.lanes[l].fifo.drop k)

/-- TSPOP takes the oldest stamp of a slot; RESERVE and RESERVEG open a record, or refuse a full bin or a length above MAXREC.
(R149; R150; R151; R290; R295; R300) -/
def Obligations.StampsAndReservations : Prop :=
  (∀ (e : Fin 32) (cs scr : Ecc) (s : State) (l : Fin 64) (own : Bool), executes s.dev e cs →
    let d := due s.dev e
    let w := d.engines[e].current
    0x18 ≤ w.memop → w.memop < 0x20 → slotLane d e.val (w.memop % 8) = some (l.val, own) →
    ∃ (t : Dev) (x : DWord × Bool) (r : List (DWord × Bool)), d.lanes[l].stamps = x :: r ∧
      exec (.tspop e cs scr) s = .next { s with dev := t } ∧ EngineFrame d t e ∧
      at? t.engines[e].dp.g w.dst 0 = lo32 x.1 ∧ t.lanes[l].stamps = r) ∧
  (∀ (e : Fin 32) (cs scr : Ecc) (s : State) (c : BinEntry), executes s.dev e cs →
    let d := due s.dev e
    let g := d.engines[e]
    let w := g.current
    let b := resBin w
    let n := resLen g w
    let x := bin (makeRoom b c (max 2 n) d) b
    binCfg? d b = some c → (w.memop = 8 ∨ w.memop = 9) →
    ∃ t : Dev, (w.memop = 8 → exec (.reserve e cs scr) s = .next { s with dev := t }) ∧
      (w.memop = 9 → exec (.reserveg e cs scr) s = .next { s with dev := t }) ∧ EngineFrame d t e ∧
      (let p := t.engines[e].ep
      let h := at? t.engines[e].dp.g w.dst 0
      (c.maxrec.toNat < n → p.resOk = false ∧ p.resFull = false ∧ p.resTooBig = true ∧ h = pack [(31, 1), (8, b)] ∧
        (bin t b).tooBig = satInc (bin d b).tooBig ∧ (bin t b).seq = (bin d b).seq) ∧
      (n ≤ c.maxrec.toNat → hasRoom c x (max 2 n) = true → p.resOk = true ∧ p.resFull = false ∧ p.resTooBig = false ∧
        h = pack [(16, x.seq.toNat % 4096), (8, b), (0, x.freeSlot)] ∧ (bin t b).seq = x.seq + 1) ∧
      (n ≤ c.maxrec.toNat → hasRoom c x (max 2 n) = false → p.resOk = false ∧ p.resFull = true ∧ p.resTooBig = false ∧
        h = pack [(31, 1), (8, b)] ∧ (bin t b).full = satInc x.full ∧ (bin t b).seq = x.seq)))

/-- APPEND, APPENDSL, APPENDSH, COMMIT and VOID enter the port's write queue, APPEND stalls on a full one; an entry written places its
words, and COMMITTED or VOID. (R146; R152; R153; R154; R160; R303; R304; R295) -/
def Obligations.AppendsCommitsAndVoids : Prop :=
  (∀ (e : Fin 32) (cs scr : Ecc) (s : State) (b : Nat) (c : BinEntry) (r : Rec), executes s.dev e cs →
    let d := due s.dev e
    let g := d.engines[e]
    let w := g.current
    let h := g.g w.srca
    let a := c.base.toNat + r.off
    resolve (engOwns e.val) h d = .held b c r →
    (∀ m vs, (m = 0x0A ∧ vs = [g.g w.srcb]) ∨ (m = 0x0B ∧ vs = [lo32 g.dp.sh]) ∨ (m = 0x0C ∧ vs = [lo32 g.dp.sh, hi32 g.dp.sh]) →
      w.memop = m → ∃ t : Dev,
      (m = 0x0A → exec (.append e cs scr) s = .next { s with dev := t }) ∧
      (m = 0x0B → exec (.appendsl e cs scr) s = .next { s with dev := t }) ∧
      (m = 0x0C → exec (.appendsh e cs scr) s = .next { s with dev := t }) ∧ EngineFrame d t e ∧ t.cl.mem = d.cl.mem ∧
      (let k := min vs.length ((8 * r.len - r.cursor) / 4)
      t.engines[e].ep.queue = g.ep.queue ++ (List.range k).map (fun i => {
        bin := b, seq := r.seq, addr := a + r.cursor + 4 * i, data := leBytes 4 (vs.getD i 0).toNat, written := r.cursor + 4 * i + 4 }) ∧
      t.engines[e].ep.trunc = decide (k < vs.length) ∧
      resolve (engOwns e.val) h t = .held b c { r with cursor := r.cursor + 4 * k, trunc := r.trunc || decide (k < vs.length) })) ∧
    (w.memop = 0x0D → ∃ t : Dev, exec (.commit e cs scr) s = .next { s with dev := t } ∧ EngineFrame d t e ∧ t.cl.mem = d.cl.mem ∧
      t.engines[e].ep.queue = g.ep.queue ++ [{
        bin := b, seq := r.seq, addr := a + r.cursor, data := List.replicate (8 * r.len - r.cursor) 0, written := 8 * r.len
        hdr := a, ends := some (if r.trunc then 0x0A else 0x02) }] ∧
      ∀ y ∈ (bin t b).openRecs, y.slot ≠ r.slot) ∧
    (w.memop = 0x0E → ∃ t : Dev, exec (.void e cs scr) s = .next { s with dev := t } ∧ EngineFrame d t e ∧ t.cl.mem = d.cl.mem ∧
      t.engines[e].ep.queue = g.ep.queue ++ [{
        bin := b, seq := r.seq, addr := a, data := [], written := r.written, hdr := a, ends := some 0x04 }] ∧
      ∀ y ∈ (bin t b).openRecs, y.slot ≠ r.slot)) ∧
  (∀ (e : Fin 32) (cs scr : Ecc) (s : State), canRun s.dev e.val = true →
    let d := due s.dev e
    let g := d.engines[e]
    fetched g cs → illegal d e.val g.current = false → stallCause d e.val g.current = 7 → g.current.memop = 0x0A →
    ∃ t : Dev, exec (.append e cs scr) s = .next { s with dev := t } ∧ EngineFrame d t e ∧ t.cl = d.cl ∧
      t.engines[e].ep = { g.ep with stallClk := satInc g.ep.stallClk } ∧ t.engines[e].seq.pc = g.seq.pc) ∧
  (∀ (x : PortWr) (c : Cl), Memory.wf c.mem → (at? c.bins x.bin {}).recs.any (fun r => r.seq == x.seq) = true →
    (x.data = [] ∨ x.hdr + 8 ≤ x.addr) →
    let m := (portWrite x c).mem
    let h := BitVec.ofNat 64 (rdLE c.mem x.hdr 8)
    (∀ i : Nat, ∀ k : i < x.data.length, rd8 m (x.addr + i) = x.data[i]) ∧
    (∀ f, x.ends = some f → f < 0x100 →
      BitVec.ofNat 64 (rdLE m x.hdr 8) = (h &&& ~~~0x0000000100000000) ||| BitVec.ofNat 64 (f * 0x100000000)) ∧
    ∀ y, (y < x.addr ∨ x.addr + x.data.length ≤ y) → (x.ends = none ∨ y < x.hdr ∨ x.hdr + 8 ≤ y) → rd8 m y = rd8 c.mem y) ∧
  (∀ (e : Fin 32) (x : PortWr) (d : Dev), d.sys.fclkOn = true → d.engines[e].ep.queue = [x] → 0 < d.engines[e].ep.portWait →
    (∀ f : Fin 32, f ≠ e → d.engines[f].ep.queue = []) → (∀ c l : Fin 4, d.cl.ports[c][l].queue = []) →
    (pass d.engines[e].ep.portWait d).cl = portWrite x d.cl ∧ (pass d.engines[e].ep.portWait d).engines[e].ep.queue = [])

/-- EN_LIFE.PARK parks a yielded engine at once and others when they yield; UNPARK cancels a pending park or starts it at the
next boundary. (R168; R169; R172; R173; R196) -/
def Obligations.ParkAndUnparkAnEngine : Prop :=
  ∀ (who : Who) (e : Fin 32) (s : State) (d : Dev), reached who (enOff e 0x204) s.dev = some d →
    let g := d.engines[e]
    let goes (l : Life) : State := { s with dev := { d with engines := put d.engines e { g with life := l } } }
    (g.life.st = .running → g.seq.yielded = true →
      exec (.parkRequest who e 0x01) s = .next { s with dev := { d with engines := put d.engines e { g with
        seq := { g.seq with step := false }, life := { g.life with st := .parked, parkPend := false, result := 0 } } } }) ∧
    (g.life.st = .running → g.seq.yielded = false → exec (.parkRequest who e 0x01) s = .next (goes { g.life with parkPend := true, result := 0 })) ∧
    (g.life.st ≠ .running → exec (.parkRequest who e 0x01) s = .next (goes { g.life with result := 2 })) ∧
    (g.life.st = .parked → exec (.unpark who e 0x02) s = .next (goes { g.life with unparkPend := true, unparkAt := d.clk + 1, result := 0 })) ∧
    (g.life.st = .running → g.life.parkPend = true → exec (.unpark who e 0x02) s = .next (goes { g.life with parkPend := false, result := 0 })) ∧
    (g.life.st ≠ .parked → (g.life.st ≠ .running ∨ g.life.parkPend = false) →
      exec (.unpark who e 0x02) s = .next (goes { g.life with result := 2 }))

/-- EN_LIFE.FREEZE freezes with cause COMMAND and a record, THAW by a Steward lets run from the next boundary, RESET parks with
registers reset and queued Cellar writes kept. (R168; R193; R194; R195; R389; R614) -/
def Obligations.FreezeThawAndResetAnEngine : Prop :=
  ∀ (who : Who) (e : Fin 32) (s : State) (d : Dev), reached who (enOff e 0x204) s.dev = some d →
    let g := d.engines[e]
    let fpc := g.seq.pc.toNat + 4096 * b2n g.seq.bank
    let goes (g' : Engine) : State := { s with dev := { d with engines := put d.engines e g' } }
    let refused : State := goes { g with life := { g.life with result := 2 } }
    let alive := g.life.st = .running ∨ g.life.st = .parked ∨ g.life.st = .halted
    (mayFreeze who = false → ∃ k, exec (.enFreeze who e 0x04) s = .next { s with dev := denied who k d } ∧
      exec (.enThaw who e 0x08) s = .next { s with dev := denied who k d }) ∧
    (mayFreeze who = true → alive → ∃ t : Dev,
      exec (.enFreeze who e 0x04) s = .next { s with dev := t } ∧
      t.engines = put d.engines e { g with
        ep := { g.ep with cause := BitVec.ofNat 4 (shownCause d e.val) }, seq := { g.seq with step := false }
        life := { g.life with
          st := .frozen, parkPend := false, result := 0, frzMulti := false, frzCause := 0x0A, frzDetail := BitVec.ofNat 32 (masterOf who)
          frzPc := BitVec.ofNat 13 fpc, frzTime := d.tb.now } } ∧
      t.rc = (freezeRecord e.val 0x0A false false (masterOf who) fpc d).rc ∧ (d.clk, 0x601) ∈ t.ev.pulses ∧
      t = { d with engines := t.engines, rc := t.rc, ev := t.ev, hr := { d.hr with relays := t.hr.relays } }) ∧
    (mayFreeze who = true → ¬ alive → exec (.enFreeze who e 0x04) s = .next refused) ∧
    (hostLike who = true → exec (.enThaw who e 0x08) s = .next { s with dev := d }) ∧
    (hostLike who = false → mayFreeze who = true → g.life.st = .frozen →
      (let go (pc : BitVec 12) (stack : List (BitVec 12)) : State := goes { g with
        life := { g.life with st := .running, unparkPend := false, unparkAt := d.clk + 1, result := 0 }
        ep := { g.ep with cause := 0 }
        seq := { g.seq with
          overrun := false, stallCnt := 0, waiting := false, yielded := true, fresh := true, fixed := false, pc := pc, stack := stack } }
      exec (.enThaw who e 0x08) s = .next (
        if isStream d e.val = false ∨ g.life.resumeAt = 1 then go g.tickEntry []
        else if g.life.resumeAt = 2 then go g.replantEntry [] else go g.seq.pc g.seq.stack))) ∧
    (hostLike who = false → mayFreeze who = true → g.life.st ≠ .frozen → exec (.enThaw who e 0x08) s = .next refused) ∧
    (alive ∨ g.life.st = .frozen → ∃ t : Dev,
      exec (.enReset who e 0x10) s = .next { s with dev := t } ∧
      (let h := t.engines[e]
      h.life.st = .parked ∧ h.life.result = 0 ∧ h.life.rpPend = none ∧ h.life.parkPend = false ∧ h.life.xpend = g.life.xpend ∧
      h.seq.pc = g.tickEntry ∧ h.seq.stack = [] ∧ h.seq.bank = g.seq.bank ∧
      h.seq.budget = g.seq.budget ∧ h.seq.stall = g.seq.stall ∧ h.seq.budgetNext = g.seq.budgetNext ∧ h.seq.stallNext = g.seq.stallNext ∧
      h.seq.entry0 = g.seq.entry0 ∧ h.seq.entry1 = g.seq.entry1 ∧ h.seq.rp0 = g.seq.rp0 ∧ h.seq.rp1 = g.seq.rp1 ∧ h.seq.overrun = false ∧
      h.dp.g = Vector.replicate 16 0 ∧ h.dp.sh = 0 ∧ h.dp.bg = none ∧ h.dp.crcPoly = look 0 g.scr 4092 ∧ h.dp.crcInit = look 0 g.scr 4093 ∧
      h.ep = { queue := g.ep.queue, portWait := g.ep.portWait } ∧
      h.cs0 = g.cs0 ∧ h.cs1 = g.cs1 ∧ h.scr = g.scr ∧ (∀ f : Fin 32, f ≠ e → t.engines[f] = d.engines[f]))) ∧
    (¬ alive → g.life.st ≠ .frozen → exec (.enReset who e 0x10) s = .next refused)

/-- EN_REPLANT.GO posts a replant of a RUNNING engine and swaps a stopped one at once; CANCEL drops it; grace ends in FORCE or
in EXPIRED. (R177; R178; R180; R181; R196; R456) -/
def Obligations.ReplantsSwapBanks : Prop :=
  (∀ (who : Who) (e : Fin 32) (v : Word) (s : State) (d : Dev), reached who (enOff e 0x208) s.dev = some d →
    let g := d.engines[e]
    let stopped := g.life.st = .halted ∨ g.life.st = .parked ∨ g.life.st = .frozen
    let busy := g.life.rpPend.isSome = true ∨ inXplant d e.val = true
    (bit v 0 = true → bit v 2 = false → ∃ t : Dev, exec (.replantGo who e v) s = .next { s with dev := t } ∧
      (let h := t.engines[e]
      t = { d with engines := t.engines, bist := t.bist, ev := t.ev, hr := { d.hr with relays := t.hr.relays } } ∧
      (∀ f : Fin 32, f ≠ e → t.engines[f] = d.engines[f]) ∧ h.life.escalate = bit v 24 ∧ h.life.grace = bf v 16 8 ∧ h.life.st = g.life.st ∧
      (g.life.st ≠ .running → ¬ stopped → h.life.result = 2 ∧ h.seq = g.seq) ∧
      (g.life.st = .running ∨ stopped → busy → h.life.result = 1 ∧ h.seq = g.seq ∧ h.life.rpPend = g.life.rpPend) ∧
      (g.life.st = .running → ¬ busy → h.life.result = 0 ∧ h.life.rpPend = some (bit v 1) ∧ h.life.rpAt = d.clk + 1 ∧ h.seq = g.seq) ∧
      (stopped → ¬ busy → h.life.result = 0 ∧ h.seq = { g.seq with
        bank := !g.seq.bank, stack := [], fresh := true, fixed := false, pc := if g.seq.bank then g.seq.rp0 else g.seq.rp1 }))) ∧
    (bit v 0 = false → bit v 2 = true → exec (.replantCancel who e v) s = .next { s with
      dev := { d with engines := put d.engines e { g with life :=
        if g.life.rpPend.isSome then { g.life with
          escalate := bit v 24, grace := bf v 16 8, rpPend := none, graceCnt := 0, swapGrace := none, result := 6 }
        else { g.life with escalate := bit v 24, grace := bf v 16 8 } } } })) ∧
  (∀ (e : Fin 32) (s : State),
    let g := s.dev.engines[e]
    let grace := g.life.graceOf.1
    let escalate := g.life.graceOf.2
    s.dev.sys.fclkOn = true → g.life.st = .running → g.life.rpPend = some false → grace ≠ 0 → grace.toNat ≤ g.life.graceCnt →
    (escalate = false → exec (.graceExpired e) s = .next { s with
      dev := { s.dev with engines := put s.dev.engines e { g with
        life := { g.life with rpPend := none, graceCnt := 0, swapGrace := none, result := 7 } } } }) ∧
    (escalate = true → ∃ t : Dev, exec (.graceExpired e) s = .next { s with dev := t } ∧
      t = { s.dev with engines := t.engines, cl := t.cl } ∧ t.cl.mem = s.dev.cl.mem ∧ (∀ f : Fin 32, f ≠ e → t.engines[f] = s.dev.engines[f]) ∧
      (let h := t.engines[e]
      h.seq.bank = (!g.seq.bank) ∧ h.seq.pc = (if g.seq.bank then g.seq.rp0 else g.seq.rp1) ∧ h.seq.stack = [] ∧
      h.seq.yielded = false ∧ h.seq.budcnt = 0 ∧ h.seq.reached = s.dev.clk + 2 ∧ h.dp.bg = none ∧
      h.life.rpPend = none ∧ h.life.shSave = g.dp.sh ∧ h.life.shValid = true ∧ h.life.shBg = g.dp.bg.isSome ∧
      h.life.shTarget = g.dp.target ∧ h.life.shSc = g.dp.sc ∧ h.dp.g = g.dp.g)))

/-- EN_XPLANT.GO requests a transplant onto a spare, the precopy copies both banks, the cutover moves registers, scratch and
bindings. (R183; R184; R185; R186; R187; R188; R189; R196) -/
def Obligations.TransplantsCopyAndMoveAnEngine : Prop :=
  (∀ (who : Who) (e : Fin 32) (v : Word) (s : State) (d : Dev), reached who (enOff e 0x214) s.dev = some d →
    let g := d.engines[e]
    let x := engine d (fld v 0 5)
    let live := g.life.st = .running ∨ g.life.st = .parked ∨ g.life.st = .frozen
    (bit v 8 = true → bit v 10 = false → ∃ t : Dev, exec (.xplantGo who e v) s = .next { s with dev := t } ∧
      (∀ f : Fin 32, f ≠ e → t.engines[f] = d.engines[f]) ∧ (∀ k : Fin 8, t.pwr.cls[k].st = d.pwr.cls[k].st) ∧
      (let h := t.engines[e]
      h.life.xTarget = bf v 0 5 ∧ h.life.nocopy = bit v 9 ∧ h.seq = g.seq ∧ h.life.st = g.life.st ∧
      (¬ live → h.life.result = 2 ∧ h.life.xpend = g.life.xpend) ∧
      (live → x.life.st ≠ .spare → h.life.result = 3 ∧ h.life.xpend = g.life.xpend) ∧
      (live → x.life.st = .spare → g.life.rpPend = none → g.life.parkPend = false → inXplant d e.val = false →
        inXplant d (fld v 0 5) = false → x.life.rpPend = none → x.life.parkPend = false →
        (isStream d e.val = true ∨ g.seq.budget.toNat + 2164 ≤ d.cfg.tickClk.toNat) →
        h.life.result = 0 ∧ h.life.xpend = some { target := bf v 0 5, nocopy := bit v 9, copied := false } ∧ h.life.xpAt = d.clk + 1 ∧
        ((cluster d (fld v 0 5 / 4)).st ≠ .active → (cluster t (fld v 0 5 / 4)).wakeReq = true)))) ∧
    (bit v 8 = false → bit v 10 = true → exec (.xplantCancel who e v) s = .next { s with
      dev := { d with engines := put d.engines e { g with life :=
        (if g.life.xpend.isSome = true ∧ g.life.st ≠ .cutover then { g.life with nocopy := bit v 9, xTarget := bf v 0 5, xpend := none, result := 6 }
        else { g.life with nocopy := bit v 9, xTarget := bf v 0 5 }) } } })) ∧
  (∀ (e : Fin 32) (s : State) (x : Xplant),
    let l := s.dev.engines[e].life
    let d := passTo (l.xpAt + 8192) s.dev
    let g := d.engines[e]
    s.dev.sys.fclkOn = true → l.xpend = some x → x.nocopy = false → x.copied = false → l.st ≠ .cutover →
    clusterAsleep s.dev x.target.toNat = false →
    exec (.precopyEnd e .ue) s = .next { s with
      dev := { d with engines := put d.engines e { g with life := { g.life with xpend := none, result := 5 } } } } ∧
    (x.target.toNat ≠ e.val → ∃ t : Dev, exec (.precopyEnd e .ok) s = .next { s with dev := t } ∧ t = { d with engines := t.engines } ∧
      t.engines[e] = { g with life := { g.life with xpend := some { x with copied := true }, xpAt := d.clk + 1 } } ∧
      (let q := engine t x.target.toNat
      q.cs0 = g.cs0 ∧ q.cs1 = g.cs1 ∧ q.seq.entry0 = g.seq.entry0 ∧ q.seq.entry1 = g.seq.entry1 ∧ q.seq.rp0 = g.seq.rp0 ∧
        q.seq.rp1 = g.seq.rp1) ∧
      ∀ f : Fin 32, f ≠ e → f.val ≠ x.target.toNat → t.engines[f] = d.engines[f])) ∧
  (∀ (e : Fin 32) (s : State) (x : Xplant),
    let l := s.dev.engines[e].life
    let d := passTo (l.cutAt + 2101) s.dev
    let g := d.engines[e]
    s.dev.sys.fclkOn = true → l.xpend = some x → l.st = .cutover → x.target.toNat ≠ e.val → ∃ t : Dev,
    exec (.cutoverEnd e) s = .next { s with dev := t } ∧ t.cfg = moveCfg e.val x.target.toNat d.cfg ∧ t.clk = d.clk ∧
    t.engines[e].life.st = .vacated ∧ t.engines[e].life.partner = x.target ∧ t.engines[e].life.xpend = none ∧
    (let q := engine t x.target.toNat
    q.dp.g = g.dp.g ∧ q.dp.sh = g.dp.sh ∧ q.scr = g.scr ∧ q.life.st = g.life.cutFrom ∧ q.life.partner = BitVec.ofNat 5 e.val ∧
    q.seq.reached = l.cutAt + 2102 ∧ q.seq.fresh = true ∧
    (g.life.cutFrom = .running → isStream s.dev e.val = false → q.seq.pc = q.tickEntry ∧ q.seq.stack = [] ∧ q.seq.yielded = false)) ∧
    (d.clk, 0x603) ∈ t.ev.pulses ∧
    ∀ f : Fin 32, f ≠ e → f.val ≠ x.target.toNat → t.engines[f] = d.engines[f])

/-- EN_ENTRYSET, EN_CSADDR and EN_CSDATA3 write a bank's entries and words under the bank-write rule; RESUME and STEP run a
HALTED engine. (R127; R136; R174; R175; R176; R196) -/
def Obligations.ControlStoreWindowAndDebug : Prop :=
  (∀ (who : Who) (e : Fin 32) (v : Word) (s : State) (d : Dev), reached who (enOff e 0x20C) s.dev = some d →
    let g := d.engines[e]
    exec (.entryset who e v) s = .next { s with dev := { d with engines := put d.engines e (
      if bankWritable d e.val (bit v 31) = false then { g with life := { g.life with csRej := satInc g.life.csRej, result := 8 } }
      else if bit v 31 then { g with seq := { g.seq with entry1 := bf v 0 12, rp1 := bf v 16 12 } }
      else { g with seq := { g.seq with entry0 := bf v 0 12, rp0 := bf v 16 12 } }) } }) ∧
  (∀ (who : Who) (e : Fin 32) (v : Word) (s : State) (d : Dev), reached who (enOff e 0x248) s.dev = some d →
    let g := d.engines[e]
    let w := g.word (bit v 12) (bf v 0 12)
    exec (.csaddrWrite who e v) s = .next { s with dev := { d with engines := put d.engines e { g with life := { g.life with
      csBank := bit v 12, csAddr := bf v 0 12, csData := #v[bf w 0 32, bf w 32 32, bf w 64 32, bf w 96 32] } } } }) ∧
  (∀ (who : Who) (e : Fin 32) (v : Word) (s : State) (d : Dev), reached who (enOff e 0x25C) s.dev = some d →
    let g := d.engines[e]
    ∃ t : Dev, exec (.csdataWrite who e v) s = .next { s with dev := t } ∧
      t = { d with engines := t.engines, bist := t.bist, ev := t.ev, hr := { d.hr with relays := t.hr.relays } } ∧
      (∀ f : Fin 32, f ≠ e → t.engines[f] = d.engines[f]) ∧
      (let h := t.engines[e]
      let w : BitVec 128 := v ++ g.life.csData[2] ++ g.life.csData[1] ++ g.life.csData[0]
      let b := g.life.csBank
      h.life.csAddr = g.life.csAddr + 1 ∧ h.seq = g.seq ∧ h.scr = g.scr ∧ h.dp = g.dp ∧
      (bankWritable d e.val b = true →
        h.cs0 = (if b then g.cs0 else store 0 g.cs0 g.life.csAddr.toNat w) ∧ h.cs1 = (if b then store 0 g.cs1 g.life.csAddr.toNat w else g.cs1)) ∧
      (bankWritable d e.val b = false →
        h.cs0 = g.cs0 ∧ h.cs1 = g.cs1 ∧ h.life.csRej = satInc g.life.csRej ∧ h.life.result = 8))) ∧
  (∀ (who : Who) (e : Fin 32) (v : Word) (s : State) (d : Dev), reached who (enOff e 0x020) s.dev = some d →
    let g := d.engines[e]
    let woken (step : Bool) : Engine := { g with
      seq := { g.seq with brkEn := bit v 0, step := step, reached := max g.seq.reached d.clk, covered := max g.seq.covered d.clk }
      life := { g.life with st := .running } }
    (bit v 8 = true → bit v 9 = false → g.life.st = .halted → exec (.resume who e v) s = .next { s with
      dev := { d with engines := put d.engines e { woken false with life := { g.life with st := .running, result := 0 } } } }) ∧
    (bit v 8 = true → bit v 9 = false → g.life.st ≠ .halted → exec (.resume who e v) s = .next { s with
      dev := { d with engines := put d.engines e { g with
        seq := { g.seq with brkEn := bit v 0 }, life := { g.life with result := 2 } } } }) ∧
    (bit v 8 = false → bit v 9 = true → g.life.st ≠ .halted → exec (.step who e v .ok .ok) s = .next { s with
      dev := { d with engines := put d.engines e { g with seq := { g.seq with brkEn := bit v 0 } } } }) ∧
    (bit v 8 = false → bit v 9 = true → g.life.st = .halted →
      (let d' := due { d with engines := put d.engines e (woken true) } e
      violations d' e.val g.current = [] → stallCause d' e.val g.current = 0 → portViolations d' e.val g.current = [] → noSwap d e →
      g.current.seqop ≠ 11 → g.current.ctlPark = false → g.life.parkPend = false → ∃ t : Dev,
        exec (.step who e v .ok .ok) s = .next { s with dev := t } ∧ EngineFrame d' t e ∧
        t.engines[e].life.st = .halted ∧ t.engines[e].seq.step = false ∧ t.engines[e].seq.pc = successor d' e.val g.current)))

/-- A pin change moves the synchronised level, F + 1 clk of another level the filtered level, flags and stamps; a lane leaving OFF
takes its level silently; samples push. (R121; R200; R201; R202; R203; R205; R206; R208; R209; R210; R668; R671) -/
def Obligations.LaneInputsFilterStampAndSample : Prop :=
  (∀ (n : Fin 64) (b : Bool) (s : State),
    let l := s.dev.lanes[n]
    exec (.lanePinChange n b) s = .next { s with
      dev := { s.dev with lanes := put s.dev.lanes n (if b = l.sync then { l with readback := none }
        else { l with sync := b, syncClk := s.dev.clk, syncOld := l.sync, syncPrev := l.syncClk, readback := none }) } }) ∧
  (∀ (n : Fin 64) (s : State), s.dev.sys.fclkOn = true →
    let l := s.dev.lanes[n]
    let F := s.dev.cfg.lanes[n].filter.toNat
    let d := passTo (max l.syncClk l.onClk + 1 + F) s.dev
    let x := d.lanes[n]
    exec (.laneFirstLevel n) s = .next (
      if s.dev.cfg.lanes[n].mode ≠ 0 ∧ laneGood s.dev n.val = true ∧ l.settled = false then
        (if max x.syncClk x.onClk + 1 + F ≤ d.clk then
          { s with dev := { d with lanes := put d.lanes n { x with filt := x.synced d.clk, settled := true } } }
        else { s with dev := d })
      else s)) ∧
  (∀ (n : Fin 64) (dt : Nat) (s : State), s.dev.sys.fclkOn = true →
    let d0 := Machine.pass dt s.dev
    let c := s.dev.cfg.lanes[n]
    let live := c.mode ≠ 0 ∧ laneGood s.dev n.val = true ∧ s.dev.lanes[n].settled = true
    (¬ live ∨ d0.lanes[n].filterDue c.filter.toNat d0.clk = none → exec (.laneEdge n dt) s = .next { s with dev := d0 }) ∧
    (live → ∀ x, d0.lanes[n].filterDue c.filter.toNat d0.clk = some x →
      let d := passTo x d0
      let l := d.lanes[n]
      let up := l.synced d.clk
      (up = l.filt → exec (.laneEdge n dt) s = .next { s with dev := d }) ∧
      (up ≠ l.filt → ∃ t : Dev, exec (.laneEdge n dt) s = .next { s with dev := t } ∧
        t = { d with engines := t.engines, lanes := t.lanes, ev := t.ev, hr := { d.hr with relays := t.hr.relays } } ∧
        (∀ e : Fin 32, t.engines[e] = { d.engines[e] with ep := t.engines[e].ep }) ∧
        t.lanes[n].filt = up ∧ (d.clk + 1, 4 * n.val + (if up then 0 else 1)) ∈ t.ev.pulses ∧
        (∀ (e : Fin 32) (k : Nat), k < 8 → (e.val, k) ∈ laneBindings s.dev n.val →
          (if up then bit t.engines[e].ep.rise k else bit t.engines[e].ep.fall k) = true) ∧
        t.lanes[n].stamps = if bit c.stamp (if up then 0 else 1) = true ∧ laneDes s.dev n.val = true ∧ l.stamps.length < 16 then
          l.stamps ++ [(d.tb.now - BitVec.ofNat 64 (c.filter.toNat + 1), up)] else l.stamps))) ∧
  (∀ (n : Fin 64) (s : State), s.dev.sys.fclkOn = true →
    let l := s.dev.lanes[n]
    let pushed (d t : Dev) : Prop :=
      let x := d.lanes[n]
      let bs := if x.timing.gang then [x.filt, (lane d (n + 1)).filt, (lane d (n + 2)).filt, (lane d (n + 3)).filt] else [x.filt]
      t = { d with lanes := t.lanes, ev := t.ev, hr := { d.hr with relays := t.hr.relays } } ∧
      (x.fifo.length ≤ 512 → t.lanes[n].fifo = (x.fifo ++ bs).take 512 ∧
        t.lanes[n].fifoDrop = satInc x.fifoDrop (x.fifo.length + bs.length - 512) ∧
        (512 < x.fifo.length + bs.length → bit t.lanes[n].err 0 = true))
    (laneDes s.dev n.val = false → exec (.laneSample n) s = .next s) ∧
    (laneDes s.dev n.val = true → l.owed = true → ∃ t : Dev, exec (.laneSample n) s = .next { s with dev := t } ∧
      pushed s.dev t ∧ t.lanes[n].owed = false ∧ t.lanes[n].tn = l.tn) ∧
    (laneDes s.dev n.val = true → l.owed = false → l.timing.src = 1 →
      let d := passTo l.sampleClk s.dev
      let x := d.lanes[n]
      ∃ t : Dev, exec (.laneSample n) s = .next { s with dev := t } ∧ pushed d t ∧
        t.lanes[n].lastSample = x.tn ∧ t.lanes[n].tn = x.tn + x.timing.period x.setB) ∧
    (laneDes s.dev n.val = true → l.owed = false → l.timing.src = 2 → ∀ c r, l.due = c :: r →
      ∃ t : Dev, exec (.laneSample n) s = .next { s with dev := t } ∧ pushed (passTo c s.dev) t ∧ t.lanes[n].due = r))

/-- The serialiser sends its next bit-time, a CLKGEN lane reaches its second half, a pulse ends, a wrong read-back sets
CONTENTION. (R209; R211; R212; R214; R215; R216; R670) -/
def Obligations.LaneOutputsSendPulseAndReadBack : Prop :=
  (∀ (n : Fin 64) (s : State), s.dev.sys.fclkOn = true →
    let l := s.dev.lanes[n]
    let empty := l.cur = [] ∧ l.ser = []
    (nextBit s.dev n.val = none ∨ empty → exec (.serialiserBit n) s = .next s) ∧
    (∀ x, nextBit s.dev n.val = some x → ¬ empty → ∃ t : Dev, exec (.serialiserBit n) s = .next { s with dev := t } ∧
      (let d := passTo (x / 16) s.dev
      let l := d.lanes[n]
      let w := if l.timing.gang then 4 else 1
      t.lanes[n].cur = l.ser.take w ∧ t.lanes[n].ser = l.ser.drop w ∧ t.lanes[n].bitEnd = x + l.timing.period l.setB ∧
      (l.timing.cont = true → l.sentCont = true → l.cur ≠ [] → l.ser = [] → bit t.lanes[n].err 2 = true) ∧
      t = { d with lanes := t.lanes, ev := t.ev, hr := { d.hr with relays := t.hr.relays } }))) ∧
  (∀ (n : Fin 64) (s : State), s.dev.sys.fclkOn = true →
    let l := s.dev.lanes[n]
    let r := s.dev.lanes[l.timing.refLane.toNat]'(by omega)
    let p := r.timing.period r.setB
    let live := l.timing.src = 3 ∧ r.cur ≠ [] ∧ l.half2 = false
    (live → ∃ t : Dev, exec (.clkgenClockEdge n) s = .next { s with dev := t } ∧ t.lanes[n].half2 = true ∧
      t.clk = (if r.timing.src = 1 then passTo ((r.bitEnd - p) / 16 + p / 16 / 2) s.dev else s.dev).clk) ∧
    (¬ live → exec (.clkgenClockEdge n) s = .next s)) ∧
  (∀ (n : Fin 64) (s : State), s.dev.sys.fclkOn = true →
    let l := s.dev.lanes[n]
    let d := passTo l.pulseEnd s.dev
    exec (.lanePulseEnd n) s = .next (if l.pulse = none then s else
      { s with dev := { d with lanes := put d.lanes n { d.lanes[n] with pulse := none } } })) ∧
  (∀ (n : Fin 64) (s : State), s.dev.sys.fclkOn = true →
    let wrong (d : Dev) (b : Bool) : Prop := laneDrive d n.val = some b ∧ d.lanes[n].synced d.clk ≠ b
    (∀ b, s.dev.cfg.lanes[n].mode = 2 → wrong s.dev b →
      let d := passTo (contentionAt s.dev n.val b) s.dev
      (wrong d b → contentionAt d n.val b ≤ d.clk → ∃ t : Dev, exec (.contention n) s = .next { s with dev := t } ∧
        t = { d with ev := t.ev, hr := { d.hr with relays := t.hr.relays }
                     lanes := put d.lanes n { d.lanes[n] with err := setBit d.lanes[n].err 5 true } }) ∧
      (¬ wrong d b ∨ d.clk < contentionAt d n.val b → exec (.contention n) s = .next { s with dev := d })) ∧
    (s.dev.cfg.lanes[n].mode ≠ 2 ∨ (∀ b, ¬ wrong s.dev b) → exec (.contention n) s = .next s))

/-- A running pair that disagrees at N samples in a row trips once and latches its safe targets; only a Steward's SAFE store
clears it. (R217; R218; R219; R220; R223; R389) -/
def Obligations.PairedInputsTripAndClear : Prop :=
  (∀ (p : Fin 16) (s : State), s.dev.sys.fclkOn = true →
    let x := s.dev.pairs[p]
    let c := s.dev.cfg.pairs[p]
    let d := passTo x.next s.dev
    let a := pairSide d c.laneA (bit c.inv 0)
    let b := pairSide d c.laneB (bit c.inv 1)
    (x.run = false → exec (.pairSample p) s = .next s) ∧
    (x.run = true → ∃ t : Dev, exec (.pairSample p) s = .next { s with dev := t } ∧
      t = { d with pairs := t.pairs, ev := t.ev, hr := { d.hr with relays := t.hr.relays } } ∧
      (∀ q : Fin 16, q ≠ p → t.pairs[q] = s.dev.pairs[q]) ∧
      (let y := t.pairs[p]
      y.a = a ∧ y.b = b ∧ y.count = (if a = b then 0 else satInc x.count) ∧ y.next = x.next + 16 * c.ts.toNat ∧
      (a ≠ b → satInc x.count = c.n → x.count ≠ c.n → y.disc = true ∧ y.tripTime = d.tb.now ∧ y.trips = satInc x.trips ∧
        (x.disc = false → y.latch = some (safeTargets d p.val))) ∧
      ((a = b ∨ satInc x.count ≠ c.n ∨ x.count = c.n) → y.disc = x.disc ∧ y.tripTime = x.tripTime ∧ y.trips = x.trips ∧ y.latch = x.latch) ∧
      (x.disc = true → y.latch = x.latch)))) ∧
  (∀ (who : Who) (p : Fin 16) (v : Word) (s : State) (d : Dev), reached who (0x710C + 0x20 * p.val) s.dev = some d →
    let x := d.pairs[p]
    exec (.pairClear who p v) s = .next { s with
      dev := match who with
        | .steward c _ safe _ =>
          if safe = true ∧ bit v 0 = true then { d with pairs := put d.pairs p { x with disc := false, count := 0, latch := none } }
          else if safe = true then { d with pairs := put d.pairs p { x with clrRej := satInc x.clrRej } }
          else { stDeny c 3 d with pairs := put d.pairs p { x with clrRej := satInc x.clrRej } }
        | _ => { d with pairs := put d.pairs p { x with clrRej := satInc x.clrRej } } })

/-- In n clk the 96-bit value of TB_NOW and its fraction grows by n times TB_INC, modulo 2^96; TB_NOW is its integer part.
(R229) -/
def Obligations.TimebaseAddsItsIncrement : Prop :=
  ∀ (d : Dev) (n : Nat), d.sys.fclkOn = true → d.tb.counting = true → d.tb.incNext = none →
    (Machine.pass n d).tb.now.toNat * 2 ^ 32 + (Machine.pass n d).tb.frac.toNat =
      (d.tb.now.toNat * 2 ^ 32 + d.tb.frac.toNat + n * d.tb.inc.toNat) % 2 ^ 96 ∧
    (Machine.pass n d).tb.inc = d.tb.inc ∧ (Machine.pass n d).clk = d.clk + n

/-- TB_CTRL.LOAD sets TB_NOW while nothing is committed; a read of TB_NOW_LO latches the high word; PPS edges are measured and
their loss noticed. (R232; R233; R234; R235; R236; R237) -/
def Obligations.TimeIsLoadedReadAndSteered : Prop :=
  (∀ (who : Who) (v : Word) (s : State) (d : Dev), reached who 0x201C s.dev = some d → bit v 0 = true →
    exec (.tbLoad who v) s = .next { s with
      dev := if d.committed then { d with tb := { d.tb with rej := satInc d.tb.rej } } else { d with tb := { d.tb with now := d.tb.set, frac := 0 } } }) ∧
  (∀ (who : Who) (be : BitVec 4) (s : State) (d : Dev), reached who 0x2000 s.dev = some d → be = 0xF ∨ who = .host →
    exec (.tbNowLoRead who be) s = .next { s with
      dev := { d with
        rdata := leBytes 4 (lo32 d.tb.now).toNat, rcpl := [4]
        tb := match who with
          | .host => if be = 0xF then { d.tb with hostLatch := hi32 d.tb.now } else d.tb
          | .ring _ => { d.tb with ringLatch := hi32 d.tb.now }
          | .steward c _ _ _ => { d.tb with stLatch := upd? d.tb.stLatch c.val fun x => put? x d.cores[c].lvl (hi32 d.tb.now) } } }) ∧
  (∀ (dt : Nat) (s : State), s.dev.sys.fclkOn = true →
    let d := Machine.pass dt s.dev
    ∃ t : Tb, exec (.ppsEdge dt) s = .next { s with dev := { d with tb := t } } ∧ t.now = d.tb.now ∧ t.pps = d.tb.now ∧ t.ppsEdge = some d.clk ∧
      (∀ n : Nat, n = (match d.tb.ppsEdge with | some c => d.clk - c | none => 0) → t.ppsclk = BitVec.ofNat 32 n ∧
        t.ppsLost = (d.tb.ppsLost || decide (1501500000 < n) && !d.tb.ppsGone) ∧
        (d.tb.ppsRef = none → t.ppsRef = some d.tb.now ∧ t.ppsK = 0 ∧ t.ppsLock = false) ∧
        ∀ r : DWord, d.tb.ppsRef = some r →
          (n < 1498500000 ∨ 1501500000 < n → t.ppsBad = true ∧ t.ppsLock = false ∧ t.ppsRef = some d.tb.now ∧ t.ppsK = 0) ∧
          (1498500000 ≤ n → n ≤ 1501500000 → disciplined d = true →
            (let k := d.tb.ppsK + 1
            let err : Int := d.tb.now.toNat - (r.toNat + k * 1500000000)
            t.ppsK = k ∧ t.ppserr = satInt32 err ∧ t.ppsGood = (if err.natAbs ≤ 15 then d.tb.ppsGood + 1 else 0) ∧
            t.ppsLock = decide (4 ≤ t.ppsGood) ∧ t.incNext = some (d.clk + 64, ppsInc r d.tb.now k n))))) ∧
  (∀ (s : State) (c : Nat), s.dev.sys.fclkOn = true → s.dev.tb.ppsEdge = some c →
    (let d := passTo (c + 1501500017) s.dev
    exec .ppsLost s = .next (if s.dev.tb.ppsGone then s else
      { s with dev := { d with tb := { d.tb with ppsLost := true, ppsLock := false, ppsGood := 0, ppsGone := true } } })))

/-- ARM makes the staged target active or meets it late, DISARM and CLRM act, a match comes in the first clk at or past its target,
writes LAST and MATCHED and disarms or re-arms. (R19; R242; R243; R244; R245; R246; R667) -/
def Obligations.CompareChannelsArmAndMatch : Prop :=
  (∀ (who : Who) (k : Fin 64) (v : Word) (s : State) (d : Dev), reached who (0x240C + 0x20 * k.val) s.dev = some d →
    let own := ¬ (k = 0 ∧ d.committed = true)
    -- a match of this very clk comes first; an ARM or a DISARM discards its periodic re-arm
    let first (drop : Bool) : Dev := dueMatch k.val drop d
    let m (c : Cmp) : BitVec 2 := if bf v 4 2 = 3 then c.mode else bf v 4 2
    let written (c : Cmp) : Cmp := { c with
      hold := bf v 16 16, mode := m c, perEn := bit v 3, latePol := bit v 2, pulseEnd := if m c = c.mode then c.pulseEnd else none }
    let setTo (x : Dev) (c2 : Cmp) : Dev := { x with tb := { x.tb with cmps := put x.tb.cmps k c2 } }
    (¬ own → bit v 8 = true ∨ bit v 9 = true ∨ bit v 10 = true →
      let r : State := { s with dev := { d with tb := { d.tb with rej := satInc d.tb.rej } } }
      exec (.arm who k v) s = .next r ∧ exec (.disarm who k v) s = .next r ∧ exec (.clrm who k v) s = .next r) ∧
    (own → bit v 8 = true → bit v 9 = false → bit v 10 = false →
      let x := first true
      let c := x.tb.cmps[k]
      let c1 : Cmp := { written c with target := c.staged, matched := if m c = 0 then false else c.matched }
      (x.tb.now.toNat < c.staged.toNat →
        exec (.arm who k v) s = .next { s with dev := setTo x { c1 with armed := true, since := x.clk + 1 } }) ∧
      (c.staged.toNat ≤ x.tb.now.toNat → bit v 2 = true →
        exec (.arm who k v) s = .next { s with dev := setTo x { c1 with armed := false, late := true } }) ∧
      (c.staged.toNat ≤ x.tb.now.toNat → bit v 2 = false → exec (.arm who k v) s = .next { s with
        dev := raiseNext (0x100 + k.val) (setTo x (cmpMatch x.clk x.tb.now { c1 with armed := true, late := true })) })) ∧
    (own → bit v 8 = false → bit v 9 = true → bit v 10 = false → exec (.disarm who k v) s = .next { s with
      dev := setTo (first true) { written (first true).tb.cmps[k] with armed := false } }) ∧
    (own → bit v 8 = false → bit v 9 = false → bit v 10 = true → exec (.clrm who k v) s = .next { s with
      dev := setTo (first false) { written (first false).tb.cmps[k] with matched := false, pulseEnd := none } })) ∧
  (∀ (k : Fin 64) (s : State),
    let c := s.dev.tb.cmps[k]
    let d := passToMatch k.val s.dev
    (s.dev.sys.fclkOn = true → c.armed = true → ¬ (k = 0 ∧ s.dev.committed = true) → s.dev.tb.counting = true →
      exec (.compareMatch k) s = .next { s with
        dev := raiseNext (0x100 + k.val) { d with tb := { d.tb with cmps := put d.tb.cmps k (cmpMatch d.clk d.tb.now c) } } }) ∧
    (c.armed = false → exec (.compareMatch k) s = .next s) ∧
    (∀ p, s.dev.sys.fclkOn = true → c.pulseEnd = some p → exec (.matchedPulseEnd k) s = .next { s with
      dev := { passTo p s.dev with tb := { (passTo p s.dev).tb with
        cmps := put (passTo p s.dev).tb.cmps k { c with matched := false, pulseEnd := none } } } })) ∧
  (∀ (d : Dev) (t : DWord), d.sys.fclkOn = true → d.tb.counting = true → d.tb.incNext = none → d.tb.inc ≠ 0 →
    t.toNat * 2 ^ 32 + d.tb.inc.toNat ≤ 2 ^ 96 →
    t.toNat ≤ (pass (clkUntil d t) d).tb.now.toNat ∧ ∀ n < clkUntil d t, (pass n d).tb.now.toNat < t.toNat) ∧
  (∀ (clk : Nat) (now : DWord) (c : Cmp), (cmpMatch clk now c).last = now ∧
    (c.perEn = true → (cmpMatch clk now c).target = c.target + c.period.zeroExtend 64 ∧ (cmpMatch clk now c).armed = c.armed ∧
      (cmpMatch clk now c).since = clk + 1) ∧
    (c.perEn = false → (cmpMatch clk now c).target = c.target ∧ (cmpMatch clk now c).armed = false) ∧
    (c.mode = 0 ∨ c.mode = 1 → (cmpMatch clk now c).matched = true) ∧ (c.mode = 2 → (cmpMatch clk now c).matched = !c.matched) ∧
    (c.mode = 1 → (cmpMatch clk now c).pulseEnd = some (clk + max 1 c.hold.toNat)))

/-- A free-running gated counter wraps to 0 with OVF and WRAPCNT, hits its threshold with THRHIT; LOAD and CLRWRAP write. (R249;
R250; R251; R252; R253) -/
def Obligations.GatedCountersCountWrapAndHit : Prop :=
  (∀ (g : Fin 32) (s : State),
    let o := s.dev.tb.gcs[g]
    let free := o.en = true ∧ o.kind = 5 ∧ o.pol = true ∧ o.gatePrev = true ∧ o.loadClk ≤ s.dev.clk
    (s.dev.sys.fclkOn = true → free → ∃ t : Dev, exec (.gcWrap g) s = .next { s with dev := t } ∧
      t.clk = s.dev.clk + (2 ^ 48 - o.count.toNat) ∧ t.tb.gcs[g].count = 0 ∧ t.tb.gcs[g].ovf = true ∧
      t.tb.gcs[g].wrapcnt = satInc o.wrapcnt) ∧
    (s.dev.sys.fclkOn = true → free → o.thrEn = true → o.count.toNat < o.thr.toNat → ∃ t : Dev,
      exec (.gcThreshold g) s = .next { s with dev := t } ∧ t.clk = s.dev.clk + (o.thr.toNat - o.count.toNat) ∧
      t.tb.gcs[g].count = o.thr ∧ t.tb.gcs[g].thrhit = true) ∧
    (o.en = false ∨ o.kind = 0 → exec (.gcWrap g) s = .next s ∧ exec (.gcThreshold g) s = .next s)) ∧
  (∀ (who : Who) (g : Fin 32) (v : Word) (s : State) (d : Dev), reached who (0x2C1C + 0x20 * g.val) s.dev = some d →
    let o := d.tb.gcs[g]
    let r : State := { s with dev := { d with tb := { d.tb with gcs := put d.tb.gcs g { o with
      thrhit := o.thrhit && !bit v 9, ovf := o.ovf && !bit v 8, wrapcnt := if bit v 1 then 0 else o.wrapcnt
      count := if bit v 0 then o.set else o.count, loadClk := if bit v 0 then d.clk + 1 else o.loadClk } } } }
    exec (.gcLoad who g v) s = .next r ∧ exec (.clrwrap who g v) s = .next r)

/-- The oldest occurrence is delivered two clk after it was raised, TGT0 before TGT1, to engine inputs, larders, host bits or
lanes. (R60; R263; R267; R269; R270; R272; R274; R277; R214; R280) -/
def Obligations.OccurrencesReachTheirTargets : Prop :=
  (∀ (s : State) (f : Flight) (r : List Flight), s.dev.sys.fclkOn = true → s.dev.ev.flights = f :: r →
    let d := passTo (f.clk + 2) s.dev
    exec .eventDelivery s = .next { s with
      dev := fenceChecks (deliver f.src.toNat f.time f.clk f.tgt1 (deliver f.src.toNat f.time f.clk f.tgt0
        { d with ev := { d.ev with flights := d.ev.flights.erase f } })) }) ∧
  (∀ (n : Nat) (time : Word) (clk : Nat) (t : Half) (d : Dev),
    let i := fld t 0 12
    (fld t 12 4 = 0 → deliver n time clk t d = d) ∧
    (∀ (e : Fin 32) (j : Fin 16), fld t 12 4 = 1 → i = 16 * e.val + j.val → (at? d.pwr.cls (e.val / 4) {}).st = .active →
      d.engines[e].life.st ≠ .cutover → (∀ x ∈ d.ev.landing, x.eng.val / 4 ≠ e.val / 4) →
      deliver n time clk t d = { d with ev := { d.ev with inputs := put d.ev.inputs e (put d.ev.inputs[e] j
        { d.ev.inputs[e][j] with count := satInc d.ev.inputs[e][j].count, edge := true }) } }) ∧
    (∀ (e : Fin 32) (j : Fin 16), fld t 12 4 = 1 → i = 16 * e.val + j.val → (cluster d (e.val / 4)).st = .dormant →
      d.engines[e].life.st ≠ .cutover → at? d.cfg.clusterPolicy (e.val / 4) 0 ≠ 2 → d.ev.landing.length < 32 →
      (∃ x ∈ (deliver n time clk t d).ev.landing, x.eng = e ∧ x.inp = j) ∧ (deliver n time clk t d).ev.inputs = d.ev.inputs ∧
      (cluster (deliver n time clk t d) (e.val / 4)).wakeReq = true) ∧
    (∀ (c : Fin 4) (j : Fin 32), fld t 12 4 = 2 → i = 32 * c.val + j.val →
      let q := d.ev.larders[c]
      let keep (q' : Larder) : Dev := { d with ev := { d.ev with larders := put d.ev.larders c q' } }
      let mine (x : LarderEntry) : Prop := x.src.toNat = n ∧ x.line.toNat = j.val
      ((∃ x ∈ q.entries, mine x) → deliver n time clk t d = keep { q with
        entries := q.entries.map fun x => if x.src.toNat = n ∧ x.line.toNat = j.val then { x with count := satInc x.count } else x }) ∧
      ((∀ x ∈ q.entries, ¬ mine x) → q.entries.length < d.cfg.larderLimit[c].toNat → deliver n time clk t d = keep { q with
        entries := q.entries ++ [{ src := BitVec.ofNat 11 n, line := BitVec.ofNat 5 j.val, l2 := bit d.cfg.l2Lines[c] j.val, count := 1, time := time }] }) ∧
      ((∀ x ∈ q.entries, ¬ mine x) → d.cfg.larderLimit[c].toNat ≤ q.entries.length → deliver n time clk t d =
        (if q.lostf then id else raise 0x605) (keep { q with lost := satInc q.lost, lostf := true }))) ∧
    (fld t 12 4 = 4 → i < 256 → deliver n time clk t d = { d with ev := { d.ev with
      hstat := upd? d.ev.hstat (i / 32) fun w => setBit w (i % 32) true } }) ∧
    (∀ l : Fin 64, fld t 12 4 = 5 → i / 4 = l.val → d.cfg.lanes[l].mode ≠ 0 → d.cfg.lanes[l].mode ≠ 1 → deliver n time clk t d =
      { d with lanes := put d.lanes l (
        if i % 4 = 0 then { d.lanes[l] with lvl := false } else if i % 4 = 1 then { d.lanes[l] with lvl := true }
        else if i % 4 = 2 then { d.lanes[l] with lvl := !d.lanes[l].lvl } else { d.lanes[l] with pulse := some !d.lanes[l].lvl, pulseEnd := d.clk + max 1 d.lanes[l].pulseLen.toNat }) })) ∧
  (∀ (who : Who) (g : Fin 8) (v : Word) (s : State) (d : Dev), reached who (0x4200 + 4 * g.val) s.dev = some d →
    exec (.softset who g v) s = .next { s with
      dev := (setBits v 32).foldl (fun d i => raise (0x700 + 32 * g.val + i) d)
        { d with ev := { d.ev with softLvl := put d.ev.softLvl g (d.ev.softLvl[g] ||| v) } } }) ∧
  (∀ (who : Who) (g : Fin 8) (v : Word) (s : State) (d : Dev), reached who (0x4220 + 4 * g.val) s.dev = some d →
    exec (.softclr who g v) s = .next { s with
      dev := { d with ev := { d.ev with softLvl := put d.ev.softLvl g (d.ev.softLvl[g] &&& ~~~v) } } })

/-- A pop takes the oldest entry the core's level may take and returns it; INTA is asserted and withdrawn as its condition says.
(R275; R278; R283; R284; R545; R546; R547) -/
def Obligations.LarderPopsAndInterruptMessages : Prop :=
  (∀ (c : Fin 4) (s : State), regsLive s.dev = true →
    let q := s.dev.ev.larders[c]
    (∀ x, q.entries.find? (qualifies s.dev.cores[c].lvl) = some x → exec (.larderPop c) s = .next { s with
      dev := { s.dev with
        rdata := leBytes 4 (larderWord x).toNat, rcpl := [4]
        ev := { s.dev.ev with larders := put s.dev.ev.larders c { q with entries := q.entries.erase x, popTime := x.time } } } }) ∧
    (q.entries.find? (qualifies s.dev.cores[c].lvl) = none → exec (.larderPop c) s = .next { s with dev := { s.dev with rdata := [0, 0, 0, 0], rcpl := [4] } })) ∧
  (∀ s : State,
    let p := s.dev.pe
    let msg (b : Bool) (m : Out) : State := { s with
      dev := if p.link = .l0 then { s.dev with out := s.dev.out ++ [m], pe := { p with wire := b, intaDue := none } }
        else { s.dev with pe := { p with intaDue := some b, link := if p.link = .l1 then .recovery else p.link } } }
    (intaCond s.dev = true → p.wire = false → exec .assertInta s = .next (msg true .assertInta)) ∧
    (intaCond s.dev = false ∨ p.wire = true → exec .assertInta s = .next s) ∧
    (intaCond s.dev = false → p.wire = true → p.dlUp = true → exec .deassertInta s = .next (msg false .deassertInta)) ∧
    (intaCond s.dev = true ∨ p.wire = false ∨ p.dlUp = false → exec .deassertInta s = .next s))

/-- A served word read returns the register's value and, with all byte enables, clears its read-clear fields; a BAR2 read peeks
the Cellar. (R7; R9; R11; R234; R302; R322; R532; R543; R586; R588) -/
def Obligations.RegisterReadsReturnAndClear : Prop :=
  (∀ (who : Who) (o : Nat) (v : Word) (s : State) (d : Dev), reached who o s.dev = some d → o % 4 = 0 → o < 0x100000 → o ≠ 0x2000 →
    (match who with | .steward c _ _ _ => o ≠ 0x4060 + 8 * c.val | _ => True) → regVal who o d = some v →
    exec (.rcFieldRead who .bar0 (BitVec.ofNat 24 o) [0xF] [] []) s = .next { s with
      dev := { (if clears who o d then regClear o d else d) with rdata := leBytes 4 v.toNat, rcpl := [4] } }) ∧
  (∀ (be : BitVec 4) (o : Nat) (v : Word) (s : State) (d : Dev), reached .host o s.dev = some d → o % 4 = 0 → o < 0x100000 →
    regVal .host o d = some v → be ≠ 0xF →
    exec (.rcFieldRead .host .bar0 (BitVec.ofNat 24 o) [be] [] []) s = .next { s with
      dev := { d with rdata := leBytes 4 v.toNat, rcpl := [4] } }) ∧
  (∀ d : Dev, regClear 0x4010 d = { d with ev := { d.ev with rldrop := 0 } } ∧ regClear 0x4014 d = { d with ev := { d.ev with landDrop := 0 } }) ∧
  (∀ (o n : Nat) (s : State), o % 4 = 0 → o + 4 * n ≤ 0x1000000 → hostLive s.dev = true → barOn (arrive s.dev) = true →
    (arrive s.dev).sys.fclkOn = true → (0x800000 ≤ o → ∀ i < 4 * n, notAppended s.dev (o - 0x800000 + i) = false) →
    exec (.rcFieldRead .host .bar2 (BitVec.ofNat 24 o) (List.replicate n 0xF) [] []) s = .next { s with
      dev := { arrive s.dev with
        rdata := if o < 0x800000 then List.replicate (4 * n) 0 else (List.range (4 * n)).map fun i => peekByte (arrive s.dev) (o - 0x800000 + i)
        rcpl := cplSplit (maxPayload (arrive s.dev).pe) (4 * n + 1) o (4 * n) } }) ∧
  (∀ (o n : Nat) (s : State), o % 4 = 0 → 0x800000 ≤ o → o + 4 * n ≤ 0x1000000 → hostLive s.dev = true → barOn (arrive s.dev) = true →
    (arrive s.dev).sys.fclkOn = true → ∃ t : Dev,
    exec (.rcFieldRead .host .bar2 (BitVec.ofNat 24 o) (List.replicate n 0xF) [] []) s = .next { s with dev := t } ∧
      t = { arrive s.dev with freeCtr := t.freeCtr, rdata := t.rdata, rcpl := t.rcpl } ∧ t.rdata.length = 4 * n ∧
      ∀ i < 4 * n, t.rdata[i]? = some (peekByte (arrive s.dev) (o - 0x800000 + i)) ∨
        (notAppended s.dev (o - 0x800000 + i) = true ∧ t.rdata[i]? = some 0)) ∧
  (∀ m a n : Nat, 64 ≤ m → (cplSplit m (n + 1) a n).sum = n ∧ ∀ k ∈ cplSplit m (n + 1) a n, k ≤ m)

/-- Word writes that reach their register store plain fields, clear write-one-to-clear bits, and an aligned 8-byte write of
TB_SET takes both halves. (R5; R6; R8; R11; R226; R283; R329; R450; R622; R657) -/
def Obligations.RegisterWritesStoreTheirFields : Prop :=
  (∀ (who : Who) (v : Word) (s : State) (d : Dev) (g : Fin 8), reached who (0x4120 + 4 * g.val) s.dev = some d →
    exec (.registerWrite who .bar0 (BitVec.ofNat 24 (0x4120 + 4 * g.val)) [(v, 0xF)] false) s = .next { s with
      dev := { d with ev := { d.ev with hen := put d.ev.hen g v } } }) ∧
  (∀ (who : Who) (v : Word) (s : State) (d : Dev) (g : Fin 8), reached who (0x4100 + 4 * g.val) s.dev = some d →
    exec (.registerWrite who .bar0 (BitVec.ofNat 24 (0x4100 + 4 * g.val)) [(v, 0xF)] false) s = .next { s with
      dev := { d with ev := { d.ev with hstat := put d.ev.hstat g (d.ev.hstat[g] &&& ~~~v) } } }) ∧
  (∀ (who : Who) (v : Word) (s : State) (d : Dev) (n : Fin 64), reached who (0x6018 + 0x40 * n.val) s.dev = some d →
    exec (.registerWrite who .bar0 (BitVec.ofNat 24 (0x6018 + 0x40 * n.val)) [(v, 0xF)] false) s = .next { s with
      dev := { d with lanes := put d.lanes n { d.lanes[n] with pulseLen := bf v 8 8, oe := bit v 1, lvl := bit v 0 } } }) ∧
  (∀ (who : Who) (v : Word) (s : State) (d : Dev), reached who 0x8400 s.dev = some d →
    exec (.registerWrite who .bar0 0x8400 [(v, 0xF)] false) s = .next { s with dev := { d with cl := { d.cl with bsel := bf v 0 8 } } }) ∧
  (∀ (who : Who) (v : Word) (s : State) (d : Dev), reached who 0x004C s.dev = some d →
    exec (.registerWrite who .bar0 0x004C [(v, 0xF)] false) s = .next { s with dev := { d with sys := { d.sys with alertEng := v } } }) ∧
  (∀ (who : Who) (v : Word) (s : State) (d : Dev) (k : Fin 128), reached who (0xF200 + 4 * k.val) s.dev = some d →
    exec (.registerWrite who .bar0 (BitVec.ofNat 24 (0xF200 + 4 * k.val)) [(v, 0xF)] false) s = .next { s with
      dev := if maySys who then { d with rc := wrLE d.rc (0x200 + 4 * k.val) 4 v.toNat } else denied who 1 d }) ∧
  (∀ (lo hi : Word) (s : State), hostLive s.dev = true → barOn (arrive s.dev) = true → (arrive s.dev).sys.fclkOn = true →
    exec (.registerWrite .host .bar0 0x2028 [(lo, 0xF), (hi, 0xF)] false) s = .next { s with
      dev := { arrive s.dev with tb := { (arrive s.dev).tb with set := hi ++ lo } } })

/-- A write the host cannot deliver changes nothing; BAR0 not decoded, a partial word or a wrong length is an Unsupported
Request; a Steward's is a store error. (R11; R487; R526; R543; R544; R549; R559; R586; R588; R408) -/
def Obligations.WritesThatReachNoRegister : Prop :=
  (∀ (sp : Space) (o : BitVec 24) (ws : List (Word × BitVec 4)) (p : Bool) (s : State), hostLive s.dev = false →
    exec (.registerWrite .host sp o ws p) s = .next s) ∧
  (∀ s : State, hostLive s.dev = true →
    let d := arrive s.dev
    let ur (kind : BitVec 4) (c : Instr) : Prop := ∃ t : Dev, exec c s = .next { s with dev := t } ∧
      t.pe.urCnt = satInc d.pe.urCnt ∧ (d.pe.urCnt = 0 → t.pe.urKind = kind) ∧ t = { d with pe := t.pe, out := t.out, freeCtr := t.freeCtr }
    (∀ (o : BitVec 24) (ws : List (Word × BitVec 4)), barOn d = false → ur 1 (.registerWrite .host .bar0 o ws false)) ∧
    (barOn d = true → d.sys.fclkOn = true →
      (∀ (o : BitVec 24) (v : Word) (be : BitVec 4), o.toNat % 4 = 0 → o.toNat < 0x100000 → (regVal .host o.toNat d).isSome = true →
        be ≠ 0 → be ≠ 0xF → ¬ (0xF200 ≤ o.toNat ∧ o.toNat < 0xF400) → ur 4 (.registerWrite .host .bar0 o [(v, be)] false)) ∧
      (∀ (o : BitVec 24) (x y : Word × BitVec 4), o.toNat % 8 = 4 → o.toNat < 0x100000 → ur 5 (.registerWrite .host .bar0 o [x, y] false)) ∧
      (∀ (o : BitVec 24) (x y z : Word × BitVec 4) (r : List (Word × BitVec 4)), o.toNat < 0x100000 →
        ur 3 (.registerWrite .host .bar0 o (x :: y :: z :: r) false)) ∧
      (∀ (o : BitVec 24) (ws : List (Word × BitVec 4)), 0x10000 ≤ o.toNat → ur 5 (.registerWrite .host .bar2 o ws false)) ∧
      (∀ (o : BitVec 24) (v : Word), o.toNat % 4 = 0 → o.toNat < 0x100000 → regVal .host o.toNat d = none →
        exec (.registerWrite .host .bar0 o [(v, 0xF)] false) s = .next { s with dev := d })) ∧
    (∀ (o : BitVec 24) (ws : List (Word × BitVec 4)), romOn d = true → o.toNat < 0x10000 → ur 6 (.registerWrite .host .rom o ws false))) ∧
  (∀ (who : Who) (sp : Space) (o : BitVec 24) (ws : List (Word × BitVec 4)) (p : Bool) (s : State), who ≠ .host → regsLive s.dev = false →
    exec (.registerWrite who sp o ws p) s = .next s) ∧
  (∀ (c : Fin 4) (fr sf sys : Bool) (o : BitVec 24) (v : Word) (s : State), regsLive s.dev = true → o.toNat % 4 = 0 →
    regVal (.steward c fr sf sys) o.toNat s.dev = none →
    exec (.registerWrite (.steward c fr sf sys) .bar0 o [(v, 0xF)] false) s = .next { s with
      dev := busError c.val 0 (regBase + o.toNat) (inSealed s.dev c.val) s.dev })

/-- RES_TIMEOUT voids with LOST, RECORD_RELEASE and CL_BACK go in order, a trigger record is written and committed, SEAL_RECORD
extends the chain. (R289; R291; R292; R293; R295; R303; R306; R316; R317; R318; R319) -/
def Obligations.RecordsTimeOutReleaseAndAreTaken : Prop :=
  ∀ (b : Fin 256) (c : BinEntry) (s : State),
    let d := s.dev
    let x := d.cl.bins[b]
    d.sys.fclkOn = true → binCfg? d b.val = some c → Memory.wf d.cl.mem →
    (∀ (i : Fin 8) (r : Rec), x.openRecs.find? (fun r => r.slot == i.val) = some r → c.resTimeout.toNat ≤ r.age → ∃ t : Dev,
      (let a := c.base.toNat + r.off
      exec (.resTimeout b i) s = .next { s with dev := t } ∧ t = { d with cl := t.cl, hr := t.hr, out := t.out } ∧
      (x.fwd = none → t = { d with cl := t.cl }) ∧ (∀ n, x.fwd = some (r.seq, n) → (b.val, r.seq + 1) ∈ t.hr.recNext) ∧
      hdrAt t a = (hdrAt d a &&& ~~~0x0000000100000000) ||| 0x0000001400000000 ∧
      (∀ y, (y < a ∨ a + 8 ≤ y) → rd8 t.cl.mem y = rd8 d.cl.mem y) ∧ (∀ f : Fin 256, f ≠ b → t.cl.bins[f] = d.cl.bins[f]) ∧
      (∀ y ∈ t.cl.bins[b].openRecs, y.slot ≠ i.val) ∧ t.cl.bins[b].timeout = satInc x.timeout ∧ t.cl.bins[b].timedOut[i] = some r.seq)) ∧
    (∀ (pre : List Rec) (r : Rec) (post : List Rec), x.recs = pre ++ r :: post →
      (∀ y ∈ pre, y.st = .released ∨ y.st = .sealed) → (∀ y ∈ pre ++ post, y.seq ≠ r.seq) →
      (r.st = .opened → exec (.recordRelease b) s = .next s) ∧
      (r.st = .ended → exec (.recordRelease b) s = .next { s with
        dev := { d with cl := { d.cl with
          bins := put d.cl.bins b { x with rel := afterRec c r, relSeq := r.seq + 1, recs := pre ++ { r with st := .released } :: post }
          sealQueue := if c.sealed then d.cl.sealQueue ++ [(b.val, r.seq)] else d.cl.sealQueue } } }) ∧
      -- its COMMIT or VOID waits, alone, in the write queue of engine `e`: the clk until it has been written pass first
      (∀ (e : Fin 32) (y : PortWr), r.st = .closing → d.engines[e].ep.queue = [y] → y.bin = b.val → y.seq = r.seq → y.ends.isSome = true →
        0 < d.engines[e].ep.portWait → (∀ f : Fin 32, f ≠ e → d.engines[f].ep.queue = []) → (∀ k l : Fin 4, d.cl.ports[k][l].queue = []) →
        (let t := pass d.engines[e].ep.portWait d
        exec (.recordRelease b) s = .next { s with
          dev := { t with cl := { t.cl with
            bins := put t.cl.bins b { t.cl.bins[b] with
              rel := afterRec c r, relSeq := r.seq + 1, recs := pre ++ { r with written := y.written, st := .released } :: post }
            sealQueue := if c.sealed then d.cl.sealQueue ++ [(b.val, r.seq)] else d.cl.sealQueue } } }))) ∧
    (∀ (who : Who) (v : Word) (d1 : Dev), reached who (0x900C + 0x10 * b.val) d = some d1 → binCfg? d1 b.val = some c →
      d1.sys.role ≠ 1 → c.hostRing = 0xFF →
      (let z := d1.cl.bins[b]
      let taken (rs : List Rec) (k : Nat) : State := { s with
        dev := { d1 with cl := { d1.cl with bins := put d1.cl.bins b { z with recs := rs, take := k } } } }
      (∀ (r : Rec) (tk rest : List Rec), z.recs = r :: tk ++ rest → v = r.seq + BitVec.ofNat 32 (tk.length + 1) → tk.length + 1 < 2 ^ 32 →
        (∀ y ∈ r :: tk, y.st = .sealed ∨ (y.st = .released ∧ c.sealed = false)) →
        exec (.clBack who b v) s = .next (taken rest (afterRec c ((r :: tk).getLast (by simp))))) ∧
      (∀ r rest, z.recs = r :: rest → (z.recs.filter fun y => y.st == .released || y.st == .sealed).length < (v - r.seq).toNat →
        exec (.clBack who b v) s = .next { s with
          dev := { d1 with cl := { d1.cl with bins := put d1.cl.bins b { z with badAck := satInc z.badAck } } } }))) ∧
    (∀ (tr : Trig) (q : Word) (r : Rec), x.trgOpen = some (tr, some q) → x.trgQueue = [] → x.openRecs.find? (fun r => r.seq == q) = some r →
      r.len = 5 → ∃ t : Dev,
      (let a := c.base.toNat + r.off
      exec (.triggerRecord b) s = .next { s with dev := t } ∧ t = { d with cl := t.cl } ∧
      rdBytes t.cl.mem (a + 16) 24 = trigPayload tr ∧
      hdrAt t a = (hdrAt d a &&& ~~~0x0000000100000000) ||| (if r.trunc then 0x0000000A00000000 else 0x0000000200000000) ∧
      (∀ y, (y < a ∨ a + 8 ≤ y) → (y < a + 16 ∨ a + 40 ≤ y) → rd8 t.cl.mem y = rd8 d.cl.mem y) ∧
      t.cl.bins[b].trgOpen = none ∧ ∀ f : Fin 256, f ≠ b → t.cl.bins[f] = d.cl.bins[f])) ∧
    (∀ (r : Rec) (rest : List (Nat × Word)), d.cl.sealFrozen = false → d.cl.sealQueue = (b.val, r.seq) :: rest →
      x.recs.find? (fun y => y.seq == r.seq && y.st == .released) = some r →
      (let a := c.base.toNat + r.off
      (∃ t : Dev, exec (.sealRecord .ok) s = .next { s with dev := t } ∧ t = { d with cl := t.cl } ∧ t.cl.sealQueue = rest ∧
        hdrAt t a = hdrAt d a ||| 0x0000002000000000 ∧ (∀ y, (y < a ∨ a + 8 ≤ y) → rd8 t.cl.mem y = rd8 d.cl.mem y) ∧
        t.cl.bins[b].chain = hmacSha256 (sealKeyOf d b.val) (x.chain ++ delivered c r t) ∧
        t.cl.bins[b].recs = x.recs.map fun y => if y.seq = r.seq ∧ y.st = .released then { y with st := .sealed } else y) ∧
      exec (.sealRecord .key) s = .next { s with
        dev := freezeRecord 0x25 0x41 false false b.val r.seq.toNat { d with cl := { d.cl with sealFrozen := true } } }))

/-- CL_SREQ answers in RESULT and CL_SRESP as R310's table says; CL_SAPPEND, CL_SCOMMIT and CL_SVOID enter the set's write queue,
or wait while it is full; BLOCK_GRANT grants. (R152; R295; R296; R299; R300; R301; R303; R304; R310; R311) -/
def Obligations.StewardPortsReserveAppendCommitAndVoid : Prop :=
  (∀ (c l : Fin 4) (s : State), regsLive s.dev = true → s.dev.cores[c].lvl = l.val →
    let off (o : Nat) : Nat := 0x8100 + 0x80 * c.val + 0x20 * l.val + o
    let err (o : Nat) (d : Dev) : State := { s with dev := busError c.val 2 (regBase + off o) (inSealed s.dev c.val) d }
    (∀ v : Word,
      let b := fld v 0 8
      let n := fld v 16 16
      -- the request of this set that waits is withdrawn first
      let d := withdraw (Waiter.ofSet c l) s.dev
      (n = 0 ∨ binCfg? d b = none ∨ (∃ e, binCfg? d b = some e ∧ coreMay d c.val b e s.dev.cores[c].comp = false) →
        exec (.clSreq c v) s = .next (err 0 d)) ∧
      (∀ e : BinEntry, n ≠ 0 → binCfg? d b = some e → coreMay d c.val b e s.dev.cores[c].comp = true →
        let x := bin (makeRoom b e (max 2 n) (serveWaiting b e d)) b
        (∀ y ∈ x.openRecs, y.seq ≠ x.seq) → ∃ t : Dev,
        (let q := t.cl.ports[c][l]
        exec (.clSreq c v) s = .next { s with dev := t } ∧
        t = { d with cl := t.cl, ev := t.ev, hr := { d.hr with relays := t.hr.relays } } ∧
        (e.maxrec.toNat < n → q.result = 3 ∧ q.resp = badHandle b ∧ (bin t b).tooBig = satInc (bin d b).tooBig) ∧
        (n ≤ e.maxrec.toNat → hasRoom e x (max 2 n) = true → q.result = 1 ∧
          q.resp = pack [(16, x.seq.toNat % 4096), (8, b), (0, x.freeSlot)] ∧ (bin t b).seq = x.seq + 1) ∧
        (n ≤ e.maxrec.toNat → hasRoom e x (max 2 n) = false → q.resp = badHandle b ∧ (bin t b).seq = x.seq ∧
          (e.policy = 2 → q.result = 4 ∧ (bin t b).waiting = x.waiting ++ [.steward c l (bf v 8 8) (bf v 16 16)]) ∧
          (e.policy ≠ 2 → q.result = 2 ∧ (bin t b).full = satInc x.full))))) ∧
    -- a full queue of 16 entries makes the store wait until its oldest entry is written
    (let d := if 16 ≤ s.dev.cl.ports[c][l].queue.length then pass s.dev.cl.ports[c][l].wait s.dev else s.dev
    let p := d.cl.ports[c][l]
    let port (p' : Port) : State := { s with dev := { d with cl := { d.cl with ports := put d.cl.ports c (put d.cl.ports[c] l p') } } }
    (∀ (h v : Word) (o : Nat) (i : Instr),
      (h = p.handle ∧ o = 0x10 ∧ i = .clSappend c v) ∨ (h = v ∧ o = 0x14 ∧ i = .clScommit c v) ∨ (h = v ∧ o = 0x18 ∧ i = .clSvoid c v) →
      (resolve (coreOwns c.val) h d = .invalid → exec i s = .next (port { p with discard := satInc p.discard })) ∧
      (resolve (coreOwns c.val) h d = .late → exec i s = .next (port { p with late := satInc p.late })) ∧
      (resolve (coreOwns c.val) h d = .other → exec i s = .next (err o d))) ∧
    (∀ (v : Word) (b : Nat) (e : BinEntry) (r : Rec),
      let a := e.base.toNat + r.off
      let queued (i : Instr) (x : List PortWr) (t : Dev) : Prop :=
        exec i s = .next { s with dev := t } ∧ t = { d with cl := t.cl } ∧ t.cl.mem = d.cl.mem ∧ t.cl.ports[c][l].queue = p.queue ++ x
      (resolve (coreOwns c.val) p.handle d = .held b e r → r.cursor + 4 ≤ 8 * r.len → ∃ t : Dev,
        queued (.clSappend c v) [{ bin := b, seq := r.seq, addr := a + r.cursor, data := leBytes 4 v.toNat, written := r.cursor + 4 }] t ∧
        resolve (coreOwns c.val) p.handle t = .held b e { r with cursor := r.cursor + 4 }) ∧
      (resolve (coreOwns c.val) p.handle d = .held b e r → 8 * r.len < r.cursor + 4 → ∃ t : Dev,
        queued (.clSappend c v) [] t ∧ resolve (coreOwns c.val) p.handle t = .held b e { r with trunc := true }) ∧
      (resolve (coreOwns c.val) v d = .held b e r → ∃ t : Dev,
        queued (.clScommit c v) [{
          bin := b, seq := r.seq, addr := a + r.cursor, data := List.replicate (8 * r.len - r.cursor) 0, written := 8 * r.len
          hdr := a, ends := some (if r.trunc then 0x0A else 0x02) }] t ∧ ∀ y ∈ (bin t b).openRecs, y.slot ≠ r.slot) ∧
      (resolve (coreOwns c.val) v d = .held b e r → ∃ t : Dev,
        queued (.clSvoid c v) [{ bin := b, seq := r.seq, addr := a, data := [], written := r.written, hdr := a, ends := some 0x04 }] t ∧
        ∀ y ∈ (bin t b).openRecs, y.slot ≠ r.slot)))) ∧
  (∀ (b : Fin 256) (e : BinEntry) (s : State), s.dev.sys.fclkOn = true → binCfg? s.dev b.val = some e → s.dev.cl.bins[b].trgOpen = none →
    let x := s.dev.cl.bins[b]
    (∀ (c l : Fin 4) (typ : Byte) (n : Half), x.waiting = [.steward c l typ n] →
      hasRoom e x (max 2 n.toNat) = true → ∃ t : Dev, exec (.blockGrant b) s = .next { s with dev := t } ∧
      t.cl.ports[c][l] = { s.dev.cl.ports[c][l] with result := 1, resp := pack [(16, x.seq.toNat % 4096), (8, b.val), (0, x.freeSlot)] } ∧
      t.cl.bins[b].waiting = [] ∧ t.cl.bins[b].seq = x.seq + 1 ∧
      t = { s.dev with cl := t.cl, ev := t.ev, hr := { s.dev.hr with relays := t.hr.relays } }) ∧
    (∀ (f : Fin 32) (n : Nat), x.waiting = [.engine f n] → executes s.dev f .ok → blockFull s.dev f.val s.dev.engines[f].current = false →
      (s.dev.engines[f].current.memop = 8 → exec (.blockGrant b) s = exec (.reserve f .ok .ok) s) ∧
      (s.dev.engines[f].current.memop = 9 → exec (.blockGrant b) s = exec (.reserveg f .ok .ok) s)))

/-- Row repairs start, wait and end; clusters are checked, fenced, made dormant and woken; a TCK edge moves the TAP as IEEE
1149.1 says. (R326; R327; R328; R456; R607; R608; R609; R611; R612; R646) -/
def Obligations.RowRepairsDormantClustersAndTheTap : Prop :=
  (∀ (k : Fin 16) (s : State),
    let asked (row : BitVec 9) (b : Bank) : Bank :=
      if b.sparesUsed = 32 then { b with nospare := true }
      else if b.repairing.isSome then { b with repairQueue := b.repairQueue ++ [row] }
      else { b with repairing := some row, repRow := row }
    let goes (d : Dev) (b : Bank) : Dev := { d with cl := { d.cl with banks := put d.cl.banks k b } }
    let aborts (d : Dev) : Dev := if d.cl.banks[k].sparesUsed = 32 then d else bistAbortCellar k.val d
    (∀ (who : Who) (v : Word) (d : Dev), reached who 0x8014 s.dev = some d → fld v 16 4 = k.val →
      (bit v 31 = true → exec (.repairGo who v) s = .next { s with
        dev := goes (aborts d) (asked (bf v 0 9) d.cl.banks[k]) }) ∧
      (bit v 31 = false → exec (.repairGo who v) s = .next { s with dev := d })) ∧
    (∀ row : BitVec 9, s.dev.sys.fclkOn = true →
      let b := s.dev.cl.banks[k]
      let due := s.dev.cl.repairThr ≠ 0 ∧ ∃ x ∈ b.track, x.1 = row ∧ s.dev.cl.repairThr.toNat ≤ x.2.toNat
      (due → exec (.repairStart k row) s = .next { s with
        dev := goes (aborts s.dev) (asked row { b with track := b.track.filter (·.1 ≠ row) }) }) ∧
      (¬ due → exec (.repairStart k row) s = .next s)) ∧
    (let b := s.dev.cl.banks[k]
    let b1 : Bank := { b with repairing := none, sparesUsed := if b.sparesUsed.toNat < 32 then b.sparesUsed + 1 else b.sparesUsed }
    let b2 : Bank := match b.repairQueue with
      | [] => b1
      | r :: q => if b1.sparesUsed = 32 then { b1 with repairQueue := [], nospare := true }
        else { b1 with repairQueue := q, repairing := some r, repRow := r }
    (∀ ce ue, b.repairing = none → exec (.repairSwitch ⟨k, ce, ue⟩) s = .next s) ∧
    (s.dev.sys.fclkOn = true → b.repairing.isSome = true →
      exec (.repairSwitch ⟨k, [], []⟩) s = .next { s with dev := raise 0x60A (goes s.dev b2) } ∧
      ∀ ce ue, ∃ t : Dev, exec (.repairSwitch ⟨k, ce, ue⟩) s = .next { s with dev := t } ∧
        t = { s.dev with cl := t.cl, ev := t.ev, hr := { s.dev.hr with relays := t.hr.relays } } ∧ t.cl.mem = s.dev.cl.mem ∧
        t.cl.banks[k].sparesUsed = b2.sparesUsed ∧ t.cl.banks[k].repairing = b2.repairing ∧ t.cl.ce = satInc s.dev.cl.ce ce.length ∧
        (ce ≠ [] → (s.dev.clk, 0x608) ∈ t.ev.pulses) ∧ (ue ≠ [] → t.cl.ue = true ∧ (s.dev.clk, 0x609) ∈ t.ev.pulses)))) ∧
  (∀ (k : Fin 8) (s : State), s.dev.sys.fclkOn = true →
    let d := s.dev
    let c := d.pwr.cls[k]
    let set (c : Cluster) (d : Dev) : Dev := { d with pwr := { d.pwr with cls := put d.pwr.cls k c } }
    -- the clk after the check
    let f := passTo ((if d.committed then d.hr.tickClk else d.pwr.lastCheck) + 1) d
    let fences := c.st = .active ∧ d.pwr.dormDly.toNat ≤ c.checks ∧ c.checks ≠ 0 ∧ dormancyOk f k.val = true
    (¬ fences → exec (.fenceStart k) s = .next s) ∧
    (fences → ∃ t : Dev, exec (.fenceStart k) s = .next { s with dev := t } ∧
      t = { set { c with st := .fencing, fence := f.clk, checks := 0, wakeReq := false } f with ev := t.ev }) ∧
    (c.st ≠ .fencing → exec (.clusterDormant k) s = .next s) ∧
    (c.st = .fencing → c.fence + 2 < d.clk → exec (.clusterDormant k) s = .next { s with
      dev := set { c with st := .dormant } (passTo (c.fence + 64) d) }) ∧
    (c.st = .fencing → d.clk ≤ c.fence + 2 → ∃ t : Dev, exec (.clusterDormant k) s = .next { s with dev := t } ∧
      t.pwr.cls[k].st = if dormancyOk (passTo (c.fence + 2) d) k.val then .dormant else .active) ∧
    (¬ (c.st = .dormant ∧ c.wakeReq = true) → exec (.clusterWake k) s = .next s) ∧
    (c.st = .dormant → c.wakeReq = true → exec (.clusterWake k) s = .next { s with
      dev := bistAbortCluster k.val (set { c with st := .waking, wakes := satInc c.wakes } d) }) ∧
    (c.st ≠ .waking → exec (.clusterAwake k) s = .next s) ∧
    (c.st = .waking → ∃ (t : Dev) (n : Nat), exec (.clusterAwake k) s = .next { s with dev := t } ∧ n ≤ max 3000 (d.clk - c.cause) ∧
      t.clk = (passTo (c.cause + n) d).clk ∧ t.pwr.cls[k].st = .active ∧ t.pwr.cls[k].wakeReq = false ∧ t.pwr.cls[k].checks = 0 ∧
      t.pwr.cls[k].lastWake = BitVec.ofNat 16 n ∧ ∀ j : Fin 8, j ≠ k → t.pwr.cls[j] = d.pwr.cls[j])) ∧
  (∀ s : State,
    (s.dev.committed = true ∨ s.dev.sys.fclkOn = false → exec .eligibilityCheck s = .next s) ∧
    (s.dev.committed = false → s.dev.sys.fclkOn = true →
      let d := passTo (s.dev.pwr.lastCheck + 1500000) s.dev
      exec .eligibilityCheck s = .next { s with
        dev := { d with
          pwr := { d.pwr with
            lastCheck := d.clk
            cls := Vector.ofFn fun k : Fin 8 =>
              let c := d.pwr.cls[k]
              if c.st = .active then { c with checks := if dormancyOk d k.val then c.checks + 1 else 0 } else c } } })) ∧
  (∀ (tms tdi trst : Bool) (s : State),
    let t := s.tap
    let gives (rising : Bool) (u : Tap) : Prop := exec (.tckEdge rising tms tdi trst) s = .next { s with tap := u }
    let same : Prop := gives t.tck t
    let up (u : Tap) : Prop := gives true { u with tck := true, st := tapNext t.st tms }
    let down (u : Tap) : Prop := gives false { u with tck := false }
    (trst = false → ∀ rising, gives rising { t with tck := rising, st := .reset, instr := .bypass, tdo := none }) ∧
    (trst = true → same) ∧
    (trst = true → t.tck = false →
      (t.st = .shDr → up { t with shift := t.shift.tail ++ [tdi] }) ∧
      (t.st = .shIr → up { t with irShift := t.irShift.tail ++ [tdi] }) ∧
      (t.st ≠ .shDr → t.st ≠ .shIr → t.st ≠ .capDr → t.st ≠ .capIr → up t) ∧
      (t.st = .capDr → t.instr = .bypass ∨ t.instr = .clamp ∨ t.instr = .highz → up { t with shift := [false] })) ∧
    (trst = true → t.tck = true →
      (t.st = .shDr → down { t with tdo := t.shift.head? }) ∧
      (t.st = .shIr → down { t with tdo := t.irShift.head? }) ∧
      (t.st = .reset → down { t with instr := .bypass, tdo := none }) ∧
      (t.st = .updIr → (∀ b ∈ t.irShift, b = true) → down { t with instr := .bypass, tdo := none }) ∧
      (t.st = .updDr → t.instr = .preload ∨ t.instr = .extest → down { t with latch := t.shift, tdo := none })) ∧
    (∀ st : TapSt, tapNext (tapNext (tapNext (tapNext (tapNext st true) true) true) true) true = .reset))

/-- ST_LIFE freezes and thaws a core; a lockstep event warm-resets it and a second within 1 s disables it; the reset ends at the
PCK cursor. (R389; R404; R422; R423; R426; R427; R428; R429; R430; R431; R433) -/
def Obligations.CoresFreezeThawResetAndDisable : Prop :=
  (∀ (who : Who) (c : Fin 4) (s : State) (d : Dev), reached who (stOff c 0xF0) s.dev = some d →
    let k := d.cores[c]
    let goes (k' : Core) : State := { s with dev := { d with cores := put d.cores c k' } }
    (mayFreeze who = false → ∃ n, exec (.stFreeze who c 1) s = .next { s with dev := denied who n d } ∧
      exec (.stThaw who c 2) s = .next { s with dev := denied who n d }) ∧
    (mayFreeze who = true →
      (k.frozen = false → k.st = .running ∨ k.st = .waiting → exec (.stFreeze who c 1) s = .next { s with
        dev := freezeRecord (0x20 + c.val) 0x3E false false 0x3E k.frzAddr.toNat
          { d with cores := put d.cores c { k with frozen := true, frzCause := 0x3E, frzSecond := 0, frzDetail := 0 } } }) ∧
      (k.frozen = true ∨ (k.st ≠ .running ∧ k.st ≠ .waiting) → exec (.stFreeze who c 1) s = .next { s with dev := d }) ∧
      (hostLike who = true ∨ k.frozen = false → exec (.stThaw who c 2) s = .next { s with dev := d }) ∧
      (hostLike who = false → k.frozen = true → k.frzCause ≠ 0x3F → exec (.stThaw who c 2) s = .next (goes { k with frozen := false })) ∧
      (hostLike who = false → k.frozen = true → k.frzCause = 0x3F → k.vkey.tag = true → k.vkey.sealed = true → k.vkey.may permX = true →
        ∃ k' : Core, exec (.stThaw who c 2) s = .next (goes k') ∧ k'.frozen = false ∧ k'.st = .running ∧ k'.lvl = 3 ∧ k'.flag stRP = false ∧
        k'.pck = k.vkey.unsealed ∧ k'.comp = k.vcomp ∧ k'.pc.toNat = k.vkey.cursor ∧ k'.sets[2].cause = causeWord 0 k.frzSecond.toNat 0x3F 3 ∧
        k'.muls = [] ∧ k'.resv = none ∧ k'.sets[2].causeAddr = k.frzAddr ∧ k'.a = k.a ∧ k'.x = k.x ∧ k'.y = k.y ∧ k'.k = k.k))) ∧
  (∀ (c : Fin 4) (dis : List (Nat × BitVec 16)) (parityIn parityOut : List Nat) (s : State),
    let rep := lsReport (parityIn ++ parityOut).min? (firstDisagreement s.dev.ls[c].inj dis)
    (compared s.dev c.val = false ∨ rep = none → exec (.lockstepEvent c dis parityIn parityOut) s = .next s) ∧
    (∀ cls n, compared s.dev c.val = true → rep = some (cls, n) →
      let d := passTo n s.dev
      let k := d.cores[c]
      let l := d.ls[c]
      let again := ∃ t, l.last = some t ∧ d.clk - t ≤ 1500000000
      let l' := lsCount cls { l with lastClass := BitVec.ofNat 2 cls, time := d.tb.now, last := some d.clk }
      let count := (rcCount (0x010 + 4 * c.val + cls - 1) 1 d).rc
      ∃ t : Dev, exec (.lockstepEvent c dis parityIn parityOut) s = .next { s with dev := t } ∧
      t = { d with cores := t.cores, ls := t.ls, rc := t.rc, ev := t.ev, cl := t.cl, wd := t.wd, hr := { d.hr with relays := t.hr.relays } } ∧
      (again → t.cores = put d.cores c { k with st := .disabled } ∧ t.ls = put d.ls c l' ∧ t.wd[c.val].running = false ∧
        t.rc = (history 4 (cls + 1) c.val d.tb.now { d with rc := count }).rc ∧ t.cl = d.cl) ∧
      (¬ again → t.cores = put d.cores c { st := .inReset, mem := k.mem, tbudget := k.tbudget, tbudNext := k.tbudNext } ∧
        t.ls = put d.ls c { l' with resetEnd := d.clk + 256 } ∧ t.wd = d.wd ∧ t.ev.larders[c] = {} ∧
        t.cl.ports[c] = d.cl.ports[c].map (fun p => { queue := p.queue, wait := p.wait }) ∧
        t.rc = (history 3 (cls + 1) c.val d.tb.now { d with rc := count }).rc))) ∧
  -- the class and the clk of the report, and the compare group that an injection of the same clk takes out
  (∀ p m : Nat, lsReport (some p) none = some (2, p + 9) ∧ lsReport none (some m) = some (1, m + 3) ∧
    (p + 8 < m → lsReport (some p) (some m) = some (2, p + 9)) ∧ (p ≤ m → m ≤ p + 8 → lsReport (some p) (some m) = some (2, m + 3)) ∧
    (m < p → p ≤ m + 2 → lsReport (some p) (some m) = some (3, m + 3)) ∧ (m + 2 < p → lsReport (some p) (some m) = some (1, m + 3))) ∧
  (∀ (t : Nat) (g : BitVec 4) (v : BitVec 16) (r : List (Nat × BitVec 16)), (∀ x ∈ r, t < x.1 ∧ x.2 ≠ 0) →
    firstDisagreement (some (t, g)) ((t, v) :: r) = (if setBit v g.toNat false ≠ 0 then some t else (r.map (·.1)).min?)) ∧
  (∀ (c : Fin 4) (s : State),
    let d := passTo s.dev.ls[c].resetEnd s.dev
    let k := s.dev.cores[c]
    (k.st ≠ .inReset → exec (.coreWarmResetEnd c) s = .next s) ∧
    (k.st = .inReset → s.dev.sys.fclkOn = true → s.dev.trl.st ≠ .committing → ∃ t : Dev,
      exec (.coreWarmResetEnd c) s = .next { s with dev := t } ∧
      t.clk = max s.dev.clk s.dev.ls[c].resetEnd ∧ (∀ f : Fin 4, f ≠ c → t.cores[f] = d.cores[f]) ∧ t.cores[c].mem = k.mem ∧
      (∀ e : KeyEntry, s.dev.cfg.keys.filter (fun x => x.core.toNat == c.val && x.reg == 8) = [e] →
        t.cores[c].pck = { val := e.key, tag := true } ∧ t.cores[c].comp = e.compartment) ∧
      (bit s.dev.cfg.started c.val = true → t.cores[c].st = .running ∧ t.cores[c].pc.toNat = t.cores[c].pck.cursor ∧ t.cores[c].status = 0x800) ∧
      (bit s.dev.cfg.started c.val = false → t.cores[c].st = .idle) ∧
      (s.dev.wd[c.val].running = true → t.wd[c.val].running = true ∧ t.wd[c.val].start = t.clk ∧ t.wd[c.val].vcount = 0 ∧
        t.wd[c.val].seq = s.dev.wd[c.val].seq))) ∧
  (∀ (c : Fin 4) (reported : Option Bool) (rails : Bool) (s : State),
    let l := s.dev.ls[c]
    let l1 := if reported.isSome then { l with injGroup := l.injGroup + 1, inj := some (s.dev.clk, l.injGroup) } else l
    (compared s.dev c.val = false → exec (.comparatorInjection c reported rails) s = .next s) ∧
    (compared s.dev c.val = true → reported ≠ some false → rails = false →
      exec (.comparatorInjection c reported rails) s = .next { s with dev := { s.dev with ls := put s.dev.ls c l1 } }) ∧
    (compared s.dev c.val = true → reported = some false ∨ rails = true →
      exec (.comparatorInjection c reported rails) s = .next { s with
        dev := raiseIf (!l1.unchecked) 0x60C (rcCount (0x013 + 4 * c.val) 1
          { s.dev with ls := put s.dev.ls c { l1 with unchecked := true, injFail := satInc l1.injFail } }) }))

/-- Only the owner's writes act on a watchdog; a right first answer in the window passes; early, late, wrong, second and missing
ones violate the period. (R435; R437; R439; R440; R442; R443) -/
def Obligations.WatchdogsJudgeAnswersAndWindows : Prop :=
  ∀ (w : Fin 5) (s : State),
    (∀ (who : Who) (v : Word) (d : Dev), reached who (0xE004 + 0x40 * w.val) s.dev = some d →
      let x := d.wd[w]
      let pos := d.clk - x.start
      let inWindow := x.openStart.toNat ≤ pos ∧ pos < x.openStart.toNat + x.openLen.toNat
      let right : Word := BitVec.ofNat 32 (crc32c (leBytes 2 x.q.toNat ++ leBytes 2 x.salt.toNat ++ leBytes 4 x.seq.toNat))
      let y := { x with answered := true }
      let bad (cause : BitVec 3) : Prop := ∃ t : Dev, exec (.wdAnswer who w v) s = .next { s with dev := t } ∧ Violates w cause y d t
      (¬ ownsWd who w → exec (.wdAnswer who w v) s = .next { s with dev := { d with wd := put d.wd w { x with foreign := satInc x.foreign } } }) ∧
      (ownsWd who w → x.running = false → exec (.wdAnswer who w v) s = .next { s with dev := d }) ∧
      (ownsWd who w → x.running = true →
        (x.answered = false → inWindow → v = right → exec (.wdAnswer who w v) s = .next { s with dev := { d with wd := put d.wd w y } }) ∧
        (x.answered = true → bad 4) ∧ (x.answered = false → pos < x.openStart.toNat → bad 1) ∧
        (x.answered = false → x.openStart.toNat + x.openLen.toNat ≤ pos → x.openStart.toNat ≤ pos → bad 2) ∧
        (x.answered = false → inWindow → v ≠ right → bad 3))) ∧
    (∀ (who : Who) (r : Fin 3) (v : Word) (d : Dev), reached who (0xE010 + 0x40 * w.val + 4 * r.val) s.dev = some d →
      let x := d.wd[w]
      let pos := d.clk - x.start
      let inWindow := x.openStart.toNat ≤ pos ∧ pos < x.openStart.toNat + x.openLen.toNat
      let goes (x' : Wd) : State := { s with dev := { d with wd := put d.wd w x' } }
      (¬ ownsWd who w → exec (.wdConfigWrite who w r v) s = .next (goes { x with foreign := satInc x.foreign })) ∧
      (ownsWd who w → x.running = false → exec (.wdConfigWrite who w r v) s = .next { s with dev := d }) ∧
      (ownsWd who w → x.running = true → inWindow → exec (.wdConfigWrite who w r v) s = .next (goes
        (if r = 0 then { x with stPeriod := some v } else if r = 1 then { x with stOpenStart := some v } else { x with stOpenLen := some v }))) ∧
      (ownsWd who w → x.running = true → ¬ inWindow → ∃ t : Dev, exec (.wdConfigWrite who w r v) s = .next { s with dev := t } ∧
        Violates w 6 x d t)) ∧
    (let x := s.dev.wd[w]
    (x.running = false ∨ x.answered = true ∨ x.violated = true → exec (.wdWindowEnd w) s = .next s) ∧
    (s.dev.sys.fclkOn = true → x.running = true → x.answered = false → x.violated = false → ∃ t : Dev, exec (.wdWindowEnd w) s = .next { s with dev := t } ∧
      Violates w 5 x (passTo (x.start + x.openStart.toNat + x.openLen.toNat) s.dev) t))

/-- A watchdog period that ends without a violation passes: VCOUNT becomes 0 and WD_SEQ increments; after a violated one both stay. In
either case the next period begins. (R437; R441) -/
def Obligations.APeriodWithoutViolationPasses : Prop :=
  ∀ (w : Fin 5) (s : State),
    let x := s.dev.wd[w]
    s.dev.sys.fclkOn = true → x.running = true → x.answered = true ∨ x.violated = true →
    (w = 4 ∨ (core s.dev w.val).st ≠ .inReset) → ∃ t : Dev, exec (.wdPeriodStart w) s = .next { s with dev := t } ∧
    (x.violated = false → t.wd[w].vcount = 0 ∧ t.wd[w].seq = x.seq + 1) ∧
    (x.violated = true → t.wd[w].vcount = x.vcount ∧ t.wd[w].seq = x.seq) ∧
    t.clk = max s.dev.clk (x.start + x.period.toNat) ∧ t.wd[w].running = true ∧ t.wd[w].start = t.clk ∧ t.wd[w].q ≠ 0 ∧
    t.wd[w].answered = false ∧ t.wd[w].violated = false ∧ ∀ f : Fin 5, f ≠ w → t.wd[f] = s.dev.wd[f]

/-- SYS_BIST_CMD starts an eligible test and zeroes its target, BIST_END compares signatures, the rotation takes the next
target; CLEARLOG clears. (R389; R451; R452; R453; R454; R457; R458; R459; R615) -/
def Obligations.SelfTestsRunEndAndRotate : Prop :=
  (∀ (who : Who) (v : Word) (s : State) (d : Dev), reached who 0x0010 s.dev = some d →
    let n := fld v 0 4
    let i := fld v 8 8
    let res (r : BitVec 3) : State := { s with
      dev := { d with bist := { d.bist with result := r } } }
    (maySys who = false → exec (.bistGo who v) s = .next { s with dev := denied who 1 d }) ∧
    (maySys who = true →
      (bit v 31 = false → exec (.bistGo who v) s = .next { s with dev := d }) ∧
      (bit v 31 = true →
        (d.bist.run.isSome = true → exec (.bistGo who v) s = .next (res 5)) ∧
        (d.bist.run = none → bistKnown n i = false → exec (.bistGo who v) s = .next (res 6)) ∧
        (d.bist.run = none → bistKnown n i = true → d.bist.frozen = true ∨ bistEligible d n i = false →
          exec (.bistGo who v) s = .next (res 7)) ∧
        (d.bist.run = none → bistKnown n i = true → d.bist.frozen = false → bistEligible d n i = true →
          exec (.bistGo who v) s = .next { s with
            dev := bistZero n i { d with bist := { d.bist with
              run := some { kind := bf v 0 4, index := bf v 8 8, rot := false }, rot := false, kind := bf v 0 4, index := bf v 8 8 } } })))) ∧
  (∀ (d : Dev) (i : Nat), bistZero 1 i d = d ∧ bistZero 6 i d = d ∧
    (∀ e : Fin 32, i = e.val → bistZero 2 i d = { d with engines := put d.engines e { d.engines[e] with cs0 := [], cs1 := [], scr := [] } } ∧
      bistZero 3 (2 * e.val) d = { d with engines := put d.engines e { d.engines[e] with cs0 := [] } } ∧
      bistZero 3 (2 * e.val + 1) d = { d with engines := put d.engines e { d.engines[e] with cs1 := [] } } ∧
      bistZero 4 i d = { d with engines := put d.engines e { d.engines[e] with scr := [] } }) ∧
    (Memory.wf d.cl.mem → ∀ y, rd8 (bistZero 5 i d).cl.mem y = if i * 2 ^ 19 ≤ y ∧ y < (i + 1) * 2 ^ 19 then 0 else rd8 d.cl.mem y) ∧
    (∀ c : Fin 4, i = c.val → bistZero 7 i d = { d with cores := put d.cores c { d.cores[c] with mem := [], tags := [] } }) ∧
    bistZero 8 i d = { d with mbox := [], mtags := [] }) ∧
  (∀ (sig : DWord) (s : State),
    let d := s.dev
    (d.bist.run = none ∨ d.bist.frozen = true → ∀ u, exec (.bistEnd sig u) s = .next s) ∧
    (∀ r : BistRun, d.sys.fclkOn = true → d.bist.run = some r → d.bist.frozen = false →
      (∃ t : Dev, exec (.bistEnd sig true) s = .next { s with dev := t } ∧ t.bist = { d.bist with frozen := true } ∧
        t = { d with bist := t.bist, rc := t.rc, ev := t.ev, freeCtr := t.freeCtr, hr := { d.hr with relays := t.hr.relays } }) ∧
      (∃ t : Dev, exec (.bistEnd sig false) s = .next { s with dev := t } ∧ t.bist.run = none ∧ t.bist.sig = sig ∧
        t.bist.exp = bistExpected r.kind.toNat ∧ t.bist.result = (if sig = bistExpected r.kind.toNat then 1 else 2) ∧
        t.rc = wrBytes d.rc 0x180 (leBytes 8 sig.toNat ++ leBytes 8 d.tb.now.toNat ++
          [r.kind.zeroExtend 8, r.index, if sig = bistExpected r.kind.toNat then 1 else 2]) ∧
        (r.kind ≠ 2 → r.kind ≠ 6 → r.kind ≠ 0xF →
          t = raiseIf (!r.rot || sig != bistExpected r.kind.toNat) 0x618 { d with bist := t.bist, rc := t.rc }) ∧
        (∀ k : Fin 16, r.kind = 6 → r.index.toNat = k.val →
          t.cl.banks[k].sparesUsed = BitVec.ofNat 6 (min 32 (d.cl.banks[k].sparesUsed.toNat + sig.toNat))) ∧
        (∀ e : Fin 32, r.kind = 2 → r.index.toNat = e.val → sig = bistExpected 2 → d.engines[e].life.st = .vacated →
          t.engines[e].life.st = .spare ∧ bit t.cfg.spare e.val = true)))) ∧
  (∀ s : State,
    let b := s.dev.bist
    let i := (rotOrder.findIdx? fun x => x == (b.posKind.toNat, b.posIndex.toNat)).getD 0
    let cyc := rotOrder.drop i ++ rotOrder.take i
    (b.rotEn = false ∨ b.rotInterval = 0 ∨ b.rotCount < b.rotInterval.toNat → exec .rotatingTest s = .next s) ∧
    (s.dev.sys.fclkOn = true → b.rotEn = true → b.rotInterval ≠ 0 → b.rotInterval.toNat ≤ b.rotCount → b.run = none → b.frozen = false →
      ∀ (p r : List (Nat × Nat)) (x : Nat × Nat), cyc = p ++ x :: r → rotEligible s.dev x = true → (∀ y ∈ p, rotEligible s.dev y = false) →
      ∃ t : Dev, exec .rotatingTest s = .next { s with dev := bistZero x.1 x.2 t } ∧ t = { s.dev with bist := t.bist } ∧
        t.bist.run = some { kind := BitVec.ofNat 4 x.1, index := BitVec.ofNat 8 x.2, rot := true } ∧
        t.bist.rotCount = b.rotCount - b.rotInterval.toNat)) ∧
  (∀ (who : Who) (v : Word) (s : State) (d : Dev), reached who 0xF400 s.dev = some d → Memory.wf d.rc →
    (maySys who = true → fld v 16 16 = 0xC1EA → bit v 0 = true → ∃ t : Dev, exec (.clearlog who v 0xF) s = .next { s with dev := t } ∧
      t = { d with rc := t.rc } ∧ ∀ y, rd8 t.rc y = if 4 ≤ y ∧ y < 0x200 then 0 else rd8 d.rc y) ∧
    (maySys who = false ∨ fld v 16 16 ≠ 0xC1EA ∨ bit v 0 = false → ∃ t : Dev, exec (.clearlog who v 0xF) s = .next { s with dev := t } ∧
      t.sys = { d.sys with rcRej := satInc d.sys.rcRej } ∧ t.rc = d.rc ∧ (maySys who = true → t.cores = d.cores)))

/-- Integer, logic, shift and 40-bit instructions compute A and their flags as the tables say, at every operand form and width,
and change nothing else. (R333; R343; R344; R345; R346; R347; R348) -/
def Obligations.StewardIntegersAndLogic : Prop :=
  (∀ (c : Fin 4) (ecc : Ecc) (s : State) (i : Ins) (o : StOp) (I : Instr) (sub : Bool) (b : Word) (d2 : Dev),
    let n := opSlots c.val s.dev.cores[c] i
    let k := d2.cores[c]
    let w := 8 * i.size
    let A := fld k.a 0 w
    let B := b.toNat % 2 ^ w
    let ci := if o = .adc then b2n (k.flag stC) else if o = .sbc then 1 - b2n (k.flag stC) else 0
    let r := if sub then (A + 2 ^ w - (B + ci)) % 2 ^ w else (A + B + ci) % 2 ^ w
    let x : Int := if sub then (BitVec.ofNat w A).toInt - (BitVec.ofNat w B).toInt - ci else (BitVec.ofNat w A).toInt + (BitVec.ofNat w B).toInt + ci
    let v : Bool := decide (x < -2 ^ (w - 1) ∨ 2 ^ (w - 1) ≤ x)
    (o, I, sub) ∈ [(StOp.add, Instr.add c ecc, false), (.adc, .adc c ecc, false), (.sub, .sub c ecc, true), (.sbc, .sbc c ecc, true),
      (.cmp, .cmp c ecc, true)] → Reads s.dev c o n i false ecc b d2 →
    (o ≠ .cmp → v = true → k.flag stOVEN = true →
      exec I s = .next { s with
        dev := raiseFault c.val 0x09 0 0 (k.pck.base + i.pc.toNat) i.pc (failing s.dev c n) }) ∧
    (o = .cmp ∨ v = false ∨ k.flag stOVEN = false → ∃ k' : Core, exec I s = .next { s with dev := completed d2 c i k' } ∧
      OnlyA k k' [stN, stZ, stC, stV, stH] ∧ (o = .cmp → k'.a = k.a) ∧
      (o ≠ .cmp → fld k'.a 0 w = r ∧ (∀ j, w ≤ j → j < 32 → bit k'.a j = bit k.a j) ∧ (∀ j, 32 ≤ j → j < 40 → bit k'.a j = bit k'.a 31)) ∧
      k'.flag stN = (BitVec.ofNat w r).msb ∧ k'.flag stZ = decide (r = 0) ∧ k'.flag stV = v ∧
      k'.flag stC = (if sub then decide (B + ci ≤ A) else decide (2 ^ w ≤ A + B + ci)) ∧
      k'.flag stH = (if sub then decide (B % 16 + ci ≤ A % 16) else decide (16 ≤ A % 16 + B % 16 + ci)))) ∧
  (∀ (c : Fin 4) (ecc : Ecc) (s : State) (i : Ins) (o : StOp) (I : Instr) (b : Word) (d2 : Dev) (r : Word),
    let k := d2.cores[c]
    (o, I, r) ∈ [(StOp.and, Instr.and c ecc, k.a32 &&& b), (.or, .or c ecc, k.a32 ||| b), (.xor, .xor c ecc, k.a32 ^^^ b), (.tst, .tst c ecc, k.a32 &&& b)] →
    Reads s.dev c o (opSlots c.val s.dev.cores[c] i) i false ecc b d2 → ∃ k' : Core, exec I s = .next { s with dev := completed d2 c i k' } ∧
      OnlyA k k' [stN, stZ, stV] ∧ (o = .tst → k'.a = k.a) ∧ (o ≠ .tst → holds k'.a r) ∧
      k'.flag stN = r.msb ∧ k'.flag stZ = decide (r = 0) ∧ k'.flag stV = false) ∧
  (∀ (c : Fin 4) (s : State) (i : Ins) (o : StOp) (I : Instr) (r : Word) (flags : List Nat),
    let d2 := lastSlot s.dev c 1
    let k := d2.cores[c]
    (o, I, r, flags) ∈ [(StOp.not, Instr.not c, ~~~k.a32, [stN, stZ, stV]), (.clra, .clra c, 0, [stN, stZ]),
      (.sexb, .sexb c, (bf k.a 0 8).signExtend 32, [stN, stZ]), (.sexh, .sexh c, (bf k.a 0 16).signExtend 32, [stN, stZ])] →
    Ready s.dev c o i → ∃ k' : Core, exec I s = .next { s with dev := completed d2 c i k' } ∧ OnlyA k k' flags ∧ holds k'.a r ∧
      k'.flag stN = r.msb ∧ k'.flag stZ = decide (r = 0) ∧ (o = .not → k'.flag stV = false)) ∧
  (∀ (c : Fin 4) (s : State) (i : Ins),
    let d2 := lastSlot s.dev c 1
    let k := d2.cores[c]
    Ready s.dev c .neg i →
    (k.a32 = 0x80000000 → k.flag stOVEN = true → exec (.neg c) s = .next { s with
      dev := raiseFault c.val 0x09 0 0 (k.pck.base + i.pc.toNat) i.pc (failing s.dev c 1) }) ∧
    (k.a32 ≠ 0x80000000 ∨ k.flag stOVEN = false → ∃ k' : Core, exec (.neg c) s = .next { s with dev := completed d2 c i k' } ∧
      OnlyA k k' [stN, stZ, stC, stV, stH] ∧ holds k'.a (-k.a32) ∧ k'.flag stN = (-k.a32).msb ∧ k'.flag stZ = decide (k.a32 = 0) ∧
      k'.flag stC = decide (k.a32 = 0) ∧ k'.flag stV = decide (k.a32 = 0x80000000) ∧ k'.flag stH = decide (k.a32.toNat % 16 = 0))) ∧
  (∀ (c : Fin 4) (s : State) (i : Ins),
    let d2 := lastSlot s.dev c 1
    let k := d2.cores[c]
    let n := if bit i.w 6 then fld k.x 0 6 else fld i.w 0 6
    let kind := fld i.w 8 2
    Ready s.dev c .shift i → ∃ k' : Core, exec (.shift c) s = .next { s with dev := completed d2 c i k' } ∧
      OnlyA k k' [stN, stZ, stC, stV] ∧ k'.flag stV = false ∧ (n = 0 → k'.flag stC = k.flag stC) ∧
      (bit i.w 7 = true → kind ≠ 3 ∧
        k'.a = (if kind = 0 then k.a <<< n else if kind = 1 then k.a >>> n else k.a.sshiftRight n) ∧
        k'.flag stN = k'.a.msb ∧ k'.flag stZ = decide (k'.a = 0) ∧ (n ≠ 0 → k'.flag stC =
          (if kind = 0 then decide (n ≤ 40) && bit k.a (40 - n) else if kind = 1 then bit k.a (n - 1) else bit k.a (min (n - 1) 39)))) ∧
      (bit i.w 7 = false → holds k'.a (if kind = 0 then k.a32 <<< n else if kind = 1 then k.a32 >>> n else
          if kind = 2 then k.a32.sshiftRight n else k.a32.rotateLeft (n % 32)) ∧
        k'.flag stN = k'.a32.msb ∧ k'.flag stZ = decide (k'.a32 = 0) ∧ (n ≠ 0 → kind ≠ 3 → k'.flag stC =
          (if kind = 0 then decide (n ≤ 32) && bit k.a32 (32 - n) else if kind = 1 then bit k.a32 (n - 1) else bit k.a32 (min (n - 1) 31))) ∧
        (kind = 3 → k'.flag stC = if n % 32 = 0 then k.flag stC else bit k'.a 0))) ∧
  (∀ (c : Fin 4) (ecc : Ecc) (s : State) (i : Ins) (b : Word) (d2 : Dev),
    let k := d2.cores[c]
    let n := opSlots c.val s.dev.cores[c] i
    let sat (lo hi x : Int) (k' : Core) : Prop := OnlyA k k' [stN, stZ, stV, stS] ∧ k'.a.toInt = max lo (min hi x) ∧
      k'.flag stN = decide (k'.a.toInt < 0) ∧ k'.flag stZ = decide (k'.a = 0) ∧ k'.flag stV = decide (x < lo ∨ hi < x) ∧
      k'.flag stS = (k.flag stS || decide (x < lo ∨ hi < x))
    (Reads s.dev c .addf n i false ecc b d2 → ∃ k' : Core, exec (.addf c ecc) s = .next { s with dev := completed d2 c i k' } ∧
      sat (-2 ^ 39) (2 ^ 39 - 1) (k.a.toInt + b.toInt) k') ∧
    (Reads s.dev c .subf n i false ecc b d2 → ∃ k' : Core, exec (.subf c ecc) s = .next { s with dev := completed d2 c i k' } ∧
      sat (-2 ^ 39) (2 ^ 39 - 1) (k.a.toInt - b.toInt) k') ∧
    (d2 = lastSlot s.dev c 1 → Ready s.dev c .sat i → ∃ k' : Core, exec (.sat c) s = .next { s with dev := completed d2 c i k' } ∧
      sat (-2 ^ 31) (2 ^ 31 - 1) k.a.toInt k') ∧
    (Reads s.dev c .addr n i false ecc b d2 → ∃ k' : Core, exec (.addr c ecc) s = .next { s with dev := completed d2 c i k' } ∧
      k'.reg i.f = k.reg i.f + b ∧ k' = { k with x := k'.x, y := k'.y, cnt := k'.cnt, status := setBit k.status stZ (k.reg i.f + b == 0) } ∧
      ∀ f, f < 3 → f ≠ i.f → k'.reg f = k.reg f) ∧
    (Reads s.dev c .cmpr n i false ecc b d2 → ∃ k' : Core, exec (.cmpr c ecc) s = .next { s with dev := completed d2 c i k' } ∧
      (let x := k.reg i.f
      let e : Int := x.toInt - b.toInt
      OnlyA k k' [stN, stZ, stC, stV] ∧ k'.a = k.a ∧ k'.flag stN = (x - b).msb ∧ k'.flag stZ = decide (x = b) ∧
      k'.flag stC = decide (b.toNat ≤ x.toNat) ∧ k'.flag stV = decide (e < -2 ^ 31 ∨ 2 ^ 31 ≤ e))))

/-- Multiplies issue products that land four slots on, RND rounds the accumulator, DIV divides, the decimal instructions work
digit by digit. (R333; R348; R349; R350; R351; R352; R353; R354; R355; R356) -/
def Obligations.StewardMultipliesDividesAndCountsInDecimal : Prop :=
  (∀ (c : Fin 4) (ecc : Ecc) (s : State) (i : Ins) (o : StOp) (I : Instr) (m : MulKind) (p : DWord) (lim : Bool) (b : Word) (d2 : Dev),
    let k := d2.cores[c]
    let sp : Int := k.a32.toInt * b.toInt
    let top : Bool := k.a32 == 0x80000000 && b == 0x80000000
    let fp : DWord := if top then 0x7FFFFFFFFFFFFFFF else BitVec.ofInt 64 (2 * sp)
    (o, I, m, p, lim) ∈ [(StOp.mul, Instr.mul c ecc, MulKind.mul, BitVec.ofInt 64 sp, false),
      (.mulu, .mulu c ecc, .mulu, BitVec.ofNat 64 (k.a32.toNat * b.toNat), false), (.mulf, .mulf c ecc, .mulf, fp, top),
      (.mac, .mac c ecc, .mac, BitVec.ofInt 64 sp, false), (.macu, .macu c ecc, .macu, BitVec.ofNat 64 (k.a32.toNat * b.toNat), false),
      (.macf, .macf c ecc, .macf, fp, top)] → Reads s.dev c o (opSlots c.val s.dev.cores[c] i) i false ecc b d2 →
    exec I s = .next { s with
      dev := completed d2 c i { k with
        muls := k.muls ++ [{ kind := m, p := p, left := 4 }], status := if lim then setBit k.status stS true else k.status } }) ∧
  (∀ (c : Fin 4) (s : State) (m : Mult) (r : List Mult),
    let k := s.dev.cores[c]
    k.muls = m :: r → s.dev.sys.fclkOn = true → k.frozen = false → k.st = .running → (∀ x ∈ r, m.left < x.left) → ∃ k' : Core,
    exec (.multiplyLanding c) s = .next { s with dev := { s.dev with cores := put s.dev.cores c k' } } ∧
    k'.muls = r.map (fun x => { x with left := x.left - m.left }) ∧ k'.a = k.a ∧ k'.x = k.x ∧ k'.pc = k.pc ∧ k'.mem = k.mem ∧
    (m.kind = .mul ∨ m.kind = .mulf → k'.acc72 = m.p.signExtend 72) ∧ (m.kind = .mulu → k'.acc72 = m.p.zeroExtend 72) ∧
    (m.kind = .mac → k'.acc72 = k.acc72 + m.p.signExtend 72) ∧ (m.kind = .macu → k'.acc72 = k.acc72 + m.p.zeroExtend 72) ∧
    (m.kind = .macf →
      (let e := k.acc72.toInt + m.p.toInt
      k'.acc72.toInt = max (-2 ^ 71) (min (2 ^ 71 - 1) e) ∧ k'.flag stS = (k.flag stS || decide (e < -2 ^ 71 ∨ 2 ^ 71 ≤ e))))) ∧
  (∀ (c : Fin 4) (s : State),
    (s.dev.cores[c].muls = [] ∨ s.dev.cores[c].frozen = true → exec (.multiplyLanding c) s = .next s) ∧
    (∀ m r, s.dev.cores[c].muls = m :: r → s.dev.cores[c].frozen = false → s.dev.cores[c].st = .waiting →
      exec (.multiplyLanding c) s = .next { s with dev := pass m.left s.dev })) ∧
  (∀ (c : Fin 4) (s : State) (i : Ins),
    let d2 := lastSlot s.dev c 1
    let k := d2.cores[c]
    (Ready s.dev c .clrmp i → exec (.clrmp c) s = .next { s with dev := completed d2 c i { k with mpg := 0, mph := 0, mpl := 0 } }) ∧
    (Ready s.dev c .rnd i → ∃ k' : Core, exec (.rnd c) s = .next { s with dev := completed d2 c i k' } ∧
      (let v : Int := (k.mpg ++ k.mph).toInt
      let f := k.mpl.toNat
      let up : Bool := match k.rm with
        | 0 => false
        | 1 => decide (2 ^ 31 ≤ f)
        | 2 => decide (2 ^ 31 < f ∨ (f = 2 ^ 31 ∧ v % 2 = 1))
        | _ => decide (v < 0 ∧ f ≠ 0)
      let x := v + b2n up
      OnlyA k k' [stN, stZ, stV, stS] ∧ k'.a.toInt = min (2 ^ 39 - 1) x ∧ k'.flag stN = decide (k'.a.toInt < 0) ∧
      k'.flag stZ = decide (k'.a = 0) ∧ k'.flag stV = decide (2 ^ 39 ≤ x) ∧ k'.flag stS = (k.flag stS || decide (2 ^ 39 ≤ x))))) ∧
  (∀ (c : Fin 4) (ecc : Ecc) (s : State) (i : Ins) (o : StOp) (I : Instr) (b : Word) (d2 : Dev),
    let n := 33 + opSlots c.val s.dev.cores[c] i
    let k := d2.cores[c]
    let a := k.a32
    let edge := o = .div ∧ a = 0x80000000 ∧ b = 0xFFFFFFFF
    let fault (code : Nat) : State := { s with
      dev := raiseFault c.val code 0 0 (k.pck.base + i.pc.toNat) i.pc (failing s.dev c n) }
    let gives (q r : Word) (v : Bool) : Prop := ∃ k' : Core, exec I s = .next { s with dev := completed d2 c i k' } ∧
      k' = { k with a := q.signExtend 40, y := r, status := k'.status } ∧ k'.flag stC = false ∧ k'.flag stV = v ∧ k'.flag stN = q.msb ∧
      k'.flag stZ = decide (q = 0) ∧ ∀ j, j ∉ [stN, stZ, stC, stV] → bit k'.status j = bit k.status j
    (o, I) ∈ [(StOp.div, Instr.div c ecc), (.divu, .divu c ecc)] → Reads s.dev c o n i false ecc b d2 →
    (b = 0 → k.flag stDZEN = true → exec I s = .next (fault 0x08)) ∧
    (b = 0 → k.flag stDZEN = false → o = .div → k.flag stOVEN = true → exec I s = .next (fault 0x09)) ∧
    (b = 0 → k.flag stDZEN = false → o = .divu ∨ k.flag stOVEN = false → gives (if o = .divu then 0xFFFFFFFF else if 0 ≤ a.toInt then 0x7FFFFFFF else 0x80000000) a true) ∧
    (edge → k.flag stOVEN = true → exec I s = .next (fault 0x09)) ∧ (edge → k.flag stOVEN = false → gives 0x80000000 0 true) ∧
    (b ≠ 0 → ¬ edge → o = .div → gives (BitVec.ofInt 32 (a.toInt.tdiv b.toInt)) (BitVec.ofInt 32 (a.toInt.tmod b.toInt)) false) ∧
    (b ≠ 0 → o = .divu → gives (BitVec.ofNat 32 (a.toNat / b.toNat)) (BitVec.ofNat 32 (a.toNat % b.toNat)) false)) ∧
  (∀ (c : Fin 4) (ecc : Ecc) (s : State) (i : Ins) (b : Word) (d2 : Dev),
    let n := opSlots c.val s.dev.cores[c] i
    let k := d2.cores[c]
    let dec (v : Nat) : Nat := (List.range 8).foldl (fun t j => t + v / 16 ^ j % 16 * 10 ^ j) 0
    let good (v : Nat) : Prop := ∀ j, j < 8 → v / 16 ^ j % 16 ≤ 9
    let A := k.a32.toNat
    let B := b.toNat
    (Reads s.dev c .addd n i false ecc b d2 → ∃ k' : Core, exec (.addd c ecc) s = .next { s with dev := completed d2 c i k' } ∧
      OnlyA k k' [stC, stZ, stN, stV, stH] ∧ k'.a.toNat < 2 ^ 32 ∧ k'.flag stZ = decide (k'.a = 0) ∧ k'.flag stN = false ∧
      (k'.flag stV = false ↔ good A ∧ good B) ∧
      (good A → good B → good k'.a.toNat ∧
        (let e := dec A + dec B + b2n (bit i.w 0 && k.flag stC)
        dec k'.a.toNat = e % 10 ^ 8 ∧ k'.flag stC = decide (10 ^ 8 ≤ e)))) ∧
    (Reads s.dev c .subd n i false ecc b d2 → ∃ k' : Core, exec (.subd c ecc) s = .next { s with dev := completed d2 c i k' } ∧
      OnlyA k k' [stC, stZ, stN, stV, stH] ∧ k'.a.toNat < 2 ^ 32 ∧ k'.flag stZ = decide (k'.a = 0) ∧ k'.flag stN = false ∧
      (k'.flag stV = false ↔ good A ∧ good B) ∧
      (good A → good B → good k'.a.toNat ∧
        (let e := dec B + b2n (bit i.w 0 && !k.flag stC)
        dec k'.a.toNat = (dec A + 10 ^ 8 - e) % 10 ^ 8 ∧ k'.flag stC = decide (e ≤ dec A))))) ∧
  (∀ (c : Fin 4) (s : State) (i : Ins) (o : StOp) (I : Instr) (x : Nat) (cf : Bool),
    let d2 := lastSlot s.dev c 1
    let k := d2.cores[c]
    let a := fld k.a 0 8
    let C := k.flag stC
    let H := k.flag stH
    (o, I, x, cf) ∈ [
      (StOp.daa, Instr.daa c, a + (if 9 < a % 16 ∨ H = true then 0x06 else 0) + (if 0x99 < a ∨ C = true then 0x60 else 0),
        decide (0x99 < a ∨ C = true)),
      (.das, .das c, a + 256 - (if 9 < a % 16 ∨ H = false then 0x06 else 0) - (if 0x99 < a ∨ C = false then 0x60 else 0),
        decide (¬ (0x99 < a ∨ C = false)))] → Ready s.dev c o i →
    ∃ k' : Core, exec I s = .next { s with dev := completed d2 c i k' } ∧ OnlyA k k' [stC, stZ, stN] ∧
      k'.a.toNat = fld k.a 8 24 * 256 + x % 256 ∧ k'.flag stC = cf ∧ k'.flag stZ = decide (x % 256 = 0) ∧
      k'.flag stN = decide (128 ≤ x % 256)) ∧
  (∀ (c : Fin 4) (n : Nat) (s : State) (i : Ins),
    let k := s.dev.cores[c]
    Ready s.dev c .cvbd i → k.flag stRP = false → ∃ k' : Core,
    exec (.cvbd c n) s = .next { s with dev := { s.dev with cores := put s.dev.cores c k' } } ∧ k'.y = k.y ∧ k'.mem = k.mem ∧ k'.k = k.k ∧
    (32 ≤ n → k'.a.toNat = (List.range 10).foldl (fun t j => t + k.x.toNat / 10 ^ j % 10 * 16 ^ j) 0 ∧ k'.x = 0 ∧ k'.cnt = 0 ∧
      k'.flag stZ = decide (k.x = 0) ∧ k'.flag stN = false ∧ k'.flag stC = false ∧ k'.flag stRP = false ∧ k'.pc = i.next ∧
      k'.perfIns = k.perfIns + 1) ∧
    (n < 32 → k'.flag stRP = true ∧ k'.cnt = BitVec.ofNat 32 (32 - n) ∧ k'.x = k.x <<< n ∧ k'.pc = k.pc ∧ k'.perfIns = k.perfIns))

/-- Loads read local memory or a matching buffered store, stores enter the buffer in order, and a drained store writes its bytes
and clears their tags. (R335; R336; R337; R338; R339; R340; R343; R369; R371; R375) -/
def Obligations.StewardLoadsStoresAndTheBuffer : Prop :=
  (∀ (c : Fin 4) (ecc : Ecc) (s : State) (i : Ins) (o : StOp) (n p a : Nat) (post sext : Bool),
    let d := lastSlot s.dev c n
    let k := d.cores[c]
    let word (raw : Nat) : Word := if sext = false ∨ i.size = 4 then BitVec.ofNat 32 raw
      else if i.size = 1 then (BitVec.ofNat 8 raw).signExtend 32 else (BitVec.ofNat 16 raw).signExtend 32
    let d2 : Dev := { d with cores := put d.cores c (stepped k p i.size post) }
    Ready s.dev c o i → MemOp d c i .load p a post → a + i.size ≤ 0x40000 →
    ((∀ e ∈ k.sbuf, e.meets a i.size = false) → Reads s.dev c o n i sext ecc (word (rdLE k.mem a i.size)) d2) ∧
    (∀ (q r : List StoreEnt) (e : StoreEnt), k.sbuf = q ++ e :: r → (∀ x ∈ r, x.meets a i.size = false) → e.addr.toNat = a → e.size = i.size →
      i.size ≠ 2 ∨ a % 2 = 0 → Reads s.dev c o n i sext ecc (word e.val.toNat) d2) ∧
    (∀ (q : List StoreEnt) (e f : StoreEnt), k.sbuf = q ++ [e, f] → i.size = 2 → a % 2 = 1 → e.addr.toNat = a → e.size = 1 →
      f.addr.toNat = a + 1 → f.size = 1 → Reads s.dev c o n i sext ecc (word (e.val.toNat + 256 * f.val.toNat)) d2)) ∧
  (∀ (c : Fin 4) (ecc : Ecc) (s : State) (i : Ins) (b : Word) (d2 : Dev),
    let k := d2.cores[c]
    let n := opSlots c.val s.dev.cores[c] i
    (Reads s.dev c .ld n i (bit i.w 0) ecc b d2 → ∃ k' : Core, exec (.ld c ecc) s = .next { s with dev := completed d2 c i k' } ∧
      OnlyA k k' [stN, stZ] ∧ holds k'.a b ∧ k'.flag stN = b.msb ∧ k'.flag stZ = decide (b = 0)) ∧
    (Reads s.dev c .ldr n i false ecc b d2 → ∃ k' : Core, exec (.ldr c ecc) s = .next { s with dev := completed d2 c i k' } ∧
      k' = { k with x := k'.x, y := k'.y, cnt := k'.cnt } ∧ k'.reg i.f = b ∧ ∀ f, f < 3 → f ≠ i.f → k'.reg f = k.reg f)) ∧
  (∀ (c : Fin 4) (s : State) (i : Ins) (o : StOp) (I : Instr),
    let n := opSlots c.val s.dev.cores[c] i
    let d := lastSlot s.dev c n
    let k := d.cores[c]
    let v : Word := if o = .st then k.a32 else k.reg i.f
    (o, I) ∈ [(StOp.st, Instr.st c), (.str, .str c)] → Ready s.dev c o i →
    (∀ (p a : Nat) (post : Bool), MemOp d c i .store p a post →
      k.sbuf.length + (bufferEntries d c p a i.size v.toNat).length ≤ 4 →
      exec I s = .next { s with
        dev := completed d c i (stepped { k with sbuf := k.sbuf ++ bufferEntries d c p a i.size v.toNat } p i.size post) }) ∧
    (i.md = 7 → exec I s = .next { s with dev := completed d c i (k.setReg i.k v) })) ∧
  (∀ (c : Fin 4) (s : State) (i : Ins),
    let d := lastSlot s.dev c (2 + pushExtra c.val s.dev.cores[c])
    let k := d.cores[c]
    let cur : Word := BitVec.ofNat 32 (k.key 7).cursor - 4
    let v : Word := if i.f = 0 then k.a32 else k.reg (i.f - 1)
    Ready s.dev c .push i → accessFault d c.val 7 (k.key 7) cur.toNat 4 .store true = none → k.sbuf.length < 4 →
    exec (.push c) s = .next { s with
      dev := completed d c i (Core.setKey 7 ((k.key 7).withCursor cur.toNat)
        { k with sbuf := k.sbuf ++ bufferEntries d c 7 (((k.key 7).base + cur.toNat) % 2 ^ 32) 4 v.toNat }) }) ∧
  (∀ (c : Fin 4) (ecc : Ecc) (s : State) (i : Ins),
    let d := lastSlot s.dev c (2 + popExtra c.val s.dev.cores[c])
    let k := d.cores[c]
    let a := ((k.key 7).base + (k.key 7).cursor) % 2 ^ 32
    let v : Word := BitVec.ofNat 32 (rdLE k.mem a 4)
    let k1 := stepped k 7 4 true
    Ready s.dev c .pop i → accessFault d c.val 7 (k.key 7) (k.key 7).cursor 4 .load true = none → a + 4 ≤ 0x40000 →
    (∀ e ∈ k.sbuf, e.meets a 4 = false) → exec (.pop c ecc) s = .next { s with
      dev := completed d c i (if i.f = 0 then { k1 with a := v.signExtend 40 } else k1.setReg (i.f - 1) v) }) ∧
  (∀ (c : Fin 4) (s : State) (i : Ins),
    let d := lastSlot s.dev c 1
    (Ready s.dev c .nop i → exec (.nop c) s = .next { s with dev := completed d c i d.cores[c] }) ∧
    (Ready s.dev c .fence i → (∀ e ∈ d.cores[c].sbuf, e.addr.toNat + e.size ≤ 0x40000 ∧ 1 ≤ e.size) → ∃ t : Dev,
      exec (.fence c) s = .next { s with dev := t } ∧ t.cores[c].sbuf = [] ∧ t.cores[c].pre = [] ∧ t.cores[c].a = s.dev.cores[c].a ∧
      t.cores[c].pc = i.next ∧ t = { s.dev with cores := put s.dev.cores c t.cores[c] })) ∧
  (∀ (c : Fin 4) (s : State),
    let d := s.dev
    let k := d.cores[c]
    (k.sbuf = [] → exec (.storeDrain c) s = .next s) ∧
    (∀ (e : StoreEnt) (r : List StoreEnt), k.sbuf = e :: r → d.sys.fclkOn = true → d.sys.wEnd = none → k.st ≠ .inReset →
      let a := e.addr.toNat
      let d1 : Dev := { d with cores := put d.cores c { k with sbuf := r } }
      (1 ≤ e.size → a + e.size ≤ 0x40000 → Memory.wf k.mem → canon false k.tags = true → ∃ k' : Core,
        exec (.storeDrain c) s = .next { s with dev := { d with cores := put d.cores c k' } } ∧
        k' = { k with sbuf := r, mem := wrLE k.mem a e.size e.val.toNat, tags := k'.tags, resv := k'.resv } ∧
        (∀ g, look false k'.tags g = if a / 16 ≤ g ∧ g ≤ (a + e.size - 1) / 16 then false else look false k.tags g) ∧
        (∀ g l, k.resv = some (g, l) → k'.resv = if a / 16 ≤ g ∧ g ≤ (a + e.size - 1) / 16 then none else some (g, l)) ∧
        (∀ y, (y < a ∨ a + e.size ≤ y) → rd8 k'.mem y = rd8 k.mem y)) ∧
      (inCellar a = true → exec (.storeDrain c) s = .next { s with dev := busError c.val 1 a e.sealed d1 }) ∧
      (inRegs a = true → e.size ≠ 4 → exec (.storeDrain c) s = .next { s with dev := busError c.val 3 a e.sealed d1 }))) ∧
  (∀ (c : Fin 4) (s : State),
    let k := s.dev.cores[c]
    (coreIssues s.dev c.val = false → exec (.prefetch c) s = .next s) ∧
    (∀ b, coreIssues s.dev c.val = true → (aheadBlocks k).find? (fun b => !k.pre.any (·.1 == b)) = some b →
      (mayFetch s.dev c.val b = false → exec (.prefetch c) s = .next s) ∧
      (mayFetch s.dev c.val b = true → exec (.prefetch c) s = .next { s with
        dev := { s.dev with cores := put s.dev.cores c { k with pre := k.pre ++ [(b, false, rdBytes k.mem (16 * b) 16)] } } })))

/-- TAS, LR.W and SC.W act on one location and the reservation; a block repeat performs an element, steps cursors and CNT, and
ends or is suspended. (R357; R358; R359; R360; R375) -/
def Obligations.StewardAtomicsAndRepeats : Prop :=
  (∀ (c : Fin 4) (ecc : Ecc) (s : State) (i : Ins) (p a : Nat) (post : Bool),
    let d := lastSlot s.dev c (opSlots c.val s.dev.cores[c] i)
    let k := d.cores[c]
    let done (I : Instr) (P : Core → Prop) : Prop := ∃ k' : Core, exec I s = .next { s with
        dev := completed d c i k' } ∧
      k' = { stepped k p i.size post with a := k'.a, status := k'.status, mem := k'.mem, tags := k'.tags, resv := k'.resv, perfScf := k'.perfScf } ∧ P k'
    MemOp d c i .both p a post → a + i.size ≤ 0x40000 → k.sbuf = [] → Memory.wf k.mem →
    (Ready s.dev c .tas i → done (.tas c) fun k' => k'.a = (rd8 k.mem a).zeroExtend 40 ∧ rd8 k'.mem a = 0xFF ∧
      (∀ y, y ≠ a → rd8 k'.mem y = rd8 k.mem y) ∧ k'.flag stZ = decide (rd8 k.mem a = 0) ∧ ∀ j, j ≠ stZ → bit k'.status j = bit k.status j) ∧
    (Ready s.dev c .lrw i → done (.lrW c ecc) fun k' => holds k'.a (BitVec.ofNat 32 (rdLE k.mem a 4)) ∧ k'.mem = k.mem ∧ k'.tags = k.tags ∧
      k'.resv = some (a / 16, 256) ∧ (slots 1 (completeIns k')).resv = some (a / 16, 255) ∧
      k'.flag stZ = decide (rdLE k.mem a 4 = 0) ∧ ∀ j, j ≠ stZ → j ≠ stN → bit k'.status j = bit k.status j) ∧
    (Ready s.dev c .scw i → done (.scW c) fun k' => k'.a = k.a ∧ k'.resv = none ∧ (∀ j, j ≠ stZ → bit k'.status j = bit k.status j) ∧
      (∀ l, k.resv = some (a / 16, l) → rdLE k'.mem a 4 = k.a32.toNat ∧ (∀ y, (y < a ∨ a + 4 ≤ y) → rd8 k'.mem y = rd8 k.mem y) ∧
        k'.flag stZ = true) ∧
      ((∀ l, k.resv ≠ some (a / 16, l)) → k'.mem = k.mem ∧ k'.tags = k.tags ∧ k'.flag stZ = false ∧ k'.perfScf = satInc k.perfScf))) ∧
  (∀ (c : Fin 4) (s : State),
    (s.dev.cores[c].resv = none ∨ s.dev.cores[c].frozen = true → exec (.reservationLapse c) s = .next s) ∧
    (∀ g l, s.dev.cores[c].resv = some (g, l) → s.dev.cores[c].frozen = false → s.dev.cores[c].st = .waiting →
      exec (.reservationLapse c) s = .next { s with dev := pass l s.dev }) ∧
    (s.dev.cores[c].resv ≠ none → s.dev.sys.fclkOn = true → s.dev.cores[c].frozen = false → s.dev.cores[c].st = .running → ∃ k' : Core,
      exec (.reservationLapse c) s = .next { s with dev := { s.dev with cores := put s.dev.cores c k' } } ∧ k'.resv = none ∧
      k'.a = s.dev.cores[c].a ∧ k'.pc = s.dev.cores[c].pc ∧ k'.mem = s.dev.cores[c].mem)) ∧
  (∀ (c : Fin 4) (n : Nat) (ecc eccB : Ecc) (s : State) (i : Ins) (o : StOp) (I : Instr),
    (o, I) ∈ [(StOp.movs, Instr.movs c n ecc), (.fils, .fils c n ecc), (.cmps, .cmps c n (ecc, eccB)), (.scns, .scns c n ecc), (.crcs, .crcs c n ecc)] →
    Ready s.dev c o i → s.dev.cores[c].flag stRP = false → s.dev.cores[c].cnt = 0 → ∃ k' : Core,
    exec I s = .next { s with dev := { s.dev with cores := put s.dev.cores c k' } } ∧ k'.pc = i.next ∧ k'.a = s.dev.cores[c].a ∧
      k'.x = s.dev.cores[c].x ∧ k'.y = s.dev.cores[c].y ∧ k'.k = s.dev.cores[c].k ∧ k'.mem = s.dev.cores[c].mem ∧
      ∀ j, j ≠ stS → j ≠ stRP → bit k'.status j = bit s.dev.cores[c].status j) ∧
  (∀ (c : Fin 4) (s : State) (i : Ins) (u v : Nat),
    let d := s.dev
    let k := d.cores[c]
    let at' (j : Nat) : Nat := ((k.key j).base + (k.key j).cursor) % 2 ^ 32
    let ok (j : Nat) (acc : Acc) : Prop := accessFault d c.val j (k.key j) (k.key j).cursor i.size acc false = none ∧ at' j + i.size ≤ 0x40000
    let step (j : Nat) (k : Core) : Core := stepped k j i.size true
    let x := rdLE k.mem (at' u) i.size
    let y := rdLE k.mem (at' v) i.size
    let A := k.a32.toNat % 256 ^ i.size
    let goes (I : Instr) (P : Core → Prop) : Prop := ∃ k' : Core, exec I s = .next { s with
        dev := { d with cores := put d.cores c k' } } ∧ k'.x = k.x ∧ k'.y = k.y ∧ k'.mem = k.mem ∧ P k'
    let on (ks : List Nat) (Q : Core → Prop) (k' : Core) : Prop :=
      k'.cnt = k.cnt - 1 ∧ k'.k = (ks.eraseDups.foldl (fun k j => step j k) k).k ∧
      (k.cnt = 1 → k'.flag stRP = false ∧ k'.pc = i.next ∧ k'.flag stC = false ∧ Q k') ∧ (k.cnt ≠ 1 → k'.flag stRP = true ∧ k'.pc = k.pc)
    let ends (z cf : Bool) (k' : Core) : Prop :=
      k'.cnt = k.cnt ∧ k'.k = k.k ∧ k'.flag stRP = false ∧ k'.pc = i.next ∧ k'.flag stZ = z ∧ k'.flag stC = cf ∧ k'.a = k.a
    k.flag stRP = true → k.sbuf = [] → k.cnt ≠ 0 → k.cnt ≠ 0xFFFFFFFF → u = i.md → v = i.k →
    (Ready d c .movs i → ok u .load → ok v .store → (i.size ≠ 2 ∨ at' v % 2 = 0) → goes (.movs c 1 .ok) fun k' => on [u, v] (fun _ => True) k' ∧ k'.a = k.a ∧
      ∃ e, k'.sbuf = [e] ∧ e.addr.toNat = at' v ∧ e.size = i.size ∧ e.val.toNat = x) ∧
    (Ready d c .fils i → ok v .store → (i.size ≠ 2 ∨ at' v % 2 = 0) → goes (.fils c 1 .ok) fun k' => on [v] (fun _ => True) k' ∧ k'.a = k.a ∧
      ∃ e, k'.sbuf = [e] ∧ e.addr.toNat = at' v ∧ e.size = i.size ∧ e.val.toNat = A) ∧
    (Ready d c .cmps i → ok u .load → ok v .load → goes (.cmps c 1 (.ok, .ok)) fun k' => k'.sbuf = [] ∧
      (x = y → on [u, v] (fun k' => k'.flag stZ = true) k') ∧ (x ≠ y → ends false (decide (y ≤ x)) k')) ∧
    (Ready d c .scns i → ok u .load → goes (.scns c 1 .ok) fun k' => k'.sbuf = [] ∧
      (let found := if bit i.w 0 then x ≠ A else x = A
      (found → ends true false k') ∧ (¬ found → on [u] (fun k' => k'.flag stZ = false) k'))) ∧
    (Ready d c .crcs i → ok u .load → goes (.crcs c 1 .ok) fun k' => k'.sbuf = [] ∧ on [u] (fun _ => True) k' ∧
      holds k'.a (BitVec.ofNat 32 (crcBytesR (if bit i.w 0 then 0xEDB88320 else 0x82F63B78) k.a32.toNat (leBytes i.size x)))))

/-- Branches, jumps, TRAP, RTE, WAIT, SIGNAL, MASK, MFS and MTS act as their tables say; a request, a due budget or limit enters
its level. (R357; R361; R362; R363; R364; R390; R399; R401; R405; R411; R413; R420) -/
def Obligations.StewardControlAndExceptions : Prop :=
  (∀ (c : Fin 4) (s : State) (i : Ins),
    let k := s.dev.cores[c]
    let cond := fld i.w 6 4
    let z := k.flag stZ
    let n := k.flag stN
    let cf := k.flag stC
    let v := k.flag stV
    let taken : Bool := match cond with
      | 0 => true | 1 => z | 2 => !z | 3 => cf | 4 => !cf | 5 => n | 6 => !n | 7 => v | 8 => !v | 9 => cf && !z | 10 => !cf || z
      | 11 => n == v | 12 => n != v | 13 => !z && n == v | 14 => z || n != v | _ => decide (2 ≤ k.cnt.toNat)
    let d := lastSlot s.dev c (if taken = (cond == 0 || cond == 15 || bit i.ext 15) then 1 else 3)
    Ready s.dev c .bcc i → exec (.bcc c) s = .next { s with
      dev := jumped d c { d.cores[c] with
        pc := if taken then i.next + i.d16 else i.next, cnt := if cond = 15 ∧ k.cnt ≠ 0 then k.cnt - 1 else k.cnt } }) ∧
  (∀ (c : Fin 4) (ecc : Ecc) (s : State) (i : Ins) (t : Word) (d0 d1 : Dev),
    let k := s.dev.cores[c]
    let target (d : Dev) : Prop := (i.md = 0 ∧ t = i.next + i.d16 ∧ d1 = d) ∨ (i.md ≠ 0 ∧ readOp c.val i false ecc d = .ok (t, d1))
    let goes : State := { s with dev := jumped d1 c { d1.cores[c] with pc := t } }
    let m := jumpSlots c.val k i
    let n := 1 + m + pushExtra c.val k
    (Ready s.dev c .jmp i → target (lastSlot s.dev c m) →
      (fetchFault d1 c.val t.toNat = none → exec (.jmp c ecc) s = .next goes) ∧
      (∀ f, fetchFault d1 c.val t.toNat = some f → exec (.jmp c ecc) s = .next { s with
        dev := raiseIns c.val { f with addr := some ((d1.cores[c].pck.base + t.toNat) % 2 ^ 32) } i.pc (failing s.dev c m) })) ∧
    (Ready s.dev c .call i → pushWord c.val i.next (lastSlot s.dev c n) = .ok d0 → target d0 → fetchFault d1 c.val t.toNat = none →
      exec (.call c ecc) s = .next goes) ∧
    (∀ f, Ready s.dev c .call i → pushWord c.val i.next (lastSlot s.dev c n) = .ok d0 → i.md ≠ 0 → readOp c.val i false ecc d0 = .error f →
      exec (.call c ecc) s = .next { s with dev := raiseIns c.val { f with
        code := if i.md ≠ 7 ∧ i.k = 7 ∧ 1 ≤ f.code ∧ f.code ≤ 5 then 0x0A else f.code } i.pc (failing s.dev c n) }) ∧
    (Ready s.dev c .ret i → popWord c.val ecc (lastSlot s.dev c (4 + popExtra c.val k)) = .ok (t, d1) → fetchFault d1 c.val t.toNat = none →
      exec (.ret c ecc) s = .next goes)) ∧
  (∀ (c : Fin 4) (s : State) (i : Ins),
    let k := s.dev.cores[c]
    let n := fld i.w 0 8
    let a := k.pck.base + i.pc.toNat
    Ready s.dev c .trap i →
    (k.lvl = 0 → k.mask = 0 → exec (.trap c) s = .next { s with
      dev := enterLevel c.val 1 0x10 n 0 a i.next
        { s.dev with cores := put s.dev.cores c { slots 1 (completeIns (pruneBlocks k)) with pc := i.next } } }) ∧
    (k.lvl ≠ 0 ∨ k.mask ≠ 0 → exec (.trap c) s = .next { s with
      dev := raiseFault c.val 0x11 n 0 a i.next { s.dev with cores := put s.dev.cores c (slots 1 (pruneBlocks k)) } })) ∧
  (∀ (c : Fin 4) (s : State) (i : Ins) (x : SaveSet),
    let d := lastSlot s.dev c 6
    let k := d.cores[c]
    let k2 : Core := leaveTick (slots 1 { k with
      status := x.status, comp := x.comp, pc := x.spc, pck := x.spk, a := x.sa, abort := k.abort && k.lvl != 3, perfIns := k.perfIns + 1 })
    let t : Dev := { s.dev with cores := put s.dev.cores c k2 }
    Ready s.dev c .rte i → x = at? k.sets (k.lvl - 1) {} →
    (sealedComp s.dev c.val x.comp = true → exec (.rte c) s = .next { s with
      dev := raiseIns c.val { code := 0x03, detail := 3, source := none, addr := none } i.pc (failing s.dev c 6) }) ∧
    (sealedComp s.dev c.val x.comp = false →
    (x.gdepth.toNat = k.gates.length → k.dueFault ≠ some 0 ∨ k2.tickActive = true → exec (.rte c) s = .next { s with dev := t }) ∧
    (x.gdepth.toNat = k.gates.length → k.dueFault = some 0 → k2.tickActive = false → exec (.rte c) s = .next { s with
      dev := raiseFault c.val 0x0C 0 k2.gates.length k2.pc.toNat k2.pc t }) ∧
    (x.gdepth.toNat ≠ k.gates.length → exec (.rte c) s = .next { s with
      dev := raiseFault c.val 0x0B 0x80 0 (k.pck.base + i.pc.toNat) i.pc (failing s.dev c 6) }))) ∧
  (∀ (c : Fin 4) (s : State) (i : Ins),
    let d := lastSlot s.dev c 1
    let k := d.cores[c]
    let goes (k' : Core) : State := { s with dev := completed d c i k' }
    let sp := fld i.w 0 6
    let set := at? k.sets (saveLevel sp - 1) {}
    let own := at? k.sets (k.lvl - 1) {}
    (Ready s.dev c .wait i → exec (.wait c) s = .next (goes { k with st := .waiting })) ∧
    (Ready s.dev c .signal i → k.sbuf = [] → exec (.signal c) s = .next { s with
      dev := completed (raiseNext (0x400 + 32 * c.val + fld i.w 0 5) d) c i k }) ∧
    (Ready s.dev c .mask i →
      (fld i.w 0 2 ≤ k.mask ∨ fld i.w 0 2 ≤ k.mgrant.toNat ∨ k.pck.may permSYS = true → ∃ k' : Core, exec (.mask c) s = .next (goes k') ∧
        k' = { k with status := k'.status } ∧ k'.mask = fld i.w 0 2 ∧ ∀ j, j ≠ 10 → j ≠ 11 → bit k'.status j = bit k.status j) ∧
      (k.mask < fld i.w 0 2 → k.mgrant.toNat < fld i.w 0 2 → k.pck.may permSYS = false → exec (.mask c) s = .next { s with
        dev := raiseFault c.val 0x07 0 0 (k.pck.base + i.pc.toNat) i.pc (failing s.dev c 1) })) ∧
    (Ready s.dev c .mfs i → ∃ v : Word, exec (.mfs c) s = .next (goes { k with a := v.signExtend 40 }) ∧
      (sp = 0 → v = k.status.zeroExtend 32) ∧ (sp = 1 → v = if k.lvl = 0 then 0 else own.cause) ∧
      (sp = 2 → v = if k.lvl = 0 then 0 else own.causeAddr) ∧ (sp = 3 → v = k.busAddr) ∧ (sp = 4 → v.toNat = c.val) ∧
      (sp ∈ [9, 10, 11] → v = set.spc) ∧ (sp ∈ [13, 14, 15] → bf v 0 15 = set.status ∧ bf v 16 8 = set.comp ∧ bf v 24 5 = set.gdepth) ∧
      (sp ∈ [16, 18, 20] → v = bf set.sa 0 32) ∧ (sp ∈ [17, 19, 21] → v = (bf set.sa 32 8).zeroExtend 32)) ∧
    (Ready s.dev c .mts i → ∃ k' : Core, exec (.mts c) s = .next (goes k') ∧ k' = { k with status := k'.status, sets := k'.sets } ∧
      (sp = 0 → k'.sets = k.sets ∧ ∀ j, bit k'.status j = if j < 10 then bit k.a j else bit k.status j) ∧
      (sp ≠ 0 → k'.status = k.status ∧ (∀ n : Fin 3, n.val ≠ saveLevel sp - 1 → k'.sets[n] = k.sets[n]) ∧
        (let y := at? k'.sets (saveLevel sp - 1) {}
        (sp ∈ [9, 10, 11] → y = { set with spc := k.a32 }) ∧ (sp ∈ [16, 18, 20] → y = { set with sa := bf set.sa 32 8 ++ k.a32 }) ∧
        (sp ∈ [17, 19, 21] → y = { set with sa := bf k.a 0 8 ++ bf set.sa 0 32 }) ∧
        (sp ∈ [13, 14, 15] → k.pck.may permSYS = false → y = { set with status := bf k.a 0 15 }) ∧
        (sp ∈ [13, 14, 15] → k.pck.may permSYS = true → y = { set with status := bf k.a 0 15, comp := bf k.a 16 8, gdepth := bf k.a 24 5 }))))) ∧
  (∀ (c : Fin 4) (s : State),
    let k := s.dev.cores[c]
    (asyncRequest s.dev c.val = none → exec (.exceptionEntry c) s = .next s) ∧
    (∀ (l code det source addr : Nat), asyncRequest s.dev c.val = some (l, code, det, source, addr) → s.dev.sys.fclkOn = true →
      s.dev.sys.wEnd = none → k.frozen = false → k.st = .running ∨ k.st = .waiting → k.dueFault = none → ∃ k1 : Core,
      exec (.exceptionEntry c) s = .next { s with
        dev := enterLevel c.val l code det source addr k.pc { s.dev with cores := put s.dev.cores c k1 } } ∧
      (code = 0x20 → k1 = { k with st := .running, busPend := false, busMore := 0 }) ∧
      (code = 0x32 → k1 = { k with st := .running, tickPend := false, tickActive := true, tickCount := true, tbudcnt := 0 }) ∧
      (code ≠ 0x20 → code ≠ 0x32 → k1 = { k with st := .running }))) ∧
  (∀ (c : Fin 4) (s : State),
    let k := s.dev.cores[c]
    let due (det : Nat) (k1 : Core) : State := { s with
      dev := raiseFault c.val 0x0C det k.gates.length k.pc.toNat k.pc { s.dev with cores := put s.dev.cores c { k1 with st := .running } } }
    s.dev.sys.fclkOn = true → s.dev.sys.wEnd = none → k.frozen = false → k.st = .running ∨ k.st = .waiting →
    (k.tickActive = true → k.tickCount = true → k.tbudget ≠ 0 → k.tbudget.toNat ≤ k.tbudcnt.toNat →
      exec (.tickBudgetFault c) s = .next (due 0 { k with
        tickCount := false, tbudmax := if k.tbudmax.toNat < k.tbudcnt.toNat then k.tbudcnt else k.tbudmax })) ∧
    (k.tickActive = false → exec (.tickBudgetFault c) s = .next s) ∧
    (k.tickActive = false → (∃ g ∈ k.gates, g.limited = true ∧ g.left = 0) → exec (.gateLimit c) s = .next (due 1 { k with
      gates := k.gates.map fun g => if g.limited && g.left == 0 then { g with limited := false } else g })) ∧
    ((∀ g ∈ k.gates, g.limited = false) → exec (.gateLimit c) s = .next s) ∧
    (k.dueFault = none → k.st = .running → exec (.tickBudgetFault c) s = .next s ∧ exec (.gateLimit c) s = .next s)) ∧
  (∀ (c : Fin 4) (n : Fin 3) (code det source addr : Nat) (pc : Word) (d : Dev),
    let k := d.cores[c]
    (k.vkey.tag = true → k.vkey.sealed = true → k.vkey.may permX = true → ∃ k1 : Core,
      enterLevel c.val (n.val + 1) code det source addr pc d = { d with cores := put d.cores c (slots 6 k1) } ∧
      k1 = { landAll k with
        resv := none, sets := k1.sets, status := k1.status, comp := k.vcomp, pck := k.vkey.unsealed, pc := BitVec.ofNat 32 k.vkey.cursor } ∧
      k1.lvl = n.val + 1 ∧ k1.flag stRP = false ∧ (∀ j, j ∉ [12, 13, 14] → bit k1.status j = bit (landAll k).status j) ∧
      k1.sets = put k.sets n { spc := pc, spk := k.pck, sa := k.a, status := (landAll k).status, comp := k.comp,
                               gdepth := BitVec.ofNat 5 k.gates.length, cause := causeWord source det code (n.val + 1),
                               causeAddr := BitVec.ofNat 32 addr }) ∧
    (inSealed d c.val = false →
      (k.lvl ≠ 3 → raiseFault c.val code det source addr pc d = enterLevel c.val 3 code det source addr pc d) ∧
      (k.lvl = 3 → raiseFault c.val code det source addr pc d = freezeCore c.val 0x3F code det addr d)) ∧
    (∀ (g : GateEnt) (r : List GateEnt) (k7 pck : Key) (ret : Word) (comp : Byte), inSealed d c.val = true → k.gates = r ++ [g] →
      readFrame d c.val g.frame = (k7, pck, ret, comp) →
      (let k1 : Core := slots 8 { landAll k with
        k := (Vector.replicate 8 ({} : Key)).set 7 k7, a := 0, x := 0, y := 0, cnt := 0, mpg := 0, mph := 0, mpl := 0
        status := (landAll k).status &&& 0x7FE0, pck := pck, comp := comp, gates := r, abort := true, resv := none }
      let t : Dev := { d with cores := put d.cores c k1 }
      (k.lvl ≠ 3 → raiseFault c.val code det source addr pc d = enterLevel c.val 3 code det source 0 ret t) ∧
      (k.lvl = 3 → raiseFault c.val code det source addr pc d = freezeCore c.val 0x3F code det addr t))))

/-- Key instructions derive, seal, unseal, move and show keys after their checks; KLD and KST carry tags as allowed; gates are
entered and left. (R365; R373; R376; R377; R379; R380; R381; R393; R394; R395; R396) -/
def Obligations.StewardKeysAndGates : Prop :=
  (∀ (c : Fin 4) (s : State) (i : Ins) (o : StOp) (I : Instr) (n : Nat) (k' : Core),
    let k := (lastSlot s.dev c n).cores[c]
    let src := k.key i.ks
    let kc := k.key (fld i.ext 0 3)
    let A (v : Word) : Core := { k with a := v.signExtend 40 }
    let derived : Prop := src.tag = true ∧ src.sealed = false ∧ k.x.toNat + k.y.toNat ≤ src.len
    let sealable : Prop := src.tag = true ∧ src.sealed = false ∧ kc.tag = true ∧ kc.sealed = false ∧ kc.may permSEAL = true ∧
      kc.cursor < kc.len ∧ 1 ≤ kc.base + kc.cursor ∧ kc.base + kc.cursor ≤ 4095
    let unsealable : Prop := src.tag = true ∧ kc.tag = true ∧ kc.sealed = false ∧ kc.may permUNSEAL = true ∧ src.sealed = true ∧
      kc.cursor < kc.len ∧ kc.base + kc.cursor = src.otype
    let movable : Prop := (k.key i.kd).tag = true ∧ (k.key i.kd).sealed = false
    let sk := 8 + fld i.ext 0 4
    (o = .kmove ∧ I = .kmove c ∧ n = 1 ∧ k' = k.setKey i.kd src) ∨ (o = .kclr ∧ I = .kclr c ∧ n = 1 ∧ k' = k.setKey i.kd {}) ∨
    (o = .kderive ∧ I = .kderive c ∧ n = 2 ∧ derived ∧
      k' = k.setKey i.kd (mkKey (src.base + k.x.toNat) k.y.toNat 0 (src.perm &&& bf k.a 0 16).toNat 0 false true)) ∨
    (o = .kseal ∧ I = .kseal c ∧ n = 3 ∧ sealable ∧
      k' = k.setKey i.kd (mkKey src.base src.len src.cursor src.perm.toNat (kc.base + kc.cursor) true true)) ∨
    (o = .kunseal ∧ I = .kunseal c ∧ n = 3 ∧ unsealable ∧
      k' = k.setKey i.kd (mkKey src.base src.len src.cursor src.perm.toNat 0 false true)) ∨
    (o = .kbase ∧ I = .kbase c ∧ n = 1 ∧ k' = A (bf src.val 0 32)) ∨ (o = .klen ∧ I = .klen c ∧ n = 1 ∧ k' = A (bf src.val 32 32)) ∨
    (o = .kcur ∧ I = .kcur c ∧ n = 1 ∧ k' = A (bf src.val 64 32)) ∨ (o = .kperm ∧ I = .kperm c ∧ n = 1 ∧ k' = A (bf src.val 96 32)) ∨
    (o = .ksetc ∧ I = .ksetc c ∧ n = 1 ∧ movable ∧ k' = k.setKey i.kd ((k.key i.kd).withCursor k.a32.toNat)) ∨
    (o = .kaddc ∧ I = .kaddc c ∧ n = 1 ∧ movable ∧ k' = k.setKey i.kd ((k.key i.kd).withCursor ((k.key i.kd).cursor + k.a32.toNat))) ∨
    (o = .kmfs ∧ I = .kmfs c ∧ n = 1 ∧ ((k.key sk).tag = false ∨ (k.key sk).sealed = false) ∧ k' = k.setKey i.kd (k.key sk)) ∨
    (o = .kmts ∧ I = .kmts c ∧ n = 1 ∧ (sk ≠ 9 ∨ k.pck.may permSYS = true) ∧ k' = k.setKey sk src) ∨
    (o = .ktag ∧ I = .ktag c ∧ n = 1 ∧ k' = { k with status := setBit k.status stZ src.tag }) →
    Ready s.dev c o i → exec I s = .next { s with dev := completed (lastSlot s.dev c n) c i k' }) ∧
  (∀ (c : Fin 4) (s : State) (i : Ins) (o : StOp) (I : Instr) (n : Nat) (f : StFault) (pass fail : List (Bool × StFault)),
    let k := (lastSlot s.dev c n).cores[c]
    let ks := i.ks
    let kc := fld i.ext 0 3
    let kd := i.kd
    let untagged (j : Nat) : Bool × StFault := (!(k.key j).tag, keyFault 0x01 0 j)
    let shut (j : Nat) : Bool × StFault := ((k.key j).sealed, keyFault 0x04 0 j)
    let otype := (k.key kc).base + (k.key kc).cursor
    let sk := 8 + fld i.ext 0 4
    (o, I, n, pass ++ (true, f) :: fail) ∈ [
      (StOp.kderive, Instr.kderive c, 2, [untagged ks, shut ks, (decide ((k.key ks).len < k.x.toNat + k.y.toNat), keyFault 0x02 0 ks)]),
      (.kseal, .kseal c, 3, [untagged ks, shut ks, untagged kc, shut kc, (!(k.key kc).may permSEAL, keyFault 0x03 0 kc),
        (!decide ((k.key kc).cursor < (k.key kc).len ∧ 1 ≤ otype ∧ otype ≤ 4095), keyFault 0x02 0 kc)]),
      (.kunseal, .kunseal c, 3, [untagged ks, untagged kc, shut kc, (!(k.key kc).may permUNSEAL, keyFault 0x03 0 kc),
        (!decide ((k.key ks).sealed = true ∧ (k.key kc).cursor < (k.key kc).len ∧ otype = (k.key ks).otype), keyFault 0x03 2 ks)]),
      (.ksetc, .ksetc c, 1, [untagged kd, shut kd]), (.kaddc, .kaddc c, 1, [untagged kd, shut kd]),
      (.kmts, .kmts c, 1, [(fld i.ext 0 4 == 1 && !k.pck.may permSYS, { code := 0x07, addr := some (k.pck.base + i.pc.toNat) })]),
      (.kmfs, .kmfs c, 1, [((k.key sk).tag && (k.key sk).sealed, { code := 0x04, source := if sk ≤ 9 then some sk else none, addr := none })])] →
    (∀ x ∈ pass, x.1 = false) → Ready s.dev c o i → exec I s = .next { s with dev := raiseIns c.val f i.pc (failing s.dev c n) }) ∧
  (∀ (c : Fin 4) (s : State) (i : Ins),
    let d := lastSlot s.dev c (keySlots c.val i s.dev.cores[c])
    let k := d.cores[c]
    let p := k.key i.k
    let o := granuleOffset i k
    let a := (p.base + o) % 2 ^ 32
    let post : Bool := i.md' == 2
    let kd := k.key i.kd
    k.sbuf = [] → a + 16 ≤ 0x40000 →
    (Ready s.dev c .kld i → accessFault d c.val i.k p o 16 .load false = none → exec (.kld c) s = .next { s with
      dev := completed d c i ((stepped k i.k 16 post).setKey i.kd
        { val := BitVec.ofNat 128 (rdLE k.mem a 16), tag := look false k.tags (a / 16) && p.may permLK }) }) ∧
    (Ready s.dev c .kst i → accessFault d c.val i.k p o 16 .store false = none → Memory.wf k.mem → canon false k.tags = true → ∃ k' : Core,
      exec (.kst c) s = .next { s with dev := completed d c i k' } ∧
      k' = { stepped k i.k 16 post with mem := k'.mem, tags := k'.tags, resv := k'.resv } ∧ rdLE k'.mem a 16 = kd.val.toNat ∧
      look false k'.tags (a / 16) = (kd.tag && p.may permSK) ∧ (∀ g, g ≠ a / 16 → look false k'.tags g = look false k.tags g) ∧
      ∀ y, (y < a ∨ a + 16 ≤ y) → rd8 k'.mem y = rd8 k.mem y)) ∧
  (∀ (c : Fin 4) (s : State) (i : Ins),
    let d := lastSlot s.dev c 24
    let k := d.cores[c]
    let p := k.key i.k
    let a := (p.base + p.cursor) % 2 ^ 32
    let e := keyAt d c.val a
    let t := keyAt d c.val (a + 16)
    let comp : Byte := BitVec.ofNat 8 (memRead d c.val (a + 0x38) 1)
    let limit := memRead d c.val (a + 0x3C) 4
    let frame := (t.base + t.cursor + 2 ^ 32 - 48) % 2 ^ 32
    Ready s.dev c .gcall i → k.sbuf = [] →
    (∀ f, gateFault d c.val i.k (k.pck.base + i.pc.toNat) = some f → exec (.gcall c) s = .next { s with
      dev := raiseIns c.val f i.pc (failing s.dev c 24) }) ∧
    (gateFault d c.val i.k (k.pck.base + i.pc.toNat) = none → frame + 48 ≤ 0x40000 → Memory.wf k.mem → canon false k.tags = true →
      ∃ (d' : Dev) (k' : Core), exec (.gcall c) s = .next { s with dev := jumped d' c k' } ∧ d' = { d with cores := put d.cores c k' } ∧
      readFrame d' c.val (BitVec.ofNat 32 frame) = (k.key 7, k.pck, i.next, k.comp) ∧
      (∀ y, (y < frame ∨ frame + 48 ≤ y) → rd8 k'.mem y = rd8 k.mem y) ∧
      k'.pck = e ∧ k'.pc.toNat = e.cursor ∧ k'.comp = comp ∧ k'.key 7 = t.withCursor (t.cursor - 48) ∧ k'.key 4 = {} ∧ k'.key 5 = {} ∧
      k'.key 6 = {} ∧ k'.key 0 = mkKey p.base p.len p.cursor (setBit p.perm permGATE false).toNat 0 false true ∧
      k'.a = k.a ∧ k'.x = k.x ∧ k'.y = k.y ∧ k'.status = k.status ∧ k'.gates = k.gates ++ [{
        frame := BitVec.ofNat 32 frame, caller := k.comp, target := comp, limited := limit != 0, left := BitVec.ofNat 32 (limit - 23) }])) ∧
  (∀ (c : Fin 4) (s : State) (i : Ins),
    let d := lastSlot s.dev c 22
    let k := d.cores[c]
    Ready s.dev c .gret i → k.sbuf = [] →
    (s.dev.cores[c].gates = [] → exec (.gret c) s = .next { s with
      dev := raiseIns c.val { code := 0x0A, detail := 2, source := some 10, addr := none } i.pc (failing s.dev c 22) }) ∧
    (∀ (g : GateEnt) (r : List GateEnt) (k7 pck : Key) (x : Word × Byte), k.gates = r ++ [g] → readFrame d c.val g.frame = (k7, pck, x) →
      k7.tag = false ∨ pck.tag = false → exec (.gret c) s = .next { s with
        dev := raiseIns c.val { code := 0x0A, detail := 3, source := some 10, addr := some g.frame.toNat } i.pc (failing s.dev c 22) }) ∧
    (∀ (g : GateEnt) (r : List GateEnt) (k7 pck : Key) (ret : Word) (comp : Byte), k.gates = r ++ [g] →
      readFrame d c.val g.frame = (k7, pck, ret, comp) → k7.tag = true → pck.tag = true → ∃ k' : Core,
      exec (.gret c) s = .next { s with
        dev := if g.limited = true ∧ g.left = 0 then raiseFault c.val 0x0C 1 r.length ret.toNat ret (jumped d c k') else jumped d c k' } ∧
      k' = { k with k := k'.k, pck := pck, pc := ret, comp := comp, gates := r } ∧ k'.key 7 = k7 ∧
      (∀ j : Fin 8, k'.k[j] = if j.val = 7 then k7 else if j.val = 0 ∨ 4 ≤ j.val then {} else k.k[j])))

/-- A cell's bytes read back as the cell; a port acknowledges the next cell, asks again for a bad one, resends on NAK or
timeout, and forwards. (R475; R476; R479; R480; R482; R483; R484; R485; R486) -/
def Obligations.LinksAcknowledgeRetryAndForward : Prop :=
  (∀ c : Cell, c.payload.length ≤ 256 →
    parseCell c.bytes = c ∧ hcrcOk c.bytes = true ∧ headerOk c.bytes = true ∧ ccrcOk c.bytes = true) ∧
  (∀ (s : State) (d : Dev), d.trl.st ≠ .loading ∨ d.trl.dmaLeft = 0 ∨ ringBehind d = true → onward s d = { s with dev := d }) ∧
  (∀ (p : Fin 2) (l : List Byte) (fin : CellEnd) (s : State), s.dev.sys.fclkOn = true → (rport s.dev p).link = false →
    exec (.link p l fin) s = .next (onward s s.dev) ∧ exec (.nak p l fin) s = .next (onward s s.dev) ∧ exec (.cellForward p l fin) s = .next (onward s s.dev)) ∧
  (∀ (p : Fin 2) (l : List Byte) (fin : CellEnd) (s : State), s.dev.sys.fclkOn = true → (rport s.dev p).link = true → hcrcOk l = false →
    exec (.cellForward p l fin) s = .next (onward s (naks p (updRport p (fun q => { q with hcrc := satInc q.hcrc }) s.dev)))) ∧
  (∀ (p : Fin 2) (l : List Byte) (s : State), s.dev.sys.fclkOn = true → (rport s.dev p).link = true → (rport s.dev p).transit = [] → (rport s.dev p).own = [] →
    hcrcOk l = true → headerOk l = false → mine s.dev (parseCell l) = false → (parseCell l).seq = (rport s.dev p).rxSeq →
    exec (.cellForward p l .clean) s = .next (onward s (settles p (updRport p (fun q => { q with malformed := satInc q.malformed }) (taken p (parseCell l) s.dev))))) ∧
  (∀ (p : Fin 2) (c : Cell) (s : State), s.dev.sys.fclkOn = true → (rport s.dev p).link = true → c.payload.length ≤ 256 → c.typ = tLINK →
    let back := ((rport s.dev p).rxSeq - 1 - c.seq).toNat
    (exec (.link p c.bytes .bad) s = .next (onward s (naks p s.dev))) ∧
    (InOrder s.dev p c → exec (.link p c.bytes .clean) s = .next (onward s (accepted p c s.dev))) ∧
    (back < 2048 → exec (.link p c.bytes .clean) s = .next (onward s (acks p (updRport p (fun q => { q with dup := satInc q.dup }) s.dev)))) ∧
    (2048 ≤ back → c.seq ≠ (rport s.dev p).rxSeq → exec (.link p c.bytes .clean) s = .next (onward s (naks p s.dev)))) ∧
  (∀ (p : Fin 2) (c : Cell) (s : State), InOrder s.dev p c → c.typ = tNAK →
    let t := accepted p c s.dev
    let seq : BitVec 12 := BitVec.ofNat 12 (leAt c.payload 0 2)
    (16 ≤ (rport t p).tries → exec (.nak p c.bytes .clean) s = exec (.linkDown p) { s with dev := t }) ∧
    ((rport t p).tries < 16 →
      ((∀ x ∈ (rport t p).replay, x.seq ≠ seq) → exec (.nak p c.bytes .clean) s = .next (onward s (settles p t))) ∧
      (∀ (l0 l : List Cell) (x : Cell), (rport t p).replay = l0 ++ x :: l → x.seq = seq → (∀ y ∈ l0, y.seq ≠ seq) →
        exec (.nak p c.bytes .clean) s = .next (onward s (settles p (resends p l0 (x :: l) t)))))) ∧
  (∀ (p : Fin 2) (s : State),
    let q := rport s.dev p
    (s.dev.sys.fclkOn = true → q.replay = [] → exec (.hopRetryTimeout p) s = .next (onward s s.dev)) ∧
    (s.dev.sys.fclkOn = true → q.replay ≠ [] → q.tries < 16 → exec (.hopRetryTimeout p) s = .next (onward s (resends p [] q.replay s.dev))) ∧
    (q.replay ≠ [] → 16 ≤ q.tries → exec (.hopRetryTimeout p) s = exec (.linkDown p) s)) ∧
  (∀ (p : Fin 2) (c : Cell) (s : State), InOrder s.dev p c → mine s.dev c = false →
    let o := 1 - p
    let t := accepted p c s.dev
    let q := rport t o
    let x : Cell := { c with ttl := c.ttl - 1 }
    (c.ttl = 0 → exec (.cellForward p c.bytes .clean) s = .next (onward s (settles p (updRport p (fun q => { q with ttl := satInc q.ttl }) t)))) ∧
    (c.ttl ≠ 0 → q.wrap = false → q.transit = [] → q.own = [] → exec (.cellForward p c.bytes .clean) s = .next (onward s (settles p (
      if q.link = true ∧ replayRoom q c.payload.length = true then emits o x t else updRport o (fun q => { q with transit := [x] }) t)))) ∧
    (c.ttl ≠ 0 → (rport s.dev o).link = true → exec (.cellForward p c.bytes .bad) s = .next (onward s
      (naks p { updRport o (fun q => { q with stompTx := satInc q.stompTx }) s.dev with out := s.dev.out ++ [.cell o c.bytes true] }))))

/-- Block lock, link up, link down, the opening of the bypass and LEAVE change the ports as their rules say, with the sources
they raise. (R468; R484; R508; R510; R511) -/
def Obligations.LinksComeUpGoDownAndLeave : Prop :=
  (∀ (p : Fin 2) (s : State),
    s.dev.sys.fclkOn = true → (s.dev.hr.powered = true → exec (.blockLock p) s = .next (onward s (updRport p (fun q => { q with blockLock := true }) s.dev))) ∧
    (s.dev.hr.powered = false → exec (.blockLock p) s = .next (onward s s.dev))) ∧
  (∀ s : State,
    let d := s.dev
    let may := d.hr.powered = true ∧ d.hr.leave = false ∧ d.sys.ringLock = true ∧ d.sys.role ≠ 3 ∧ (rport d 0).blockLock = true ∧
      (rport d 1).blockLock = true
    s.dev.sys.fclkOn = true → (may → exec .bypassOpen s = .next (onward s ({ d with hr := { d.hr with bypassOpen := true } }))) ∧
    (¬ may → exec .bypassOpen s = .next (onward s s.dev))) ∧
  (∀ (p : Fin 2) (s : State),
    let d := s.dev
    let q := rport d p
    let may := q.blockLock = true ∧ q.link = false ∧ d.hr.powered = true ∧ d.hr.bypassOpen = true
    s.dev.sys.fclkOn = true → (¬ may → exec (.linkUp p) s = .next (onward s s.dev)) ∧
    (may → ∃ t : Dev, exec (.linkUp p) s = .next (onward s t) ∧ t = { d with hr := t.hr, ev := t.ev, out := t.out } ∧
      (rport t p).link = true ∧ (rport t p).wrap = false ∧ (rport t p).rxSeq = 0 ∧ (rport t p).blockLock = true ∧
      (rport t (1 - p)).link = (rport d (1 - p)).link ∧ (d.clk, 0x5A0 + p.val) ∈ t.ev.pulses ∧
      (q.wrap = true → (d.clk, 0x5A2) ∈ t.ev.pulses) ∧ (q.retrains ≠ 0 → (d.clk, 0x5A3) ∈ t.ev.pulses))) ∧
  (∀ (p : Fin 2) (s : State),
    let d := s.dev
    let q := rport d p
    let r := rport d (1 - p)
    s.dev.sys.fclkOn = true → (q.link = false → exec (.linkDown p) s = .next (onward s (updRport p (fun q => { q with blockLock := false }) d))) ∧
    (q.link = true → ∃ t : Dev, exec (.linkDown p) s = .next (onward s t) ∧ t = { d with hr := t.hr, ev := t.ev, out := t.out } ∧
      (rport t p).link = false ∧ (rport t p).blockLock = false ∧ (rport t p).wrap = true ∧ (rport t p).retrains = satInc q.retrains ∧
      (rport t p).replay = [] ∧ (rport t p).transit = [] ∧ (r.link = true → (rport t p).own = []) ∧ (rport t (1 - p)).link = r.link ∧ (rport t (1 - p)).wrap = r.wrap ∧
      (d.clk, 0x5A0 + p.val) ∈ t.ev.pulses ∧ (d.clk, 0x5A2) ∈ t.ev.pulses ∧
      (r.link = false → (rport t (1 - p)).transit =
        r.transit ++ ((q.replay.filter fun c => !isLink c.typ) ++ q.transit).map fun c => { c with wrap := true }))) ∧
  (∀ (who : Who) (v : Word) (s : State) (d : Dev), reached who 0xC000 s.dev = some d → bit v 0 = false →
    (bit v 8 = false → exec (.leave who v) s = .next { s with dev := { d with hr := { d.hr with leave := false } } }) ∧
    (bit v 8 = true → ∃ t : Dev, exec (.leave who v) s = .next { s with dev := t } ∧ t = { d with hr := t.hr, ev := t.ev } ∧
      t.hr = { d.hr with leave := true, bypassOpen := false, ports := t.hr.ports, relays := t.hr.relays } ∧ ∀ p : Fin 2,
        let q := d.hr.ports[p]
        (q.link = false → t.hr.ports[p] = q) ∧
        (q.link = true → (d.clk, 0x5A0 + p.val) ∈ t.ev.pulses ∧ (d.clk, 0x5A2) ∈ t.ev.pulses ∧
          t.hr.ports[p] = { q with link := false, blockLock := false, wrap := true, retrains := satInc q.retrains, replay := [] })))

/-- REENUM and a reported change start a discovery, nodes answer DISCOVER, the first discovery numbers in ring order, TOPO and
ASSIGN install. (R471; R472; R473; R474; R514) -/
def Obligations.DiscoveryNumbersTheRing : Prop :=
  (∀ (who : Who) (v : Word) (s : State) (d : Dev), reached who 0xC000 s.dev = some d → bit v 0 = true → bit v 8 = false →
    let d1 := updHr (fun h => { h with leave := false }) d
    (d.hr.master = true → d.committed = false → d.hr.foreign = false → Idle (rport d 0) → exec (.reenum who v) s = .next { s with
      dev := asks (updHr (fun h => { h with absent := [], numbered := false, topo := h.topo.take 1 }) d1) }) ∧
    (d.hr.master = false ∨ d.committed = true → exec (.reenum who v) s = .next { s with dev := d1 })) ∧
  (∀ (p : Fin 2) (c : Cell) (s : State), InOrder s.dev p c → c.typ = tDISCOVER →
    let o := 1 - p
    let d := accepted p c s.dev
    let hops := leAt c.payload 0 2
    (c.ring = true → c.ttl ≠ 0 → Idle (rport d o) → exec (.discover p c.bytes .clean) s = .next (onward s (settles p (emits o { c with ttl := c.ttl - 1 } d)))) ∧
    (c.ring = false → ¬ (d.hr.master = true ∧ c.src = d.sys.nodeId) → c.ttl ≠ 0 → Idle (rport d o) → Idle (rport d p) →
      let t := emits o { c with ttl := c.ttl - 1, payload := leBytes 2 (hops + 1) } (updHr (fun h => { h with pos := hops + 1 }) d)
      let hello := ownCell d c.src tHELLO (helloOf Config.dieId d.sys.role (if d.sys.nodeValid then some d.sys.nodeId else none) (hops + 1))
      let u := emits (wayTo d c.src) hello t
      exec (.discover p c.bytes .clean) s = .next (onward s (settles p u))) ∧
    (c.ring = false → d.hr.master = true → c.src = d.sys.nodeId → d.hr.disc = false ∨ d.hr.discAns.length < hops →
      exec (.discover p c.bytes .clean) s = .next (onward s (settles p (updHr (fun h => { h with discHops := some hops }) d)))) ∧
    (c.ring = false → d.hr.master = true → d.sys.role = 0 → d.sys.nodeId = 0 → c.src = 0 → d.hr.disc = true → d.hr.numbered = false →
      hops ≤ 30 → hops ≤ d.hr.discAns.length → (∀ x ∈ d.hr.discAns, x.1 ≠ 0) →
      (∀ k, 1 ≤ k → k ≤ hops → ∃ x, d.hr.discAns.find? (·.1 == k) = some (k, x) ∧ x.role = 1 ∧ x.num = none) →
      ∃ t : Dev, exec (.discover p c.bytes .clean) s = .next (onward s t) ∧
        t.hr.topo = (List.range (hops + 1)).map (fun k => some (BitVec.ofNat 5 k)) ∧ t.hr.disc = false ∧ t.hr.numbered = true ∧
        t.hr.refused = d.hr.refused ∧ ∀ n, n < 32 → bit t.hr.present n = decide (n ≤ hops))) ∧
  (∀ (p : Fin 2) (c : Cell) (s : State), InOrder s.dev p c → c.typ = tHELLO → mine s.dev c = true →
    let d := accepted p c s.dev
    (d.hr.master = false → exec (.hello p c.bytes .clean) s = .next (onward s (settles p d))) ∧
    (∀ (die : DWord) (role : BitVec 2) (num : Option (BitVec 5)) (pos : Half), c.payload = helloOf die role num pos.toNat →
      d.hr.master = true → d.hr.disc = true → d.hr.discHops = none → exec (.hello p c.bytes .clean) s = .next (onward s (settles p (updHr (fun h => { h with
          discAns := (pos.toNat, { die := die, role := role, num := num }) :: h.discAns.filter (·.1 != pos.toNat) }) d)))) ∧
    (d.hr.master = true → d.hr.disc = false → d.hr.foreign = false → Idle (rport d 0) →
      exec (.hello p c.bytes .clean) s = .next (onward s (settles p (asks d))))) ∧
  (∀ (p : Fin 2) (c : Cell) (s : State), InOrder s.dev p c → c.typ = tTOPO →
    let o := 1 - p
    let d := accepted p c s.dev
    (c.src = d.sys.nodeId → d.hr.master = true → c.ring = false → exec (.topo p c.bytes .clean) s = .next (onward s (settles p d))) ∧
    (∀ h : Hr, c.payload = topoPayload h → h.topo.length ≤ 32 → h.absent.length ≤ 31 → d.hr.master = false → c.ttl ≠ 0 →
      Idle (rport d o) → ∃ t : Dev,
        exec (.topo p c.bytes .clean) s = .next (onward s (settles p (emits o { c with ttl := c.ttl - 1 } t))) ∧
        t = { d with hr := t.hr, ev := t.ev } ∧
        t.hr = { d.hr with topo := h.topo, absent := h.absent, present := t.hr.present, relays := t.hr.relays } ∧
        ∀ n, n < 32 → bit t.hr.present n = h.topo.contains (some (BitVec.ofNat 5 n)) ∧
          (bit t.hr.present n ≠ bit d.hr.present n → (d.clk, 0x580 + n) ∈ t.ev.pulses))) ∧
  (∀ (p : Fin 2) (c : Cell) (s : State), InOrder s.dev p c → c.typ = tASSIGN → mine s.dev c = true →
    let d := accepted p c s.dev
    (d.sys.role = 1 → exec (.assign p c.bytes .clean) s = .next (onward s (settles p { d with sys := { d.sys with nodeId := BitVec.ofNat 5 (leAt c.payload 1 1), nodeValid := true } }))) ∧
    (d.sys.role ≠ 1 → exec (.assign p c.bytes .clean) s = .next (onward s (settles p d))))

/-- A manager becomes master unless it saw one, masters send and judge BEACONs, a standby takes over, and SYNC and SYNCR align
the node's time. (R504; R505; R506; R510; R515; R516; R518; R519; R520) -/
def Obligations.MastershipAndTimeOnTheRing : Prop :=
  (∀ s : State,
    let d := passTo (s.dev.hr.pEnd + 1500000) s.dev
    let may := s.dev.sys.role = 0 ∧ s.dev.sys.inP = false ∧ s.dev.hr.master = false ∧ s.dev.hr.foreign = false
    let m := installTopo [some 0] (updHr (fun h => { h with master := true }) d)
    s.dev.sys.fclkOn = true → (¬ may → exec .becomeMaster s = .next (onward s s.dev)) ∧
    (may → d.hr.rediscover = false → d.hr.foreign = false → Idle (rport d 0) → Idle (rport d 1) →
      exec .becomeMaster s = .next (onward s (asks (beacons d.committed m))) ∧ m.hr.topo = [some 0] ∧ m.hr.present = 1)) ∧
  (∀ s : State,
    let d := passTo (s.dev.hr.lastBeacon + 150000) s.dev
    let may := s.dev.hr.master = true ∧ (s.dev.committed = false ∨ (s.dev.tb.tick = 0 ∧ s.dev.tb.cmps[0].target = s.dev.trl.first))
    s.dev.sys.fclkOn = true → (¬ may → exec .beaconTimer s = .next (onward s s.dev)) ∧
    (may → d.hr.foreign = false → d.hr.master = true → Idle (rport d 0) → Idle (rport d 1) →
      (d.hr.rediscover = false → exec .beaconTimer s = .next (onward s (beacons false d))) ∧
      (d.hr.rediscover = true → exec .beaconTimer s = .next (onward s (asks (updHr (fun h => { h with rediscover := false }) (beacons false d))))))) ∧
  (∀ s : State,
    let d := s.dev
    let may := d.sys.role = 2 ∧ d.committed = true ∧ d.hr.master = false ∧ d.hr.stbyMismatch = false ∧ d.hr.standbyOn = true ∧
      4 ≤ d.hr.beaconMissed
    s.dev.sys.fclkOn = true → (¬ may → exec .standbyTakeover s = .next (onward s s.dev)) ∧
    (may → d.hr.foreign = false → ∃ t : Dev, exec .standbyTakeover s = .next (onward s t) ∧
      t = { d with tb := { d.tb with ppsRef := none }, hr := t.hr, ev := t.ev, out := t.out } ∧ t.hr.master = true ∧
      t.hr.topo = [some 31] ∧ t.hr.beaconMissed = 0 ∧ t.hr.disc = true ∧ t.hr.lastBeacon = d.clk ∧ (d.clk, 0x5A6) ∈ t.ev.pulses ∧
      (d.cfg.hedgerow = true → t.hr.tableNext = some d.cfg.nodes))) ∧
  (∀ (p : Fin 2) (c : Cell) (b : Beacon) (s : State), c.typ = tBEACON → c.payload = beaconCell b →
    let o := 1 - p
    let d := accepted p c s.dev
    let e := emits o { c with ttl := c.ttl - 1 } d
    let heard (d : Dev) : Dev := updHr (fun h => { h with
      beacon := some b, beaconSeen := true, beaconAt := d.tb.now, foreign := h.foreign || (d.sys.role == 0 && b.node == 0) }) d
    let gives (t : Dev) : Prop := exec (.beacon p c.bytes .clean) s = .next (onward s (settles p t))
    (s.dev.sys.fclkOn = true → (rport s.dev p).link = false → (rport s.dev p).blockLock = true → s.dev.hr.master = false → s.dev.sys.role ≠ 1 →
      exec (.beacon p c.bytes .clean) s = .next (onward s (heard s.dev))) ∧
    (InOrder s.dev p c → c.src = d.sys.nodeId → b.die = Config.dieId → gives d) ∧
    (InOrder s.dev p c → ¬ (c.src = d.sys.nodeId ∧ b.die = Config.dieId) → c.ttl ≠ 0 → Idle (rport d o) →
      (d.hr.master = false → (d.sys.role = 1 → d.hr.sent = [] ∨ masterNode d = b.node) → gives (heard e)) ∧
      (d.hr.master = true → b.node = d.sys.nodeId → b.die.toNat < Config.dieId.toNat → ∃ t : Dev, gives t ∧
        t = { e with hr := t.hr, ev := t.ev } ∧ t.hr.master = false ∧ t.hr.foreign = true ∧ t.hr.topo = [] ∧ t.hr.present = 0 ∧
        t.hr.disc = false ∧ t.hr.beacon = some b) ∧
      (d.hr.master = true → (b.node = d.sys.nodeId ∧ Config.dieId.toNat ≤ b.die.toNat) ∨ d.sys.nodeId.toNat < b.node.toNat →
        gives (updHr (fun h => { h with rediscover := true }) e)) ∧
      (d.hr.master = true → b.node.toNat < d.sys.nodeId.toNat →
        (d.committed = true → gives (updHr (fun h => { h with yieldAt := true, beacon := some b, beaconSeen := true }) e)) ∧
        (d.committed = false → gives (updHr (fun h => { h with
          master := false, yieldAt := false, disc := false, beacon := some b, beaconSeen := true }) e))))) ∧
  (∀ (t1 : DWord) (s : State),
    let d := passTo (s.dev.hr.lastSync + 16384) s.dev
    let u := upstream d
    let may := s.dev.hr.master = false ∧ s.dev.hr.powered = true ∧ s.dev.hr.foreign = false
    let sent (d : Dev) : Dev := if (rport d u).link = true then emits u (linkCell d tSYNC (leBytes 8 t1.toNat)) d else d
    s.dev.sys.fclkOn = true → (¬ may → exec (.syncExchange t1) s = .next (onward s s.dev)) ∧
    (may → d.hr.syncT1 = none → exec (.syncExchange t1) s = .next (onward s (sent (updHr (fun h => { h with syncT1 := some t1, lastSync := d.clk, upPort := u == 0 }) d)))) ∧
    (may → d.hr.syncT1 ≠ none → d.hr.syncFail ≠ 63 → exec (.syncExchange t1) s = .next (onward s (sent (updHr (fun h => { h with
        syncT1 := some t1, lastSync := d.clk, upPort := u == 0, syncFail := h.syncFail + 1, syncGood := 0 }) d)))) ∧
    (may → d.hr.syncT1 ≠ none → d.hr.syncFail = 63 → ∃ t : Dev, exec (.syncExchange t1) s = .next (onward s t) ∧
      t = { d with hr := t.hr, ev := t.ev, out := t.out } ∧ t.hr.syncLock = false ∧ t.hr.syncFail = 64 ∧
      t.hr.syncGood = 0 ∧ (d.hr.syncLock = false → t.hr.syncLost = d.hr.syncLost ∧ t.hr.lostCnt = d.hr.lostCnt) ∧
      (d.hr.syncLock = true → t.hr.syncLost = true ∧ t.hr.lostCnt = satInc d.hr.lostCnt ∧ (d.clk, 0x5A4) ∈ t.ev.pulses))) ∧
  (∀ (p : Fin 2) (c : Cell) (t2 t3 : DWord) (s : State), InOrder s.dev p c → c.typ = tSYNC →
    let d := accepted p c s.dev
    exec (.sync p c.bytes .clean t2 t3) s = .next (onward s (emits p (linkCell d tSYNCR (c.payload.take 8 ++ leBytes 8 t2.toNat ++ leBytes 8 t3.toNat ++
        [if d.hr.master || d.hr.syncLock then 1 else 0])) d))) ∧
  (∀ (p : Fin 2) (c : Cell) (t1 t2 t3 t4 : DWord) (up : Bool) (s : State), InOrder s.dev p c → c.typ = tSYNCR →
    c.payload = leBytes 8 t1.toNat ++ leBytes 8 t2.toNat ++ leBytes 8 t3.toNat ++ [if up then 1 else 0] →
    let d := accepted p c s.dev
    let theta := ((t4 - t3).toInt - (t2 - t1).toInt) / 2
    (d.hr.master = true ∨ d.hr.syncT1 ≠ some t1 → exec (.syncr p c.bytes .clean t4) s = .next (onward s (settles p d))) ∧
    (d.hr.master = false → d.hr.syncT1 = some t1 → ∃ t : Dev, exec (.syncr p c.bytes .clean t4) s = .next (onward s (settles p t)) ∧
      t = { d with tb := t.tb, hr := t.hr, ev := t.ev, freeCtr := t.freeCtr } ∧ t.hr.syncT1 = none ∧ t.hr.syncFail = 0 ∧
      t.hr.theta = BitVec.ofInt 32 theta ∧ t.hr.delta = BitVec.ofInt 32 (((t2 - t1).toInt + (t4 - t3).toInt) / 2) ∧
      t.hr.syncGood = (if up = true ∧ -19 ≤ theta ∧ theta ≤ 19 then d.hr.syncGood + 1 else 0) ∧
      t.hr.syncLock = (up && (d.hr.syncLock || decide (8 ≤ t.hr.syncGood))) ∧
      (up = false → t.tb = d.tb ∧ t.hr.timeSet = d.hr.timeSet ∧ (d.hr.syncLock = true →
        t.hr.syncLost = true ∧ t.hr.lostCnt = satInc d.hr.lostCnt ∧ (d.clk, 0x5A4) ∈ t.ev.pulses)) ∧
      (t.hr.syncLock = true → d.hr.syncLock = false → t.hr.syncLost = false ∧ (d.hr.syncLost = true → (d.clk, 0x5A5) ∈ t.ev.pulses)) ∧
      (up = true → d.committed = false → d.hr.timeSet = false →
        t.tb = { d.tb with now := d.tb.now - BitVec.ofInt 64 (theta / 64), stepped := true } ∧ t.hr.timeSet = true) ∧
      (up = true → d.committed = false → d.hr.timeSet = true → t.tb = { d.tb with inc := 0x100000000 }) ∧
      (up = true → d.committed = true → t.tb = { d.tb with inc := t.tb.inc } ∧ ∃ rate : Int, 0xFFF00000 ≤ rate ∧ rate ≤ 0x100100000 ∧
        t.tb.inc = BitVec.ofInt 64 (max 0xFFF00000 (min 0x100100000 (rate - theta * 2 ^ 32 / (64 * 32768)))))))

/-- A target runs each ring command once by its ID and answers; a channel sends, retries, times out and takes its response;
ingress is bounded. (R487; R488; R490; R491; R492; R493; R499; R502; R524) -/
def Obligations.RingCommandsRunOnceAndAnswer : Prop :=
  (∀ (p : Fin 2) (c : Cell) (s : State), InOrder s.dev p c → mine s.dev c = true →
    let e := accepted p c s.dev
    let id : Half := BitVec.ofNat 16 (leAt c.payload 0 2)
    let n := leAt c.payload 2 1
    let o := leAt c.payload 4 4
    let v : Word := BitVec.ofNat 32 (leAt c.payload 8 4)
    let x : CmdSeen := at? e.hr.seen c.src.toNat {}
    let resp (st : Nat) (data : List Byte) : List Byte := leBytes 2 id.toNat ++ [BitVec.ofNat 8 st, 0] ++ data
    let ends (I : Instr) (r : List Byte) (t : Dev) : Prop :=
      CanSend t c.src → exec I s = .next (onward s (settles p (sends c.src tRESP r t)))
    let kept (h : Half) (r : List Byte) (t : Dev) : Dev := updHr (fun k => { k with seen := upd? k.seen c.src.toNat fun y => {
      any := true, high := h, done := id :: y.done.filter fun j => decide ((h.toNat + 65535 - j.toNat) % 65535 ≤ 4095)
      kept := (y.kept ++ [(id, r)]).drop (y.kept.length - 7) } }) t
    let ahead := (id.toNat + 65535 - x.high.toNat) % 65535
    let behind := (x.high.toNat + 65535 - id.toNat) % 65535
    let runs (I : Instr) (st : Nat) (data : List Byte) (t : Dev) : Prop :=
      (id = 0 → ends I (resp st data) t) ∧
      (id ≠ 0 → x.any = false ∨ (1 ≤ ahead ∧ ahead ≤ 32767) → ends I (resp st data) (kept id (resp st data) t)) ∧
      (id ≠ 0 → x.any = true → ¬ (1 ≤ ahead ∧ ahead ≤ 32767) → behind ≤ 4095 → id ∉ x.done →
        ends I (resp st data) (kept x.high (resp st data) t))
    (∀ I : Instr, (c.typ, I) ∈ [(tRD, Instr.rd p c.bytes .clean), (tRDNS, .rdns p c.bytes .clean), (tWR, .wr p c.bytes .clean),
        (tSCHED, .sched p c.bytes .clean)] → id ≠ 0 → x.any = true → ¬ (1 ≤ ahead ∧ ahead ≤ 32767) →
      (4095 < behind → ends I (resp 5 []) e) ∧
      (behind ≤ 4095 → id ∈ x.done →
        (∀ r, x.kept.find? (·.1 == id) = some (id, r) → ends I r e) ∧ ((∀ y ∈ x.kept, y.1 ≠ id) → ends I (resp 4 []) e))) ∧
    (∀ (I : Instr) (clr : Bool), (c.typ, I, clr) ∈ [(tRD, Instr.rd p c.bytes .clean, true), (tRDNS, .rdns p c.bytes .clean, false)] →
      (o % 4 ≠ 0 ∨ (n ≠ 1 ∧ ¬ (n = 2 ∧ o % 8 = 0 ∧ designated o = true)) → runs I 6 [] e) ∧
      (o % 4 = 0 → n = 1 → regVal (.ring c.src) o e = none → runs I 1 [0, 0, 0, 0] e) ∧
      (∀ (d1 : Dev) (w : Word), o % 4 = 0 → n = 1 → o ≠ 0x2000 → reached (.ring c.src) o e = some d1 → regVal (.ring c.src) o d1 = some w →
        runs I 1 (leBytes 4 w.toNat) (if clr && clears (.ring c.src) o d1 then regClear o d1 else d1)) ∧
      (o = 0x2000 → n = 2 → reached (.ring c.src) 0x2000 e = some e →
        runs I 1 (leBytes 8 e.tb.now.toNat) (updTb (fun t => { t with ringLatch := hi32 t.now }) e))) ∧
    (c.typ = tWR →
      (o % 4 ≠ 0 ∨ n ≠ 1 → runs (.wr p c.bytes .clean) 6 [] e) ∧
      (o % 4 = 0 → n = 1 →
        let commit := o = 0x1000 ∧ bit v 10 = true
        let e1 := takeTfirst c e
        let t := ringWrite' c o v e1
        runs (.wr p c.bytes .clean) 1 (if commit then leBytes 4 t.tb.tick.toNat else []) t ∧
        (¬ commit → e1 = e) ∧
        (commit → e.sys.role = 1 → 20 ≤ c.payload.length → e1 = { e with trl := { e.trl with first := BitVec.ofNat 64 (leAt c.payload 12 8) } }) ∧
        (o < 0x100000 → ∀ u : State, u.dev = e1 →
          exec (.registerWrite (.ring c.src) .bar0 (BitVec.ofNat 24 o) [(v, 0xF)] false) u = .next { u with dev := t }) ∧
        (0x1000000 ≤ o → o < 0x1010000 → e.sys.inP = false → e.sys.role = 1 → t = fifoWrite [(v, 0xF)] false e))) ∧
    (c.typ = tSCHED → ∃ T : Vector NodeEntry 32, runs (.sched p c.bytes .clean) 1 [] (updHr (fun h => { h with tableNext := some T }) e) ∧
      ∀ j : Fin 32,
        let old : NodeEntry := (e.hr.tableNext.getD (e.hr.table.getD (Vector.replicate 32 {})))[j]
        let a := 4 + 12 * (j.val - n)
        T[j] = if n ≤ j.val ∧ j.val < n + 16 then { old with
          slotOffset := BitVec.ofNat 32 (leAt c.payload a 4), bytesA := BitVec.ofNat 32 (leAt c.payload (a + 4) 4)
          bytesB := BitVec.ofNat 32 (leAt c.payload (a + 8) 4) } else old) ∧
    (c.typ = tRESP → commitResp c e = none →
      let waits (ch : Fin 5) : Prop := e.hr.chans[ch].busy = true ∧ e.hr.chans[ch].id = id ∧ e.hr.chans[ch].sentTo = c.src
      ((∀ ch, ¬ waits ch) → exec (.resp p c.bytes .clean) s = .next (onward s (settles p e))) ∧
      (∀ ch : Fin 5, waits ch → (∀ k : Fin 5, k < ch → ¬ waits k) → exec (.resp p c.bytes .clean) s = .next (onward s (settles p (updHr (fun h => { h with chans := put h.chans ch { h.chans[ch] with
          busy := false, result := BitVec.ofNat 3 n
          rd := if h.chans[ch].typ = tWR ∨ n ≠ 1 then h.chans[ch].rd else BitVec.ofNat 64 (leAt c.payload 4 8) } }) e)))))) ∧
  (∀ (who : Who) (ch : Fin 5) (v : Word) (s : State) (d : Dev), reached who (0xC200 + 0x20 * ch.val) s.dev = some d →
    chanReach who d ch.val = true → bit v 31 = true →
    let x := d.hr.chans[ch]
    let y : Chan := { x with
      kind := if fld v 24 2 = 3 then x.kind else bf v 24 2, count := if fld v 16 2 = 0 ∨ fld v 16 2 = 3 then x.count else bf v 16 2
      dst := bf v 0 5 }
    let d1 := updHr (fun h => { h with chans := put h.chans ch y }) d
    (x.busy = true → exec (.cmdGo who ch v) s = .next { s with dev := d1 }) ∧
    (x.busy = false → bit d.hr.present y.dst.toNat = false → exec (.cmdGo who ch v) s = .next { s with
      dev := updHr (fun h => { h with absentCnt := satInc h.absentCnt, chans := put h.chans ch { y with result := 2 } }) d1 }) ∧
    (x.busy = false → bit d.hr.present y.dst.toNat = true → CanSend d y.dst →
      let id : Half := if y.kind = 1 then 0 else if d.hr.lastId = 0xFFFF then 1 else d.hr.lastId + 1
      let t : Byte := if y.kind = 0 then tRD else if y.kind = 1 then tRDNS else tWR
      let pl := leBytes 2 id.toNat ++ leBytes 1 y.count.toNat ++ [0] ++ leBytes 4 y.off.toNat ++
        if y.kind = 2 then leBytes 4 y.data.toNat else []
      exec (.cmdGo who ch v) s = .next { s with
        dev := sends y.dst t pl (updHr (fun h => { h with
          lastId := if y.kind = 1 then h.lastId else id
          chans := put h.chans ch { y with busy := true, id := id, result := 0, tries := 0, typ := t, sentTo := y.dst, payload := pl } }) d1) })) ∧
  (∀ (ch : Fin 5) (s : State),
    let d := s.dev
    let x := d.hr.chans[ch]
    let set (y : Chan) : Dev := updHr (fun h => { h with chans := put h.chans ch y }) d
    s.dev.sys.fclkOn = true → (x.busy = false → exec (.cmdTimeout ch) s = .next (onward s s.dev)) ∧
    (x.busy = true → 3 ≤ x.tries → exec (.cmdTimeout ch) s = .next (onward s (set { x with busy := false, result := 3 }))) ∧
    (x.busy = true → x.tries < 3 → isSched x.typ = true → CanSend d x.sentTo → exec (.cmdTimeout ch) s = .next (onward s (sends x.sentTo x.typ x.payload (set { x with tries := x.tries + 1 }))))) ∧
  (∀ (p : Fin 2) (c : Cell) (s : State), Expected s.dev p c → isSched c.typ = true → mine s.dev c = false →
    let d := taken p c s.dev
    (bit s.dev.hr.ingFrz c.src.toNat = true ∨ bit s.dev.hr.ingWait c.src.toNat = true →
      exec (.cellForward p c.bytes .clean) s = .next (onward s (settles p d))) ∧
    (∀ n, bit s.dev.hr.ingFrz c.src.toNat = false → bit s.dev.hr.ingWait c.src.toNat = false → s.dev.committed = true →
      allowance s.dev c = some n → n < wireTaken s.dev c → exec (.cellForward p c.bytes .clean) s = .next (onward s (settles p (freezeRecord (0x40 + c.src.toNat) 0x44 false false (if c.ring then 1 else 0) c.tick.toNat
          (updHr (fun h => { h with ingFrz := setBit h.ingFrz c.src.toNat true }) (accepted p c s.dev)))))))

/-- A window starts what fits, a record from a worker is placed, answered or refused in order, RECACK takes, RECNAK and time
resend, EVREL raises. (R291; R292; R313; R494; R495; R496; R497; R498; R500) -/
def Obligations.RecordsAndRelaysOverTheRing : Prop :=
  (∀ (r : Bool) (ce : List (BitVec 23)) (ue : Option (Byte × Word)) (s : State), s.dev.sys.fclkOn = true →
    s.dev.committed = false ∨ tableEntry s.dev s.dev.sys.nodeId = none → exec (.slotOpen ⟨r, ce, ue⟩) s = .next (onward s s.dev)) ∧
  (∀ (r : Bool) (ce : List (BitVec 23)) (ue : Option (Byte × Word)) (s : State) (e : NodeEntry), s.dev.sys.fclkOn = true →
    s.dev.committed = true → tableEntry s.dev s.dev.sys.nodeId = some e →
    let p : Fin 2 := if r then 1 else 0
    let d := passTo (s.dev.hr.tickClk + e.slotOffset.toNat) s.dev
    let d1 := updHr (fun h => if r then { h with slotB := true } else { h with slotA := true }) d
    let used := if r then d.hr.txB else d.hr.txA
    let most := if r then e.bytesB.toNat else e.bytesA.toNat
    let paid (n : Nat) (d : Dev) : Dev := updHr (fun h => if r then { h with sched := [], txB := h.txB + n } else { h with sched := [], txA := h.txA + n }) d
    let wire (n : Nat) : Nat := 8 * ((n + 27) / 8) + 8
    let still := ∀ i : Fin 64, d.hr.relays[i].en = false ∨ d.hr.relays[i].prev = 0
    let quiet := d.sys.role ≠ 1 ∨ (still ∧ (d.cfg.bins = [] ∨ d.dr.frozen = true))
    let ready := d.hr.foreign = false ∧ Idle (rport d p)
    (quiet → d.hr.sched = [] → exec (.slotOpen ⟨r, ce, ue⟩) s = .next (onward s d1)) ∧
    (∀ c : Cell, quiet → d.hr.sched = [c] → wayTo d c.dst = p → c.payload.length ≤ 256 → ready →
      (used + wire c.payload.length ≤ most → exec (.slotOpen ⟨r, ce, ue⟩) s = .next (onward s
        (emits p { c with tick := bf d.tb.tick 0 16 } (marked c (paid (wire c.payload.length) d1))))) ∧
      (most < used + wire c.payload.length → exec (.slotOpen ⟨r, ce, ue⟩) s = .next (onward s d1))) ∧
    (∀ i : Fin 64, d.sys.role = 1 → d.cfg.bins = [] → d.hr.sched = [] → ready → d.hr.relays[i].en = true →
      d.hr.relays[i].prev ≠ 0 → (∀ j : Fin 64, j ≠ i → d.hr.relays[j].en = false ∨ d.hr.relays[j].prev = 0) →
      wayTo d (masterNode d) = p → used + 40 ≤ most →
      let x := d.hr.relays[i]
      exec (.slotOpen ⟨r, ce, ue⟩) s = .next (onward s
        (emits p (ownCell d (masterNode d) tEVREL (leBytes 2 x.chan.toNat ++ leBytes 2 x.src.toNat ++ leBytes 2 x.prev.toNat ++ [0, 0] ++
            leBytes 4 x.prevTime.toNat))
          (updHr (fun h => { h with relays := put h.relays i { x with prev := 0 } }) (paid 40 d1))))) ∧
    (∀ (b : Fin 256) (k : BinEntry) (x : Rec), d.sys.role = 1 → still → d.cfg.bins = [(b.val, k)] → d.hr.sched = [] → ready →
      d.cl.bins[b].recs = [x] → x.busy = false → x.st = (if k.sealed then .sealed else .released) → d.dr.frozen = false →
      wayTo d (masterNode d) = p → (delivered k x d).length ≤ 248 →
      let n := wire (8 + (delivered k x d).length)
      let frag := leBytes 8 (b.val + 0x300 + x.seq.toNat * 2 ^ 32) ++ delivered k x d
      let mark (t : Dev) : Dev := { t with
        cl := { t.cl with bins := put t.cl.bins b { t.cl.bins[b] with recs := [{ x with busy := true }] } }
        hr := { t.hr with
          sent := (t.hr.sent.filter fun y => !(y.bin == b.val && y.seq == x.seq)) ++ [{ bin := b.val, seq := x.seq, tick := t.tb.tick }] } }
      (used + n ≤ most → exec (.slotOpen ⟨r, [], none⟩) s = .next (onward s (emits p (ownCell d (masterNode d) tREC frag) (mark (paid n d1))))) ∧
      (most < used + n → exec (.slotOpen ⟨r, [], none⟩) s = .next (onward s
        (updHr (fun h => { h with sched := [ownCell d (masterNode d) tREC frag] }) (mark d1)))) ∧
      (∃ t : Dev, exec (.slotOpen ⟨r, [], some (BitVec.ofNat 8 b.val, x.seq)⟩) s = .next (onward s t) ∧ t.dr.frozen = true ∧
        t.dr.frzBin = BitVec.ofNat 8 b.val ∧ t.dr.frzSeq = x.seq ∧ t.cl.ue = true ∧ t.cl.bins = d.cl.bins ∧ t.hr.sched = []))) ∧
  (∀ (p : Fin 2) (c : Cell) (s : State), InOrder s.dev p c → c.typ = tREC → mine s.dev c = true →
    let e := accepted p c s.dev
    let wb := leAt c.payload 0 1
    let seq : Word := BitVec.ofNat 32 (leAt c.payload 4 4)
    let body := c.payload.drop 8
    let isFirst := bit (c.payload.getD 1 0) 0
    let isLast := bit (c.payload.getD 1 0) 1
    let pair := e.cfg.bins.find? fun x => x.2.ownerKind == 2 && x.2.owner.toNat == c.src.toNat && x.2.remoteBin.toNat == wb
    let gives (t : Dev) : Prop := exec (.recCell p c.bytes .clean) s = .next (onward s (settles p t))
    let answer (t : Byte) (reason : List Byte) (d : Dev) : Dev := sends c.src t (leBytes 4 wb ++ leBytes 4 seq.toNat ++ reason) d
    let order := updHr (fun h => { h with recOrder := satInc h.recOrder }) e
    (e.hr.master = false → gives e) ∧
    (e.hr.master = true → pair = none → gives (updHr (fun h => { h with recNopair := satInc h.recNopair }) e)) ∧
    (∀ (b : Fin 256) (k : BinEntry), e.hr.master = true → pair = some (b.val, k) → CanSend e c.src →
      let x := e.cl.bins[b]
      let next := (e.hr.recNext.find? (·.1 == b.val)).map (·.2)
      let due := next = none ∨ next = some seq
      let len := leAt body 6 2
      let passed := ∃ w, next = some w ∧ w ≠ seq ∧ (w - 1 - seq).toNat < 2 ^ 31
      let other := ∃ q, x.fwd = some q ∧ q.1 ≠ seq
      (isFirst = true → x.fwd = none ∨ other → passed → gives (answer tRECACK [] e)) ∧
      (isFirst = true → other → ¬ passed → gives order) ∧ (isFirst = false → other → gives order) ∧
      (isFirst = false → x.fwd = none → gives e) ∧
      (∀ w, isFirst = true → x.fwd = none → next = some w → w ≠ seq → 2 ^ 31 ≤ (w - 1 - seq).toNat → gives order) ∧
      (isFirst = true → x.fwd = none → due → hasRoom k x len = false → gives (answer tRECNAK [1] e)) ∧
      (isFirst = true → isLast = true → x.fwd = none → due → hasRoom k x len = true → leAt c.payload 2 2 = 0 → 2 ≤ len →
        body.length = 8 * len → Memory.wf e.cl.mem → (∀ y ∈ x.openRecs, y.seq ≠ seq) → ∃ (t : Dev) (r : Rec),
        gives (answer tRECACK [] t) ∧
        t = { e with cl := t.cl, ev := t.ev, hr := { e.hr with recNext := t.hr.recNext, relays := t.hr.relays } } ∧
        t.cl.bins[b].recs = x.recs ++ [r] ∧ r.seq = seq ∧ r.len = len ∧ r.written = 8 * len ∧ r.st = .ended ∧ t.cl.bins[b].fwd = none ∧
        rdBytes t.cl.mem (k.base.toNat + r.off) (8 * len) = body ∧ t.hr.recNext.find? (·.1 == b.val) = some (b.val, seq + 1) ∧
        ∀ f : Fin 256, f ≠ b → t.cl.bins[f] = e.cl.bins[f]))) ∧
  (∀ (p : Fin 2) (c : Cell) (b : Fin 256) (s : State), InOrder s.dev p c → mine s.dev c = true → leAt c.payload 0 1 = b.val →
    let e := accepted p c s.dev
    let seq : Word := BitVec.ofNat 32 (leAt c.payload 4 4)
    let x := e.cl.bins[b]
    (c.typ = tRECACK → binCfg? e b.val = none ∨ x.recs = [] ∨ (∃ r rest, x.recs = r :: rest ∧ (r.seq ≠ seq ∨ r.busy = false)) →
      exec (.recack p c.bytes .clean) s = .next (onward s (settles p e))) ∧
    (∀ (k : BinEntry) (r : Rec) (rest : List Rec), c.typ = tRECACK → binCfg? e b.val = some k → x.recs = r :: rest → r.seq = seq → r.busy = true →
      exec (.recack p c.bytes .clean) s = .next (onward s (settles p { e with
          cl := { e.cl with bins := put e.cl.bins b { x with recs := rest, take := afterRec k r } }
          hr := { e.hr with sent := e.hr.sent.filter fun y => !(y.bin == b.val && y.seq == seq) } }))) ∧
    (c.typ = tRECNAK → (∀ y ∈ e.hr.sent, y.bin ≠ b.val) → exec (.recnak p c.bytes .clean) s = .next (onward s (settles p e)))) ∧
  (∀ (b : Fin 256) (s : State),
    let again (d : Dev) : Dev := { d with
      cl := { d.cl with bins := put d.cl.bins b { d.cl.bins[b] with recs := d.cl.bins[b].recs.map fun r => { r with busy := false } } }
      hr := { d.hr with
        sent := d.hr.sent.filter (·.bin != b.val)
        sched := d.hr.sched.filter fun y => !(y.typ == tREC && leAt y.payload 0 1 == b.val) } }
    let late (y : SentRec) : Prop := y.bin = b.val ∧ 3 ≤ (s.dev.tb.tick - y.tick).toNat ∧ fragmentWaits s.dev b.val y.seq = false
    (s.dev.sys.fclkOn = true →
      ((∃ y ∈ s.dev.hr.sent, late y) → exec (.recResend b) s = .next (onward s (again s.dev))) ∧
      ((∀ y ∈ s.dev.hr.sent, ¬ late y) → exec (.recResend b) s = .next (onward s s.dev))) ∧
    (∀ (p : Fin 2) (c : Cell), InOrder s.dev p c → mine s.dev c = true → c.typ = tRECNAK → leAt c.payload 0 1 = b.val →
      (∃ y ∈ (accepted p c s.dev).hr.sent, y.bin = b.val) →
      exec (.recnak p c.bytes .clean) s = .next (onward s (settles p (again (accepted p c s.dev)))))) ∧
  (∀ (p : Fin 2) (c : Cell) (s : State), InOrder s.dev p c → c.typ = tEVREL → mine s.dev c = true →
    let e := accepted p c s.dev
    let n := leAt c.payload 4 2
    (e.hr.master = false → exec (.evrel p c.bytes .clean) s = .next (onward s (settles p e))) ∧
    (∀ ch : Fin 64, e.hr.master = true → leAt c.payload 0 2 = ch.val → exec (.evrel p c.bytes .clean) s = .next (onward s (settles p (raise (0x5C0 + ch.val) (updHr (fun h => { h with
        relayCnt := put h.relayCnt ch (satInc h.relayCnt[ch] n), relayNode := put h.relayNode ch c.src }) e))))))

/-- Link power states change as asked, errors set their bits and send their messages, completions and timeouts end requests.
(R530; R531; R538; R545; R546; R547; R550; R551; R553; R554; R556) -/
def Obligations.LinkPowerErrorsAndCompletions : Prop :=
  (∀ (sp : BitVec 4) (w : BitVec 6) (s : State),
    let d := s.dev
    let may := (d.sys.role = 0 ∨ d.sys.role = 2) ∧ d.sys.inP = false ∧ d.sys.pcieLock = true ∧ d.cl.initDone = true ∧ d.pe.dlUp = false
    (¬ may → exec (.dlUp sp w) s = .next s) ∧
    (may → exec (.dlUp sp w) s = .next { s with dev := { d with pe := { d.pe with dlUp := true, link := .l0, speed := sp, width := w } } })) ∧
  (∀ s : State,
    let d := s.dev
    let quiet := d.pe.waiting = [] ∧ d.pe.intaDue = none ∧ intaCond d = d.pe.wire
    let l0s := bit d.pe.aspmCtl 0 = true ∧ d.pe.link = .l0 ∧ quiet
    let l1 := (bit d.pe.aspmCtl 1 = true ∨ d.pe.d3 = true) ∧ (d.pe.link = .l0 ∨ d.pe.link = .l0s) ∧ quiet ∧ d.pe.reqs = []
    let asked : Dev := { d with out := d.out ++ [.pmEnterL1] }
    (¬ l0s → exec .l0sEntry s = .next s) ∧
    (l0s → exec .l0sEntry s = .next { s with dev := { d with pe := { d.pe with link := .l0s } } }) ∧
    (∀ b, ¬ l1 → exec (.l1Entry b) s = .next s) ∧
    (l1 → exec (.l1Entry true) s = .next { s with dev := { asked with pe := { d.pe with link := .l1, l1Cnt := satInc d.pe.l1Cnt } } } ∧
      exec (.l1Entry false) s = .next { s with
        dev := if bit d.pe.aspmCtl 0 then { asked with pe := { d.pe with link := .l0s } } else asked }) ∧
    (d.pe.link = .l1 → exec .l1Exit s = .next { s with dev := { d with pe := { d.pe with link := .recovery } } }) ∧
    (d.pe.link ≠ .l1 → exec .l1Exit s = .next s)) ∧
  (∀ s : State, NoReads s.dev →
    let d := s.dev
    let due (b : Bool) : Prop := d.pe.intaDue = some b ∧ intaCond d = b ∧ d.pe.wire ≠ b
    let l0 : Pe := { d.pe with
      link := .l0, intaDue := none, reqs := d.pe.reqs ++ d.pe.waiting.map fun r => { r with sent := d.clk }, waiting := [] }
    let reads : List Out := d.pe.waiting.map fun r => .hostRead r.tag r.addr r.len
    (d.pe.dlUp = false ∨ d.pe.link = .ready23 → exec .linkReachesL0 s = .next s) ∧
    (d.pe.dlUp = true → d.pe.link ≠ .ready23 →
      (∀ b, due b → exec .linkReachesL0 s = .next { s with
        dev := { d with pe := { l0 with wire := b }, out := d.out ++ (if b then .assertInta else .deassertInta) :: reads } }) ∧
      ((∀ b, ¬ due b) → exec .linkReachesL0 s = .next { s with dev := { d with pe := l0, out := d.out ++ reads } }))) ∧
  (∀ s : State,
    let d := s.dev
    (d.pe.dlUp = false → exec .pmeTurnOff s = .next s) ∧
    (d.pe.dlUp = true → d.pe.d3 = false → exec .pmeTurnOff s = .next { s with dev := { d with out := d.out ++ [.pmeToAck] } }) ∧
    (d.pe.dlUp = true → d.pe.d3 = true → exec .pmeTurnOff s = .next { s with
      dev := { d with pe := { d.pe with link := .ready23 }, out := d.out ++ [.pmeToAck, .pmEnterL23] } })) ∧
  (∀ (v : Word) (be : BitVec 4) (s : State), NoReads s.dev → hostLive s.dev = true → s.dev.pe.flrBusy = false → bit be 0 = true →
    s.dev.pe.waiting = [] → s.dev.pe.intaDue = none →
    let d := s.dev
    (fld v 0 2 = 3 → d.pe.d3 = false → d.pe.link = .l0 → d.pe.reqs = [] → exec (.d3hotEntry v be) s = .next { s with
      dev := { d with
        pe := { d.pe with d3 := true, wire := false, link := .l1, l1Cnt := satInc d.pe.l1Cnt }
        out := d.out ++ (if d.pe.wire then [.deassertInta] else []) ++ [.pmEnterL1] } }) ∧
    (fld v 0 2 = 0 → d.pe.d3 = true →
      let d1 : Dev := { d with pe := { d.pe with d3 := false, link := .l0 } }
      exec (.d0Return v be) s = .next { s with
        dev := if intaCond d1 && !d.pe.wire then { d1 with pe := { d1.pe with wire := true }, out := d.out ++ [.assertInta] } else d1 })) ∧
  (∀ (hdr : List Word) (s : State),
    let d := s.dev
    let p := d.pe
    let locked (b : Nat) : Prop := bit p.ueStatus p.fep.toNat = true ∧ ¬ (p.fepClk = some d.clk ∧ b < p.fep.toNat)
    let log (b : Nat) (h : Bool) (q : Pe) : Pe := if locked b then q else
      { q with fep := BitVec.ofNat 5 b, fepClk := some d.clk, hdrLog := if h then Vector.ofFn fun i : Fin 4 => hdr.getD i.val 0 else p.hdrLog }
    let tells (b : Bool) (o : Out) : List Out := if b && p.dlUp then [o] else []
    (∀ (e : PcieErr) (b : Nat),
      (e, b) ∈ [(PcieErr.receiver, 0), (.badTlp, 6), (.badDllp, 7), (.replayRollover, 8), (.replayTimeout, 12)] →
      let q : Pe := { p with ceStatus := setBit p.ceStatus b true }
      exec (.pcieError e hdr) s = .next { s with dev := if bit p.ceMask b then { d with pe := q } else
        { d with pe := { q with detected := setBit p.detected 0 true }, out := d.out ++ tells (bit p.reportEn 0) .errCor } }) ∧
    (∀ (e : PcieErr) (b : Nat) (h : Bool),
      (e, b, h) ∈ [(PcieErr.dlProtocol, 4, false), (.poisoned, 12, true), (.flowControl, 13, false), (.overflow, 17, false), (.malformed, 18, true)] →
      let q : Pe := { p with ueStatus := setBit p.ueStatus b true, detPerr := p.detPerr || decide (b = 12) }
      let cls := if bit p.ueSev b then 2 else 1
      exec (.pcieError e hdr) s = .next { s with dev := if bit p.ueMask b then { d with pe := q } else
        { d with
          pe := log b h { q with detected := setBit p.detected cls true, sigSerr := p.sigSerr || p.serrEn }
          out := d.out ++ tells (bit p.reportEn cls || p.serrEn) (if bit p.ueSev b then .errFatal else .errNonfatal) } }) ∧
    (bit p.ueMask 16 = false → bit p.ueSev 16 = false →
      let q : Pe := { p with ueStatus := setBit p.ueStatus 16 true, ceStatus := setBit p.ceStatus 13 true }
      exec (.pcieError .unexpected hdr) s = .next { s with dev := if bit p.ceMask 13 then { d with pe := q } else
        { d with pe := log 16 true { q with detected := setBit p.detected 0 true }, out := d.out ++ tells (bit p.reportEn 0) .errCor } }) ∧
    (∀ (k : BitVec 4) (posted : Bool) (w : BitVec 2) (o : BitVec 24), ∃ t : Dev,
      exec (.pcieError (.unsupported k posted w o) hdr) s = .next { s with dev := t } ∧ t = { d with pe := t.pe, out := t.out } ∧
      t.pe.urCnt = satInc p.urCnt ∧ bit t.pe.ueStatus 20 = true ∧ (posted = false → d.out ++ [.urCompletion] <+: t.out) ∧
      (p.urCnt = 0 → t.pe.urKind = k ∧ t.pe.urWindow = w ∧ t.pe.urOffset = if w = 3 then 0 else o))) ∧
  (∀ (tag : Byte) (st : CplStatus) (poison ue : Bool) (data : List Byte) (hdr : List Word) (s : State),
    let d := s.dev
    let row := exec (.completionReceived tag st poison ue data hdr) s
    (hostLive d = false → row = .next s) ∧
    (hostLive d = true → d.pe.link = .l0 → (∀ r ∈ d.pe.reqs, r.tag ≠ tag) →
      ((∀ x ∈ d.pe.stale, x.1 ≠ tag) → row = exec (.pcieError .unexpected hdr) s) ∧
      (∀ n, d.pe.stale.find? (·.1 == tag) = some (tag, n) → row = .next { s with dev := updPe (fun p => { p with
        stale := (p.stale.filter (·.1 != tag)) ++ if st = .sc ∧ data.length < n then [(tag, n - data.length)] else [] }) d })) ∧
    (∀ r : Req, hostLive d = true → d.pe.link = .l0 → d.pe.reqs.find? (·.tag == tag) = some r → r.what = .desc → d.trl.dmaLeft = 0 →
      d.dr.busy = true → poison = false →
      let failed (d : Dev) : Dev := endsDesc 7 (without tag d)
      (st = .ur → row = .next { s with dev := failed (updPe (fun p => { p with rxMa := true }) d) }) ∧
      (st = .ca → row = .next { s with dev := failed (updPe (fun p => { p with rxTa := true }) d) }) ∧
      (let x := d.dr
      let e := fld x.jSrc 24 5
      st = .sc → x.jKind = 2 → x.half = [] → r.len = 16 → data.length = 16 → x.jLen.toNat = x.done.toNat + 2 →
        bankWritable d e (bit x.jSrc 16) = true → row = .next { s with
          dev := updDr (fun x => { x with done := x.done + 2 })
            (requestWake (e / 4) (bistAbortBank e (bit x.jSrc 16)
              (writeCs e (bit x.jSrc 16) (fld x.jSrc 0 12 + x.done.toNat / 2) (BitVec.ofNat 128 (leAt data 0 16)) (without tag d)))) }))) ∧
  (∀ (tag : Byte) (hdr : List Word) (s : State),
    let d := s.dev
    (d.pe.ctoDis = true → exec (.completionTimeout tag hdr) s = .next s) ∧
    (d.pe.ctoDis = false → (∀ r ∈ d.pe.reqs, r.tag ≠ tag) → exec (.completionTimeout tag hdr) s = .next { s with
      dev := updPe (fun p => { p with stale := p.stale.filter (·.1 != tag) }) d }) ∧
    (∀ r : Req, d.pe.ctoDis = false → d.pe.reqs.find? (·.tag == tag) = some r → r.what = .desc → d.trl.dmaLeft = 0 → d.dr.busy = true →
      let e := passTo (r.sent + completionClk d.pe) d
      let x := endsDesc 7 (without tag e)
      ∃ t : Dev, exec (.completionTimeout tag hdr) s = .next { s with dev := t } ∧ t = { x with pe := t.pe, out := t.out } ∧
        bit t.pe.ueStatus 14 = true ∧ t.pe.reqs = x.pe.reqs ∧ t.pe.stale = x.pe.stale ∧ t.pe.waiting = x.pe.waiting)) ∧
  (∀ p : Pe, completionClk p = if p.ctoVal = 1 then 120000 else if p.ctoVal = 2 then 12000000 else if p.ctoVal = 5 then 60000000
    else if p.ctoVal = 6 then 225000000 else 15000000)

/-- A pass writes marker, record and indexes to the host ring and takes the record, an unreadable one freezes the drain;
descriptors are judged, moved, ended. (R564; R566; R568; R569; R570; R575; R576; R577; R582; R583; R585) -/
def Obligations.DrainPassesRingsAndDescriptors : Prop :=
  (∀ (a : DWord) (bs : List Byte) (d : Dev), bs ≠ [] → bs.length ≤ 128 * 2 ^ d.pe.mps.toNat → a.toNat % 4096 + bs.length ≤ 4096 →
    hostBytes a bs d = { d with out := d.out ++ [.hostWrite a bs] }) ∧
  (∀ (ce : List (BitVec 23)) (ue : Option (Byte × Word)) (s : State),
    s.dev.dr.pass = none ∨ s.dev.dr.frozen = true ∨ mayIssue s.dev = false → exec (.drainPass ce ue) s = .next s) ∧
  (∀ (ce : List (BitVec 23)) (ue : Option (Byte × Word)) (s : State), s.dev.dr.pass ≠ none → s.dev.dr.frozen = false → mayIssue s.dev = true →
    s.dev.pe.link = .l1 → exec (.drainPass ce ue) s = .next { s with
      dev := { s.dev with pe := { s.dev.pe with link := .recovery } } }) ∧
  (∀ (ue : Option (Byte × Word)) (s : State) (q : Snap), s.dev.dr.pass = some q → q.recs = [] → s.dev.dr.again = none →
    s.dev.dr.frozen = false → mayIssue s.dev = true → s.dev.pe.link = .l0 ∨ s.dev.pe.link = .l0s →
    exec (.drainPass [] ue) s = .next { s with
      dev := { s.dev with
        pe := { s.dev.pe with link := .l0 }
        dr := { s.dev.dr with
          passBytes := 0, pass := none
          rings := Vector.ofFn fun i : Fin 8 =>
            if ringOn s.dev i.val then { s.dev.dr.rings[i] with stalled := false } else s.dev.dr.rings[i] } } }) ∧
  (∀ (r : Fin 8) (b : Fin 256) (c : BinEntry) (x : Rec) (T : Word) (s : State),
    let d := s.dev
    let y := d.dr.rings[r]
    let size := ringSize d r.val
    let bytes := delivered c x d
    let n := bytes.length
    d.dr.pass = some { tick := T, recs := [(b.val, x.seq)] } → d.dr.again = none → d.dr.frozen = false → d.dr.bad = none → mayIssue d = true →
    d.pe.link = .l0 ∨ d.pe.link = .l0s → (∀ i : Fin 8, ringOn d i.val = decide (i = r)) → d.cfg.bins = [(b.val, c)] →
    c.hostRing.toNat = r.val → d.cl.bins[b].recs = [x] → takeable c x = true → (d.cfg.hostRings[r]).sizeLog2.toNat ≤ 31 →
    y.pidx.toNat % size + 16 + n ≤ size → (y.pidx - y.cidx).toNat + 16 + n ≤ size →
    (y.modt = 0 → y.modb = 0 → y.modtNext = none → y.modbNext = none → y.unsig = 0 → ∃ t : Dev,
      exec (.drainPass [] none) s = .next { s with dev := t } ∧ t = { d with pe := t.pe, dr := t.dr, cl := t.cl, ev := t.ev, out := t.out } ∧
      t.pe = { d.pe with link := .l0 } ∧
      (let o1 := hostBytes (y.base + BitVec.ofNat 64 (y.pidx.toNat % size))
        (leBytes 8 (hdrWord 2 4 fBreta (BitVec.ofNat 32 b.val)) ++ leBytes 4 1 ++ leBytes 4 T.toNat) d
      let o2 := hostBytes (y.base + BitVec.ofNat 64 ((y.pidx + 16).toNat % size)) bytes o1
      t.out = if y.wb = 0 then o2.out else
        (hostBytes y.wb (leBytes 4 (y.pidx + 16 + BitVec.ofNat 32 n).toNat ++ leBytes 4 T.toNat) o2).out) ∧
      t.cl.bins[b].recs = [] ∧ t.cl.bins[b].take = afterRec c x ∧ t.cl.mem = d.cl.mem ∧ t.dr.pass = none ∧
      t.dr.rings[r] = { y with
        pidx := y.pidx + 16 + BitVec.ofNat 32 n, hrec := satInc y.hrec, stalled := false, unsig := 0, timer := none } ∧
      t.dr.passBytes = BitVec.ofNat 32 (16 + n + if y.wb = 0 then 0 else 8) ∧
      t.ev = (hostEvent (d.cfg.hostRings[r]).hostEvent.toNat d).ev) ∧
    ∃ t : Dev, exec (.drainPass [] (some (BitVec.ofNat 8 b.val, x.seq))) s = .next { s with dev := t } ∧ t.dr.frozen = true ∧
      t.dr.frzBin = BitVec.ofNat 8 b.val ∧ t.dr.frzSeq = x.seq ∧ t.dr.bad = some (b.val, x.seq) ∧ t.dr.pass = none ∧
      t.cl.bins = d.cl.bins ∧ t.dr.rings[r].pidx = y.pidx + 16 ∧ t.cl.ue = true) ∧
  (∀ (r : Fin 8) (s : State),
    let event (d : Dev) : Dev := hostEvent (d.cfg.hostRings[r]).hostEvent.toNat
      (updDr (fun x => { x with rings := put x.rings r { x.rings[r] with unsig := 0, timer := none } }) d)
    (s.dev.dr.rings[r].timer = none → exec (.moderationTimer r) s = .next s) ∧
    (∀ c, s.dev.sys.fclkOn = true → s.dev.dr.rings[r].timer = some c →
      let d := passTo c s.dev
      let off := updDr (fun x => { x with rings := put x.rings r { x.rings[r] with timer := none } }) d
      exec (.moderationTimer r) s = .next { s with dev := if d.dr.rings[r].unsig = 0 then off else event d })) ∧
  (∀ (who : Who) (r : Fin 8) (v : Word) (s : State) (d : Dev), reached who (0xA118 + 0x40 * r.val) s.dev = some d →
    let y := d.dr.rings[r]
    let z : HostRing := if v.toNat % 8 = 0 ∧ (v - y.cidx).toNat ≤ (y.pidx - y.cidx).toNat then { y with cidx := v }
      else { y with badIdx := satInc y.badIdx }
    exec (.drCidx who r v) s = .next { s with
      dev := updDr (fun x => { x with rings := put x.rings r z }) d }) ∧
  (∀ (who : Who) (r : Fin 8) (v : Word) (s : State) (d : Dev), reached who (0xA110 + 0x40 * r.val) s.dev = some d →
    exec (.run who r v) s = .next { s with
      dev := updDr (fun x => { x with rings := put x.rings r { x.rings[r] with run := bit v 0 } }) d }) ∧
  (∀ (who : Who) (v : Word) (s : State) (d : Dev), reached who 0xA410 s.dev = some d →
    let x : Dr := { d.dr with dkind := bf v 0 4 }
    let len := x.dlen.toNat
    let e := fld x.dsrc 24 5
    let code : BitVec 4 := if x.dkind ≠ 1 ∧ x.dkind ≠ 2 then 9 else if len = 0 then 2
      else if x.daddr.toNat % 8 ≠ 0 ∨ 2 ^ 64 < x.daddr.toNat + 8 * len then 4
      else if x.dkind = 1 ∧ 8388608 < 8 * fld x.dsrc 3 20 + 8 * len then 3
      else if x.dkind = 2 ∧ (len % 2 ≠ 0 ∨ 4096 < fld x.dsrc 0 12 + len / 2) then 3
      else if x.dkind = 1 ∧ ∃ i, i < len ∧ peekOk d (8 * fld x.dsrc 3 20 + 8 * i) = false then 6
      else if x.dkind = 2 ∧ bankWritable d e (bit x.dsrc 16) = false then 5
      else if d.pe.bme = false ∨ d.pe.d3 = true then 10 else 0
    (hostLike who = false → exec (.descriptorGo who v) s = .next { s with dev := d }) ∧
    (hostLike who = true → bit v 31 = false → exec (.descriptorGo who v) s = .next { s with dev := { d with dr := x } }) ∧
    (hostLike who = true → bit v 31 = true →
      (x.busy = true → exec (.descriptorGo who v) s = .next { s with dev := { d with dr := { x with drej := satInc x.drej } } }) ∧
      (x.busy = false → code ≠ 0 → code ≠ 5 → exec (.descriptorGo who v) s = .next { s with dev := { d with dr := { x with result := code } } }) ∧
      (x.busy = false → code = 5 → ∃ t : Dev, exec (.descriptorGo who v) s = .next { s with dev := t } ∧
        t = { d with dr := { x with result := 5 }, engines := t.engines } ∧
        ∀ f : Fin 32, t.engines[f].life.csRej = if f.val = e then satInc d.engines[f].life.csRej else d.engines[f].life.csRej) ∧
      (x.busy = false → code = 0 → ∃ t : Dev, exec (.descriptorGo who v) s = .next { s with dev := t } ∧
        t = { d with dr := t.dr, pe := t.pe, out := t.out } ∧
        t.dr = { x with busy := true, done := 0, result := 0, half := [], jAddr := x.daddr, jSrc := x.dsrc, jLen := x.dlen, jKind := x.dkind } ∧
        (x.dkind = 1 → t.pe = d.pe ∧ t.out = d.out)))) ∧
  (∀ s : State,
    let d := s.dev
    let x := d.dr
    let able := x.frozen = false ∧ mayIssue d = true ∧ (d.pe.link = .l0 ∨ d.pe.link = .l0s)
    let a := 8 * fld x.jSrc 3 20
    let whole := ∀ i < 8 * x.jLen.toNat, notAppended d (a + i) = false
    let cells (n : Nat) : List Byte := (List.range (8 * n)).map fun i => rd8 d.cl.mem (a + i)
    let l0 : Dev := { d with pe := { d.pe with link := .l0 } }
    (∀ ce ue, x.busy = false → exec (.descriptorEnd ce ue) s = .next s) ∧
    (∀ ce ue, d.sys.fclkOn = true → x.busy = true → x.jKind = 2 →
      exec (.descriptorEnd ce ue) s = .next { s with dev := if x.done = x.jLen then endsDesc 1 d else d }) ∧
    (x.busy = true → x.jKind = 1 → able → whole → exec (.descriptorEnd [] none) s = .next { s with
      dev := endsDesc 1 (updDr (fun x => { x with done := x.jLen }) (hostBytes x.jAddr (cells x.jLen.toNat) l0)) }) ∧
    (∀ k, x.busy = true → x.jKind = 1 → able → whole → k < x.jLen.toNat → ∃ t : Dev, exec (.descriptorEnd [] (some k)) s = .next { s with dev := t } ∧
      t.out = (hostBytes x.jAddr (cells k) l0).out ∧ t.dr = { x with
        busy := false, result := 7, half := [], done := BitVec.ofNat 24 k, frozen := true, frzBin := 0, frzSeq := 0, pass := none, again := none } ∧
      t.cl.ue = true ∧ t.cl.mem = d.cl.mem) ∧
    (∀ ce ue, x.busy = true → x.jKind = 1 → x.frozen = true ∨ mayIssue d = false → exec (.descriptorEnd ce ue) s = .next s))
end

