-- ==== Sys2Proof/Laws/Memory.lean ====
section
/-!
SUPPORT. Sys2Proof/Laws/Memory.lean: the sparse memories: what a write makes an address read as, and that every operation keeps the
canonical form.
-/
namespace Sys2Proof.Machine

variable {β : Type} [DecidableEq β] {d : β}

/-- The canonical form of a nonempty memory. -/
theorem canon_cons {k : Nat} {v : β} {m : List (Nat × β)} :
    canon d ((k, v) :: m) = true ↔ (∀ x ∈ m, k < x.1) ∧ v ≠ d ∧ canon d m = true := by
  simp only [canon, List.pairwise_cons, Bool.and_eq_true, decide_eq_true_eq, List.all_cons]
  tauto

theorem canon_nil : canon d ([] : List (Nat × β)) = true := by simp [canon]

omit [DecidableEq β] in
/-- Below every listed address, the default is read. -/
theorem look_below {m : List (Nat × β)} {a : Nat} (h : ∀ x ∈ m, a < x.1) : look d m a = d := by
  cases m with
  | nil => rfl
  | cons c r =>
    have := h c (by simp)
    simp only [look]
    rw [if_neg (by omega), if_pos (by omega)]

/-- The addresses after a write are those before and the one written. -/
theorem mem_store {m : List (Nat × β)} {a : Nat} {v : β} {x : Nat × β} (h : x ∈ store d m a v) : x ∈ m ∨ x = (a, v) := by
  induction m with
  | nil =>
    simp only [store] at h
    split at h <;> simp_all
  | cons c r ih =>
    simp only [store] at h
    split at h
    · split at h <;> simp_all; tauto
    · split at h
      · split at h <;> simp_all; tauto
      · simp only [List.mem_cons] at h ⊢
        rcases h with h | h
        · exact .inl (.inl h)
        · exact (ih h).elim (fun h => .inl (.inr h)) .inr

/-- A write keeps the canonical form. -/
theorem canon_store {m : List (Nat × β)} (h : canon d m = true) (a : Nat) (v : β) : canon d (store d m a v) = true := by
  induction m with
  | nil =>
    simp only [store]
    split
    · exact canon_nil
    · exact canon_cons.2 ⟨by simp, ‹_›, canon_nil⟩
  | cons c r ih =>
    obtain ⟨k, w⟩ := c
    obtain ⟨h1, h2, h3⟩ := canon_cons.1 h
    simp only [store]
    split
    · split
      · exact h
      · refine canon_cons.2 ⟨?_, ‹_›, h⟩
        intro x hx
        rcases List.mem_cons.1 hx with rfl | hx
        · assumption
        · have := h1 x hx; omega
    · split
      · split
        · exact h3
        · subst_vars
          exact canon_cons.2 ⟨h1, ‹_›, h3⟩
      · refine canon_cons.2 ⟨?_, h2, ih h3⟩
        intro x hx
        rcases mem_store hx with hx | rfl
        · exact h1 x hx
        · simp only; omega

/-- Reading after a write of a canonical memory. -/
theorem look_store {m : List (Nat × β)} (h : canon d m = true) (a b : Nat) (v : β) :
    look d (store d m a v) b = if b = a then v else look d m b := by
  induction m with
  | nil =>
    simp only [store]
    split <;> simp only [look] <;> split <;> simp_all
  | cons c r ih =>
    obtain ⟨k, w⟩ := c
    obtain ⟨h1, h2, h3⟩ := canon_cons.1 h
    have low : ∀ x, x ≤ k → look d r x = d := fun x hx => look_below fun y hy => by have := h1 y hy; omega
    simp only [store]
    split
    · rename_i hlt
      split
      · by_cases hb : b = a
        · subst hb
          simp only [look]
          rw [if_neg (by omega), if_pos (by omega)]
          simp_all
        · simp [hb]
      · by_cases hb : b = a
        · simp [look, hb]
        · by_cases hb' : b < a
          · simp only [look]
            rw [if_neg hb, if_pos hb', if_neg hb, if_neg (by omega), if_pos (by omega)]
          · simp only [look]
            rw [if_neg hb, if_neg hb', if_neg hb]
    · split
      · rename_i hlt he
        subst he
        split
        · by_cases hb : b = a
          · subst hb
            rw [if_pos rfl, low b (by omega)]
            simp_all
          · simp only [look]
            rw [if_neg hb, if_neg hb]
            split
            · rw [low b (by omega)]
            · rfl
        · simp only [look]
          split <;> rfl
      · rename_i hlt he
        simp only [look]
        rw [ih h3]
        split
        · subst_vars
          rw [if_neg (by omega)]
        · split
          · rw [if_neg (by omega)]
          · rfl

/-- Forgetting a range keeps the canonical form. -/
theorem canon_forget {m : List (Nat × β)} (h : canon d m = true) (lo len : Nat) : canon d (forget m lo len) = true := by
  simp only [canon, Bool.and_eq_true, decide_eq_true_eq, List.all_eq_true] at h ⊢
  exact ⟨List.Pairwise.sublist (List.filter_sublist) h.1, fun x hx => h.2 x (List.mem_filter.1 hx).1⟩

/-! ### Byte memories -/

theorem wf_wr8 {m : Bytes} (h : Memory.wf m) (a : Nat) (v : Byte) : Memory.wf (wr8 m a v) := canon_store h a v

theorem rd8_wr8 {m : Bytes} (h : Memory.wf m) (a b : Nat) (v : Byte) : rd8 (wr8 m a v) b = if b = a then v else rd8 m b :=
  look_store h a b v

theorem wf_wrLE {m : Bytes} (h : Memory.wf m) (a n v : Nat) : Memory.wf (wrLE m a n v) := by
  induction n generalizing m a v with
  | zero => exact h
  | succ n ih => exact ih (wf_wr8 h a _) (a + 1) (v / 256)

theorem wf_wrBytes {m : Bytes} (h : Memory.wf m) (a : Nat) (l : List Byte) : Memory.wf (wrBytes m a l) := by
  induction l generalizing m a with
  | nil => exact h
  | cons b r ih => exact ih (wf_wr8 h a b) (a + 1)

theorem wf_zeroBytes {m : Bytes} (h : Memory.wf m) (a n : Nat) : Memory.wf (zeroBytes m a n) := canon_forget h a n

/-- A write of a byte list leaves every byte outside it. -/
theorem rd8_wrBytes_outside {m : Bytes} (h : Memory.wf m) (a : Nat) (l : List Byte) (y : Nat) (hy : y < a ∨ a + l.length ≤ y) :
    rd8 (wrBytes m a l) y = rd8 m y := by
  induction l generalizing m a with
  | nil => rfl
  | cons b r ih =>
    simp only [List.length_cons] at hy
    simp only [wrBytes]
    rw [ih (wf_wr8 h a b) (a + 1) (by omega), rd8_wr8 h, if_neg (by omega)]

/-- A written byte list reads back. -/
theorem rd8_wrBytes_inside {m : Bytes} (h : Memory.wf m) (a : Nat) (l : List Byte) (i : Nat) (hi : i < l.length) :
    rd8 (wrBytes m a l) (a + i) = l[i] := by
  induction l generalizing m a i with
  | nil => simp at hi
  | cons b r ih =>
    simp only [wrBytes]
    cases i with
    | zero =>
      show rd8 (wrBytes (wr8 m a b) (a + 1) r) a = b
      rw [rd8_wrBytes_outside (wf_wr8 h a b) (a + 1) r a (by omega), rd8_wr8 h, if_pos rfl]
    | succ i =>
      have := ih (wf_wr8 h a b) (a + 1) i (by simpa using hi)
      rw [show a + (i + 1) = a + 1 + i by omega, this]
      rfl

/-- A little-endian write leaves every byte outside it. -/
theorem rd8_wrLE_outside {m : Bytes} (h : Memory.wf m) (a n v y : Nat) (hy : y < a ∨ a + n ≤ y) : rd8 (wrLE m a n v) y = rd8 m y := by
  induction n generalizing m a v with
  | zero => rfl
  | succ n ih =>
    simp only [wrLE]
    rw [ih (wf_wr8 h a _) (a + 1) (v / 256) (by omega), rd8_wr8 h, if_neg (by omega)]

/-- A little-endian read sees only its bytes. -/
theorem rdLE_congr {m m' : Bytes} (a n : Nat) (h : ∀ i, i < n → rd8 m (a + i) = rd8 m' (a + i)) : rdLE m a n = rdLE m' a n := by
  induction n generalizing a with
  | zero => rfl
  | succ n ih =>
    have h0 := h 0 (by omega)
    simp only [rdLE, Nat.add_zero] at h0 ⊢
    rw [h0, ih (a + 1) fun i hi => by have := h (i + 1) (by omega); rwa [show a + 1 + i = a + (i + 1) by omega]]

/-- What was written little-endian reads back. -/
theorem rdLE_wrLE {m : Bytes} (h : Memory.wf m) (a n v : Nat) : rdLE (wrLE m a n v) a n = v % 256 ^ n := by
  induction n generalizing m a v with
  | zero => simp [rdLE, Nat.mod_one]
  | succ n ih =>
    simp only [rdLE, wrLE]
    rw [ih (wf_wr8 h a _) (a + 1) (v / 256), rd8_wrLE_outside (wf_wr8 h a _) (a + 1) n (v / 256) a (by omega), rd8_wr8 h, if_pos rfl]
    rw [BitVec.toNat_ofNat, show 256 ^ (n + 1) = 2 ^ 8 * 256 ^ n by ring, Nat.mod_mul]
    norm_num

/-! ### Reset -/

/-- The memories of the machine after reset are in canonical form: nothing is listed. -/
theorem reset_memories : MemInv State.reset.dev := by
  refine ⟨by decide, by decide, by decide, fun c => ?_⟩
  have : State.reset.dev.cores[c].mem = [] := by
    simp [State.reset]
  rw [this]
  rfl

end Sys2Proof.Machine
end

