-- ==== Sys2Proof/Laws/Vectors.lean ====
section
/-!
SUPPORT. Sys2Proof/Laws/Vectors.lean: reading an element of a vector after one was written.
-/
namespace Sys2Proof.Machine

variable {α : Type} {n : Nat}

@[simp] theorem getElem_put (v : Vector α n) (i : Fin n) (x : α) (j : Nat) (hj : j < n) :
    (put v i x)[j] = if i.1 = j then x else v[j] := by
  simp [put, Vector.getElem_set]

@[simp] theorem getElem_upd (v : Vector α n) (i : Fin n) (f : α → α) (j : Nat) (hj : j < n) :
    (upd v i f)[j] = if i.1 = j then f v[j] else v[j] := by
  simp only [upd, getElem_put]
  split
  · subst_vars; rfl
  · rfl

@[simp] theorem getElem_upd? (v : Vector α n) (k : Nat) (f : α → α) (j : Nat) (hj : j < n) :
    (upd? v k f)[j] = if k = j then f v[j] else v[j] := by
  unfold upd?
  split
  · rw [Vector.getElem_set]
    split
    · subst_vars; rfl
    · rfl
  · rename_i h
    have : k ≠ j := by omega
    simp [this]

@[simp] theorem getElem_put? (v : Vector α n) (k : Nat) (x : α) (j : Nat) (hj : j < n) :
    (put? v k x)[j] = if k = j then x else v[j] := by
  unfold put?
  split
  · rw [Vector.getElem_set]
  · rename_i h
    have : k ≠ j := by omega
    simp [this]

/-- A number below the length reads the element. -/
theorem at?_lt (v : Vector α n) (k : Nat) (d : α) (h : k < n) : at? v k d = v[k] := by simp [at?, h]

@[simp] theorem at?_fin (v : Vector α n) (i : Fin n) (d : α) : at? v i.1 d = v[i] := by simp [at?, i.2]

theorem at?_ge (v : Vector α n) (k : Nat) (d : α) (h : n ≤ k) : at? v k d = d := by
  have : ¬ k < n := by omega
  simp [at?, this]

/-- Reading after a change: the element changed, or the one that was there. -/
theorem at?_upd? (v : Vector α n) (k j : Nat) (f : α → α) (d : α) :
    at? (upd? v k f) j d = if k = j ∧ j < n then f (at? v j d) else at? v j d := by
  by_cases h : j < n
  · simp only [at?_lt _ _ _ h, getElem_upd?, h, and_true]
  · simp [at?_ge _ _ _ (Nat.le_of_not_lt h), h]

@[simp] theorem upd?_fin (v : Vector α n) (i : Fin n) (f : α → α) : upd? v i.1 f = put v i (f v[i]) := by
  unfold upd? put
  simp [i.2]

/-- Of two writes of one element the later one stands. -/
@[simp] theorem put_put (v : Vector α n) (i : Fin n) (x y : α) : put (put v i x) i y = put v i y := by simp [put]

theorem upd?_ge (v : Vector α n) (k : Nat) (f : α → α) (h : n ≤ k) : upd? v k f = v := by
  have : ¬ k < n := by omega
  simp [upd?, this]

end Sys2Proof.Machine
end

