-- ==== Sys2Proof/Laws/State.lean ====
section
/-!
SUPPORT. Sys2Proof/Laws/State.lean: what each update of the device does to each of its fields, and what the readers of one engine,
lane, core, bin, port, host ring and cluster give after an update.
-/
namespace Sys2Proof.Machine

@[simp] theorem act_eq (f : Dev → Dev) (s : State) : act f s = .next { s with dev := f s.dev } := rfl
@[simp] theorem actClk_eq (f : Dev → Dev) (s : State) :
    actClk f s = .next { s with dev := if s.dev.sys.fclkOn then f s.dev else s.dev } := rfl

/-! ### updBist -/

@[simp] theorem updBist_clk (f : Bist → Bist) (d : Dev) : (updBist f d).clk = d.clk := rfl
@[simp] theorem updBist_freeCtr (f : Bist → Bist) (d : Dev) : (updBist f d).freeCtr = d.freeCtr := rfl
@[simp] theorem updBist_rdata (f : Bist → Bist) (d : Dev) : (updBist f d).rdata = d.rdata := rfl
@[simp] theorem updBist_rcpl (f : Bist → Bist) (d : Dev) : (updBist f d).rcpl = d.rcpl := rfl
@[simp] theorem updBist_out (f : Bist → Bist) (d : Dev) : (updBist f d).out = d.out := rfl
@[simp] theorem updBist_committed (f : Bist → Bist) (d : Dev) : (updBist f d).committed = d.committed := rfl
@[simp] theorem updBist_cfg (f : Bist → Bist) (d : Dev) : (updBist f d).cfg = d.cfg := rfl
@[simp] theorem updBist_sys (f : Bist → Bist) (d : Dev) : (updBist f d).sys = d.sys := rfl
@[simp] theorem updBist_rc (f : Bist → Bist) (d : Dev) : (updBist f d).rc = d.rc := rfl
@[simp] theorem updBist_ev (f : Bist → Bist) (d : Dev) : (updBist f d).ev = d.ev := rfl
@[simp] theorem updBist_tb (f : Bist → Bist) (d : Dev) : (updBist f d).tb = d.tb := rfl
@[simp] theorem updBist_lanes (f : Bist → Bist) (d : Dev) : (updBist f d).lanes = d.lanes := rfl
@[simp] theorem updBist_pairs (f : Bist → Bist) (d : Dev) : (updBist f d).pairs = d.pairs := rfl
@[simp] theorem updBist_bank (f : Bist → Bist) (d : Dev) : (updBist f d).bank = d.bank := rfl
@[simp] theorem updBist_cl (f : Bist → Bist) (d : Dev) : (updBist f d).cl = d.cl := rfl
@[simp] theorem updBist_hr (f : Bist → Bist) (d : Dev) : (updBist f d).hr = d.hr := rfl
@[simp] theorem updBist_pe (f : Bist → Bist) (d : Dev) : (updBist f d).pe = d.pe := rfl
@[simp] theorem updBist_dr (f : Bist → Bist) (d : Dev) : (updBist f d).dr = d.dr := rfl
@[simp] theorem updBist_trl (f : Bist → Bist) (d : Dev) : (updBist f d).trl = d.trl := rfl
@[simp] theorem updBist_pwr (f : Bist → Bist) (d : Dev) : (updBist f d).pwr = d.pwr := rfl
@[simp] theorem updBist_engines (f : Bist → Bist) (d : Dev) : (updBist f d).engines = d.engines := rfl
@[simp] theorem updBist_cores (f : Bist → Bist) (d : Dev) : (updBist f d).cores = d.cores := rfl
@[simp] theorem updBist_mbox (f : Bist → Bist) (d : Dev) : (updBist f d).mbox = d.mbox := rfl
@[simp] theorem updBist_mtags (f : Bist → Bist) (d : Dev) : (updBist f d).mtags = d.mtags := rfl
@[simp] theorem updBist_ls (f : Bist → Bist) (d : Dev) : (updBist f d).ls = d.ls := rfl
@[simp] theorem updBist_wd (f : Bist → Bist) (d : Dev) : (updBist f d).wd = d.wd := rfl
@[simp] theorem updBist_bist (f : Bist → Bist) (d : Dev) : (updBist f d).bist = f d.bist := rfl

/-! ### updCl -/

@[simp] theorem updCl_clk (f : Cl → Cl) (d : Dev) : (updCl f d).clk = d.clk := rfl
@[simp] theorem updCl_freeCtr (f : Cl → Cl) (d : Dev) : (updCl f d).freeCtr = d.freeCtr := rfl
@[simp] theorem updCl_rdata (f : Cl → Cl) (d : Dev) : (updCl f d).rdata = d.rdata := rfl
@[simp] theorem updCl_rcpl (f : Cl → Cl) (d : Dev) : (updCl f d).rcpl = d.rcpl := rfl
@[simp] theorem updCl_out (f : Cl → Cl) (d : Dev) : (updCl f d).out = d.out := rfl
@[simp] theorem updCl_committed (f : Cl → Cl) (d : Dev) : (updCl f d).committed = d.committed := rfl
@[simp] theorem updCl_cfg (f : Cl → Cl) (d : Dev) : (updCl f d).cfg = d.cfg := rfl
@[simp] theorem updCl_sys (f : Cl → Cl) (d : Dev) : (updCl f d).sys = d.sys := rfl
@[simp] theorem updCl_rc (f : Cl → Cl) (d : Dev) : (updCl f d).rc = d.rc := rfl
@[simp] theorem updCl_ev (f : Cl → Cl) (d : Dev) : (updCl f d).ev = d.ev := rfl
@[simp] theorem updCl_tb (f : Cl → Cl) (d : Dev) : (updCl f d).tb = d.tb := rfl
@[simp] theorem updCl_lanes (f : Cl → Cl) (d : Dev) : (updCl f d).lanes = d.lanes := rfl
@[simp] theorem updCl_pairs (f : Cl → Cl) (d : Dev) : (updCl f d).pairs = d.pairs := rfl
@[simp] theorem updCl_bank (f : Cl → Cl) (d : Dev) : (updCl f d).bank = d.bank := rfl
@[simp] theorem updCl_cl (f : Cl → Cl) (d : Dev) : (updCl f d).cl = f d.cl := rfl
@[simp] theorem updCl_hr (f : Cl → Cl) (d : Dev) : (updCl f d).hr = d.hr := rfl
@[simp] theorem updCl_pe (f : Cl → Cl) (d : Dev) : (updCl f d).pe = d.pe := rfl
@[simp] theorem updCl_dr (f : Cl → Cl) (d : Dev) : (updCl f d).dr = d.dr := rfl
@[simp] theorem updCl_trl (f : Cl → Cl) (d : Dev) : (updCl f d).trl = d.trl := rfl
@[simp] theorem updCl_pwr (f : Cl → Cl) (d : Dev) : (updCl f d).pwr = d.pwr := rfl
@[simp] theorem updCl_engines (f : Cl → Cl) (d : Dev) : (updCl f d).engines = d.engines := rfl
@[simp] theorem updCl_cores (f : Cl → Cl) (d : Dev) : (updCl f d).cores = d.cores := rfl
@[simp] theorem updCl_mbox (f : Cl → Cl) (d : Dev) : (updCl f d).mbox = d.mbox := rfl
@[simp] theorem updCl_mtags (f : Cl → Cl) (d : Dev) : (updCl f d).mtags = d.mtags := rfl
@[simp] theorem updCl_ls (f : Cl → Cl) (d : Dev) : (updCl f d).ls = d.ls := rfl
@[simp] theorem updCl_wd (f : Cl → Cl) (d : Dev) : (updCl f d).wd = d.wd := rfl
@[simp] theorem updCl_bist (f : Cl → Cl) (d : Dev) : (updCl f d).bist = d.bist := rfl

/-! ### updDr -/

@[simp] theorem updDr_clk (f : Dr → Dr) (d : Dev) : (updDr f d).clk = d.clk := rfl
@[simp] theorem updDr_freeCtr (f : Dr → Dr) (d : Dev) : (updDr f d).freeCtr = d.freeCtr := rfl
@[simp] theorem updDr_rdata (f : Dr → Dr) (d : Dev) : (updDr f d).rdata = d.rdata := rfl
@[simp] theorem updDr_rcpl (f : Dr → Dr) (d : Dev) : (updDr f d).rcpl = d.rcpl := rfl
@[simp] theorem updDr_out (f : Dr → Dr) (d : Dev) : (updDr f d).out = d.out := rfl
@[simp] theorem updDr_committed (f : Dr → Dr) (d : Dev) : (updDr f d).committed = d.committed := rfl
@[simp] theorem updDr_cfg (f : Dr → Dr) (d : Dev) : (updDr f d).cfg = d.cfg := rfl
@[simp] theorem updDr_sys (f : Dr → Dr) (d : Dev) : (updDr f d).sys = d.sys := rfl
@[simp] theorem updDr_rc (f : Dr → Dr) (d : Dev) : (updDr f d).rc = d.rc := rfl
@[simp] theorem updDr_ev (f : Dr → Dr) (d : Dev) : (updDr f d).ev = d.ev := rfl
@[simp] theorem updDr_tb (f : Dr → Dr) (d : Dev) : (updDr f d).tb = d.tb := rfl
@[simp] theorem updDr_lanes (f : Dr → Dr) (d : Dev) : (updDr f d).lanes = d.lanes := rfl
@[simp] theorem updDr_pairs (f : Dr → Dr) (d : Dev) : (updDr f d).pairs = d.pairs := rfl
@[simp] theorem updDr_bank (f : Dr → Dr) (d : Dev) : (updDr f d).bank = d.bank := rfl
@[simp] theorem updDr_cl (f : Dr → Dr) (d : Dev) : (updDr f d).cl = d.cl := rfl
@[simp] theorem updDr_hr (f : Dr → Dr) (d : Dev) : (updDr f d).hr = d.hr := rfl
@[simp] theorem updDr_pe (f : Dr → Dr) (d : Dev) : (updDr f d).pe = d.pe := rfl
@[simp] theorem updDr_dr (f : Dr → Dr) (d : Dev) : (updDr f d).dr = f d.dr := rfl
@[simp] theorem updDr_trl (f : Dr → Dr) (d : Dev) : (updDr f d).trl = d.trl := rfl
@[simp] theorem updDr_pwr (f : Dr → Dr) (d : Dev) : (updDr f d).pwr = d.pwr := rfl
@[simp] theorem updDr_engines (f : Dr → Dr) (d : Dev) : (updDr f d).engines = d.engines := rfl
@[simp] theorem updDr_cores (f : Dr → Dr) (d : Dev) : (updDr f d).cores = d.cores := rfl
@[simp] theorem updDr_mbox (f : Dr → Dr) (d : Dev) : (updDr f d).mbox = d.mbox := rfl
@[simp] theorem updDr_mtags (f : Dr → Dr) (d : Dev) : (updDr f d).mtags = d.mtags := rfl
@[simp] theorem updDr_ls (f : Dr → Dr) (d : Dev) : (updDr f d).ls = d.ls := rfl
@[simp] theorem updDr_wd (f : Dr → Dr) (d : Dev) : (updDr f d).wd = d.wd := rfl
@[simp] theorem updDr_bist (f : Dr → Dr) (d : Dev) : (updDr f d).bist = d.bist := rfl

/-! ### updTrl -/

@[simp] theorem updTrl_clk (f : Trl → Trl) (d : Dev) : (updTrl f d).clk = d.clk := rfl
@[simp] theorem updTrl_freeCtr (f : Trl → Trl) (d : Dev) : (updTrl f d).freeCtr = d.freeCtr := rfl
@[simp] theorem updTrl_rdata (f : Trl → Trl) (d : Dev) : (updTrl f d).rdata = d.rdata := rfl
@[simp] theorem updTrl_rcpl (f : Trl → Trl) (d : Dev) : (updTrl f d).rcpl = d.rcpl := rfl
@[simp] theorem updTrl_out (f : Trl → Trl) (d : Dev) : (updTrl f d).out = d.out := rfl
@[simp] theorem updTrl_committed (f : Trl → Trl) (d : Dev) : (updTrl f d).committed = d.committed := rfl
@[simp] theorem updTrl_cfg (f : Trl → Trl) (d : Dev) : (updTrl f d).cfg = d.cfg := rfl
@[simp] theorem updTrl_sys (f : Trl → Trl) (d : Dev) : (updTrl f d).sys = d.sys := rfl
@[simp] theorem updTrl_rc (f : Trl → Trl) (d : Dev) : (updTrl f d).rc = d.rc := rfl
@[simp] theorem updTrl_ev (f : Trl → Trl) (d : Dev) : (updTrl f d).ev = d.ev := rfl
@[simp] theorem updTrl_tb (f : Trl → Trl) (d : Dev) : (updTrl f d).tb = d.tb := rfl
@[simp] theorem updTrl_lanes (f : Trl → Trl) (d : Dev) : (updTrl f d).lanes = d.lanes := rfl
@[simp] theorem updTrl_pairs (f : Trl → Trl) (d : Dev) : (updTrl f d).pairs = d.pairs := rfl
@[simp] theorem updTrl_bank (f : Trl → Trl) (d : Dev) : (updTrl f d).bank = d.bank := rfl
@[simp] theorem updTrl_cl (f : Trl → Trl) (d : Dev) : (updTrl f d).cl = d.cl := rfl
@[simp] theorem updTrl_hr (f : Trl → Trl) (d : Dev) : (updTrl f d).hr = d.hr := rfl
@[simp] theorem updTrl_pe (f : Trl → Trl) (d : Dev) : (updTrl f d).pe = d.pe := rfl
@[simp] theorem updTrl_dr (f : Trl → Trl) (d : Dev) : (updTrl f d).dr = d.dr := rfl
@[simp] theorem updTrl_trl (f : Trl → Trl) (d : Dev) : (updTrl f d).trl = f d.trl := rfl
@[simp] theorem updTrl_pwr (f : Trl → Trl) (d : Dev) : (updTrl f d).pwr = d.pwr := rfl
@[simp] theorem updTrl_engines (f : Trl → Trl) (d : Dev) : (updTrl f d).engines = d.engines := rfl
@[simp] theorem updTrl_cores (f : Trl → Trl) (d : Dev) : (updTrl f d).cores = d.cores := rfl
@[simp] theorem updTrl_mbox (f : Trl → Trl) (d : Dev) : (updTrl f d).mbox = d.mbox := rfl
@[simp] theorem updTrl_mtags (f : Trl → Trl) (d : Dev) : (updTrl f d).mtags = d.mtags := rfl
@[simp] theorem updTrl_ls (f : Trl → Trl) (d : Dev) : (updTrl f d).ls = d.ls := rfl
@[simp] theorem updTrl_wd (f : Trl → Trl) (d : Dev) : (updTrl f d).wd = d.wd := rfl
@[simp] theorem updTrl_bist (f : Trl → Trl) (d : Dev) : (updTrl f d).bist = d.bist := rfl

/-! ### updTb -/

@[simp] theorem updTb_clk (f : Tb → Tb) (d : Dev) : (updTb f d).clk = d.clk := rfl
@[simp] theorem updTb_freeCtr (f : Tb → Tb) (d : Dev) : (updTb f d).freeCtr = d.freeCtr := rfl
@[simp] theorem updTb_rdata (f : Tb → Tb) (d : Dev) : (updTb f d).rdata = d.rdata := rfl
@[simp] theorem updTb_rcpl (f : Tb → Tb) (d : Dev) : (updTb f d).rcpl = d.rcpl := rfl
@[simp] theorem updTb_out (f : Tb → Tb) (d : Dev) : (updTb f d).out = d.out := rfl
@[simp] theorem updTb_committed (f : Tb → Tb) (d : Dev) : (updTb f d).committed = d.committed := rfl
@[simp] theorem updTb_cfg (f : Tb → Tb) (d : Dev) : (updTb f d).cfg = d.cfg := rfl
@[simp] theorem updTb_sys (f : Tb → Tb) (d : Dev) : (updTb f d).sys = d.sys := rfl
@[simp] theorem updTb_rc (f : Tb → Tb) (d : Dev) : (updTb f d).rc = d.rc := rfl
@[simp] theorem updTb_ev (f : Tb → Tb) (d : Dev) : (updTb f d).ev = d.ev := rfl
@[simp] theorem updTb_tb (f : Tb → Tb) (d : Dev) : (updTb f d).tb = f d.tb := rfl
@[simp] theorem updTb_lanes (f : Tb → Tb) (d : Dev) : (updTb f d).lanes = d.lanes := rfl
@[simp] theorem updTb_pairs (f : Tb → Tb) (d : Dev) : (updTb f d).pairs = d.pairs := rfl
@[simp] theorem updTb_bank (f : Tb → Tb) (d : Dev) : (updTb f d).bank = d.bank := rfl
@[simp] theorem updTb_cl (f : Tb → Tb) (d : Dev) : (updTb f d).cl = d.cl := rfl
@[simp] theorem updTb_hr (f : Tb → Tb) (d : Dev) : (updTb f d).hr = d.hr := rfl
@[simp] theorem updTb_pe (f : Tb → Tb) (d : Dev) : (updTb f d).pe = d.pe := rfl
@[simp] theorem updTb_dr (f : Tb → Tb) (d : Dev) : (updTb f d).dr = d.dr := rfl
@[simp] theorem updTb_trl (f : Tb → Tb) (d : Dev) : (updTb f d).trl = d.trl := rfl
@[simp] theorem updTb_pwr (f : Tb → Tb) (d : Dev) : (updTb f d).pwr = d.pwr := rfl
@[simp] theorem updTb_engines (f : Tb → Tb) (d : Dev) : (updTb f d).engines = d.engines := rfl
@[simp] theorem updTb_cores (f : Tb → Tb) (d : Dev) : (updTb f d).cores = d.cores := rfl
@[simp] theorem updTb_mbox (f : Tb → Tb) (d : Dev) : (updTb f d).mbox = d.mbox := rfl
@[simp] theorem updTb_mtags (f : Tb → Tb) (d : Dev) : (updTb f d).mtags = d.mtags := rfl
@[simp] theorem updTb_ls (f : Tb → Tb) (d : Dev) : (updTb f d).ls = d.ls := rfl
@[simp] theorem updTb_wd (f : Tb → Tb) (d : Dev) : (updTb f d).wd = d.wd := rfl
@[simp] theorem updTb_bist (f : Tb → Tb) (d : Dev) : (updTb f d).bist = d.bist := rfl

/-! ### updEv -/

@[simp] theorem updEv_clk (f : Ev → Ev) (d : Dev) : (updEv f d).clk = d.clk := rfl
@[simp] theorem updEv_freeCtr (f : Ev → Ev) (d : Dev) : (updEv f d).freeCtr = d.freeCtr := rfl
@[simp] theorem updEv_rdata (f : Ev → Ev) (d : Dev) : (updEv f d).rdata = d.rdata := rfl
@[simp] theorem updEv_rcpl (f : Ev → Ev) (d : Dev) : (updEv f d).rcpl = d.rcpl := rfl
@[simp] theorem updEv_out (f : Ev → Ev) (d : Dev) : (updEv f d).out = d.out := rfl
@[simp] theorem updEv_committed (f : Ev → Ev) (d : Dev) : (updEv f d).committed = d.committed := rfl
@[simp] theorem updEv_cfg (f : Ev → Ev) (d : Dev) : (updEv f d).cfg = d.cfg := rfl
@[simp] theorem updEv_sys (f : Ev → Ev) (d : Dev) : (updEv f d).sys = d.sys := rfl
@[simp] theorem updEv_rc (f : Ev → Ev) (d : Dev) : (updEv f d).rc = d.rc := rfl
@[simp] theorem updEv_ev (f : Ev → Ev) (d : Dev) : (updEv f d).ev = f d.ev := rfl
@[simp] theorem updEv_tb (f : Ev → Ev) (d : Dev) : (updEv f d).tb = d.tb := rfl
@[simp] theorem updEv_lanes (f : Ev → Ev) (d : Dev) : (updEv f d).lanes = d.lanes := rfl
@[simp] theorem updEv_pairs (f : Ev → Ev) (d : Dev) : (updEv f d).pairs = d.pairs := rfl
@[simp] theorem updEv_bank (f : Ev → Ev) (d : Dev) : (updEv f d).bank = d.bank := rfl
@[simp] theorem updEv_cl (f : Ev → Ev) (d : Dev) : (updEv f d).cl = d.cl := rfl
@[simp] theorem updEv_hr (f : Ev → Ev) (d : Dev) : (updEv f d).hr = d.hr := rfl
@[simp] theorem updEv_pe (f : Ev → Ev) (d : Dev) : (updEv f d).pe = d.pe := rfl
@[simp] theorem updEv_dr (f : Ev → Ev) (d : Dev) : (updEv f d).dr = d.dr := rfl
@[simp] theorem updEv_trl (f : Ev → Ev) (d : Dev) : (updEv f d).trl = d.trl := rfl
@[simp] theorem updEv_pwr (f : Ev → Ev) (d : Dev) : (updEv f d).pwr = d.pwr := rfl
@[simp] theorem updEv_engines (f : Ev → Ev) (d : Dev) : (updEv f d).engines = d.engines := rfl
@[simp] theorem updEv_cores (f : Ev → Ev) (d : Dev) : (updEv f d).cores = d.cores := rfl
@[simp] theorem updEv_mbox (f : Ev → Ev) (d : Dev) : (updEv f d).mbox = d.mbox := rfl
@[simp] theorem updEv_mtags (f : Ev → Ev) (d : Dev) : (updEv f d).mtags = d.mtags := rfl
@[simp] theorem updEv_ls (f : Ev → Ev) (d : Dev) : (updEv f d).ls = d.ls := rfl
@[simp] theorem updEv_wd (f : Ev → Ev) (d : Dev) : (updEv f d).wd = d.wd := rfl
@[simp] theorem updEv_bist (f : Ev → Ev) (d : Dev) : (updEv f d).bist = d.bist := rfl

/-! ### updPe -/

@[simp] theorem updPe_clk (f : Pe → Pe) (d : Dev) : (updPe f d).clk = d.clk := rfl
@[simp] theorem updPe_freeCtr (f : Pe → Pe) (d : Dev) : (updPe f d).freeCtr = d.freeCtr := rfl
@[simp] theorem updPe_rdata (f : Pe → Pe) (d : Dev) : (updPe f d).rdata = d.rdata := rfl
@[simp] theorem updPe_rcpl (f : Pe → Pe) (d : Dev) : (updPe f d).rcpl = d.rcpl := rfl
@[simp] theorem updPe_out (f : Pe → Pe) (d : Dev) : (updPe f d).out = d.out := rfl
@[simp] theorem updPe_committed (f : Pe → Pe) (d : Dev) : (updPe f d).committed = d.committed := rfl
@[simp] theorem updPe_cfg (f : Pe → Pe) (d : Dev) : (updPe f d).cfg = d.cfg := rfl
@[simp] theorem updPe_sys (f : Pe → Pe) (d : Dev) : (updPe f d).sys = d.sys := rfl
@[simp] theorem updPe_rc (f : Pe → Pe) (d : Dev) : (updPe f d).rc = d.rc := rfl
@[simp] theorem updPe_ev (f : Pe → Pe) (d : Dev) : (updPe f d).ev = d.ev := rfl
@[simp] theorem updPe_tb (f : Pe → Pe) (d : Dev) : (updPe f d).tb = d.tb := rfl
@[simp] theorem updPe_lanes (f : Pe → Pe) (d : Dev) : (updPe f d).lanes = d.lanes := rfl
@[simp] theorem updPe_pairs (f : Pe → Pe) (d : Dev) : (updPe f d).pairs = d.pairs := rfl
@[simp] theorem updPe_bank (f : Pe → Pe) (d : Dev) : (updPe f d).bank = d.bank := rfl
@[simp] theorem updPe_cl (f : Pe → Pe) (d : Dev) : (updPe f d).cl = d.cl := rfl
@[simp] theorem updPe_hr (f : Pe → Pe) (d : Dev) : (updPe f d).hr = d.hr := rfl
@[simp] theorem updPe_pe (f : Pe → Pe) (d : Dev) : (updPe f d).pe = f d.pe := rfl
@[simp] theorem updPe_dr (f : Pe → Pe) (d : Dev) : (updPe f d).dr = d.dr := rfl
@[simp] theorem updPe_trl (f : Pe → Pe) (d : Dev) : (updPe f d).trl = d.trl := rfl
@[simp] theorem updPe_pwr (f : Pe → Pe) (d : Dev) : (updPe f d).pwr = d.pwr := rfl
@[simp] theorem updPe_engines (f : Pe → Pe) (d : Dev) : (updPe f d).engines = d.engines := rfl
@[simp] theorem updPe_cores (f : Pe → Pe) (d : Dev) : (updPe f d).cores = d.cores := rfl
@[simp] theorem updPe_mbox (f : Pe → Pe) (d : Dev) : (updPe f d).mbox = d.mbox := rfl
@[simp] theorem updPe_mtags (f : Pe → Pe) (d : Dev) : (updPe f d).mtags = d.mtags := rfl
@[simp] theorem updPe_ls (f : Pe → Pe) (d : Dev) : (updPe f d).ls = d.ls := rfl
@[simp] theorem updPe_wd (f : Pe → Pe) (d : Dev) : (updPe f d).wd = d.wd := rfl
@[simp] theorem updPe_bist (f : Pe → Pe) (d : Dev) : (updPe f d).bist = d.bist := rfl

/-! ### updSys -/

@[simp] theorem updSys_clk (f : Sys → Sys) (d : Dev) : (updSys f d).clk = d.clk := rfl
@[simp] theorem updSys_freeCtr (f : Sys → Sys) (d : Dev) : (updSys f d).freeCtr = d.freeCtr := rfl
@[simp] theorem updSys_rdata (f : Sys → Sys) (d : Dev) : (updSys f d).rdata = d.rdata := rfl
@[simp] theorem updSys_rcpl (f : Sys → Sys) (d : Dev) : (updSys f d).rcpl = d.rcpl := rfl
@[simp] theorem updSys_out (f : Sys → Sys) (d : Dev) : (updSys f d).out = d.out := rfl
@[simp] theorem updSys_committed (f : Sys → Sys) (d : Dev) : (updSys f d).committed = d.committed := rfl
@[simp] theorem updSys_cfg (f : Sys → Sys) (d : Dev) : (updSys f d).cfg = d.cfg := rfl
@[simp] theorem updSys_sys (f : Sys → Sys) (d : Dev) : (updSys f d).sys = f d.sys := rfl
@[simp] theorem updSys_rc (f : Sys → Sys) (d : Dev) : (updSys f d).rc = d.rc := rfl
@[simp] theorem updSys_ev (f : Sys → Sys) (d : Dev) : (updSys f d).ev = d.ev := rfl
@[simp] theorem updSys_tb (f : Sys → Sys) (d : Dev) : (updSys f d).tb = d.tb := rfl
@[simp] theorem updSys_lanes (f : Sys → Sys) (d : Dev) : (updSys f d).lanes = d.lanes := rfl
@[simp] theorem updSys_pairs (f : Sys → Sys) (d : Dev) : (updSys f d).pairs = d.pairs := rfl
@[simp] theorem updSys_bank (f : Sys → Sys) (d : Dev) : (updSys f d).bank = d.bank := rfl
@[simp] theorem updSys_cl (f : Sys → Sys) (d : Dev) : (updSys f d).cl = d.cl := rfl
@[simp] theorem updSys_hr (f : Sys → Sys) (d : Dev) : (updSys f d).hr = d.hr := rfl
@[simp] theorem updSys_pe (f : Sys → Sys) (d : Dev) : (updSys f d).pe = d.pe := rfl
@[simp] theorem updSys_dr (f : Sys → Sys) (d : Dev) : (updSys f d).dr = d.dr := rfl
@[simp] theorem updSys_trl (f : Sys → Sys) (d : Dev) : (updSys f d).trl = d.trl := rfl
@[simp] theorem updSys_pwr (f : Sys → Sys) (d : Dev) : (updSys f d).pwr = d.pwr := rfl
@[simp] theorem updSys_engines (f : Sys → Sys) (d : Dev) : (updSys f d).engines = d.engines := rfl
@[simp] theorem updSys_cores (f : Sys → Sys) (d : Dev) : (updSys f d).cores = d.cores := rfl
@[simp] theorem updSys_mbox (f : Sys → Sys) (d : Dev) : (updSys f d).mbox = d.mbox := rfl
@[simp] theorem updSys_mtags (f : Sys → Sys) (d : Dev) : (updSys f d).mtags = d.mtags := rfl
@[simp] theorem updSys_ls (f : Sys → Sys) (d : Dev) : (updSys f d).ls = d.ls := rfl
@[simp] theorem updSys_wd (f : Sys → Sys) (d : Dev) : (updSys f d).wd = d.wd := rfl
@[simp] theorem updSys_bist (f : Sys → Sys) (d : Dev) : (updSys f d).bist = d.bist := rfl

/-! ### updHr -/

@[simp] theorem updHr_clk (f : Hr → Hr) (d : Dev) : (updHr f d).clk = d.clk := rfl
@[simp] theorem updHr_freeCtr (f : Hr → Hr) (d : Dev) : (updHr f d).freeCtr = d.freeCtr := rfl
@[simp] theorem updHr_rdata (f : Hr → Hr) (d : Dev) : (updHr f d).rdata = d.rdata := rfl
@[simp] theorem updHr_rcpl (f : Hr → Hr) (d : Dev) : (updHr f d).rcpl = d.rcpl := rfl
@[simp] theorem updHr_out (f : Hr → Hr) (d : Dev) : (updHr f d).out = d.out := rfl
@[simp] theorem updHr_committed (f : Hr → Hr) (d : Dev) : (updHr f d).committed = d.committed := rfl
@[simp] theorem updHr_cfg (f : Hr → Hr) (d : Dev) : (updHr f d).cfg = d.cfg := rfl
@[simp] theorem updHr_sys (f : Hr → Hr) (d : Dev) : (updHr f d).sys = d.sys := rfl
@[simp] theorem updHr_rc (f : Hr → Hr) (d : Dev) : (updHr f d).rc = d.rc := rfl
@[simp] theorem updHr_ev (f : Hr → Hr) (d : Dev) : (updHr f d).ev = d.ev := rfl
@[simp] theorem updHr_tb (f : Hr → Hr) (d : Dev) : (updHr f d).tb = d.tb := rfl
@[simp] theorem updHr_lanes (f : Hr → Hr) (d : Dev) : (updHr f d).lanes = d.lanes := rfl
@[simp] theorem updHr_pairs (f : Hr → Hr) (d : Dev) : (updHr f d).pairs = d.pairs := rfl
@[simp] theorem updHr_bank (f : Hr → Hr) (d : Dev) : (updHr f d).bank = d.bank := rfl
@[simp] theorem updHr_cl (f : Hr → Hr) (d : Dev) : (updHr f d).cl = d.cl := rfl
@[simp] theorem updHr_hr (f : Hr → Hr) (d : Dev) : (updHr f d).hr = f d.hr := rfl
@[simp] theorem updHr_pe (f : Hr → Hr) (d : Dev) : (updHr f d).pe = d.pe := rfl
@[simp] theorem updHr_dr (f : Hr → Hr) (d : Dev) : (updHr f d).dr = d.dr := rfl
@[simp] theorem updHr_trl (f : Hr → Hr) (d : Dev) : (updHr f d).trl = d.trl := rfl
@[simp] theorem updHr_pwr (f : Hr → Hr) (d : Dev) : (updHr f d).pwr = d.pwr := rfl
@[simp] theorem updHr_engines (f : Hr → Hr) (d : Dev) : (updHr f d).engines = d.engines := rfl
@[simp] theorem updHr_cores (f : Hr → Hr) (d : Dev) : (updHr f d).cores = d.cores := rfl
@[simp] theorem updHr_mbox (f : Hr → Hr) (d : Dev) : (updHr f d).mbox = d.mbox := rfl
@[simp] theorem updHr_mtags (f : Hr → Hr) (d : Dev) : (updHr f d).mtags = d.mtags := rfl
@[simp] theorem updHr_ls (f : Hr → Hr) (d : Dev) : (updHr f d).ls = d.ls := rfl
@[simp] theorem updHr_wd (f : Hr → Hr) (d : Dev) : (updHr f d).wd = d.wd := rfl
@[simp] theorem updHr_bist (f : Hr → Hr) (d : Dev) : (updHr f d).bist = d.bist := rfl

/-! ### updLane -/

@[simp] theorem updLane_clk (k : Nat) (f : Lane → Lane) (d : Dev) : (updLane k f d).clk = d.clk := rfl
@[simp] theorem updLane_freeCtr (k : Nat) (f : Lane → Lane) (d : Dev) : (updLane k f d).freeCtr = d.freeCtr := rfl
@[simp] theorem updLane_rdata (k : Nat) (f : Lane → Lane) (d : Dev) : (updLane k f d).rdata = d.rdata := rfl
@[simp] theorem updLane_rcpl (k : Nat) (f : Lane → Lane) (d : Dev) : (updLane k f d).rcpl = d.rcpl := rfl
@[simp] theorem updLane_out (k : Nat) (f : Lane → Lane) (d : Dev) : (updLane k f d).out = d.out := rfl
@[simp] theorem updLane_committed (k : Nat) (f : Lane → Lane) (d : Dev) : (updLane k f d).committed = d.committed := rfl
@[simp] theorem updLane_cfg (k : Nat) (f : Lane → Lane) (d : Dev) : (updLane k f d).cfg = d.cfg := rfl
@[simp] theorem updLane_sys (k : Nat) (f : Lane → Lane) (d : Dev) : (updLane k f d).sys = d.sys := rfl
@[simp] theorem updLane_rc (k : Nat) (f : Lane → Lane) (d : Dev) : (updLane k f d).rc = d.rc := rfl
@[simp] theorem updLane_ev (k : Nat) (f : Lane → Lane) (d : Dev) : (updLane k f d).ev = d.ev := rfl
@[simp] theorem updLane_tb (k : Nat) (f : Lane → Lane) (d : Dev) : (updLane k f d).tb = d.tb := rfl
@[simp] theorem updLane_lanes (k : Nat) (f : Lane → Lane) (d : Dev) : (updLane k f d).lanes = upd? d.lanes k f := rfl
@[simp] theorem updLane_pairs (k : Nat) (f : Lane → Lane) (d : Dev) : (updLane k f d).pairs = d.pairs := rfl
@[simp] theorem updLane_bank (k : Nat) (f : Lane → Lane) (d : Dev) : (updLane k f d).bank = d.bank := rfl
@[simp] theorem updLane_cl (k : Nat) (f : Lane → Lane) (d : Dev) : (updLane k f d).cl = d.cl := rfl
@[simp] theorem updLane_hr (k : Nat) (f : Lane → Lane) (d : Dev) : (updLane k f d).hr = d.hr := rfl
@[simp] theorem updLane_pe (k : Nat) (f : Lane → Lane) (d : Dev) : (updLane k f d).pe = d.pe := rfl
@[simp] theorem updLane_dr (k : Nat) (f : Lane → Lane) (d : Dev) : (updLane k f d).dr = d.dr := rfl
@[simp] theorem updLane_trl (k : Nat) (f : Lane → Lane) (d : Dev) : (updLane k f d).trl = d.trl := rfl
@[simp] theorem updLane_pwr (k : Nat) (f : Lane → Lane) (d : Dev) : (updLane k f d).pwr = d.pwr := rfl
@[simp] theorem updLane_engines (k : Nat) (f : Lane → Lane) (d : Dev) : (updLane k f d).engines = d.engines := rfl
@[simp] theorem updLane_cores (k : Nat) (f : Lane → Lane) (d : Dev) : (updLane k f d).cores = d.cores := rfl
@[simp] theorem updLane_mbox (k : Nat) (f : Lane → Lane) (d : Dev) : (updLane k f d).mbox = d.mbox := rfl
@[simp] theorem updLane_mtags (k : Nat) (f : Lane → Lane) (d : Dev) : (updLane k f d).mtags = d.mtags := rfl
@[simp] theorem updLane_ls (k : Nat) (f : Lane → Lane) (d : Dev) : (updLane k f d).ls = d.ls := rfl
@[simp] theorem updLane_wd (k : Nat) (f : Lane → Lane) (d : Dev) : (updLane k f d).wd = d.wd := rfl
@[simp] theorem updLane_bist (k : Nat) (f : Lane → Lane) (d : Dev) : (updLane k f d).bist = d.bist := rfl

/-! ### updEng -/

@[simp] theorem updEng_clk (k : Nat) (f : Engine → Engine) (d : Dev) : (updEng k f d).clk = d.clk := rfl
@[simp] theorem updEng_freeCtr (k : Nat) (f : Engine → Engine) (d : Dev) : (updEng k f d).freeCtr = d.freeCtr := rfl
@[simp] theorem updEng_rdata (k : Nat) (f : Engine → Engine) (d : Dev) : (updEng k f d).rdata = d.rdata := rfl
@[simp] theorem updEng_rcpl (k : Nat) (f : Engine → Engine) (d : Dev) : (updEng k f d).rcpl = d.rcpl := rfl
@[simp] theorem updEng_out (k : Nat) (f : Engine → Engine) (d : Dev) : (updEng k f d).out = d.out := rfl
@[simp] theorem updEng_committed (k : Nat) (f : Engine → Engine) (d : Dev) : (updEng k f d).committed = d.committed := rfl
@[simp] theorem updEng_cfg (k : Nat) (f : Engine → Engine) (d : Dev) : (updEng k f d).cfg = d.cfg := rfl
@[simp] theorem updEng_sys (k : Nat) (f : Engine → Engine) (d : Dev) : (updEng k f d).sys = d.sys := rfl
@[simp] theorem updEng_rc (k : Nat) (f : Engine → Engine) (d : Dev) : (updEng k f d).rc = d.rc := rfl
@[simp] theorem updEng_ev (k : Nat) (f : Engine → Engine) (d : Dev) : (updEng k f d).ev = d.ev := rfl
@[simp] theorem updEng_tb (k : Nat) (f : Engine → Engine) (d : Dev) : (updEng k f d).tb = d.tb := rfl
@[simp] theorem updEng_lanes (k : Nat) (f : Engine → Engine) (d : Dev) : (updEng k f d).lanes = d.lanes := rfl
@[simp] theorem updEng_pairs (k : Nat) (f : Engine → Engine) (d : Dev) : (updEng k f d).pairs = d.pairs := rfl
@[simp] theorem updEng_bank (k : Nat) (f : Engine → Engine) (d : Dev) : (updEng k f d).bank = d.bank := rfl
@[simp] theorem updEng_cl (k : Nat) (f : Engine → Engine) (d : Dev) : (updEng k f d).cl = d.cl := rfl
@[simp] theorem updEng_hr (k : Nat) (f : Engine → Engine) (d : Dev) : (updEng k f d).hr = d.hr := rfl
@[simp] theorem updEng_pe (k : Nat) (f : Engine → Engine) (d : Dev) : (updEng k f d).pe = d.pe := rfl
@[simp] theorem updEng_dr (k : Nat) (f : Engine → Engine) (d : Dev) : (updEng k f d).dr = d.dr := rfl
@[simp] theorem updEng_trl (k : Nat) (f : Engine → Engine) (d : Dev) : (updEng k f d).trl = d.trl := rfl
@[simp] theorem updEng_pwr (k : Nat) (f : Engine → Engine) (d : Dev) : (updEng k f d).pwr = d.pwr := rfl
@[simp] theorem updEng_engines (k : Nat) (f : Engine → Engine) (d : Dev) : (updEng k f d).engines = upd? d.engines k f := rfl
@[simp] theorem updEng_cores (k : Nat) (f : Engine → Engine) (d : Dev) : (updEng k f d).cores = d.cores := rfl
@[simp] theorem updEng_mbox (k : Nat) (f : Engine → Engine) (d : Dev) : (updEng k f d).mbox = d.mbox := rfl
@[simp] theorem updEng_mtags (k : Nat) (f : Engine → Engine) (d : Dev) : (updEng k f d).mtags = d.mtags := rfl
@[simp] theorem updEng_ls (k : Nat) (f : Engine → Engine) (d : Dev) : (updEng k f d).ls = d.ls := rfl
@[simp] theorem updEng_wd (k : Nat) (f : Engine → Engine) (d : Dev) : (updEng k f d).wd = d.wd := rfl
@[simp] theorem updEng_bist (k : Nat) (f : Engine → Engine) (d : Dev) : (updEng k f d).bist = d.bist := rfl

/-! ### updCore -/

@[simp] theorem updCore_clk (k : Nat) (f : Core → Core) (d : Dev) : (updCore k f d).clk = d.clk := rfl
@[simp] theorem updCore_freeCtr (k : Nat) (f : Core → Core) (d : Dev) : (updCore k f d).freeCtr = d.freeCtr := rfl
@[simp] theorem updCore_rdata (k : Nat) (f : Core → Core) (d : Dev) : (updCore k f d).rdata = d.rdata := rfl
@[simp] theorem updCore_rcpl (k : Nat) (f : Core → Core) (d : Dev) : (updCore k f d).rcpl = d.rcpl := rfl
@[simp] theorem updCore_out (k : Nat) (f : Core → Core) (d : Dev) : (updCore k f d).out = d.out := rfl
@[simp] theorem updCore_committed (k : Nat) (f : Core → Core) (d : Dev) : (updCore k f d).committed = d.committed := rfl
@[simp] theorem updCore_cfg (k : Nat) (f : Core → Core) (d : Dev) : (updCore k f d).cfg = d.cfg := rfl
@[simp] theorem updCore_sys (k : Nat) (f : Core → Core) (d : Dev) : (updCore k f d).sys = d.sys := rfl
@[simp] theorem updCore_rc (k : Nat) (f : Core → Core) (d : Dev) : (updCore k f d).rc = d.rc := rfl
@[simp] theorem updCore_ev (k : Nat) (f : Core → Core) (d : Dev) : (updCore k f d).ev = d.ev := rfl
@[simp] theorem updCore_tb (k : Nat) (f : Core → Core) (d : Dev) : (updCore k f d).tb = d.tb := rfl
@[simp] theorem updCore_lanes (k : Nat) (f : Core → Core) (d : Dev) : (updCore k f d).lanes = d.lanes := rfl
@[simp] theorem updCore_pairs (k : Nat) (f : Core → Core) (d : Dev) : (updCore k f d).pairs = d.pairs := rfl
@[simp] theorem updCore_bank (k : Nat) (f : Core → Core) (d : Dev) : (updCore k f d).bank = d.bank := rfl
@[simp] theorem updCore_cl (k : Nat) (f : Core → Core) (d : Dev) : (updCore k f d).cl = d.cl := rfl
@[simp] theorem updCore_hr (k : Nat) (f : Core → Core) (d : Dev) : (updCore k f d).hr = d.hr := rfl
@[simp] theorem updCore_pe (k : Nat) (f : Core → Core) (d : Dev) : (updCore k f d).pe = d.pe := rfl
@[simp] theorem updCore_dr (k : Nat) (f : Core → Core) (d : Dev) : (updCore k f d).dr = d.dr := rfl
@[simp] theorem updCore_trl (k : Nat) (f : Core → Core) (d : Dev) : (updCore k f d).trl = d.trl := rfl
@[simp] theorem updCore_pwr (k : Nat) (f : Core → Core) (d : Dev) : (updCore k f d).pwr = d.pwr := rfl
@[simp] theorem updCore_engines (k : Nat) (f : Core → Core) (d : Dev) : (updCore k f d).engines = d.engines := rfl
@[simp] theorem updCore_cores (k : Nat) (f : Core → Core) (d : Dev) : (updCore k f d).cores = upd? d.cores k f := rfl
@[simp] theorem updCore_mbox (k : Nat) (f : Core → Core) (d : Dev) : (updCore k f d).mbox = d.mbox := rfl
@[simp] theorem updCore_mtags (k : Nat) (f : Core → Core) (d : Dev) : (updCore k f d).mtags = d.mtags := rfl
@[simp] theorem updCore_ls (k : Nat) (f : Core → Core) (d : Dev) : (updCore k f d).ls = d.ls := rfl
@[simp] theorem updCore_wd (k : Nat) (f : Core → Core) (d : Dev) : (updCore k f d).wd = d.wd := rfl
@[simp] theorem updCore_bist (k : Nat) (f : Core → Core) (d : Dev) : (updCore k f d).bist = d.bist := rfl

/-! ### updLs -/

@[simp] theorem updLs_clk (k : Nat) (f : Ls → Ls) (d : Dev) : (updLs k f d).clk = d.clk := rfl
@[simp] theorem updLs_freeCtr (k : Nat) (f : Ls → Ls) (d : Dev) : (updLs k f d).freeCtr = d.freeCtr := rfl
@[simp] theorem updLs_rdata (k : Nat) (f : Ls → Ls) (d : Dev) : (updLs k f d).rdata = d.rdata := rfl
@[simp] theorem updLs_rcpl (k : Nat) (f : Ls → Ls) (d : Dev) : (updLs k f d).rcpl = d.rcpl := rfl
@[simp] theorem updLs_out (k : Nat) (f : Ls → Ls) (d : Dev) : (updLs k f d).out = d.out := rfl
@[simp] theorem updLs_committed (k : Nat) (f : Ls → Ls) (d : Dev) : (updLs k f d).committed = d.committed := rfl
@[simp] theorem updLs_cfg (k : Nat) (f : Ls → Ls) (d : Dev) : (updLs k f d).cfg = d.cfg := rfl
@[simp] theorem updLs_sys (k : Nat) (f : Ls → Ls) (d : Dev) : (updLs k f d).sys = d.sys := rfl
@[simp] theorem updLs_rc (k : Nat) (f : Ls → Ls) (d : Dev) : (updLs k f d).rc = d.rc := rfl
@[simp] theorem updLs_ev (k : Nat) (f : Ls → Ls) (d : Dev) : (updLs k f d).ev = d.ev := rfl
@[simp] theorem updLs_tb (k : Nat) (f : Ls → Ls) (d : Dev) : (updLs k f d).tb = d.tb := rfl
@[simp] theorem updLs_lanes (k : Nat) (f : Ls → Ls) (d : Dev) : (updLs k f d).lanes = d.lanes := rfl
@[simp] theorem updLs_pairs (k : Nat) (f : Ls → Ls) (d : Dev) : (updLs k f d).pairs = d.pairs := rfl
@[simp] theorem updLs_bank (k : Nat) (f : Ls → Ls) (d : Dev) : (updLs k f d).bank = d.bank := rfl
@[simp] theorem updLs_cl (k : Nat) (f : Ls → Ls) (d : Dev) : (updLs k f d).cl = d.cl := rfl
@[simp] theorem updLs_hr (k : Nat) (f : Ls → Ls) (d : Dev) : (updLs k f d).hr = d.hr := rfl
@[simp] theorem updLs_pe (k : Nat) (f : Ls → Ls) (d : Dev) : (updLs k f d).pe = d.pe := rfl
@[simp] theorem updLs_dr (k : Nat) (f : Ls → Ls) (d : Dev) : (updLs k f d).dr = d.dr := rfl
@[simp] theorem updLs_trl (k : Nat) (f : Ls → Ls) (d : Dev) : (updLs k f d).trl = d.trl := rfl
@[simp] theorem updLs_pwr (k : Nat) (f : Ls → Ls) (d : Dev) : (updLs k f d).pwr = d.pwr := rfl
@[simp] theorem updLs_engines (k : Nat) (f : Ls → Ls) (d : Dev) : (updLs k f d).engines = d.engines := rfl
@[simp] theorem updLs_cores (k : Nat) (f : Ls → Ls) (d : Dev) : (updLs k f d).cores = d.cores := rfl
@[simp] theorem updLs_mbox (k : Nat) (f : Ls → Ls) (d : Dev) : (updLs k f d).mbox = d.mbox := rfl
@[simp] theorem updLs_mtags (k : Nat) (f : Ls → Ls) (d : Dev) : (updLs k f d).mtags = d.mtags := rfl
@[simp] theorem updLs_ls (k : Nat) (f : Ls → Ls) (d : Dev) : (updLs k f d).ls = upd? d.ls k f := rfl
@[simp] theorem updLs_wd (k : Nat) (f : Ls → Ls) (d : Dev) : (updLs k f d).wd = d.wd := rfl
@[simp] theorem updLs_bist (k : Nat) (f : Ls → Ls) (d : Dev) : (updLs k f d).bist = d.bist := rfl

/-! ### updWd -/

@[simp] theorem updWd_clk (k : Nat) (f : Wd → Wd) (d : Dev) : (updWd k f d).clk = d.clk := rfl
@[simp] theorem updWd_freeCtr (k : Nat) (f : Wd → Wd) (d : Dev) : (updWd k f d).freeCtr = d.freeCtr := rfl
@[simp] theorem updWd_rdata (k : Nat) (f : Wd → Wd) (d : Dev) : (updWd k f d).rdata = d.rdata := rfl
@[simp] theorem updWd_rcpl (k : Nat) (f : Wd → Wd) (d : Dev) : (updWd k f d).rcpl = d.rcpl := rfl
@[simp] theorem updWd_out (k : Nat) (f : Wd → Wd) (d : Dev) : (updWd k f d).out = d.out := rfl
@[simp] theorem updWd_committed (k : Nat) (f : Wd → Wd) (d : Dev) : (updWd k f d).committed = d.committed := rfl
@[simp] theorem updWd_cfg (k : Nat) (f : Wd → Wd) (d : Dev) : (updWd k f d).cfg = d.cfg := rfl
@[simp] theorem updWd_sys (k : Nat) (f : Wd → Wd) (d : Dev) : (updWd k f d).sys = d.sys := rfl
@[simp] theorem updWd_rc (k : Nat) (f : Wd → Wd) (d : Dev) : (updWd k f d).rc = d.rc := rfl
@[simp] theorem updWd_ev (k : Nat) (f : Wd → Wd) (d : Dev) : (updWd k f d).ev = d.ev := rfl
@[simp] theorem updWd_tb (k : Nat) (f : Wd → Wd) (d : Dev) : (updWd k f d).tb = d.tb := rfl
@[simp] theorem updWd_lanes (k : Nat) (f : Wd → Wd) (d : Dev) : (updWd k f d).lanes = d.lanes := rfl
@[simp] theorem updWd_pairs (k : Nat) (f : Wd → Wd) (d : Dev) : (updWd k f d).pairs = d.pairs := rfl
@[simp] theorem updWd_bank (k : Nat) (f : Wd → Wd) (d : Dev) : (updWd k f d).bank = d.bank := rfl
@[simp] theorem updWd_cl (k : Nat) (f : Wd → Wd) (d : Dev) : (updWd k f d).cl = d.cl := rfl
@[simp] theorem updWd_hr (k : Nat) (f : Wd → Wd) (d : Dev) : (updWd k f d).hr = d.hr := rfl
@[simp] theorem updWd_pe (k : Nat) (f : Wd → Wd) (d : Dev) : (updWd k f d).pe = d.pe := rfl
@[simp] theorem updWd_dr (k : Nat) (f : Wd → Wd) (d : Dev) : (updWd k f d).dr = d.dr := rfl
@[simp] theorem updWd_trl (k : Nat) (f : Wd → Wd) (d : Dev) : (updWd k f d).trl = d.trl := rfl
@[simp] theorem updWd_pwr (k : Nat) (f : Wd → Wd) (d : Dev) : (updWd k f d).pwr = d.pwr := rfl
@[simp] theorem updWd_engines (k : Nat) (f : Wd → Wd) (d : Dev) : (updWd k f d).engines = d.engines := rfl
@[simp] theorem updWd_cores (k : Nat) (f : Wd → Wd) (d : Dev) : (updWd k f d).cores = d.cores := rfl
@[simp] theorem updWd_mbox (k : Nat) (f : Wd → Wd) (d : Dev) : (updWd k f d).mbox = d.mbox := rfl
@[simp] theorem updWd_mtags (k : Nat) (f : Wd → Wd) (d : Dev) : (updWd k f d).mtags = d.mtags := rfl
@[simp] theorem updWd_ls (k : Nat) (f : Wd → Wd) (d : Dev) : (updWd k f d).ls = d.ls := rfl
@[simp] theorem updWd_wd (k : Nat) (f : Wd → Wd) (d : Dev) : (updWd k f d).wd = upd? d.wd k f := rfl
@[simp] theorem updWd_bist (k : Nat) (f : Wd → Wd) (d : Dev) : (updWd k f d).bist = d.bist := rfl

/-! ### updBin -/

@[simp] theorem updBin_clk (k : Nat) (f : Bin → Bin) (d : Dev) : (updBin k f d).clk = d.clk := rfl
@[simp] theorem updBin_freeCtr (k : Nat) (f : Bin → Bin) (d : Dev) : (updBin k f d).freeCtr = d.freeCtr := rfl
@[simp] theorem updBin_rdata (k : Nat) (f : Bin → Bin) (d : Dev) : (updBin k f d).rdata = d.rdata := rfl
@[simp] theorem updBin_rcpl (k : Nat) (f : Bin → Bin) (d : Dev) : (updBin k f d).rcpl = d.rcpl := rfl
@[simp] theorem updBin_out (k : Nat) (f : Bin → Bin) (d : Dev) : (updBin k f d).out = d.out := rfl
@[simp] theorem updBin_committed (k : Nat) (f : Bin → Bin) (d : Dev) : (updBin k f d).committed = d.committed := rfl
@[simp] theorem updBin_cfg (k : Nat) (f : Bin → Bin) (d : Dev) : (updBin k f d).cfg = d.cfg := rfl
@[simp] theorem updBin_sys (k : Nat) (f : Bin → Bin) (d : Dev) : (updBin k f d).sys = d.sys := rfl
@[simp] theorem updBin_rc (k : Nat) (f : Bin → Bin) (d : Dev) : (updBin k f d).rc = d.rc := rfl
@[simp] theorem updBin_ev (k : Nat) (f : Bin → Bin) (d : Dev) : (updBin k f d).ev = d.ev := rfl
@[simp] theorem updBin_tb (k : Nat) (f : Bin → Bin) (d : Dev) : (updBin k f d).tb = d.tb := rfl
@[simp] theorem updBin_lanes (k : Nat) (f : Bin → Bin) (d : Dev) : (updBin k f d).lanes = d.lanes := rfl
@[simp] theorem updBin_pairs (k : Nat) (f : Bin → Bin) (d : Dev) : (updBin k f d).pairs = d.pairs := rfl
@[simp] theorem updBin_bank (k : Nat) (f : Bin → Bin) (d : Dev) : (updBin k f d).bank = d.bank := rfl
@[simp] theorem updBin_cl (k : Nat) (f : Bin → Bin) (d : Dev) : (updBin k f d).cl = { d.cl with bins := upd? d.cl.bins k f } := rfl
@[simp] theorem updBin_hr (k : Nat) (f : Bin → Bin) (d : Dev) : (updBin k f d).hr = d.hr := rfl
@[simp] theorem updBin_pe (k : Nat) (f : Bin → Bin) (d : Dev) : (updBin k f d).pe = d.pe := rfl
@[simp] theorem updBin_dr (k : Nat) (f : Bin → Bin) (d : Dev) : (updBin k f d).dr = d.dr := rfl
@[simp] theorem updBin_trl (k : Nat) (f : Bin → Bin) (d : Dev) : (updBin k f d).trl = d.trl := rfl
@[simp] theorem updBin_pwr (k : Nat) (f : Bin → Bin) (d : Dev) : (updBin k f d).pwr = d.pwr := rfl
@[simp] theorem updBin_engines (k : Nat) (f : Bin → Bin) (d : Dev) : (updBin k f d).engines = d.engines := rfl
@[simp] theorem updBin_cores (k : Nat) (f : Bin → Bin) (d : Dev) : (updBin k f d).cores = d.cores := rfl
@[simp] theorem updBin_mbox (k : Nat) (f : Bin → Bin) (d : Dev) : (updBin k f d).mbox = d.mbox := rfl
@[simp] theorem updBin_mtags (k : Nat) (f : Bin → Bin) (d : Dev) : (updBin k f d).mtags = d.mtags := rfl
@[simp] theorem updBin_ls (k : Nat) (f : Bin → Bin) (d : Dev) : (updBin k f d).ls = d.ls := rfl
@[simp] theorem updBin_wd (k : Nat) (f : Bin → Bin) (d : Dev) : (updBin k f d).wd = d.wd := rfl
@[simp] theorem updBin_bist (k : Nat) (f : Bin → Bin) (d : Dev) : (updBin k f d).bist = d.bist := rfl

/-! ### updCluster -/

@[simp] theorem updCluster_clk (k : Nat) (f : Cluster → Cluster) (d : Dev) : (updCluster k f d).clk = d.clk := rfl
@[simp] theorem updCluster_freeCtr (k : Nat) (f : Cluster → Cluster) (d : Dev) : (updCluster k f d).freeCtr = d.freeCtr := rfl
@[simp] theorem updCluster_rdata (k : Nat) (f : Cluster → Cluster) (d : Dev) : (updCluster k f d).rdata = d.rdata := rfl
@[simp] theorem updCluster_rcpl (k : Nat) (f : Cluster → Cluster) (d : Dev) : (updCluster k f d).rcpl = d.rcpl := rfl
@[simp] theorem updCluster_out (k : Nat) (f : Cluster → Cluster) (d : Dev) : (updCluster k f d).out = d.out := rfl
@[simp] theorem updCluster_committed (k : Nat) (f : Cluster → Cluster) (d : Dev) : (updCluster k f d).committed = d.committed := rfl
@[simp] theorem updCluster_cfg (k : Nat) (f : Cluster → Cluster) (d : Dev) : (updCluster k f d).cfg = d.cfg := rfl
@[simp] theorem updCluster_sys (k : Nat) (f : Cluster → Cluster) (d : Dev) : (updCluster k f d).sys = d.sys := rfl
@[simp] theorem updCluster_rc (k : Nat) (f : Cluster → Cluster) (d : Dev) : (updCluster k f d).rc = d.rc := rfl
@[simp] theorem updCluster_ev (k : Nat) (f : Cluster → Cluster) (d : Dev) : (updCluster k f d).ev = d.ev := rfl
@[simp] theorem updCluster_tb (k : Nat) (f : Cluster → Cluster) (d : Dev) : (updCluster k f d).tb = d.tb := rfl
@[simp] theorem updCluster_lanes (k : Nat) (f : Cluster → Cluster) (d : Dev) : (updCluster k f d).lanes = d.lanes := rfl
@[simp] theorem updCluster_pairs (k : Nat) (f : Cluster → Cluster) (d : Dev) : (updCluster k f d).pairs = d.pairs := rfl
@[simp] theorem updCluster_bank (k : Nat) (f : Cluster → Cluster) (d : Dev) : (updCluster k f d).bank = d.bank := rfl
@[simp] theorem updCluster_cl (k : Nat) (f : Cluster → Cluster) (d : Dev) : (updCluster k f d).cl = d.cl := rfl
@[simp] theorem updCluster_hr (k : Nat) (f : Cluster → Cluster) (d : Dev) : (updCluster k f d).hr = d.hr := rfl
@[simp] theorem updCluster_pe (k : Nat) (f : Cluster → Cluster) (d : Dev) : (updCluster k f d).pe = d.pe := rfl
@[simp] theorem updCluster_dr (k : Nat) (f : Cluster → Cluster) (d : Dev) : (updCluster k f d).dr = d.dr := rfl
@[simp] theorem updCluster_trl (k : Nat) (f : Cluster → Cluster) (d : Dev) : (updCluster k f d).trl = d.trl := rfl
@[simp] theorem updCluster_pwr (k : Nat) (f : Cluster → Cluster) (d : Dev) : (updCluster k f d).pwr = { d.pwr with cls := upd? d.pwr.cls k f } := rfl
@[simp] theorem updCluster_engines (k : Nat) (f : Cluster → Cluster) (d : Dev) : (updCluster k f d).engines = d.engines := rfl
@[simp] theorem updCluster_cores (k : Nat) (f : Cluster → Cluster) (d : Dev) : (updCluster k f d).cores = d.cores := rfl
@[simp] theorem updCluster_mbox (k : Nat) (f : Cluster → Cluster) (d : Dev) : (updCluster k f d).mbox = d.mbox := rfl
@[simp] theorem updCluster_mtags (k : Nat) (f : Cluster → Cluster) (d : Dev) : (updCluster k f d).mtags = d.mtags := rfl
@[simp] theorem updCluster_ls (k : Nat) (f : Cluster → Cluster) (d : Dev) : (updCluster k f d).ls = d.ls := rfl
@[simp] theorem updCluster_wd (k : Nat) (f : Cluster → Cluster) (d : Dev) : (updCluster k f d).wd = d.wd := rfl
@[simp] theorem updCluster_bist (k : Nat) (f : Cluster → Cluster) (d : Dev) : (updCluster k f d).bist = d.bist := rfl

/-! ### emit -/

@[simp] theorem emit_clk (o : Out) (d : Dev) : (emit o d).clk = d.clk := rfl
@[simp] theorem emit_freeCtr (o : Out) (d : Dev) : (emit o d).freeCtr = d.freeCtr := rfl
@[simp] theorem emit_rdata (o : Out) (d : Dev) : (emit o d).rdata = d.rdata := rfl
@[simp] theorem emit_rcpl (o : Out) (d : Dev) : (emit o d).rcpl = d.rcpl := rfl
@[simp] theorem emit_out (o : Out) (d : Dev) : (emit o d).out = d.out ++ [o] := rfl
@[simp] theorem emit_committed (o : Out) (d : Dev) : (emit o d).committed = d.committed := rfl
@[simp] theorem emit_cfg (o : Out) (d : Dev) : (emit o d).cfg = d.cfg := rfl
@[simp] theorem emit_sys (o : Out) (d : Dev) : (emit o d).sys = d.sys := rfl
@[simp] theorem emit_rc (o : Out) (d : Dev) : (emit o d).rc = d.rc := rfl
@[simp] theorem emit_ev (o : Out) (d : Dev) : (emit o d).ev = d.ev := rfl
@[simp] theorem emit_tb (o : Out) (d : Dev) : (emit o d).tb = d.tb := rfl
@[simp] theorem emit_lanes (o : Out) (d : Dev) : (emit o d).lanes = d.lanes := rfl
@[simp] theorem emit_pairs (o : Out) (d : Dev) : (emit o d).pairs = d.pairs := rfl
@[simp] theorem emit_bank (o : Out) (d : Dev) : (emit o d).bank = d.bank := rfl
@[simp] theorem emit_cl (o : Out) (d : Dev) : (emit o d).cl = d.cl := rfl
@[simp] theorem emit_hr (o : Out) (d : Dev) : (emit o d).hr = d.hr := rfl
@[simp] theorem emit_pe (o : Out) (d : Dev) : (emit o d).pe = d.pe := rfl
@[simp] theorem emit_dr (o : Out) (d : Dev) : (emit o d).dr = d.dr := rfl
@[simp] theorem emit_trl (o : Out) (d : Dev) : (emit o d).trl = d.trl := rfl
@[simp] theorem emit_pwr (o : Out) (d : Dev) : (emit o d).pwr = d.pwr := rfl
@[simp] theorem emit_engines (o : Out) (d : Dev) : (emit o d).engines = d.engines := rfl
@[simp] theorem emit_cores (o : Out) (d : Dev) : (emit o d).cores = d.cores := rfl
@[simp] theorem emit_mbox (o : Out) (d : Dev) : (emit o d).mbox = d.mbox := rfl
@[simp] theorem emit_mtags (o : Out) (d : Dev) : (emit o d).mtags = d.mtags := rfl
@[simp] theorem emit_ls (o : Out) (d : Dev) : (emit o d).ls = d.ls := rfl
@[simp] theorem emit_wd (o : Out) (d : Dev) : (emit o d).wd = d.wd := rfl
@[simp] theorem emit_bist (o : Out) (d : Dev) : (emit o d).bist = d.bist := rfl

/-! ### Updates of a part, through the update of its block -/

@[simp] theorem updSeq_eq (e : Nat) (f : Seq → Seq) (d : Dev) :
    updSeq e f d = updEng e (fun g => { g with seq := f g.seq }) d := rfl
@[simp] theorem updDp_eq (e : Nat) (f : Dp → Dp) (d : Dev) :
    updDp e f d = updEng e (fun g => { g with dp := f g.dp }) d := rfl
@[simp] theorem updEp_eq (e : Nat) (f : Eport → Eport) (d : Dev) :
    updEp e f d = updEng e (fun g => { g with ep := f g.ep }) d := rfl
@[simp] theorem updLife_eq (e : Nat) (f : Life → Life) (d : Dev) :
    updLife e f d = updEng e (fun g => { g with life := f g.life }) d := rfl
@[simp] theorem updRec_eq (b : Nat) (p : Rec → Bool) (f : Rec → Rec) (d : Dev) :
    updRec b p f d = updBin b (fun x => { x with recs := x.recs.map fun r => if p r then f r else r }) d := rfl
@[simp] theorem updBank_eq (k : Nat) (f : Bank → Bank) (d : Dev) :
    updBank k f d = updCl (fun l => { l with banks := upd? l.banks k f }) d := rfl
@[simp] theorem updRing_eq (r : Nat) (f : HostRing → HostRing) (d : Dev) :
    updRing r f d = updDr (fun x => { x with rings := upd? x.rings r f }) d := rfl
@[simp] theorem updWs_eq (n : Nat) (f : WStat → WStat) (d : Dev) :
    updWs n f d = updTrl (fun t => { t with ws := upd? t.ws n f }) d := rfl
@[simp] theorem updRport_eq (p : Nat) (f : RingPort → RingPort) (d : Dev) :
    updRport p f d = updHr (fun h => { h with ports := upd? h.ports p f }) d := rfl
@[simp] theorem updChan_eq (ch : Nat) (f : Chan → Chan) (d : Dev) :
    updChan ch f d = updHr (fun h => { h with chans := upd? h.chans ch f }) d := rfl
@[simp] theorem updCmp_eq (k : Nat) (f : Cmp → Cmp) (d : Dev) :
    updCmp k f d = updTb (fun t => { t with cmps := upd? t.cmps k f }) d := rfl
@[simp] theorem updGc_eq (g : Nat) (f : Gc → Gc) (d : Dev) :
    updGc g f d = updTb (fun t => { t with gcs := upd? t.gcs g f }) d := rfl
@[simp] theorem updCap_eq (c : Nat) (f : Cap → Cap) (d : Dev) :
    updCap c f d = updTb (fun t => { t with caps := upd? t.caps c f }) d := rfl

/-! ### Readers of one part -/

@[simp] theorem engine_fin (d : Dev) (e : Fin 32) : engine d e.val = d.engines[e] := at?_fin _ _ _
@[simp] theorem lane_fin (d : Dev) (n : Fin 64) : lane d n.val = d.lanes[n] := at?_fin _ _ _
@[simp] theorem core_fin (d : Dev) (c : Fin 4) : core d c.val = d.cores[c] := at?_fin _ _ _
@[simp] theorem bin_fin (d : Dev) (b : Fin 256) : bin d b.val = d.cl.bins[b] := at?_fin _ _ _
@[simp] theorem rport_fin (d : Dev) (p : Fin 2) : rport d p.val = d.hr.ports[p] := at?_fin _ _ _
@[simp] theorem hring_fin (d : Dev) (r : Fin 8) : hring d r.val = d.dr.rings[r] := at?_fin _ _ _
@[simp] theorem cluster_fin (d : Dev) (k : Fin 8) : cluster d k.val = d.pwr.cls[k] := at?_fin _ _ _

theorem engine_updEng (k e : Nat) (f : Engine → Engine) (d : Dev) :
    engine (updEng k f d) e = if k = e ∧ e < 32 then f (engine d e) else engine d e := at?_upd? _ _ _ _ _
theorem lane_updLane (k n : Nat) (f : Lane → Lane) (d : Dev) :
    lane (updLane k f d) n = if k = n ∧ n < 64 then f (lane d n) else lane d n := at?_upd? _ _ _ _ _
theorem core_updCore (k c : Nat) (f : Core → Core) (d : Dev) :
    core (updCore k f d) c = if k = c ∧ c < 4 then f (core d c) else core d c := at?_upd? _ _ _ _ _
theorem bin_updBin (k b : Nat) (f : Bin → Bin) (d : Dev) :
    bin (updBin k f d) b = if k = b ∧ b < 256 then f (bin d b) else bin d b := at?_upd? _ _ _ _ _
theorem rport_updRport (k p : Nat) (f : RingPort → RingPort) (d : Dev) :
    rport (updRport k f d) p = if k = p ∧ p < 2 then f (rport d p) else rport d p := at?_upd? _ _ _ _ _
theorem hring_updRing (k r : Nat) (f : HostRing → HostRing) (d : Dev) :
    hring (updRing k f d) r = if k = r ∧ r < 8 then f (hring d r) else hring d r := at?_upd? _ _ _ _ _
theorem cluster_updCluster (k c : Nat) (f : Cluster → Cluster) (d : Dev) :
    cluster (updCluster k f d) c = if k = c ∧ c < 8 then f (cluster d c) else cluster d c := at?_upd? _ _ _ _ _

end Sys2Proof.Machine
end

