-- ==== Sys2Proof/Laws/Operations.lean ====
section
/-!
SUPPORT. Sys2Proof/Laws/Operations.lean: what the shared operations can do, said once: raising an occurrence, passing time, a freeze
record, the frame of a Steward instruction and of an engine's clk, and the errors and writes of the endpoint.
-/
namespace Sys2Proof.Machine

/-! ### Raising an occurrence -/

/-- Raising changes the event router and the relay counts only. -/
def EvFrame (d t : Dev) : Prop := t = { d with ev := t.ev, hr := { d.hr with relays := t.hr.relays } }

theorem EvFrame.trans {a b c : Dev} (h : EvFrame a b) (h' : EvFrame b c) : EvFrame a c := by
  unfold EvFrame at *
  rw [h] at h'
  exact h'

theorem relayCount_frame (x : Word) (s : Nat) (d : Dev) :
    EvFrame d (relayCount x s d) ∧ (relayCount x s d).ev = d.ev := by
  unfold relayCount
  split <;> exact ⟨rfl, rfl⟩

theorem raiseAt_frame (x : Nat) (y : Word) (s : Nat) (d : Dev) :
    EvFrame d (raiseAt x y s d) ∧ (raiseAt x y s d).ev.pulses = d.ev.pulses := by
  have h := relayCount_frame y s d
  unfold raiseAt
  dsimp only
  split
  · exact ⟨rfl, rfl⟩
  · generalize relayCount y s d = t at h
    obtain ⟨h1, h2⟩ := h
    split
    · exact ⟨h1.trans rfl, by rw [h2]⟩
    · exact ⟨h1.trans rfl, by rw [h2]⟩

theorem raiseIn_frame (k s : Nat) (d : Dev) : EvFrame d (raiseIn k s d) := by
  unfold raiseIn
  dsimp only
  split
  · rfl
  · split
    · exact EvFrame.trans (b := { d with ev := _ }) rfl (raiseAt_frame _ _ _ _).1
    · rfl

/-- The occurrence is recorded in the clk in which it is raised. -/
theorem mem_pulses_raiseIn (k s : Nat) (d : Dev) : (d.clk + k, s) ∈ (raiseIn k s d).ev.pulses := by
  unfold raiseIn
  dsimp only
  split
  · rename_i h
    simpa using h
  · split
    · rw [(raiseAt_frame _ _ _ _).2]; simp
    · simp

theorem mem_pulses_raise (s : Nat) (d : Dev) : (d.clk, s) ∈ (raise s d).ev.pulses := mem_pulses_raiseIn 0 s d

/-- An occurrence recorded in this clk or later stays recorded. -/
theorem pulses_raiseIn_mono {k s : Nat} {d : Dev} {x : Nat × Nat} (h : x ∈ d.ev.pulses) (hx : d.clk ≤ x.1) :
    x ∈ (raiseIn k s d).ev.pulses := by
  have : x ∈ d.ev.pulses.filter fun x => decide (d.clk ≤ x.1) := by simp [h, hx]
  unfold raiseIn
  dsimp only
  split
  · exact h
  · split
    · rw [(raiseAt_frame _ _ _ _).2]; exact List.mem_cons_of_mem _ this
    · exact List.mem_cons_of_mem _ this

/-- At most one occurrence of a source is raised in a clk (R261). -/
theorem raiseIn_once {k s : Nat} {d : Dev} (h : d.ev.pulses.contains (d.clk + k, s) = true) : raiseIn k s d = d := by
  unfold raiseIn
  rw [if_pos h]

theorem raiseSoon_frame (n : Nat) (d : Dev) : EvFrame d (raiseSoon n d) := by
  have : ∀ (l : List (Nat × Nat)) (g : Nat × Nat → Word) (t : Dev), EvFrame t (l.foldl (fun e x => raiseAt x.1 (g x) x.2 e) t) := by
    intro l g
    induction l with
    | nil => exact fun _ => rfl
    | cons x r ih => exact fun t => (raiseAt_frame _ _ _ t).1.trans (ih _)
  exact EvFrame.trans (b := { d with ev := _ }) rfl (this _ _ _)

/-! ### Time -/

/-- What the passing of clk leaves of an engine: its microwords, registers of the sequencer, lifecycle, scratch. -/
def SameEngine (g h : Engine) : Prop :=
  h = { g with ep := h.ep, dp := h.dp, seq := { g.seq with budcnt := h.seq.budcnt, overrun := h.seq.overrun } }

theorem SameEngine.trans {a b c : Engine} (h : SameEngine a b) (h' : SameEngine b c) : SameEngine a c := by
  unfold SameEngine at *
  rw [h] at h'
  exact h'

/-- What a device may change while `n` clk pass: the clk, the Sundial, the event router, relay counts, lanes, engines as `SameEngine` says,
waits of cores, Cellar writes under way, and the loader's STATE in the clk after a commit. -/
def PassFrame (n : Nat) (d t : Dev) : Prop :=
  t = { d with
    clk := d.clk + n, tb := t.tb, ev := t.ev, engines := t.engines, lanes := t.lanes, cores := t.cores
    cl := { d.cl with mem := t.cl.mem, bins := t.cl.bins, ports := t.cl.ports }
    trl := { d.trl with st := t.trl.st }, hr := { d.hr with relays := t.hr.relays } } ∧
  ∀ e : Fin 32, SameEngine d.engines[e] t.engines[e]

theorem PassFrame.refl (d : Dev) : PassFrame 0 d d := ⟨rfl, fun _ => rfl⟩

theorem PassFrame.trans {m n : Nat} {a b c : Dev} (h : PassFrame m a b) (h' : PassFrame n b c) : PassFrame (m + n) a c := by
  obtain ⟨h, hb⟩ := h
  obtain ⟨h', hc⟩ := h'
  refine ⟨?_, fun e => (hb e).trans (hc e)⟩
  rw [h] at h'
  rw [← Nat.add_assoc]
  exact h'

/-- A part of the passing of clk that keeps the engines. -/
theorem PassFrame.same {d t : Dev} (h : t.engines = d.engines) (h' : t = { d with
    tb := t.tb, ev := t.ev, lanes := t.lanes, cores := t.cores
    cl := { d.cl with mem := t.cl.mem, bins := t.cl.bins, ports := t.cl.ports }
    trl := { d.trl with st := t.trl.st }, hr := { d.hr with relays := t.hr.relays } }) : PassFrame 0 d t := by
  refine ⟨?_, fun e => ?_⟩
  · rw [h]; exact h'
  · rw [h]; rfl

theorem EvFrame.pass {d t : Dev} (h : EvFrame d t) : PassFrame 0 d t := by
  unfold EvFrame at h
  refine .same (by rw [h]) ?_
  rw [h]

theorem raiseIn_passFrame (k s : Nat) (d : Dev) : PassFrame 0 d (raiseIn k s d) := (raiseIn_frame k s d).pass

/-- A fold of such parts. -/
theorem passFrame_foldl {α : Type} (f : Dev → α → Dev) (hf : ∀ d a, PassFrame 0 d (f d a)) (l : List α) (d : Dev) :
    PassFrame 0 d (l.foldl f d) := by
  induction l generalizing d with
  | nil => exact .refl d
  | cons a r ih => exact (hf d a).trans (ih _)

theorem updEv_passFrame (f : Ev → Ev) (d : Dev) : PassFrame 0 d (updEv f d) := .same rfl rfl
theorem updLane_passFrame (n : Nat) (f : Lane → Lane) (d : Dev) : PassFrame 0 d (updLane n f d) := .same rfl rfl

/-- A change of one engine that keeps what time keeps. -/
theorem updEng_passFrame (e : Nat) (f : Engine → Engine) (hf : ∀ g, SameEngine g (f g)) (d : Dev) : PassFrame 0 d (updEng e f d) := by
  refine ⟨rfl, fun k => ?_⟩
  have := engine_updEng e k.val f d
  simp only [engine_fin] at this
  rw [this]
  split
  · exact hf _
  · rfl

theorem updDp_passFrame (e : Nat) (f : Dp → Dp) (d : Dev) : PassFrame 0 d (updDp e f d) :=
  updEng_passFrame e (fun g => { g with dp := f g.dp }) (fun _ => rfl) d
theorem updEp_passFrame (e : Nat) (f : Eport → Eport) (d : Dev) : PassFrame 0 d (updEp e f d) :=
  updEng_passFrame e (fun g => { g with ep := f g.ep }) (fun _ => rfl) d

theorem gcPass_frame (n : Nat) (d : Dev) (g : Fin 32) : PassFrame 0 d (gcPass n d g) := by
  have base : ∀ x : Tb, PassFrame 0 d { d with tb := x } := fun x => .same rfl rfl
  have next : ∀ (x : Tb) (k s : Nat), PassFrame 0 d (raiseIn k s { d with tb := x }) := fun x k s => (base x).trans (raiseIn_passFrame k s _)
  unfold gcPass
  dsimp only
  split_ifs <;> first | exact .refl d | exact base _ | exact next _ _ _ | exact (next _ _ _).trans (raiseIn_passFrame _ _ _)

theorem bgPass_frame (n : Nat) (d : Dev) (e : Fin 32) : PassFrame 0 d (bgPass n d e) := by
  unfold bgPass bgTakeN
  dsimp only
  split
  · split
    · exact .refl d
    · split
      · exact .refl d
      · split
        · exact .refl d
        · exact (updLane_passFrame _ _ _).trans (updDp_passFrame _ _ _)
  · exact .refl d

/-- What writes under way change of the Cellar. -/
def CellarFrame (l m : Cl) : Prop := m = { l with mem := m.mem, bins := m.bins }

theorem CellarFrame.trans {a b c : Cl} (h : CellarFrame a b) (h' : CellarFrame b c) : CellarFrame a c := by
  unfold CellarFrame at *
  rw [h] at h'
  exact h'

theorem portWrite_frame (x : PortWr) (l : Cl) : CellarFrame l (portWrite x l) := by
  unfold portWrite
  split <;> rfl

theorem portRun_frame (d : Dev) (me c n : Nat) (q : List PortWr) (w : Nat) (l : Cl) : CellarFrame l (portRun d me c n q w l).2.2 := by
  induction q generalizing c n w l with
  | nil => rfl
  | cons x q ih =>
    unfold portRun
    split
    · rfl
    · exact (portWrite_frame x l).trans (ih _ _ _ _)

theorem enginePort_frame (n : Nat) (d : Dev) (e : Fin 32) : PassFrame 0 d (enginePort n d e) := by
  unfold enginePort
  dsimp only
  split
  · exact .refl d
  · have h := portRun_frame d e.val d.clk n d.engines[e].ep.queue d.engines[e].ep.portWait d.cl
    generalize portRun d e.val d.clk n d.engines[e].ep.queue d.engines[e].ep.portWait d.cl = r at h
    refine PassFrame.trans (m := 0) (n := 0) (b := { d with cl := r.2.2 }) (.same rfl ?_) (updEp_passFrame _ _ _)
    dsimp only
    rw [h]

theorem stewardPort_frame (n : Nat) (d : Dev) (x : Fin 4 × Fin 4) : PassFrame 0 d (stewardPort n d x) := by
  unfold stewardPort
  dsimp only
  split
  · exact .refl d
  · have h := portRun_frame d (32 + 4 * x.1.val + x.2.val) d.clk n d.cl.ports[x.1][x.2].queue d.cl.ports[x.1][x.2].wait d.cl
    generalize portRun d (32 + 4 * x.1.val + x.2.val) d.clk n d.cl.ports[x.1][x.2].queue d.cl.ports[x.1][x.2].wait d.cl = r at h
    refine .same rfl ?_
    dsimp only
    rw [h]

theorem landingPass_frame (n : Nat) (d : Dev) : PassFrame 0 d (landingPass n d) := by
  unfold landingPass
  split
  · exact .refl d
  · refine passFrame_foldl _ (fun d k => ?_) _ _
    split
    · exact .refl d
    · exact passFrame_foldl _ (fun d x => (updEv_passFrame _ _).trans (updEv_passFrame _ _)) _ _

theorem retainPass_frame (d : Dev) : PassFrame 0 d (retainPass d) := by
  refine passFrame_foldl _ (fun d k => ?_) _ _
  dsimp only
  split
  · exact updEv_passFrame _ _
  · exact .refl d

theorem commitEnd_frame (d : Dev) : PassFrame 0 d (commitEnd d) := by
  unfold commitEnd
  split
  · exact .refl d
  · exact .same rfl rfl
theorem engPass_same (b : Bool) (c n : Nat) (g : Engine) (p : Eport) : SameEngine g (engPass b c n { g with ep := p }) := by
  unfold engPass SameEngine Seq.count
  dsimp only
  split_ifs <;> rfl

theorem passParts_frame (n : Nat) (d : Dev) : PassFrame 0 d (passParts n d) :=
  ((((((passFrame_foldl _ (gcPass_frame n) _ _).trans (passFrame_foldl _ (bgPass_frame n) _ _)).trans
    (passFrame_foldl _ (enginePort_frame n) _ _)).trans (passFrame_foldl _ (stewardPort_frame n) _ _)).trans
    (raiseSoon_frame n _).pass).trans (landingPass_frame n _))

theorem passRest_frame (n : Nat) (d t : Dev) : PassFrame n t (passRest n d t) := by
  refine ⟨rfl, fun e => ?_⟩
  simp only [passRest, Fin.getElem_fin, Vector.getElem_ofFn]
  exact engPass_same _ _ _ _ _

theorem passRaw_frame (n : Nat) (d : Dev) : PassFrame n d (passRaw n d) := by
  have h0 : PassFrame 0 d (if n = 0 then d else commitEnd d) := by split; exacts [.refl d, commitEnd_frame d]
  simpa [passRaw] using h0.trans ((passParts_frame n _).trans ((passRest_frame n _ _).trans (retainPass_frame _)))

/-- No clk, no change. -/
@[simp] theorem pass_zero (d : Dev) : Machine.pass 0 d = d := by
  unfold Machine.pass
  rw [if_pos (by simp)]

/-- Passing time changes only what `PassFrame` lists. -/
theorem pass_frame (n : Nat) (d : Dev) : PassFrame (if d.sys.fclkOn then n else 0) d (Machine.pass n d) := by
  by_cases h0 : n = 0
  · subst h0
    rw [pass_zero]
    simp [PassFrame.refl]
  · unfold Machine.pass
    cases h : d.sys.fclkOn
    · exact .refl d
    · have hn : (n == 0) = false := by simpa using h0
      simp only [Bool.not_true, Bool.false_or, hn, Bool.false_eq_true, if_false, if_true]
      split
      · split
        · exact .refl d
        · exact passRaw_frame 1 d
        · exact (passRaw_frame 1 d).trans (passRaw_frame 1 _)
        · rename_i k
          have h := ((passRaw_frame 1 d).trans (passRaw_frame 1 _)).trans (passRaw_frame (k + 1) (passRaw 1 (passRaw 1 d)))
          have e : 1 + 1 + (k + 1) = k + 3 := by omega
          rwa [e] at h
      · exact passRaw_frame n d

/-- Without fclk nothing changes (R28). -/
theorem pass_off (n : Nat) (d : Dev) (h : d.sys.fclkOn = false) : Machine.pass n d = d := by simp [Machine.pass, h]

/-- With fclk, `n` clk are counted. -/
theorem pass_clk (n : Nat) (d : Dev) (h : d.sys.fclkOn = true) : (Machine.pass n d).clk = d.clk + n := by
  have := (pass_frame n d).1
  rw [this]
  simp [h]

/-- Up to the clk in which its microword is due, an engine keeps what time keeps. -/
theorem due_same (d : Dev) (e f : Fin 32) : SameEngine d.engines[f] (due d e).engines[f] :=
  (pass_frame (max d.engines[e].seq.covered d.engines[e].seq.reached - d.clk) d).2 f

/-- The microword at PC is the same after clk have passed. -/
theorem due_current (d : Dev) (e : Fin 32) : (due d e).engines[e].current = d.engines[e].current := by
  rw [due_same d e e]
  rfl

/-! ### Steward instructions -/

/-- The instruction of a ready core runs in its slots. -/
theorem stRow_ready {d : Dev} {c : Fin 4} {o : StOp} {i : Ins} (h : Ready d c o i) (n : Ins → Core → Nat)
    (body : Ins → Dev → StRes Dev) :
    stRow c.val o n body d =
      runIns c.val (n i (pruneBlocks d.cores[c])) i (body i) (updCore c.val pruneBlocks d) := by
  obtain ⟨h1, h2, h3, h4, h5⟩ := h
  simp only [stRow, withIns, core_fin, h1, h2, h3, h4, h5]
  simp

/-- An instruction whose body succeeds completes on what the body leaves, its PC at the next one. -/
theorem runIns_ok {c n : Nat} {i : Ins} {body : Dev → StRes Dev} {d t : Dev} (h : body (updCore c (slots (n - 1)) d) = .ok t) :
    runIns c n i body d = updCore c (fun k => slots 1 (completeIns k)) (updCore c (fun k => { k with pc := i.next }) t) := by
  simp [runIns, runJump, h, Except.map]

/-- An instruction whose body fails raises its fault; the body's effects are not there. -/
theorem runIns_error {c n : Nat} {i : Ins} {body : Dev → StRes Dev} {d : Dev} {f : StFault}
    (h : body (updCore c (slots (n - 1)) d) = .error f) :
    runIns c n i body d = raiseIns c f i.pc (updCore c (slots 1) (updCore c (slots (n - 1)) d)) := by
  simp [runIns, runJump, h, Except.map]

theorem updCore_fin (c : Fin 4) (f : Core → Core) (d : Dev) : updCore c.val f d = { d with cores := put d.cores c (f d.cores[c]) } := by
  simp only [updCore, upd?_fin]

/-- The slots of an instruction before its last one. -/
theorem lastSlot_eq (d : Dev) (c : Fin 4) (n : Nat) : updCore c.val (slots (n - 1)) (updCore c.val pruneBlocks d) = lastSlot d c n := by
  simp only [updCore_fin, lastSlot, put_put, Fin.getElem_fin, getElem_put, if_true]

/-- A ready instruction whose body succeeds in its last slot completes on what the body leaves. -/
theorem stRow_completes {d t : Dev} {c : Fin 4} {o : StOp} {i : Ins} (h : Ready d c o i) (n : Ins → Core → Nat)
    (body : Ins → Dev → StRes Dev) (hb : body i (lastSlot d c (n i (pruneBlocks d.cores[c]))) = .ok t) :
    stRow c.val o n body d = completed t c i t.cores[c] := by
  rw [stRow_ready h, runIns_ok (t := t) (by rw [lastSlot_eq]; exact hb)]
  simp only [updCore_fin, completed, jumped, put_put, Fin.getElem_fin, getElem_put, if_true]

/-- A ready instruction whose body fails in its last slot raises its fault; nothing but its slots has changed (R342). -/
theorem stRow_fails {d : Dev} {c : Fin 4} {o : StOp} {i : Ins} {f : StFault} (h : Ready d c o i) (n : Ins → Core → Nat)
    (body : Ins → Dev → StRes Dev) (hb : body i (lastSlot d c (n i (pruneBlocks d.cores[c]))) = .error f) :
    stRow c.val o n body d = raiseIns c.val f i.pc (failing d c (n i (pruneBlocks d.cores[c]))) := by
  rw [stRow_ready h, runIns_error (f := f) (by rw [lastSlot_eq]; exact hb), lastSlot_eq]
  simp only [updCore_fin, lastSlot, failing, put_put, Fin.getElem_fin, getElem_put, if_true]

/-- Slots are counted on a core as it was before its blocks were pruned. -/
@[simp] theorem opSlots_prune (c : Nat) (k : Core) (i : Ins) : opSlots c (pruneBlocks k) i = opSlots c k i := rfl

/-- A core that may not execute does nothing. -/
theorem stRow_idle {d : Dev} {c : Nat} (h : mayExecute d c = false) (o : StOp) (n : Ins → Core → Nat)
    (body : Ins → Dev → StRes Dev) : stRow c o n body d = d := by simp [stRow, withIns, h]

/-! ### Engines -/

/-- A clk of an engine that may run and commits no violation executes its microword. -/
theorem engineRow_executes {d : Dev} {e : Fin 32} {cs : Ecc} (h : executes d e cs) (p : MW → Bool)
    (hp : p (engine d e.val).current = true) (scr : Ecc) :
    engineRow p e.val cs scr d = execMicro e.val d.engines[e].current scr (due d e) := by
  obtain ⟨h1, ⟨h2, h3⟩, h4, h5, h6⟩ := h
  have hs : (due d e).engines[e].seq.fixed = d.engines[e].seq.fixed := by
    rw [due_same d e e]
  have hx : passTo (max d.engines[e].seq.covered d.engines[e].seq.reached) d = due d e := rfl
  rw [engine_fin] at hp
  simp only [engineRow, h1, engine_fin, hp, and_self, if_true, engineClk, hx, microClk, due_current, h2, if_false]
  have h7 : ¬ (cs = .ce ∧ (!(due d e).engines[e].seq.fixed) = true) := by
    rintro ⟨a, b⟩
    rw [hs, h3 a] at b
    cases b
  rw [if_neg h7, if_neg (fun a => a.1 h5), h4, h6]
  rfl

/-- An engine that may not run, or whose microword is of another kind, does nothing. -/
theorem engineRow_none {d : Dev} {e : Nat} {p : MW → Bool} (h : canRun d e = false ∨ p (engine d e).current = false) (cs scr : Ecc) :
    engineRow p e cs scr d = d := by
  rcases h with h | h <;> simp [engineRow, h]

/-! ### The endpoint -/

/-- What the endpoint's own operations may change. -/
def PeFrame (d t : Dev) : Prop := t = { d with pe := t.pe, out := t.out }

theorem PeFrame.after {a b c : Dev} (h' : PeFrame b c) (h : PeFrame a b) : PeFrame a c := by
  unfold PeFrame at *
  rw [h] at h'
  rw [h']

theorem PeFrame.ite {d a b : Dev} {c : Prop} [Decidable c] (ha : PeFrame d a) (hb : PeFrame d b) : PeFrame d (if c then a else b) := by
  split <;> assumption

theorem updPe_frame (f : Pe → Pe) (d : Dev) : PeFrame d (updPe f d) := rfl

theorem message_frame (b : Bool) (o : Out) (d : Dev) : PeFrame d (message b o d) := by
  unfold message
  split <;> rfl

theorem ceError_frame (b : Nat) (d : Dev) : PeFrame d (ceError b d) := by
  unfold ceError
  dsimp only
  split
  · rfl
  · exact (message_frame _ _ _).after rfl

theorem logHeader_frame (b : Nat) (l : Bool) (h : Option (List Word)) (d : Dev) : PeFrame d (logHeader b l h d) := by
  unfold logHeader
  split <;> rfl

/-- An uncorrectable error changes the endpoint's registers and sends messages, nothing else. -/
theorem ueError_frame (b : Nat) (adv ur : Bool) (h : Option (List Word)) (d : Dev) : PeFrame d (ueError b adv ur h d) := by
  have key : ∀ (x : Bool) (o : Out) (l : Bool) (t : Dev), PeFrame d t → PeFrame d (message x o (logHeader b l h t)) :=
    fun _ _ _ _ ht => (message_frame _ _ _).after ((logHeader_frame _ _ _ _).after ht)
  have two : ∀ f g : Pe → Pe, PeFrame d (updPe f (updPe g d)) := fun f g => (updPe_frame f _).after (updPe_frame g _)
  exact .ite (updPe_frame _ _) (.ite
    (.ite (two _ _) (key _ _ _ _ ((updPe_frame _ _).after (two _ _))))
    (.ite ((updPe_frame _ _).after (key _ _ _ _ (two _ _))) (key _ _ _ _ (two _ _))))

end Sys2Proof.Machine
end

