-- ==== Sys2Proof/Laws/Registers.lean ====
section
/-!
SUPPORT. Sys2Proof/Laws/Registers.lean: what a whole-word write that reaches its register does, and what it does where it does not.
-/
namespace Sys2Proof.Machine

/-- A word write that reaches the register at `o` is the register's write on the device `reached` gives. -/
theorem wordWrite_reached {who : Who} {o : Nat} {d d1 : Dev} (h : reached who o d = some d1) (v : Word) (h4 : o % 4 = 0)
    (ho : o < 0x100000) : ∃ d0, regVal who o d0 ≠ none ∧ d1 = regWake o d0 ∧ wordWrite who o v 0xF d = regWrite who o v d0 := by
  cases who with
  | host =>
    simp only [reached] at h
    split at h
    · rename_i hc
      cases h
      simp only [Bool.and_eq_true] at hc
      obtain ⟨⟨⟨a, b⟩, c⟩, e⟩ := hc
      refine ⟨arrive d, by intro x; simp [x] at e, rfl, ?_⟩
      have ha : (BitVec.ofNat 24 o).toNat = o := by simp; omega
      have hb : o / 4 * 4 = o := by omega
      have hd : dropped o 0xF (arrive d) = false := by simp [dropped]
      have hx : ¬ (0x100000 ≤ o) := by omega
      simp only [wordWrite, hostWrite, a, b, c, ha, hb, barWrite, hd, barWord]
      simp [hx]
    · cases h
  | ring n =>
    simp only [reached] at h
    split at h
    · rename_i hc
      cases h
      simp only [Bool.and_eq_true] at hc
      refine ⟨d, by intro x; simp [x] at hc, rfl, ?_⟩
      simp [wordWrite, hc.1]
    · cases h
  | steward c fr sf sys =>
    simp only [reached] at h
    split at h
    · rename_i hc
      cases h
      simp only [Bool.and_eq_true, Bool.not_eq_true'] at hc
      obtain ⟨⟨⟨a, b⟩, y⟩, z⟩ := hc
      refine ⟨d, by intro x; simp [x] at b, rfl, ?_⟩
      have hb : (regVal (.steward c fr sf sys) o d).isNone = false := by
        cases hq : regVal (.steward c fr sf sys) o d <;> simp_all
      simp only [wordWrite, a, if_true, stewardWrite, stewardStore, hb, y, z]
      simp
    · cases h

/-- The register's write on the device as the write finds it, its cluster awake. -/
def regStore (who : Who) (o : Nat) (v : Word) (d : Dev) : Dev :=
  if o < 0x1000 then sysWrite who o v d
  else if o < 0x2000 then trlWrite who (o - 0x1000) v d
  else if o < 0x4000 then tbWrite (o - 0x2000) v d
  else if o < 0x6000 then evWrite (o - 0x4000) v d
  else if o < 0x8000 then lnWrite who (o - 0x6000) v d
  else if o < 0xA000 then clWrite (o - 0x8000) v d
  else if o < 0xC000 then drWrite who (o - 0xA000) v d
  else if o < 0xE000 then hrWrite who (o - 0xC000) v d
  else if o < 0xF000 then wdWrite who (o - 0xE000) v d
  else if o < 0x10000 then rcWrite who (o - 0xF000) v d
  else if o < 0x18000 then enWrite who ((o - 0x10000) / 0x400) (o % 0x400) v d
  else if o < 0x1A000 then stWrite who ((o - 0x18000) / 0x800) (o % 0x800) v d
  else if o < 0x1B000 then (if o % 0x20 = 0 then needSys who (lsCtrlWrite ((o - 0x1A000) / 0x20) v) d else d)
  else if o < 0x1C000 then bistWrite who (o - 0x1B000) v d
  else pwrWrite who (o - 0x1C000) v d

/-- A word write that reaches its register stores there. -/
theorem wordWrite_eq_regStore {who : Who} {o : Nat} {d d1 : Dev} (h : reached who o d = some d1) (v : Word) (h4 : o % 4 = 0)
    (ho : o < 0x100000) : wordWrite who o v 0xF d = regStore who o v d1 := by
  obtain ⟨d0, h1, h2, h3⟩ := wordWrite_reached h v h4 ho
  have hn : (regVal who o d0).isNone = false := by cases hq : regVal who o d0 <;> simp_all
  rw [h3, h2]
  simp only [regWrite, hn, regStore]
  simp

end Sys2Proof.Machine
end

