-- ==== Sys2Proof/Laws/Ring.lean ====
section
/-!
SUPPORT. Sys2Proof/Laws/Ring.lean: what hop reception makes of the cell a port takes next (R479, R485, R502), and the frames of sending.
-/
namespace Sys2Proof.Machine

/-- The bytes `l` are a whole, valid cell that reads as `c` (R475, R476, R479). -/
def Spells (l : List Byte) (c : Cell) : Prop := parseCell l = c ∧ hcrcOk l = true ∧ headerOk l = true ∧ ccrcOk l = true

/-- With nothing waiting on the port, nothing starts there. -/
theorem pumpPort_empty {p : Fin 2} {d : Dev} (h1 : (rport d p).transit = []) (h2 : (rport d p).own = []) : pumpPort p d = d := by
  simp only [pumpPort, h1, h2, List.length_nil, Nat.add_zero, pump]

theorem rport_updRport_self (p : Fin 2) (f : RingPort → RingPort) (d : Dev) : rport (updRport p f d) p = f (rport d p) := by
  simp

/-- Whether a cell is for this node does not depend on the ports and counts. -/
theorem mine_congr {d t : Dev} (h1 : t.sys = d.sys) (h2 : t.hr.pos = d.hr.pos) (c : Cell) : mine t c = mine d c := by
  simp only [mine, h1, h2]

/-- What sending of scheduled cells may change: the ports, the cells that wait, what their windows have taken, and the cells sent. -/
def SlotFrame (d t : Dev) : Prop :=
  t = { d with out := t.out, hr := { d.hr with ports := t.hr.ports, sched := t.hr.sched, txA := t.hr.txA, txB := t.hr.txB, sent := t.hr.sent } }

theorem SlotFrame.trans {a b c : Dev} (h : SlotFrame a b) (h' : SlotFrame b c) : SlotFrame a c := by
  unfold SlotFrame at *
  rw [h] at h'
  rw [h']

theorem markSent_frame (c : Cell) (d : Dev) : SlotFrame d (markSent c d) := by
  unfold markSent
  split <;> rfl

theorem pumpSched_frame (r : Bool) (n : Nat) (d : Dev) : SlotFrame d (pumpSched r n d) := by
  induction n generalizing d with
  | zero => rfl
  | succ n ih =>
    have key : ∀ (p : Fin 2) (c c' : Cell) (g : Hr → Hr), SlotFrame d (updHr g d) →
        SlotFrame d (pumpSched r n (startCell p c (markSent c' (updHr g d)))) := fun p c c' g h =>
      ((h.trans (markSent_frame c' _)).trans (c := startCell p c (markSent c' (updHr g d))) rfl).trans (ih _)
    unfold pumpSched
    generalize (if r then (1 : Fin 2) else 0) = p
    dsimp only
    cases r <;> (simp only [Bool.false_eq_true, if_true, if_false]; split; · rfl)
    all_goals
      split
      · split
        · rfl
        · exact key _ _ _ _ rfl
      · rfl

/-- Starting scheduled cells changes only what `SlotFrame` lists. -/
theorem pumpSlots_frame (d : Dev) : SlotFrame d (pumpSlots d) := (pumpSched_frame _ _ _).trans (pumpSched_frame _ _ _)

/-- With its windows closed, a node starts no scheduled cell. -/
theorem pumpSlots_closed {d : Dev} (h1 : d.hr.slotA = false) (h2 : d.hr.slotB = false) : pumpSlots d = d := by
  have a : ∀ n, pumpSched false n d = d := fun n => by cases n <;> simp [pumpSched, h1]
  have b : ∀ n, pumpSched true n d = d := fun n => by cases n <;> simp [pumpSched, h2]
  simp only [pumpSlots, a, b]

theorem accepted_sys (p : Fin 2) (c : Cell) (d : Dev) : (accepted p c d).sys = d.sys := by
  have h := pumpSlots_frame (updRport p (acked c) d)
  unfold accepted
  dsimp only
  split <;> (show (pumpSlots (updRport p (acked c) d)).sys = d.sys; rw [h]; rfl)

theorem accepted_pos (p : Fin 2) (c : Cell) (d : Dev) : (accepted p c d).hr.pos = d.hr.pos := by
  have h := pumpSlots_frame (updRport p (acked c) d)
  unfold accepted
  dsimp only
  split <;> (show (pumpSlots (updRport p (acked c) d)).hr.pos = d.hr.pos; rw [h]; rfl)

/-- The device with scheduled cell `c` counted for its source (R502). -/
def counted (c : Cell) (d : Dev) : Dev :=
  let n : RxCount := { src := c.src, ring := c.ring, tick := tickOf d c, bytes := wireTaken d c }
  let rest := d.hr.rxCounts.filter fun x => !(x.src == c.src && x.ring == c.ring && x.tick == tickOf d c)
  updHr (fun h => { h with rxCounts := n :: rest }) d

/-- Ingress counting of a scheduled cell under a committed Trellis (R502): over the allowance, the ingress freezes. -/
theorem countIngress_committed {d : Dev} {c : Cell} (hs : isSched c.typ = true) (h1 : bit d.hr.ingFrz c.src.toNat = false)
    (h2 : bit d.hr.ingWait c.src.toNat = false) (hc : d.committed = true) :
    countIngress c d = match tableEntry d c.src with
      | some e =>
        if (if c.ring then e.bytesB.toNat else e.bytesA.toNat) < wireTaken d c then
          (freezeRecord (0x40 + c.src.toNat) 0x44 false false (b2n c.ring) c.tick.toNat
            (updHr (fun h => { h with ingFrz := setBit h.ingFrz c.src.toNat true }) (counted c d)), true)
        else (counted c d, false)
      | none => (counted c d, false) := by
  unfold countIngress
  rw [hs, h1, h2, hc]
  rfl

/-- Ingress counting of a cell within its source's allowance. -/
theorem countIngress_within {d : Dev} {p : Fin 2} {c : Cell} (h : InOrder d p c) :
    countIngress c (pumpSlots (updRport p (acked c) d)) = (accepted p c d, false) := by
  obtain ⟨-, h⟩ := h
  have hf := pumpSlots_frame (updRport p (acked c) d)
  unfold accepted taken
  generalize pumpSlots (updRport p (acked c) d) = x at hf ⊢
  have e0 : x.hr.rxCounts = d.hr.rxCounts := by rw [hf]; rfl
  have e1 : x.hr.ingFrz = d.hr.ingFrz := by rw [hf]; rfl
  have e2 : x.hr.ingWait = d.hr.ingWait := by rw [hf]; rfl
  have e3 : x.committed = d.committed := by rw [hf]; rfl
  have e4 : x.hr.table = d.hr.table := by rw [hf]; rfl
  have e5 : x.tb = d.tb := by rw [hf]; rfl
  cases hs : isSched c.typ with
  | false => simp [countIngress, hs]
  | true =>
    obtain ⟨h1, h2, h3⟩ := h hs
    cases hc : d.committed with
    | false =>
      unfold countIngress
      rw [hs]
      rw [e1, e2, e3, h1, h2, hc]
      rfl
    | true =>
      have hw : wireTaken x c = wireTaken d c := by simp only [wireTaken, tickOf, e0, e5]
      have ht : tableEntry x c.src = tableEntry d c.src := by simp only [tableEntry, e4]
      have hk : counted c x =
          (let n : RxCount := { src := c.src, ring := c.ring, tick := tickOf d c, bytes := wireTaken d c }
          let rest := d.hr.rxCounts.filter fun x => !(x.src == c.src && x.ring == c.ring && x.tick == tickOf d c)
          updHr (fun h => { h with rxCounts := n :: rest }) x) := by
        simp only [counted, hw, e0, tickOf, e5]
      rw [countIngress_committed (d := x) hs (by rw [e1]; exact h1) (by rw [e2]; exact h2) (by rw [e3]; exact hc), ht, hk]
      cases he : tableEntry d c.src with
      | none => rfl
      | some e =>
        have h5 := h3 hc _ (by rw [allowance, he]; rfl)
        have h6 : ¬ (if c.ring then e.bytesB.toNat else e.bytesA.toNat) < wireTaken x c := by rw [hw]; exact Nat.not_lt.2 h5
        dsimp only
        rw [if_neg h6]
        rfl

/-- Hop reception of the cell a port takes next: it is accepted; what is left to do depends on whose it is. -/
theorem receive_next {d : Dev} {p : Fin 2} {l : List Byte} {c : Cell} (hl : Spells l c) (h : InOrder d p c) :
    receive p l .clean d =
      if mine d c then
        if knownType c.typ then (accepted p c d, .forMe c)
        else (updRport p (fun q => { q with malformed := satInc q.malformed }) (accepted p c d), .dropped)
      else if c.ttl = 0 then (updRport p (fun q => { q with ttl := satInc q.ttl }) (accepted p c d), .dropped)
      else (accepted p c d, .through c) := by
  obtain ⟨l1, l2, l3, l4⟩ := hl
  have hi := countIngress_within h
  obtain ⟨⟨-, h1, h2, h3, -, h5⟩, -⟩ := h
  have hp : pumpPort p (updRport p (acked c) d) = updRport p (acked c) d :=
    pumpPort_empty (by rw [rport_updRport_self]; exact h2) (by rw [rport_updRport_self]; exact h3)
  have hm : mine (accepted p c d) c = mine d c := mine_congr (accepted_sys p c d) (accepted_pos p c d) c
  have ha : (updRport p (fun q => { q with
      rxSeq := (rport d p).rxSeq + 1, ackDue := true
      replay := if c.ackv then ackUpTo c.ack q.replay else q.replay
      tries := if c.ackv && decide ((ackUpTo c.ack q.replay).length < q.replay.length) then 0 else q.tries }) d) =
      updRport p (acked c) d := by
    congr 1
    funext q
    simp only [acked, h5]
    cases c.ackv <;> simp
  unfold receive
  simp only [h1, l1, l2, l3, l4, Bool.not_true, Bool.false_eq_true, if_false, h5, ne_eq, not_true_eq_false]
  simp only [← h5] at ha ⊢
  simp only [reduceCtorEq, Bool.or_false, decide_false, Bool.and_false, if_false, Bool.false_eq_true]
  rw [ha, hp, hi]
  simp only [Bool.false_eq_true, if_false, hm]

/-- A received cell for this node that its port takes next: it is acted on, and an acknowledgement still due goes in a LINK cell. -/
theorem onCell_next {d : Dev} {p : Fin 2} {l : List Byte} {c : Cell} {t : Byte} (hl : Spells l c) (h : InOrder d p c) (ht : c.typ = t)
    (hm : mine d c = true) (hk : knownType t = true) (f : Cell → Dev → Dev) :
    onCell t p l .clean f d = flushAck p c (f c (accepted p c d)) := by
  have hr := receive_next hl h
  rw [hm, ht, hk] at hr
  simp only [if_true] at hr
  obtain ⟨l1, l2, -, -⟩ := hl
  have h1 := h.1.2.1
  unfold onCell
  rw [hr]
  simp only [l1, h1, ht, hm, Bool.not_true, Bool.false_eq_true, ne_eq, not_true_eq_false, or_self, and_false, if_false]

end Sys2Proof.Machine
end

