-- ==== Sys2Proof/Tests/Slice0.lean ====
section
/-!
SUPPORT. Sys2Proof/Tests/Slice0.lean: ill-formed terms that WellFormed refuses, single steps whose expected values come from the spec,
and for every statement concrete states that meet its hypotheses (`wit_<name of the statement>`), clause by clause.
What only an open value of Config decides (a die identity above a given one) has no witness that Lean can evaluate.
-/
namespace Sys2Proof.Tests
open Sys2Proof.Machine
set_option Elab.async false

/-! ### Well-formedness -/

theorem test_ill_cause : Instr.ills (.pReset 0) = [.cause] := by decide
theorem test_ill_words : Instr.ills (.registerWrite .host .bar0 0 [] false) = [.words] := by decide
theorem test_ill_who : Instr.ills (.registerWrite (.ring 1) .bar2 0 [(0, 0xF)] false) = [.who] := by decide
theorem test_ill_range : Instr.ills (.rcFieldRead .host .rom 0x10000 [0xF] [] []) = [.range] := by decide
theorem test_ill_bit : Instr.ills (.trlStart .host 0 0xF) = [.bit] := by decide
theorem test_ill_cell : Instr.ills (.link 0 (List.replicate 532 0) .clean) = [.cell] := by decide +kernel
theorem test_ill_header : Instr.ills (.pcieError .poisoned [0, 0]) = [.header] := by decide
theorem test_ill_data : Instr.ills (.completionReceived 0 .sc false 0 (List.replicate 4097 0) [0, 0, 0]) = [.data] := by decide +kernel
theorem test_ill_link : Instr.ills (.dlUp 5 4) = [.link] := by decide
theorem test_well_formed : Instr.wellFormed (.pReset 1) = true ∧ Instr.wellFormed (.trlStart .host 0x100 0xF) = true ∧
    Instr.wellFormed (.registerWrite .host .bar0 0x2028 [(0, 0xF), (0, 0xF)] false) = true ∧ Instr.wellFormed (.dlUp 4 4) = true := by decide

/-! ### States -/

/-- After start-up: a manager whose clocks, ring and host link are up, nothing committed. -/
def up : Dev :=
  let d := State.reset.dev
  { d with
    sys := { d.sys with inP := false, fclkOn := true, fclkLock := true, ringLock := true, pcieLock := true, nodeValid := true }
    tb := { d.tb with counting := true, now := 1000 }
    cl := { d.cl with initDone := true }
    hr := { d.hr with powered := true }
    pe := { d.pe with link := .l0, dlUp := true, mse := true, bme := true } }

/-- A state that holds a device. -/
def on (d : Dev) : State := { State.reset with dev := d }

/-- Its access reaches the register at `o`, and the device it meets there satisfies `P`. -/
def served (who : Who) (o : Nat) (d : Dev) (P : Dev → Bool := fun _ => true) : Bool := (reached who o d).any P

/-- A Steward write with every grant, and one with none. -/
def strong : Who := .steward 0 true true true
def weak : Who := .steward 1 false false false

/-- A microword from its fields. -/
def mw (l : List (Nat × Nat)) : BitVec 128 := l.foldl (fun w x => w ||| BitVec.ofNat 128 (x.2 <<< x.1)) 0

/-- A configuration: a tick of 30,000 clk, engines 0 and 1 active, engine 2 spare, engine 3 active and STREAM, engine 0 owner of lanes
0 (slot 0) and 1 (slot 1), a pair on lanes 2 and 3, bin 1 of engine 0 and bin 2 of core 0. -/
def plan : Cfg := {
  tickClk := 30000, timeFlags := 2, active := 0xB, spare := 4, stream := 8, bankVSet := true, started := 1
  lanes := Vector.ofFn fun n : Fin 64 => if n = 0 then { mode := 2, owner := 0, ownerSlot := 0, stamp := 3 }
    else if n = 1 then { mode := 2, owner := 0, ownerSlot := 1 } else if n.val < 4 then { mode := 1 } else {}
  budgets := Vector.replicate 32 { budget := 20000, stall := 2 }
  bins := [(1, { ownerKind := 0, owner := 0, base := 0x1000, size := 0x1000, maxrec := 64, resTimeout := 4 }),
    (2, { policy := 2, ownerKind := 1, owner := 0, base := 0x2000, size := 0x1000, maxrec := 64 })] }

/-- A device with `plan` committed: every bank good, engines 0 and 1 and 3 running, core 0 issuing. -/
def live : Dev :=
  { up with
    committed := true, cfg := plan, clk := 5000
    trl := { up.trl with st := .committed, cfg := plan }
    tb := { up.tb with cmps := up.tb.cmps.set 0 { armed := true, perEn := true, target := 31000, period := 30000 } }
    bank := { good := 0xFF }
    hr := { up.hr with tickClk := 4000 }
    engines := (Vector.ofFn fun e : Fin 32 => ({
      life := { st := if e.val < 2 ∨ e.val = 3 then .running else if e.val = 2 then .spare else .unused }
      seq := { budget := 20000, stall := 2 } } : Engine))
    lanes := up.lanes.map fun l => { l with settled := true } }

/-- `live` with engine 0 about to execute microword `w`. -/
def running (w : BitVec 128) (f : Engine → Engine := id) : Dev :=
  let g := live.engines[0]
  { live with engines := live.engines.set 0 (f { g with cs0 := [(0, w)] }) }

/-! ### Hypotheses of the statements: resets, clocks, loads -/

theorem wit_StepRunsTheFrontCommand : State.reset.pending = [] ∧ State.reset.dev.sys.fclkOn = false := by decide +kernel

theorem wit_EveryCommandLeavesTheQueueAndOnlyTckMovesTheTap :
    (∀ r m i n, Instr.corePllLock ≠ .tckEdge r m i n) ∧ Instr.tckEdge true true false true = .tckEdge true true false true :=
  ⟨nofun, rfl⟩

theorem wit_EveryStepKeepsTheTapInvariant : TapInv State.reset.tap ∧ step State.reset = .next State.reset := by
  refine ⟨⟨?_, ?_⟩, rfl⟩ <;> decide +kernel

theorem wit_MemoriesReadBackAndStayCanonical : Memory.wf [] ∧ Memory.wf [(0, 1), (7, 255)] := by decide +kernel

theorem wit_PResetClearsAllButTheRootCellar : (1 : BitVec 2) ≠ 0 ∧ up.sys.inP = false ∧ State.reset.dev.sys.inP = true := by decide +kernel

theorem wit_LocksAndSuppliesAreLostAndReturn :
    (up.sys.inP = false ∧ up.sys.role = 0 ∧ up.sys.fclkOn = true) ∧ (live.committed = true ∧ live.cfg.bankVSet = true) ∧
    ({ up with hr := { up.hr with ports := Vector.replicate 2 { link := true } } }.hr.ports[1].link = true) ∧
    (State.reset.dev.sys.fclkOn = false ∧ onFclk .ppsLost = true) := by decide +kernel

theorem wit_StartUpClearEndsWithHistoryAndCount :
    let d := { up with cl := { up.cl with initDone := false } }
    d.sys.inP = false ∧ d.sys.fclkOn = true ∧ d.cl.initDone = false ∧ Memory.wf d.rc := by decide +kernel

theorem wit_WResetStartsAndEnds :
    (live.sys.inP = false ∧ live.sys.fclkOn = true ∧ live.sys.wEnd = none) ∧
    (let d := { up with sys := { up.sys with wEnd := some 6000 }, trl := { up.trl with st := .resetting } }
     d.sys.wEnd = some 6000 ∧ d.sys.wEnd.isSome = true ∧ d.trl.st = .resetting ∧ d.trl.afterReset = false) ∧
    (let d := { up with sys := { up.sys with wEnd := some 6000 }, trl := { up.trl with st := .resetting, afterReset := true } }
     d.sys.wEnd = some 6000 ∧ d.trl.st = .resetting ∧ d.trl.afterReset = true) := by decide +kernel

theorem wit_WritesOfTheResetAndThawRegisters :
    served .host 0x0020 up ∧ served strong 0x0038 up ∧ served weak 0x0044 up ∧
    served .host 0x003C up (fun d => d.sys.thawArmed == none && hostLike .host) ∧ hostLike strong = false ∧
    (let d := { live with sys := { live.sys with thawArmed := some 100, thawId := 0 } }
     served .host 0x003C { d with clk := 1500101 } (fun d => d.sys.thawArmed == some 100 && decide (100 + 1500000 < d.clk)) ∧
     served .host 0x003C { d with clk := 1500100 } (fun d => d.sys.thawArmed == some 100 && decide (d.clk ≤ 100 + 1500000)) ∧
     isFrozen d 0 = false ∧ freezable 0x27 = true ∧ freezable 0x28 = false ∧
     isFrozen { d with engines := d.engines.set 0 { life := { st := .frozen } } } 0 = true) := by decide +kernel

theorem wit_HostResetsAndFlr :
    (hasEndpoint up = true ∧ up.sys.inP = false ∧ up.sys.pcieLock = true ∧ up.pe.dlUp = true) ∧
    (hostLive up = true ∧ (arrive up).pe.flrBusy = false ∧ bit (2 : BitVec 4) 1 = true ∧ bit (0x8000 : Word) 15 = true) := by decide +kernel

theorem wit_LoadsStartAndAbort :
    served .host 0x1000 up (fun d => trlWriter d .host && !d.trl.frozen && d.trl.st == .empty && !d.sys.inP && d.sys.fclkOn && d.sys.wEnd == none) ∧
    served .host 0x1000 { up with trl := { up.trl with st := .loading } } (fun d => trlWriter d .host && loadRuns d) ∧
    served strong 0x1000 up (fun d => !trlWriter d strong) ∧
    (bit (0x102 : Word) 8 = true ∧ bit (0x102 : Word) 9 = false ∧ bit (0x102 : Word) 10 = false) ∧
    (bit (0x200 : Word) 8 = false ∧ bit (0x200 : Word) 9 = true ∧ bit (0x200 : Word) 10 = false) := by decide +kernel

theorem wit_CommitsVerdictsAndPendingBanks :
    (∀ m : Fin 3, served .host 0x1000 { up with trl := { up.trl with st := .validated, loadMode := BitVec.ofNat 2 m.val } } fun d =>
      trlWriter d .host && d.sys.fclkOn && d.sys.wEnd == none && d.trl.st == .validated && d.trl.loadMode == BitVec.ofNat 2 m.val) ∧
    served .host 0x1000 up (fun d => trlWriter d .host && d.trl.st != .validated) ∧
    (bit (0x400 : Word) 8 = false ∧ bit (0x400 : Word) 9 = false ∧ bit (0x400 : Word) 10 = true) ∧
    (let d := { up with sys := { up.sys with role := 1 }, trl := { up.trl with cfg := plan, first := 1000 } }
     d.sys.role = 1 ∧ 0 < d.trl.cfg.tickClk.toNat ∧ d.trl.first.toNat ≤ d.tb.now.toNat ∧ d.tb.now.toNat + d.trl.cfg.tickClk.toNat < 2 ^ 64) ∧
    up.sys.role = 0 ∧
    (let d := { up with trl := { up.trl with workers := [(0, 64)], ws := up.trl.ws.set 0 { st := 2 } } }
     d.trl.workers.find? (fun w => w.1 == 0) = some (0, 64) ∧ (at? d.trl.ws 0 {}).st = 2 ∧ d.trl.workers.find? (fun w => w.1 == 1) = none) ∧
    (let d := { live with trl := { live.trl with st := .pending, binsIn := live.cfg.bins } }
     d.trl.st = .pending ∧ ∃ x ∈ d.trl.binsIn, x.2.base.toNat < (0 + 1) * 2 ^ 19 ∧ 0 * 2 ^ 19 < x.2.base.toNat + x.2.size.toNat) ∧
    (live.sys.fclkOn = true ∧ { live with trl := { live.trl with st := .committing } }.trl.st = .committing ∧
      { live with tb := { live.tb with tickOut := true } }.tb.tickOut = true) := by decide +kernel

theorem wit_ImageBytesReachTheLoader :
    (let d := { up with trl := { up.trl with st := .loading, src := true } }
     (hostLive d = true ∧ barOn (arrive d) = true ∧ (arrive d).sys.fclkOn = true ∧ (arrive d).trl.st = .loading) ∧
     served .host 0x101C d (fun d => trlWriter d .host && d.trl.src && d.trl.st == .loading && !d.trl.dmaBusy) ∧
     4 * fld (4 : Word) 2 25 = 4 ∧ 4 * fld (0x04000000 : Word) 2 25 = 0x04000000) ∧
    (let d := { up with sys := { up.sys with role := 1 } }
     regsLive d = true ∧ d.sys.role = 1) ∧
    (hostLive up = true ∧ barOn (arrive up) = true ∧ (arrive up).trl.st ≠ .loading) ∧
    served .host 0x101C up (fun d => trlWriter d .host && !d.trl.src) := by decide +kernel

theorem wit_TheTickBoundaryActs :
    tickArmed live = true ∧ tickArmed up = false ∧ stallExceeded live 3 = false ∧ live.sys.fclkOn = true ∧
    (let d := { live with engines := live.engines.set 3 { live.engines[3] with seq := { live.engines[3].seq with stallCnt := 2 } } }
     d.sys.fclkOn = true ∧ tickArmed d = true ∧ stallExceeded d 3 = true) := by
  decide +kernel

/-! ### Hypotheses of the statements: engines -/

/-- The microword of `SEQOP`, and what engine 0 needs beside it. -/
def word (op : Nat) (more : List (Nat × Nat) := []) : BitVec 128 := mw ((112, op) :: more)

theorem wit_SequencerSuccessors :
    (∀ op : Fin 10, op.val ≠ 0 → op.val ≠ 6 → (executes (running (word op.val)) 0 .ok ∧ noSwap (running (word op.val)) 0 ∧
      ((running (word op.val)).engines[0]).current.seqop = op.val)) ∧
    (let d := running (word 6) fun g => { g with seq := { g.seq with stack := List.replicate 8 5 } }
     executes d 0 .ok ∧ noSwap d 0 ∧ d.engines[0].current.seqop = 6) ∧
    condA (due (running (word 8)) 0) 0 (running (word 8)).engines[0].current = true := by
  unfold executes noSwap fetched
  refine ⟨?_, ?_, ?_⟩ <;> decide +kernel

theorem wit_YieldParkAndFault :
    (∀ op : Fin 2, executes (running (word (10 + op.val))) 0 .ok ∧ noSwap (running (word (10 + op.val))) 0 ∧
      ((running (word (10 + op.val))).engines[0]).current.seqop = 10 + op.val) ∧
    (let d := running (word 0 [(32, 0xFFF)])
     canRun d 0 = true ∧ (due d 0).engines[0].current.seqop = 0 ∧ fetched (due d 0).engines[0] .ok ∧
     illegal (due d 0) 0 (due d 0).engines[0].current = false ∧ stallCause (due d 0) 0 (due d 0).engines[0].current = 0 ∧
     portViolations (due d 0) 0 (due d 0).engines[0].current = [] ∧ isStream d 0 = false) := by
  unfold executes noSwap fetched
  decide +kernel

/-- Engine 0 may run a microword of `op` that satisfies `P`; its word is whole. -/
def meets (d : Dev) (op : Nat) (P : Engine → Bool) : Bool :=
  let x := due d 0
  canRun d 0 && x.engines[0].current.seqop == op && P x.engines[0]

theorem wit_MicrowordViolationsFreezeTheEngine :
    meets (running (word 1)) 1 (fun g => illegal (due (running (word 1)) 0) 0 g.current == false && g.seq.fixed == false) = true ∧
    (let d := running (word 1 [(48, 1)])
     meets d 1 (fun g => illegal (due d 0) 0 g.current) = true ∧ fetched (due d 0).engines[0] .ok) ∧
    (let d := running (word 5) fun g => { g with seq := { g.seq with stack := List.replicate 8 0 } }
     meets d 5 (fun g => !illegal (due d 0) 0 g.current && stallCause (due d 0) 0 g.current == 0 && decide (8 ≤ g.seq.stack.length)) = true ∧
       fetched (due d 0).engines[0] .ok) ∧
    (let d := running (word 6)
     meets d 6 (fun g => !illegal (due d 0) 0 g.current && stallCause (due d 0) 0 g.current == 0 && g.seq.stack == []) = true) := by
  unfold fetched
  decide +kernel

theorem wit_EnginesAddAndSubtractWithFlags :
    (let d := running (word 1 [(88, 2)])
     executes d 0 .ok ∧ d.engines[0].current.seqop = 1 ∧ d.engines[0].current.memop = 0 ∧ d.engines[0].current.aluop = 2) ∧
    (let d := running (word 1 [(88, 4), (93, 1)])
     executes d 0 .ok ∧ d.engines[0].current.seqop = 1 ∧ d.engines[0].current.memop = 0 ∧ d.engines[0].current.aluop = 4) := by
  unfold executes fetched
  decide +kernel

/-- `running`, with 64 bits in lane 0's FIFO and one stamp. -/
def shifting (op : Nat) : Dev :=
  let d := running (word 1 [(73, op), (32, 63)])
  { d with lanes := d.lanes.set 0 { d.lanes[0] with fifo := List.replicate 64 true, stamps := [(77, true)] } }

theorem wit_ShiftOperationsMoveBits :
    (∀ op : Fin 7, op.val ≠ 0 → executes (shifting op.val) 0 .ok ∧ (shifting op.val).engines[0].current.shop = op.val) ∧
    slotLane (shifting 1) 0 0 = some (0, true) ∧
    (let d0 := shifting 5
     let g := d0.engines[0]
     let d := { d0 with engines := d0.engines.set 0 { g with dp := { g.dp with bg := some 0, sc := 0, target := 64 } } }
     d.sys.fclkOn = true ∧ d.engines[0].life.st = .running ∧ d.engines[0].dp.bg = some 0 ∧ slotLane d 0 0 = some (0, true) ∧
     (∀ f : Fin 32, f ≠ 0 → d.engines[f].dp.bg = none) ∧
     0 < d.engines[0].dp.target.toNat - d.engines[0].dp.sc.toNat ∧
     d.engines[0].dp.target.toNat - d.engines[0].dp.sc.toNat ≤ d.lanes[0].fifo.length) := by
  unfold executes fetched
  decide +kernel

/-- Engine 0 about to RESERVE `n` units in bin 1. -/
def reserving (op n : Nat) : Dev := running (word 1 [(64, op), (32, 1), (0, n)]) fun g => { g with dp := { g.dp with g := g.dp.g.set 0 (BitVec.ofNat 32 n) } }

theorem wit_StampsAndReservations :
    (let d0 := running (word 1 [(64, 0x18)])
     let d := { d0 with lanes := d0.lanes.set 0 { d0.lanes[0] with stamps := [(77, true)] } }
     executes d 0 .ok ∧ d.engines[0].current.memop = 0x18 ∧ slotLane d 0 0 = some (0, true)) ∧
    (∀ op : Fin 2, ∀ n : Fin 3, let L := if n = 0 then 1 else if n = 1 then 64 else 65
      executes (reserving (8 + op.val) L) 0 .ok ∧ (reserving (8 + op.val) L).engines[0].current.memop = 8 + op.val ∧
      resBin (reserving (8 + op.val) L).engines[0].current = 1 ∧ (binCfg? (reserving (8 + op.val) L) 1).isSome = true ∧
      resLen (reserving (8 + op.val) L).engines[0] (reserving (8 + op.val) L).engines[0].current = L) ∧
    (let d0 := reserving 8 2
     let r (i : Nat) : Rec := { seq := BitVec.ofNat 32 i, off := 16 * i, len := 2, skip := 0, st := .opened, slot := i, cursor := 16, written := 16, trunc := false,
                                age := 0, busy := false }
     let d := { d0 with cl := { d0.cl with bins := d0.cl.bins.set 1 { res := 128, seq := 8, recs := (List.range 8).map r } } }
     executes d 0 .ok ∧ (binCfg? d 1).any (fun c => !hasRoom c (bin (makeRoom 1 c 2 d) 1) 2) = true) := by
  unfold executes fetched
  decide +kernel

/-- A record of `len` units that starts a bin. -/
def record (seq : Word) (len cursor : Nat) (st : RecSt := .opened) : Rec :=
  { seq := seq, off := 0, len := len, skip := 0, st := st, slot := 0, cursor := cursor, written := cursor, trunc := false, age := 0, busy := false }

/-- Engine 0 with a record of 4 units open in slot 0 of bin 1, about to do port operation `op`. -/
def holding (op cursor : Nat) : Dev :=
  let d := running (word 1 [(64, op), (80, 1), (76, 2)]) fun g => { g with dp := { g.dp with g := g.dp.g.set 1 0x100 } }
  { d with cl := { d.cl with bins := d.cl.bins.set 1 { res := 32, seq := 1, recs := [record 0 4 cursor] } } }

/-- A COMMIT of that record as the port's write queue holds it. -/
def apart : PortWr := { bin := 1, seq := 0, addr := 0x1010, data := List.replicate 16 0, written := 32, hdr := 0x1000, ends := some 2 }

/-- The handle names a record whose cursor is at `c`. -/
def heldAt (n : Named) (c : Nat) : Bool := match n with | .held _ _ r => r.cursor == c | _ => false

theorem wit_AppendsCommitsAndVoids :
    (∀ op : Fin 5, ∀ full : Bool, let c := if full then 32 else 16
      executes (holding (10 + op.val) c) 0 .ok ∧ Memory.wf (holding (10 + op.val) c).cl.mem ∧
      (holding (10 + op.val) c).engines[0].current.memop = 10 + op.val ∧
      (let d := due (holding (10 + op.val) c) 0
       heldAt (resolve (engOwns 0) (d.engines[0].g d.engines[0].current.srca) d) c = true)) ∧
    (let h := holding 10 16
     let d := { h with engines := h.engines.set 0 { h.engines[0] with ep := { h.engines[0].ep with queue := List.replicate 16 apart, portWait := 2 } } }
     canRun d 0 = true ∧ (let g := (due d 0).engines[0]
       fetched g .ok ∧ illegal (due d 0) 0 g.current = false ∧ stallCause (due d 0) 0 g.current = 7 ∧ g.current.memop = 0x0A)) ∧
    (let c := (holding 10 16).cl
     Memory.wf c.mem ∧ (at? c.bins apart.bin {}).recs.any (fun r => r.seq == apart.seq) = true ∧ apart.hdr + 8 ≤ apart.addr ∧
     apart.ends = some 2 ∧ { apart with ends := none }.ends = none) ∧
    (let h := holding 10 16
     let d := { h with engines := h.engines.set 0 { h.engines[0] with ep := { h.engines[0].ep with queue := [apart], portWait := 2 } } }
     d.sys.fclkOn = true ∧ d.engines[0].ep.queue = [apart] ∧ 0 < d.engines[0].ep.portWait ∧
     (∀ f : Fin 32, f ≠ 0 → d.engines[f].ep.queue = []) ∧ (∀ c l : Fin 4, d.cl.ports[c][l].queue = [])) := by
  unfold executes fetched
  decide +kernel

/-- `live` with engine 0's life cycle changed. -/
def lives (f : Life → Life) (st : EngSt := .running) (q : Seq → Seq := id) : Dev :=
  let g := live.engines[0]
  { live with engines := live.engines.set 0 { g with life := f { g.life with st := st }, seq := q g.seq } }

theorem wit_ParkAndUnparkAnEngine :
    served .host (enOff 0 0x204) live (fun d => d.engines[0].life.st == .running && !d.engines[0].seq.yielded) ∧
    served .host (enOff 0 0x204) (lives id .running fun q => { q with yielded := true }) (fun d => d.engines[0].seq.yielded) ∧
    served .host (enOff 0 0x204) (lives id .parked) (fun d => d.engines[0].life.st == .parked) ∧
    served .host (enOff 0 0x204) (lives fun l => { l with parkPend := true }) (fun d => d.engines[0].life.parkPend) ∧
    served .host (enOff 31 0x204) live (fun d => d.engines[31].life.st == .unused) := by decide +kernel

theorem wit_FreezeThawAndResetAnEngine :
    (mayFreeze weak = false ∧ served weak (enOff 0 0x204) live) ∧
    (mayFreeze strong = true ∧ ∀ st : Fin 4, let s := if st = 0 then EngSt.running else if st = 1 then .parked else if st = 2 then .halted else .frozen
      served strong (enOff 0 0x204) (lives id s) (fun d => d.engines[0].life.st == s)) ∧
    (hostLike .host = true ∧ served .host (enOff 0 0x204) live) ∧
    (∀ at' : Fin 3, served strong (enOff 0 0x204) (lives (fun l => { l with resumeAt := BitVec.ofNat 2 at'.val }) .frozen)
      (fun d => d.engines[0].life.resumeAt.toNat == at'.val)) ∧
    (let d := { live with engines := live.engines.set 3 { live.engines[3] with life := { live.engines[3].life with st := .frozen, resumeAt := 2 } } }
     hostLike strong = false ∧ served strong (enOff 3 0x204) d (fun d => isStream d 3 && d.engines[3].life.resumeAt == 2)) ∧
    served .host (enOff 0 0x204) (lives id .cutover) (fun d => d.engines[0].life.st == .cutover) := by decide +kernel

theorem wit_ReplantsSwapBanks :
    (served .host (enOff 0 0x208) live (fun d => d.engines[0].life.st == .running && d.engines[0].life.rpPend == none && !inXplant d 0) ∧
      served .host (enOff 0 0x208) (lives fun l => { l with rpPend := some false }) (fun d => d.engines[0].life.rpPend.isSome) ∧
      served .host (enOff 0 0x208) (lives id .parked) (fun d => d.engines[0].life.st == .parked && !inXplant d 0) ∧
      served .host (enOff 31 0x208) live (fun d => d.engines[31].life.st == .unused) ∧
      (bit (1 : Word) 0 = true ∧ bit (1 : Word) 2 = false ∧ bit (4 : Word) 0 = false ∧ bit (4 : Word) 2 = true)) ∧
    (∀ esc : Bool, let l := (lives fun l => { l with rpPend := some false, grace := 1, graceCnt := 1, escalate := esc }).engines[0].life
      live.sys.fclkOn = true ∧ l.st = .running ∧ l.rpPend = some false ∧ l.graceOf.1 ≠ 0 ∧ l.graceOf.1.toNat ≤ l.graceCnt ∧ l.graceOf.2 = esc) := by decide +kernel

theorem wit_TransplantsCopyAndMoveAnEngine :
    (served .host (enOff 0 0x214) live (fun d => d.engines[0].life.st == .running && (engine d 2).life.st == .spare && d.engines[0].life.rpPend == none &&
        !d.engines[0].life.parkPend && !inXplant d 0 && !inXplant d 2 && (engine d 2).life.rpPend == none && !(engine d 2).life.parkPend &&
        decide (d.engines[0].seq.budget.toNat + 2164 ≤ d.cfg.tickClk.toNat)) ∧
      served .host (enOff 0 0x214) { live with
        engines := live.engines.set 4 { live.engines[4] with life := { live.engines[4].life with st := .spare } }
        pwr := { live.pwr with cls := live.pwr.cls.set 1 { live.pwr.cls[1] with st := .dormant } } } (fun d =>
          (engine d 4).life.st == .spare && (cluster d 1).st != .active) ∧
      served .host (enOff 0 0x214) live (fun d => (engine d 1).life.st != .spare) ∧
      served .host (enOff 31 0x214) live (fun d => d.engines[31].life.st == .unused) ∧
      served .host (enOff 0 0x214) (lives fun l => { l with xpend := some { target := 2, nocopy := false, copied := false } })
        (fun d => d.engines[0].life.xpend.isSome && d.engines[0].life.st != .cutover) ∧
      (fld (0x102 : Word) 0 5 = 2 ∧ bit (0x102 : Word) 8 = true ∧ bit (0x102 : Word) 10 = false ∧ bit (0x400 : Word) 8 = false ∧ bit (0x400 : Word) 10 = true)) ∧
    (let d := lives fun l => { l with xpend := some { target := 2, nocopy := false, copied := false } }
     d.sys.fclkOn = true ∧ d.engines[0].life.xpend = some { target := 2, nocopy := false, copied := false } ∧ d.engines[0].life.st ≠ .cutover ∧ clusterAsleep d 2 = false) ∧
    (let d := lives (fun l => { l with xpend := some { target := 2, nocopy := false, copied := true }, cutFrom := .running }) .cutover
     d.engines[0].life.xpend = some { target := 2, nocopy := false, copied := true } ∧ d.engines[0].life.st = .cutover ∧
     d.engines[0].life.cutFrom = .running ∧ isStream d 0 = false) := by decide +kernel

theorem wit_ControlStoreWindowAndDebug :
    (served .host (enOff 0 0x20C) live (fun d => bankWritable d 0 true && !bankWritable d 0 false) ∧ served .host (enOff 31 0x248) live ∧
      served .host (enOff 0 0x25C) live (fun d => !bankWritable d 0 d.engines[0].life.csBank) ∧
      served .host (enOff 0 0x25C) (lives fun l => { l with csBank := true }) (fun d => bankWritable d 0 d.engines[0].life.csBank)) ∧
    (served .host (enOff 0 0x020) live (fun d => d.engines[0].life.st != .halted) ∧
      (let d0 := running (word 1)
       let d := { d0 with engines := d0.engines.set 0 { d0.engines[0] with life := { d0.engines[0].life with st := .halted } } }
       served .host (enOff 0 0x020) d (fun d =>
        let g := d.engines[0]
        let q := { g.seq with brkEn := false, step := true, reached := max g.seq.reached d.clk, covered := max g.seq.covered d.clk }
        let d' : Dev := due { d with engines := put d.engines 0 { g with seq := q, life := { g.life with st := .running } } } 0
        g.life.st == .halted && violations d' 0 g.current == [] && stallCause d' 0 g.current == 0 && portViolations d' 0 g.current == [] &&
          !g.current.ctlSafe && g.current.seqop != 11 && !g.current.ctlPark && !g.life.parkPend)) ∧
      (bit (0x100 : Word) 8 = true ∧ bit (0x100 : Word) 9 = false ∧ bit (0x200 : Word) 8 = false ∧ bit (0x200 : Word) 9 = true)) := by decide +kernel

/-! ### Hypotheses of the statements: lanes, time, events -/

/-- `live` with lane `n` and its configuration changed. -/
def laneOf (n : Fin 64) (c : LaneEntry → LaneEntry) (l : Lane → Lane) : Dev :=
  { live with cfg := { live.cfg with lanes := live.cfg.lanes.set n (c live.cfg.lanes[n]) }, lanes := live.lanes.set n (l live.lanes[n]) }

/-- Lane 0 as an input of engine 0 that samples. -/
def sampler (n : Nat) : Dev := laneOf 0 (fun c => { c with mode := 1 }) fun l => {
  l with timing := { l.timing with src := 1, perA := 16 }, tn := 80000, fifo := List.replicate n false, sync := true, syncClk := 4999 }

theorem wit_LaneInputsFilterStampAndSample :
    (live.sys.fclkOn = true ∧ live.cfg.lanes[0].mode ≠ 0 ∧ laneGood live 0 = true ∧ (laneOf 0 id fun l => { l with settled := false }).lanes[0].settled = false) ∧
    ((sampler 0).cfg.lanes[0].mode ≠ 0 ∧ laneGood (sampler 0) 0 = true ∧ (sampler 0).lanes[0].settled = true ∧ (sampler 0).sys.fclkOn = true ∧
      (Machine.pass 0 (sampler 0)).lanes[0].filterDue 0 5000 = some 5000 ∧
      (passTo 5000 (sampler 0)).lanes[0].synced 5000 ≠ (passTo 5000 (sampler 0)).lanes[0].filt ∧ (0, 0) ∈ laneBindings (sampler 0) 0 ∧
      live.lanes[0].filterDue 0 5000 = none ∧ bit (sampler 0).cfg.lanes[0].stamp 0 = true ∧ (sampler 0).lanes[0].stamps.length < 16) ∧
    (let d := laneOf 0 (fun c => { c with filter := 5 }) fun l => { l with
       oe := true, sync := true, syncClk := 4999, drv := some false, drvClk := 4990, readback := some 5002 }
     d.lanes[0].filterDue 5 5000 = some 5005 ∧ (passTo 5005 d).lanes[0].synced 5005 = (passTo 5005 d).lanes[0].filt) ∧
    (∀ full : Bool, let d := sampler (if full then 512 else 511)
      laneDes d 0 = true ∧ d.lanes[0].owed = false ∧ d.lanes[0].timing.src = 1 ∧ d.lanes[0].timing.gang = false ∧ laneOwner d 0 = some (0, 0) ∧
      (passTo d.lanes[0].sampleClk d).lanes[0].fifo.length ≤ 512 ∧ (full = true ↔ 512 ≤ d.lanes[0].fifo.length)) ∧
    (let d := sampler 0
     let owing := { d with lanes := d.lanes.set 0 { d.lanes[0] with owed := true } }
     let clocked := { d with lanes := d.lanes.set 0 { d.lanes[0] with timing := { d.lanes[0].timing with src := 2 }, due := [5003, 5009] } }
     laneDes owing 0 = true ∧ owing.lanes[0].owed = true ∧ owing.lanes[0].fifo.length ≤ 512 ∧
     laneDes clocked 0 = true ∧ clocked.lanes[0].owed = false ∧ clocked.lanes[0].timing.src = 2 ∧ clocked.lanes[0].due = 5003 :: [5009] ∧
     laneDes live 5 = false) := by decide +kernel

theorem wit_LaneOutputsSendPulseAndReadBack :
    (let sender (src : BitVec 3) := laneOf 0 id fun l => { l with timing := { l.timing with src := src, perA := 16 }, ser := [true, false], bitEnd := 80048 }
     nextBit (sender 0) 0 = none ∧ nextBit (sender 1) 0 = some 80048 ∧ ¬ ((sender 1).lanes[0].cur = [] ∧ (sender 1).lanes[0].ser = []) ∧
     live.lanes[0].cur = [] ∧ live.lanes[0].ser = [] ∧
     (let s := sender 1
      let d := { s with lanes := s.lanes.set 0 { s.lanes[0] with ser := [], cur := [true], sentCont := true, drv := some true, timing := { s.lanes[0].timing with cont := true } } }
      let l := (passTo 5003 d).lanes[0]
      nextBit d 0 = some 80048 ∧ l.timing.cont = true ∧ l.sentCont = true ∧ l.cur ≠ [] ∧ l.ser = [])) ∧
    (let d0 := laneOf 1 id fun l => { l with timing := { l.timing with src := 3, refLane := 0 } }
     let d := { d0 with lanes := d0.lanes.set 0 { d0.lanes[0] with cur := [true] } }
     d.lanes[1].timing.src = 3 ∧ d.lanes[0].cur ≠ [] ∧ d.lanes[1].half2 = false ∧ live.lanes[1].timing.src ≠ 3) ∧
    (let d := laneOf 0 id fun l => { l with pulse := some true, pulseEnd := 5007 }
     d.lanes[0].pulse ≠ none ∧ live.lanes[0].pulse = none) ∧
    (let d (c : Nat) (r : Option Nat) := laneOf 0 id fun l => { l with oe := true, lvl := true, drv := some true, drvClk := c, readback := r }
     let wrong (d : Dev) : Bool := laneDrive d 0 == some true && d.lanes[0].synced d.clk != true
     let late (d : Dev) : Dev := passTo (contentionAt d 0 true) d
     (d 4000 none).cfg.lanes[0].mode = 2 ∧ wrong (d 4000 none) ∧ wrong (late (d 4000 none)) ∧
     contentionAt (late (d 4000 none)) 0 true ≤ (late (d 4000 none)).clk ∧ wrong (d 4990 (some 5010)) ∧ ¬ wrong (late (d 4990 (some 5010))) ∧
     laneDrive live 5 = none) := by decide +kernel

/-- `live` with pair 0 of lanes 2 and 3 sampling, `k` disagreements behind it and N = 2. -/
def pairing (k : Nat) (agree disc : Bool) : Dev :=
  { live with
    cfg := { live.cfg with pairs := live.cfg.pairs.set 0 { laneA := 2, laneB := 3, inv := 0, ts := 100, n := 2, safeOut := 0xFF } }
    lanes := live.lanes.set 2 { live.lanes[2] with filt := !agree }
    pairs := live.pairs.set 0 { run := true, count := BitVec.ofNat 16 k, disc := disc, next := 6000 } }

theorem wit_PairedInputsTripAndClear :
    (let side (d : Dev) (l : Byte) : Bool := pairSide (passTo 6000 d) l false
     let d := pairing 1 false false
     (d.pairs[0].run && side d 2 != side d 3 && satInc d.pairs[0].count == d.cfg.pairs[0].n && d.pairs[0].count != d.cfg.pairs[0].n) &&
     side (pairing 1 true false) 2 == side (pairing 1 true false) 3 && (pairing 1 false true).pairs[0].disc &&
     satInc (pairing 0 false false).pairs[0].count != 2 && !live.pairs[0].run) = true ∧
    (served .host 0x710C live ∧ served strong (0x710C + 0x20 * 15) live ∧ bit (1 : Word) 0 = true) := by decide +kernel

theorem wit_TimebaseAddsItsIncrement : live.sys.fclkOn = true ∧ live.tb.counting = true ∧ live.tb.incNext = none := by decide +kernel

theorem wit_TimeIsLoadedReadAndSteered :
    (served .host 0x201C up (fun d => !d.committed) ∧ served .host 0x201C live (fun d => d.committed) ∧ bit (1 : Word) 0 = true) ∧
    (served .host 0x2000 live ∧ served (.ring 3) 0x2000 live ∧ served strong 0x2000 live) ∧
    (let d (c r : Nat) : Dev := { live with
       clk := c, cfg := { live.cfg with timeFlags := 1 }, tb := { live.tb with ppsEdge := some 10, ppsRef := some (BitVec.ofNat 64 r) } }
     (disciplined (d 1498500010 7) = true ∧ (d 1498500010 7).clk - 10 = 1498500000 ∧ (d 1501500010 7).clk - 10 = 1501500000 ∧
      (d 1501500011 7).clk - 10 > 1501500000 ∧ (d 1498500009 7).clk - 10 < 1498500000) ∧ live.tb.ppsRef = none ∧ (d 10 0).sys.fclkOn = true ∧ (d 10 0).tb.ppsEdge = some 10) := by
  decide +kernel

theorem wit_CompareChannelsArmAndMatch :
    (let at' (staged : Nat) : Dev := { live with tb := { live.tb with cmps := live.tb.cmps.set 1 { staged := BitVec.ofNat 64 staged } } }
     served .host (0x240C + 0x20) (at' 1001) (fun d => decide ((dueMatch 1 true d).tb.now.toNat < (dueMatch 1 true d).tb.cmps[1].staged.toNat)) ∧
     served .host (0x240C + 0x20) (at' 1000) (fun d => decide ((dueMatch 1 true d).tb.cmps[1].staged.toNat ≤ (dueMatch 1 true d).tb.now.toNat)) ∧
     served .host 0x240C live (fun d => d.committed) ∧ bit (0x100 : Word) 2 = false ∧ bit (0x104 : Word) 2 = true ∧
     bit (0x100 : Word) 8 = true ∧ bit (0x200 : Word) 9 = true ∧ bit (0x400 : Word) 10 = true) ∧
    (let d := { live with tb := { live.tb with cmps := live.tb.cmps.set 1 { armed := true, target := 1000, pulseEnd := some 5001 } } }
     d.sys.fclkOn = true ∧ d.tb.cmps[1].armed = true ∧ d.tb.counting = true ∧ d.tb.cmps[1].pulseEnd = some 5001 ∧ d.tb.cmps[2].armed = false) ∧
    (live.sys.fclkOn = true ∧ live.tb.counting = true ∧ live.tb.incNext = none ∧ live.tb.inc ≠ 0 ∧
      (0xFFFFFFFFFFFFFFFF : DWord).toNat * 2 ^ 32 + live.tb.inc.toNat ≤ 2 ^ 96) := by decide +kernel

theorem wit_GatedCountersCountWrapAndHit :
    (let d := { live with tb := { live.tb with gcs := live.tb.gcs.set 0 {
       en := true, kind := 5, pol := true, gatePrev := true, thrEn := true, thr := 10, count := 9 } } }
     let o := d.tb.gcs[0]
     d.sys.fclkOn = true ∧ (o.en = true ∧ o.kind = 5 ∧ o.pol = true ∧ o.gatePrev = true ∧ o.loadClk ≤ d.clk) ∧ o.thrEn = true ∧ o.count.toNat < o.thr.toNat) ∧
    live.tb.gcs[0].en = false ∧
    served .host 0x2C1C live ∧ served strong (0x2C1C + 0x20 * 31) live := by decide +kernel

theorem wit_OccurrencesReachTheirTargets :
    (let f : Flight := { clk := 4999, src := 0x100, time := 5, tgt0 := 0x1000, tgt1 := 0 }
     live.sys.fclkOn = true ∧ { live with ev := { live.ev with flights := [f] } }.ev.flights = f :: []) ∧
    (fld (0 : Half) 12 4 = 0) ∧
    (fld (0x11FF : Half) 12 4 = 1 ∧ fld (0x11FF : Half) 0 12 = 16 * 31 + 15 ∧ (at? live.pwr.cls (31 / 4) {}).st = .active ∧ live.engines[31].life.st ≠ .cutover ∧
      (∀ x ∈ live.ev.landing, x.eng.val / 4 ≠ 31 / 4) ∧
      (let d := { live with pwr := { live.pwr with cls := live.pwr.cls.set 7 { st := .dormant } } }
       (cluster d 7).st = .dormant ∧ d.engines[31].life.st ≠ .cutover ∧ at? d.cfg.clusterPolicy 7 0 ≠ 2 ∧ d.ev.landing.length < 32)) ∧
    (fld (0x207F : Half) 12 4 = 2 ∧ fld (0x207F : Half) 0 12 = 32 * 3 + 31 ∧
      (let x : LarderEntry := { src := 0x100, line := 31, l2 := false, count := 1, time := 0 }
       let q := { live with ev := { live.ev with larders := live.ev.larders.set 3 { entries := [x] } } }.ev.larders[3]
       (∃ x ∈ q.entries, x.src.toNat = 0x100 ∧ x.line.toNat = 31) ∧ live.ev.larders[3].entries.length < live.cfg.larderLimit[3].toNat ∧
       { live with cfg := { live.cfg with larderLimit := Vector.replicate 4 0 } }.cfg.larderLimit[3].toNat ≤ live.ev.larders[3].entries.length)) ∧
    (fld (0x40FF : Half) 12 4 = 4 ∧ fld (0x40FF : Half) 0 12 < 256) ∧
    (fld (0x5003 : Half) 12 4 = 5 ∧ fld (0x5003 : Half) 0 12 / 4 = 0 ∧ live.cfg.lanes[0].mode ≠ 0 ∧ live.cfg.lanes[0].mode ≠ 1) ∧
    (served .host 0x4200 live ∧ served strong (0x4220 + 4 * 7) live) := by decide +kernel

theorem wit_LarderPopsAndInterruptMessages :
    (let x : LarderEntry := { src := 0x100, line := 31, l2 := true, count := 1, time := 0 }
     let d := { live with ev := { live.ev with larders := live.ev.larders.set 0 { entries := [x] } } }
     regsLive d = true ∧ d.ev.larders[0].entries.find? (qualifies d.cores[0].lvl) = some x ∧
     live.ev.larders[0].entries.find? (qualifies live.cores[0].lvl) = none) ∧
    (let d := { live with ev := { live.ev with hstat := live.ev.hstat.set 0 1, hen := live.ev.hen.set 0 1, ien := true } }
     intaCond d = true ∧ d.pe.wire = false ∧ intaCond live = false ∧ { live with pe := { live.pe with wire := true } }.pe.wire = true ∧ live.pe.dlUp = true) := by
  decide +kernel

theorem wit_RegisterReadsReturnAndClear :
    (served .host 0x4010 live (fun d => (regVal .host 0x4010 d).isSome) ∧ served strong 0x4060 live (fun d => (regVal strong 0x4010 d).isSome)) ∧
    (0x7FFFFC % 4 = 0 ∧ 0x7FFFFC + 4 * 2 ≤ 0x1000000 ∧ hostLive live = true ∧ barOn (arrive live) = true ∧ (arrive live).sys.fclkOn = true ∧
      (0x800000 % 4 = 0 ∧ 0x800000 + 4 * 2 ≤ 0x1000000 ∧ ∀ i < 4 * 2, notAppended live (0x800000 - 0x800000 + i) = false) ∧
      (let d := { live with cl := { live.cl with bins := live.cl.bins.set 1 { res := 32, recs := [record 0 4 16] } } }
       hostLive d = true ∧ barOn (arrive d) = true ∧ (arrive d).sys.fclkOn = true ∧ notAppended d 0x1010 = true)) ∧
    (0xE : BitVec 4) ≠ 0xF := by decide +kernel

theorem wit_RegisterWritesStoreTheirFields :
    served .host (0x4120 + 4 * 7) live ∧ served strong 0x4100 live ∧ served .host (0x6018 + 0x40 * 63) live ∧ served .host 0x8400 live ∧
    served .host 0x004C live ∧ served strong (0xF200 + 4 * 127) live ∧ served weak 0xF200 live ∧
    (hostLive live = true ∧ barOn (arrive live) = true ∧ (arrive live).sys.fclkOn = true) := by decide +kernel

theorem wit_WritesThatReachNoRegister :
    (hostLive State.reset.dev = false ∧ regsLive State.reset.dev = false ∧ strong ≠ .host) ∧
    (hostLive live = true ∧ (arrive live).pe.urCnt = 0) ∧
    (let d := { live with pe := { live.pe with mse := false } }
     hostLive d = true ∧ barOn (arrive d) = false) ∧
    (barOn (arrive live) = true ∧ (arrive live).sys.fclkOn = true ∧ (regVal .host 0x20 (arrive live)).isSome = true ∧ (1 : BitVec 4) ≠ 0 ∧
      (1 : BitVec 4) ≠ 0xF ∧ ¬ (0xF200 ≤ 0x20 ∧ 0x20 < 0xF400) ∧ (0x202C : BitVec 24).toNat % 8 = 4 ∧ regVal .host 0x1D000 (arrive live) = none) ∧
    (let d := { live with pe := { live.pe with romEn := true } }
     hostLive d = true ∧ romOn (arrive d) = true ∧ (0xFFFC : BitVec 24).toNat < 0x10000) ∧
    (regsLive live = true ∧ regVal strong 0x1D000 live = none) := by decide +kernel

/-! ### Hypotheses of the statements: Cellar, power, supervision -/

/-- `live` with bin `b` changed. -/
def binIs (b : Fin 256) (x : Bin) (f : Cl → Cl := id) : Dev := { live with cl := f { live.cl with bins := live.cl.bins.set b x } }

theorem wit_RecordsTimeOutReleaseAndAreTaken :
    (live.sys.fclkOn = true ∧ (binCfg? live 1).isSome = true ∧ Memory.wf live.cl.mem) ∧
    (let r := { record 0 4 16 with age := 4 }
     let d := binIs 1 { res := 32, recs := [r], fwd := some (r.seq, 16, 9) }
     d.cl.bins[1].fwd = some (r.seq, 16, 9) ∧ (binIs 1 {}).cl.bins[1].fwd = none ∧
     d.cl.bins[1].openRecs.find? (fun r => r.slot == (0 : Fin 8).val) = some r ∧ plan.bins.head?.any (fun c => decide (c.2.resTimeout.toNat ≤ r.age)) = true) ∧
    (let r := record 3 4 32 .ended
     (binIs 1 { res := 32, recs := [r] }).cl.bins[1].recs = [] ++ r :: [] ∧ r.st = .ended ∧ (record 3 4 16).st = .opened) ∧
    (let r := record 3 4 32 .closing
     let y := { apart with seq := 3 }
     let d0 := binIs 1 { res := 32, recs := [r] }
     let d := { d0 with engines := d0.engines.set 0 { d0.engines[0] with ep := { d0.engines[0].ep with queue := [y], portWait := 2 } } }
     d.cl.bins[1].recs = [] ++ r :: [] ∧ r.st = .closing ∧ d.engines[0].ep.queue = [y] ∧ y.bin = 1 ∧ y.seq = r.seq ∧ y.ends.isSome = true ∧
     0 < d.engines[0].ep.portWait ∧ (∀ f : Fin 32, f ≠ 0 → d.engines[f].ep.queue = []) ∧ (∀ k l : Fin 4, d.cl.ports[k][l].queue = [])) ∧
    (served .host (0x900C + 0x10) (binIs 1 { res := 32, recs := [record 3 4 32 .released] }) (fun d =>
      (binCfg? d 1).any (fun c => c.hostRing == 0xFF) && d.sys.role != 1 && d.cl.bins[1].recs == [record 3 4 32 .released] ++ []) ∧
      (4 : Word) = 3 + BitVec.ofNat 32 (([] : List Rec).length + 1) ∧
      ([record 3 4 32 .released].filter fun y => y.st == .released || y.st == .sealed).length < ((5 : Word) - 3).toNat) ∧
    (let tr : Trig := { time := 9, src := 1, coalesced := 0, tick := 0, levels := 0 }
     let d := binIs 1 { res := 40, seq := 1, recs := [record 0 5 16], trgOpen := some (tr, some 0) }
     d.cl.bins[1].trgOpen = some (tr, some 0) ∧ d.cl.bins[1].trgQueue = [] ∧ d.cl.bins[1].openRecs.find? (fun r => r.seq == 0) = some (record 0 5 16) ∧
     (record 0 5 16).len = 5) ∧
    (let d := binIs 1 { res := 32, recs := [record 3 4 32 .released] } fun l => { l with sealQueue := [(1, 3)] }
     d.cl.sealFrozen = false ∧ d.cl.sealQueue = (1, (record 3 4 32 .released).seq) :: [] ∧
     d.cl.bins[1].recs.find? (fun y => y.seq == 3 && y.st == .released) = some (record 3 4 32 .released)) := by decide +kernel

theorem wit_StewardPortsReserveAppendCommitAndVoid :
    (regsLive live = true ∧ live.cores[0].lvl = 0) ∧
    (fld (0x00020002 : Word) 0 8 = 2 ∧ fld (0x00020002 : Word) 16 16 = 2 ∧ fld (0x00000002 : Word) 16 16 = 0 ∧ (binCfg? live 2).isSome = true ∧
      binCfg? live 9 = none ∧ (binCfg? live 2).any (fun e => coreMay live 0 2 e live.cores[0].comp) = true ∧
      (binCfg? live 1).any (fun e => !coreMay live 0 1 e live.cores[0].comp) = true ∧ (bin live 2).openRecs = []) ∧
    ((binCfg? live 2).any (fun e => let x := bin (makeRoom 2 e 64 (serveWaiting 2 e (withdraw (Waiter.ofSet 0 0) live))) 2
        hasRoom e x 64 && decide (64 ≤ e.maxrec.toNat) && e.policy == 2 && x.openRecs == []) = true ∧
      (binCfg? live 2).any (fun e => decide (e.maxrec.toNat < 65)) = true ∧
      (let d := binIs 2 { res := 0xF80, recs := [record 0 496 16 .released], seq := 1 }
       (binCfg? d 2).any (fun e => !hasRoom e (bin (makeRoom 2 e 64 (serveWaiting 2 e (withdraw (Waiter.ofSet 0 0) d))) 2) 64) = true ∧
       (let d1 := { d with cfg := { d.cfg with bins := d.cfg.bins.map fun x => (x.1, { x.2 with policy := 0 }) } }
        (binCfg? d1 2).any (fun e => e.policy != 2 && coreMay d1 0 2 e 0 && !hasRoom e (bin (makeRoom 2 e 64 (serveWaiting 2 e d1)) 2) 64) = true))) ∧
    ((live.cl.ports[0][0].queue.length < 16) ∧
      (let d := { live with cl := { live.cl with ports := live.cl.ports.set 0 (live.cl.ports[0].set 0 { queue := List.replicate 16 apart, wait := 2 }) } }
       16 ≤ d.cl.ports[0][0].queue.length)) ∧
    (let d := binIs 2 { res := 32, recs := [record 0 4 16], seq := 1 }
     heldAt (resolve (coreOwns 0) 0x200 d) 16 = true ∧ Memory.wf d.cl.mem ∧ 16 + 4 ≤ 8 * 4 ∧
     (match resolve (coreOwns 0) 0x80000200 d with | .invalid => true | _ => false) = true ∧
     (match resolve (coreOwns 0) 0x100 d with | .other => true | _ => false) = true ∧
     (match resolve (coreOwns 0) 0x201 { d with cl := { d.cl with
       bins := d.cl.bins.set 2 { d.cl.bins[2] with timedOut := d.cl.bins[2].timedOut.set 1 (some 0) } } } with | .late => true | _ => false) = true) ∧
    (let d := binIs 2 { waiting := [.steward 0 0 5 2] }
     d.sys.fclkOn = true ∧ (binCfg? d 2).any (fun e => hasRoom e d.cl.bins[2] 2) = true ∧ d.cl.bins[2].waiting = [.steward 0 0 5 2] ∧
     d.cl.bins[2].trgOpen = none) ∧
    (∀ op : Fin 2,
      let d0 := reserving (8 + op.val) 2
      let d := { d0 with cl := { d0.cl with bins := d0.cl.bins.set 1 { waiting := [.engine 0 2] } } }
      executes d 0 .ok ∧ (binCfg? d 1).isSome = true ∧ d.cl.bins[1].waiting = [.engine 0 2] ∧ d.cl.bins[1].trgOpen = none ∧
      blockFull d 0 d.engines[0].current = false ∧ d.engines[0].current.memop = 8 + op.val) := by
  unfold executes fetched
  decide +kernel

/-- `up` with cluster 0 in a state. -/
def clusterIs (d : Dev) (c : Cluster) : Dev := { d with pwr := { d.pwr with cls := d.pwr.cls.set 0 c } }

theorem wit_RowRepairsDormantClustersAndTheTap :
    (served .host 0x8014 up ∧ fld (0x800F01FF : Word) 16 4 = 15 ∧ bit (0x800F01FF : Word) 31 = true ∧ fld (0 : Word) 16 4 = 0) ∧
    (let b : Bank := { track := [(7, 4)] }
     up.cl.repairThr ≠ 0 ∧ (∃ x ∈ b.track, x.1 = 7 ∧ up.cl.repairThr.toNat ≤ x.2.toNat) ∧ ({ repairing := some 7 : Bank }).repairing.isSome = true ∧
     ({ sparesUsed := 32 : Bank }).sparesUsed = 32) ∧
    (let c : Cluster := { checks := 4 }
     up.sys.fclkOn = true ∧ c.st = .active ∧ up.pwr.dormDly.toNat ≤ c.checks ∧ c.checks ≠ 0 ∧
     dormancyOk (passTo ((clusterIs up c).pwr.lastCheck + 1) (clusterIs up c)) 0 = true) ∧
    (let c : Cluster := { st := .fencing, fence := 4997 }
     c.st = .fencing ∧ c.fence + 2 < live.clk ∧ live.clk ≤ { c with fence := 4998 }.fence + 2) ∧
    (let c : Cluster := { st := .dormant, wakeReq := true }
     c.st = .dormant ∧ c.wakeReq = true) ∧ ({ st := .waking : Cluster }).st = .waking ∧
    (up.committed = false ∧ up.sys.fclkOn = true ∧ live.committed = true) ∧
    (let t := State.reset.tap
     t.tck = false ∧ ({ t with st := .shDr } : Tap).st = .shDr ∧ ({ t with st := .capDr } : Tap).instr = .bypass) := by decide +kernel

/-- Core 0 as `plan` starts it, with a program key over local memory, a sealed vector key, a data key in K0 and a stack key in K7. -/
def coreWith (f : Core → Core := id) : Dev :=
  { live with cores := live.cores.set 0 (f { live.cores[0] with
      st := .running, status := 0x0800
      pck := mkKey 0 0x1000 0 0x24 0 false true, vkey := mkKey 0x1000 0x100 0x40 0x4 5 true true
      k := ((Vector.replicate 8 {}).set 0 (mkKey 0x8000 0x1000 0 0x1F 0 false true)).set 7 (mkKey 0x9000 0x1000 0x800 0x1F 0 false true) }) }

theorem wit_CoresFreezeThawResetAndDisable :
    (served weak (stOff 0 0xF0) live ∧ mayFreeze weak = false) ∧
    (mayFreeze strong = true ∧ hostLike strong = false ∧
      served strong (stOff 0 0xF0) (coreWith) (fun d => !d.cores[0].frozen && d.cores[0].st == .running) ∧
      served strong (stOff 0 0xF0) (coreWith fun k => { k with frozen := true, frzCause := 0x3F })
        (fun d => let k := d.cores[0]; k.frozen && k.frzCause == 0x3F && k.vkey.tag && k.vkey.sealed && k.vkey.may permX) ∧
      served strong (stOff 0 0xF0) (coreWith fun k => { k with frozen := true, frzCause := 0x3E }) (fun d => d.cores[0].frozen && d.cores[0].frzCause != 0x3F)) ∧
    (lsReport ([] : List Nat).min? (firstDisagreement coreWith.ls[0].inj [(5002, 1)]) = some (1, 5005) ∧
      lsReport ([] : List Nat).min? (firstDisagreement coreWith.ls[0].inj []) = none ∧ lsReport [5000, 5004].min? none = some (2, 5009) ∧
      (∀ x ∈ ([(5003, 7)] : List (Nat × BitVec 16)), 5002 < x.1 ∧ x.2 ≠ 0)) ∧
    (compared coreWith 0 = true ∧ compared (coreWith fun k => { k with st := .disabled }) 0 = false ∧ coreWith.ls[0].last = none ∧
      (let d := { coreWith with ls := coreWith.ls.set 0 { last := some 0 } }
       (∃ t, d.ls[0].last = some t ∧ d.clk - t ≤ 1500000000) ∧ compared d 0 = true)) ∧
    (let d := coreWith fun k => { k with st := .inReset }
     d.cores[0].st = .inReset ∧ d.sys.fclkOn = true ∧ d.trl.st ≠ .committing ∧ bit d.cfg.started 0 = true ∧ bit d.cfg.started 1 = false ∧
     (let e : KeyEntry := { core := 0, reg := 8, key := 5 }
      { d.cfg with keys := [e] }.keys.filter (fun x => x.core.toNat == 0 && x.reg == 8) = [e])) := by
  refine ⟨?_, ?_, ?_, ⟨?_, ?_, ?_, ⟨0, ?_⟩, ?_⟩, ?_⟩ <;> decide +kernel

/-- Watchdog `w` of `live`, its window from 100 to 150 clk into a period that began at 4,900. -/
def wdog (w : Fin 5) (f : Wd → Wd := id) (clk : Nat := 5000) : Dev :=
  { live with clk := clk, wd := live.wd.set w (f { enable := true, running := true, period := 1000, openStart := 100, openLen := 50, start := 4900, vlimit := 2 }) }

theorem wit_WatchdogsJudgeAnswersAndWindows :
    (∀ clk : Fin 4, let c := if clk = 0 then 4999 else if clk = 1 then 5000 else if clk = 2 then 5049 else 5050
      served .host (0xE004 + 0x40 * 4) (wdog 4 id c) (fun d => d.wd[4].running && !d.wd[4].answered && d.clk == c)) ∧
    (ownsWd .host 4 ∧ ownsWd strong 0 ∧ ¬ ownsWd .host 0) ∧
    served .host (0xE004 + 0x40 * 4) (wdog 4 fun x => { x with answered := true }) (fun d => d.wd[4].answered) ∧
    served strong (0xE010 + 4 * 2) (wdog 0) (fun d => d.wd[0].running) ∧ served strong 0xE010 live (fun d => !d.wd[0].running) ∧
    ((wdog 0).wd[0].running = true ∧ (wdog 0).wd[0].answered = false ∧ (wdog 0).wd[0].violated = false ∧
      (satInc (wdog 0).wd[0].vcount).toNat < (wdog 0).wd[0].vlimit.toNat ∧
      (wdog 0 fun x => { x with vcount := 1 }).wd[0].vlimit.toNat ≤ (satInc (wdog 0 fun x => { x with vcount := 1 }).wd[0].vcount).toNat) := by
  refine ⟨?_, ⟨rfl, rfl, by simp [ownsWd]⟩, ?_⟩ <;> decide +kernel

theorem wit_APeriodWithoutViolationPasses :
    (let d := wdog 4 fun x => { x with answered := true }
     d.sys.fclkOn = true ∧ d.wd[4].running = true ∧ d.wd[4].answered = true ∧ d.wd[4].violated = false ∧ ((4 : Fin 5) = 4 ∨ (Machine.core d 4).st ≠ .inReset)) ∧
    (let d := wdog 0 fun x => { x with answered := true }
     d.sys.fclkOn = true ∧ d.wd[0].running = true ∧ d.wd[0].answered = true ∧ d.wd[0].violated = false ∧ ((0 : Fin 5) = 4 ∨ (Machine.core d 0).st ≠ .inReset)) ∧
    (wdog 0 fun x => { x with violated := true }).wd[0].violated = true := by decide +kernel

theorem wit_SelfTestsRunEndAndRotate :
    (served .host 0x0010 live (fun d => d.bist.run == none && !d.bist.frozen && bistKnown 2 31 && bistEligible d 2 31) ∧ maySys .host = true ∧
      served weak 0x0010 live ∧ maySys weak = false ∧ bistKnown 2 32 = false ∧ bistEligible live 2 0 = false ∧
      fld (0x80001F02 : Word) 0 4 = 2 ∧ fld (0x80001F02 : Word) 8 8 = 31 ∧ bit (0x80001F02 : Word) 31 = true) ∧
    (let d := { live with bist := { live.bist with run := some { kind := 4, index := 31, rot := false } } }
     d.bist.run = some { kind := 4, index := 31, rot := false } ∧ d.bist.frozen = false ∧ live.bist.run = none) ∧
    (let d0 := { live with bist := { live.bist with run := some { kind := 2, index := 4, rot := false } } }
     let d := { d0 with engines := d0.engines.set 4 { d0.engines[4] with life := { d0.engines[4].life with st := .vacated } } }
     d.bist.run = some { kind := 2, index := 4, rot := false } ∧ d.engines[4].life.st = .vacated) ∧
    (let d := { live with bist := { live.bist with rotEn := true, rotInterval := 1, rotCount := 1, rotMask := 2, posKind := 2, posIndex := 4 } }
     d.bist.rotEn = true ∧ d.bist.rotInterval ≠ 0 ∧ d.bist.rotInterval.toNat ≤ d.bist.rotCount ∧ d.bist.run = none ∧ d.bist.frozen = false ∧
     (let i := (rotOrder.findIdx? fun x => x == (d.bist.posKind.toNat, d.bist.posIndex.toNat)).getD 0
      (rotOrder.drop i ++ rotOrder.take i).any (rotEligible d) = true)) ∧
    (served .host 0xF400 live (fun d => canon (0 : Byte) d.rc) ∧ fld (0xC1EA0001 : Word) 16 16 = 0xC1EA ∧ bit (0xC1EA0001 : Word) 0 = true) := by
  decide +kernel

/-! ### Hypotheses of the statements: Stewards -/

/-- `coreWith` about to execute the instruction whose bytes begin with these 16-bit words. -/
def atCode (ws : List Nat) (f : Core → Core := id) : Dev := coreWith fun k => f { k with mem := wrBytes [] 0 (ws.flatMap fun w => leBytes 2 w) }

/-- Core 0's instruction passes the checks of `Ready` as a legal form of kind `o`. -/
def readyAs (d : Dev) (o : StOp) : Bool :=
  mayExecute d 0 && (fetchFault d 0 d.cores[0].pc.toNat).isNone && opOf (insAt d.cores[0] d.cores[0].pc.toNat).w == some o &&
    !illegalForm o (insAt d.cores[0] d.cores[0].pc.toNat) d.cores[0]

theorem ready_of {d : Dev} {o : StOp} (h : readyAs d o = true) : Ready d 0 o (insAt d.cores[0] d.cores[0].pc.toNat) := by
  simp only [readyAs, Bool.and_eq_true, Option.isNone_iff_eq_none, Bool.not_eq_true', beq_iff_eq] at h
  exact ⟨h.1.1.1, h.1.1.2, rfl, h.1.2, h.2⟩

/-- Core 0's format-M instruction also reads its operand. -/
def readsAs (d : Dev) (o : StOp) (n : Nat) (sext : Bool) : Bool :=
  readyAs d o && (readOp 0 (insAt d.cores[0] d.cores[0].pc.toNat) sext .ok (lastSlot d 0 n)).toOption.isSome

theorem reads_of {d : Dev} {o : StOp} {n : Nat} {sext : Bool} (h : readsAs d o n sext = true) :
    ∃ b d2, Reads d 0 o n (insAt d.cores[0] d.cores[0].pc.toNat) sext .ok b d2 := by
  simp only [readsAs, Bool.and_eq_true] at h
  obtain ⟨h1, h2⟩ := h
  cases hr : readOp 0 (insAt d.cores[0] d.cores[0].pc.toNat) sext .ok (lastSlot d 0 n) with
  | error f => simp [hr, Except.toOption] at h2
  | ok x => exact ⟨x.1, x.2, ready_of h1, hr⟩

/-- The device at the operand word `16-bit OP << 10 | SZ << 8 | MD << 5 | K << 2 | F` of format M. -/
def fm (op sz md k f : Nat) (ext : List Nat := []) : Dev := atCode ((op * 1024 + sz * 256 + md * 32 + k * 4 + f) :: ext)

/-- The base word of each instruction in its register form, or in its only one, from the encodings of R366, R350, R353 and R365. -/
def forms : List (StOp × List Nat) :=
  [(.ld, [0x06E0]), (.ldr, [0x0EE1]), (.add, [0x16E0]), (.adc, [0x1AE0]), (.sub, [0x1EE0]), (.sbc, [0x22E0]), (.cmp, [0x26E0]), (.and, [0x2AE0]),
   (.or, [0x2EE0]), (.xor, [0x32E0]), (.tst, [0x36E0]), (.addf, [0x3AE0]), (.subf, [0x3EE0]), (.addd, [0x42E0]), (.subd, [0x46E0])] ++
  [(.mul, [0x4AE0]), (.mulu, [0x4AE1]), (.mulf, [0x4AE2]), (.mac, [0x4EE0]), (.macu, [0x4EE1]), (.macf, [0x4EE2]), (.div, [0x52E0]),
   (.divu, [0x52E1]), (.addr, [0x56E0]), (.cmpr, [0x5AE0]), (.jmp, [0x6EE0]), (.call, [0x72E0])]

/-- The words of the instructions without an operand of format M. -/
def others : List (StOp × List Nat) :=
  [(.nop, [0x0001]), (.ret, [0x0002]), (.gret, [0x0003]), (.wait, [0x0005]), (.fence, [0x0006]), (.clra, [0x0007]), (.neg, [0x0008]),
   (.not, [0x0009]), (.sat, [0x000A]), (.rnd, [0x000B]), (.daa, [0x000C]), (.das, [0x000D]), (.cvbd, [0x000E]), (.sexb, [0x000F]),
   (.sexh, [0x0010]), (.clrmp, [0x0011]), (.push, [0x0020]), (.pop, [0x0028]), (.mfs, [0x0040]), (.mts, [0x0080])] ++
  [(.st, [0x0AE0]), (.str, [0x12E1]), (.tas, [0x60A0]), (.lrw, [0x66A0]), (.scw, [0x6AA0]), (.kld, [0x7440]), (.kst, [0x7840]), (.movs, [0x821C]),
   (.fils, [0x861C]), (.cmps, [0x8A1C]), (.scns, [0x8E00]), (.crcs, [0x9200]), (.bcc, [0xC000, 0xFFFE]), (.shift, [0xEE80]), (.mask, [0xF001]),
   (.signal, [0xF41F]), (.trap, [0xF8FF]), (.gcall, [0xB400])] ++
  [(.kmove, [0xB080]), (.kclr, [0xB081]), (.kderive, [0xB082]), (.kseal, [0xB083, 1]), (.kunseal, [0xB084, 1]), (.kbase, [0xB005]), (.klen, [0xB006]),
   (.kcur, [0xB007]), (.kperm, [0xB008]), (.ksetc, [0xB009]), (.kaddc, [0xB00A]), (.kmfs, [0xB08B, 1]), (.kmts, [0xB00C, 1]), (.ktag, [0xB00D])]

/-- Every instruction without a format-M operand is ready in some state (RTE in an exception level). -/
theorem wit_forms_ready : (∀ x ∈ others, readyAs (atCode x.2) x.1 = true) ∧
    readyAs (atCode [0x0004] fun k => { k with status := 0x3000 }) .rte = true := by decide +kernel

/-- Every format-M instruction is ready in its register form; ADD reads a register, an immediate and local memory. -/
theorem wit_forms_read : (∀ x ∈ forms, readyAs (atCode x.2) x.1 = true) ∧ readsAs (fm 5 2 7 5 0) .add 1 false = true ∧
    readsAs (fm 5 2 0 0 0 [0]) .add 1 false = true ∧ readsAs (fm 5 2 6 0 0 [0xFFC, 0]) .add 2 false = true ∧
    readsAs (fm 5 2 6 0 0 [0xFFD, 0]) .add 2 false = false := by decide +kernel

theorem wit_StewardIntegersAndLogic :
    (∃ i b d2, Reads (atCode [0x16E0]) 0 .add (opSlots 0 (atCode [0x16E0]).cores[0] i) i false .ok b d2) ∧
    (∃ i, Ready (atCode [0x0009]) 0 .not i) ∧ (∃ i, Ready (atCode [0x0008]) 0 .neg i) ∧ (∃ i, Ready (atCode [0xEE80]) 0 .shift i) ∧
    ((atCode [0x0008] fun k => { k with a := 0xFF80000000, status := 0x0840 }).cores[0].a32 = 0x80000000 ∧
      (atCode [0x0008] fun k => { k with a := 0xFF80000000, status := 0x0840 }).cores[0].flag stOVEN = true) := by
  refine ⟨⟨_, reads_of ?_⟩, ⟨_, ready_of ?_⟩, ⟨_, ready_of ?_⟩, ⟨_, ready_of ?_⟩, ?_⟩ <;> decide +kernel

theorem wit_StewardMultipliesDividesAndCountsInDecimal :
    (∃ i b d2, Reads (atCode [0x4AE2]) 0 .mulf (opSlots 0 (atCode [0x4AE2]).cores[0] i) i false .ok b d2) ∧
    (∃ i b d2, Reads (atCode [0x52E0]) 0 .div (33 + opSlots 0 (atCode [0x52E0]).cores[0] i) i false .ok b d2) ∧
    (∃ i b d2, Reads (atCode [0x42E0]) 0 .addd (opSlots 0 (atCode [0x42E0]).cores[0] i) i false .ok b d2) ∧
    (∃ i, Ready (atCode [0x000B]) 0 .rnd i) ∧ (∃ i, Ready (atCode [0x000C]) 0 .daa i) ∧
    (∃ i, Ready (atCode [0x000E]) 0 .cvbd i ∧ (atCode [0x000E]).cores[0].flag stRP = false) ∧
    (let k := (coreWith fun k => { k with muls := [{ kind := .mac, p := 5, left := 4 }] })
     k.cores[0].muls = { kind := .mac, p := 5, left := 4 } :: [] ∧ k.sys.fclkOn = true ∧ k.cores[0].frozen = false ∧ k.cores[0].st = .running) ∧
    coreWith.cores[0].muls = [] ∧ (coreWith fun k => { k with frozen := true }).cores[0].frozen = true ∧
    (coreWith fun k => { k with st := .waiting, muls := [{ kind := .mac, p := 5, left := 4 }] }).cores[0].st = .waiting ∧
    (let d := atCode [0x52E0] fun k => { k with x := 0, status := 0x0840 }
     readsAs d .div 34 false = true ∧ d.cores[0].x = 0 ∧ d.cores[0].flag stDZEN = false ∧ d.cores[0].flag stOVEN = true) := by
  refine ⟨⟨_, reads_of ?_⟩, ⟨_, reads_of ?_⟩, ⟨_, reads_of ?_⟩, ⟨_, ready_of ?_⟩, ⟨_, ready_of ?_⟩, ⟨_, ready_of ?_, ?_⟩, ?_, ?_, ?_, ?_, ?_⟩ <;> decide +kernel

/-- A buffered store of a byte. -/
def stored (a : Nat) : StoreEnt := { addr := BitVec.ofNat 32 a, size := 1, val := 7, perm := 2, sys := true, comp := 0, sealed := false, lvl := 0 }

/-- What an access fault check answers. -/
def passes (x : Option StFault) : Bool := x.isNone

/-- Core 0 about to load the half-word at 0x8001, whose two bytes are in the buffer. -/
def halfOdd : Dev := atCode [0x0540, 1] fun k => { k with sbuf := [stored 0x8001, stored 0x8002] }

theorem wit_StewardLoadsStoresAndTheBuffer :
    (∃ i, Ready (atCode [0x0440, 0xFFF]) 0 .ld i ∧ MemOp (lastSlot (atCode [0x0440, 0xFFF]) 0 2) 0 i .load 0 0x8FFF false ∧ 0x8FFF + i.size ≤ 0x40000) ∧
    (∃ i, Ready (atCode [0x0840, 0xFFF]) 0 .st i ∧ MemOp (lastSlot (atCode [0x0840, 0xFFF]) 0 2) 0 i .store 0 0x8FFF false) ∧
    (let d := atCode [0x0440, 0xFFF] fun k => { k with sbuf := [stored 0x8FFF] }
     d.cores[0].sbuf = [] ++ stored 0x8FFF :: [] ∧ (stored 0x8FFF).addr.toNat = 0x8FFF ∧ (stored 0x8FFF).size = 1) ∧
    (∃ i, Ready halfOdd 0 .ld i ∧ MemOp (lastSlot halfOdd 0 3) 0 i .load 0 0x8001 false ∧ i.size = 2 ∧ 0x8001 % 2 = 1 ∧
      (lastSlot halfOdd 0 3).cores[0].sbuf = [] ++ [stored 0x8001, stored 0x8002]) ∧
    (∃ i, Ready (atCode [0x0AE0]) 0 .st i ∧ i.md = 7) ∧
    (∃ i, Ready (atCode [0x0020]) 0 .push i ∧ passes (accessFault (lastSlot (atCode [0x0020]) 0 2) 0 7 ((atCode [0x0020]).cores[0].key 7) 0x7FC 4 .store true) = true) ∧
    (∃ i, Ready (atCode [0x0028]) 0 .pop i ∧ passes (accessFault (lastSlot (atCode [0x0028]) 0 2) 0 7 ((atCode [0x0028]).cores[0].key 7) 0x800 4 .load true) = true) ∧
    (∃ i, Ready (atCode [0x0006]) 0 .fence i) ∧
    (let d := coreWith fun k => { k with sbuf := [stored 0x3FFFF] }
     d.cores[0].sbuf = stored 0x3FFFF :: [] ∧ d.sys.fclkOn = true ∧ d.sys.wEnd = none ∧ d.cores[0].st ≠ .inReset ∧ 0x3FFFF + 1 ≤ 0x40000 ∧
     Memory.wf d.cores[0].mem ∧ canon false d.cores[0].tags = true ∧ inCellar cellarBase = true ∧ inRegs regBase = true) ∧
    (coreIssues coreWith 0 = true ∧ (aheadBlocks coreWith.cores[0]).find? (fun b => !coreWith.cores[0].pre.any (·.1 == b)) = none ∧
      (let d := atCode (List.replicate 9 1)
       (aheadBlocks d.cores[0]).find? (fun b => !d.cores[0].pre.any (·.1 == b)) = some 1 ∧ mayFetch d 0 1 = true)) := by
  refine ⟨⟨_, ready_of ?_, ⟨0xFFF, ?_, Option.isNone_iff_eq_none.1 ?_, ?_⟩, ?_⟩, ⟨_, ready_of ?_, ⟨0xFFF, ?_, Option.isNone_iff_eq_none.1 ?_, ?_⟩⟩, ?_,
    ⟨_, ready_of ?_, ⟨1, ?_, Option.isNone_iff_eq_none.1 ?_, ?_⟩, ?_, ?_, ?_⟩, ⟨_, ready_of ?_, ?_⟩, ⟨_, ready_of ?_, ?_⟩, ⟨_, ready_of ?_, ?_⟩, ⟨_, ready_of ?_⟩, ?_, ?_⟩ <;> first | decide +kernel | rfl

theorem wit_StewardAtomicsAndRepeats :
    (∃ i, Ready (atCode [0x60A0]) 0 .tas i ∧ MemOp (lastSlot (atCode [0x60A0]) 0 (opSlots 0 (atCode [0x60A0]).cores[0] i)) 0 i .both 0 0x8000 true) ∧
    (∃ i, Ready (atCode [0x66A0]) 0 .lrw i ∧ MemOp (lastSlot (atCode [0x66A0]) 0 (opSlots 0 (atCode [0x66A0]).cores[0] i)) 0 i .both 0 0x8000 true) ∧
    (∃ i, Ready (atCode [0x6AA0]) 0 .scw i) ∧
    (let d := coreWith fun k => { k with resv := some (0x800, 256) }
     d.cores[0].resv = some (0x8000 / 16, 256) ∧ d.cores[0].resv ≠ none ∧ d.sys.fclkOn = true ∧ d.cores[0].frozen = false ∧ d.cores[0].st = .running) ∧
    (let d := coreWith fun k => { k with resv := some (0x800, 200), st := .waiting }
     d.cores[0].resv = some (0x800, 200) ∧ d.cores[0].frozen = false ∧ d.cores[0].st = .waiting) ∧
    (∃ i, Ready (atCode [0x821C]) 0 .movs i ∧ (atCode [0x821C]).cores[0].flag stRP = false ∧ (atCode [0x821C]).cores[0].cnt = 0) ∧
    (let d := atCode [0x821C] fun k => { k with status := 0x4800, cnt := 1 }
     (∃ i, Ready d 0 .movs i ∧ i.md = 0 ∧ i.k = 7) ∧ d.cores[0].flag stRP = true ∧ d.cores[0].cnt ≠ 0 ∧ d.cores[0].cnt ≠ 0xFFFFFFFF ∧
     passes (accessFault d 0 0 (d.cores[0].key 0) (d.cores[0].key 0).cursor 4 .load false) = true ∧
     passes (accessFault d 0 7 (d.cores[0].key 7) (d.cores[0].key 7).cursor 4 .store false) = true) := by
  refine ⟨⟨_, ready_of ?_, ⟨0, ?_, Option.isNone_iff_eq_none.1 ?_, ?_⟩⟩, ⟨_, ready_of ?_, ⟨0, ?_, Option.isNone_iff_eq_none.1 ?_, ?_⟩⟩, ⟨_, ready_of ?_⟩, ?_, ?_,
    ⟨_, ready_of ?_, ?_⟩, ⟨_, ready_of ?_, ?_⟩, ?_⟩ <;> first | decide +kernel | rfl

/-- Core 0 about to CALL through a word past the end of its stack. -/
def callStack : Dev := atCode [0x725C, 0x7FFC]

/-- Compartment 0 of core 0 is sealed. -/
def sealed (d : Dev) : Dev := { d with cfg := { d.cfg with regions := [{ core := 0, compartment := 0, base := 0x8000, len := 0x100 }] } }

theorem wit_StewardControlAndExceptions :
    (∃ i, Ready (atCode [0xC000, 0xFFFE]) 0 .bcc i) ∧
    (∃ i t d1, Ready (atCode [0x6E00, 0x10]) 0 .jmp i ∧ i.md = 0 ∧ t = i.next + i.d16 ∧ d1 = lastSlot (atCode [0x6E00, 0x10]) 0 1 ∧
      passes (fetchFault d1 0 t.toNat) = true) ∧
    (∃ i, Ready (atCode [0xF8FF]) 0 .trap i ∧ (atCode [0xF8FF]).cores[0].lvl = 0 ∧ (atCode [0xF8FF] fun k => { k with status := 0 }).cores[0].mask = 0) ∧
    (∃ i, Ready (atCode [0x0004] fun k => { k with status := 0x3000 }) 0 .rte i ∧ sealedComp live 0 0 = false) ∧
    ((at? coreWith.cores[0].sets 2 {}).gdepth.toNat = coreWith.cores[0].gates.length) ∧
    (∃ i, Ready (atCode [0xF003] fun k => { k with pck := mkKey 0 0x1000 0 4 0 false true, mgrant := 2 }) 0 .mask i ∧
      (coreWith).cores[0].mask = 2 ∧ fld (0xF003 : Word) 0 2 = 3) ∧
    (∃ i, Ready (atCode [0x004F] fun k => { k with status := 0x3000 }) 0 .mfs i ∧ fld i.w 0 6 = 15) ∧
    (∃ i, Ready (atCode [0x008F] fun k => { k with status := 0x3000 }) 0 .mts i ∧ fld i.w 0 6 = 15) ∧
    (let d := coreWith fun k => { k with busPend := true, status := 0 }
     (asyncRequest d 0).isSome = true ∧ d.sys.fclkOn = true ∧ d.sys.wEnd = none ∧ d.cores[0].frozen = false ∧ d.cores[0].st = .running ∧
     d.cores[0].dueFault = none ∧ asyncRequest coreWith 0 = none) ∧
    (let k := (coreWith fun k => { k with tickActive := true, tickCount := true, tbudget := 100, tbudcnt := 100 }).cores[0]
     k.tickActive = true ∧ k.tickCount = true ∧ k.tbudget ≠ 0 ∧ k.tbudget.toNat ≤ k.tbudcnt.toNat) ∧
    (let g : GateEnt := { frame := 0, caller := 0, target := 1, limited := true, left := 0 }
     let k := (coreWith fun k => { k with gates := [g] }).cores[0]
     k.tickActive = false ∧ ∃ g ∈ k.gates, g.limited = true ∧ g.left = 0) ∧
    (coreWith.cores[0].vkey.tag = true ∧ coreWith.cores[0].vkey.sealed = true ∧ coreWith.cores[0].vkey.may permX = true ∧ inSealed coreWith 0 = false ∧
      coreWith.cores[0].lvl ≠ 3) ∧
    (∃ i, Ready callStack 0 .call i ∧ i.md ≠ 0 ∧ i.md ≠ 7 ∧ i.k = 7 ∧
      (match pushWord 0 i.next (lastSlot callStack 0 (1 + jumpSlots 0 callStack.cores[0] i + pushExtra 0 callStack.cores[0])) with
        | .ok d0 => (match readOp 0 i false .ok d0 with | .error f => f.code == 2 | .ok _ => false)
        | .error _ => false) = true) ∧
    (sealedComp (sealed live) 0 0 = true ∧
      (let g : GateEnt := { frame := 0x8000, caller := 0, target := 0, limited := false, left := 0 }
       let d := sealed (coreWith fun k => { k with gates := [g] })
       inSealed d 0 = true ∧ d.cores[0].gates = [] ++ [g] ∧ d.cores[0].lvl ≠ 3 ∧
       (sealed (coreWith fun k => { k with gates := [g], status := 0x3000 })).cores[0].lvl = 3)) := by
  refine ⟨⟨_, ready_of ?_⟩, ⟨_, _, _, ready_of ?_, ?_, rfl, rfl, ?_⟩, ⟨_, ready_of ?_, ?_⟩, ⟨_, ready_of ?_, ?_⟩, ?_, ⟨_, ready_of ?_, ?_⟩, ⟨_, ready_of ?_, ?_⟩,
    ⟨_, ready_of ?_, ?_⟩, ?_, ?_, ?_, ?_, ⟨_, ready_of ?_, ?_⟩, ?_⟩ <;> decide +kernel

/-- A gate descriptor at 0x8000: entry and stack keys, no arguments, compartment 1, LIMIT 100; K0 is a sealed GATE key to it. -/
def gateMem (code : Nat) (f : Core → Core := id) : Dev :=
  atCode [code] fun k => f { k with
    mem := wrLE (wrLE (wrLE (wrLE k.mem 0x8000 16 (mkKey 0x2000 0x100 0x10 4 0 false true).val.toNat) 0x8010 16
      (mkKey 0xA000 0x1000 0x1000 3 0 false true).val.toNat) 0x8038 1 1) 0x803C 4 100
    tags := [(0x800, true), (0x801, true)], k := k.k.set 0 (mkKey 0x8000 0x1000 0 0x400 9 true true) }

theorem wit_StewardKeysAndGates :
    (let k := (atCode [0xB082] fun k => { k with x := 0x800, y := 0x800 }).cores[0]
     (k.key 0).tag = true ∧ (k.key 0).sealed = false ∧ k.x.toNat + k.y.toNat ≤ (k.key 0).len) ∧
    (let kc := mkKey 0 0x1000 4095 0x300 0 false true
     kc.tag = true ∧ kc.sealed = false ∧ kc.may permSEAL = true ∧ kc.may permUNSEAL = true ∧ kc.cursor < kc.len ∧ 1 ≤ kc.base + kc.cursor ∧
     kc.base + kc.cursor ≤ 4095 ∧ (mkKey 0 1 0 1 4095 true true).otype = kc.base + kc.cursor ∧ (mkKey 0 1 0 1 4095 true true).sealed = true) ∧
    (∃ i, Ready (atCode [0x7440]) 0 .kld i ∧ (lastSlot (atCode [0x7440]) 0 2).cores[0].sbuf = [] ∧
      passes (accessFault (lastSlot (atCode [0x7440]) 0 2) 0 0 ((atCode [0x7440]).cores[0].key 0) 0 16 .load false) = true) ∧
    (∃ i, Ready (atCode [0x7840]) 0 .kst i ∧
      passes (accessFault (lastSlot (atCode [0x7840]) 0 2) 0 0 ((atCode [0x7840]).cores[0].key 0) 0 16 .store false) = true) ∧
    (∃ i, Ready (gateMem 0xB400) 0 .gcall i ∧ (lastSlot (gateMem 0xB400) 0 24).cores[0].sbuf = [] ∧
      passes (gateFault (lastSlot (gateMem 0xB400) 0 24) 0 0 0) = true ∧ canon false (gateMem 0xB400).cores[0].tags = true ∧
      Memory.wf (gateMem 0xB400).cores[0].mem) ∧
    passes (gateFault (atCode [0xB400]) 0 0 0) = false ∧
    (∃ i, Ready (atCode [0x0003]) 0 .gret i ∧ (atCode [0x0003]).cores[0].gates = []) ∧
    (let g : GateEnt := { frame := 0x8000, caller := 0, target := 1, limited := true, left := 22 }
     let d := gateMem 0x0003 fun k => { k with gates := [g] }
     d.cores[0].gates = [] ++ [g] ∧ d.cores[0].gates.getLast?.all (fun x => !x.limited || decide (22 ≤ x.left.toNat)) = true ∧
     (readFrame d 0 g.frame).1.tag = true ∧ (readFrame d 0 g.frame).2.1.tag = true ∧
     (let e := { g with left := 0 }
      (lastSlot (gateMem 0x0003 fun k => { k with gates := [e] }) 0 22).cores[0].gates.getLast?.any (fun x => x.limited && x.left == 0) = true) ∧
     (readFrame d 0 0x9000).1.tag = false) ∧
    (∃ i, Ready (atCode [0xB08B, 1]) 0 .kmfs i ∧ ((atCode [0xB08B, 1]).cores[0].key (8 + fld i.ext 0 4)).tag = true ∧
      ((atCode [0xB08B, 1]).cores[0].key (8 + fld i.ext 0 4)).sealed = true) := by
  refine ⟨?_, ?_, ⟨_, ready_of ?_, ?_⟩, ⟨_, ready_of ?_, ?_⟩, ⟨_, ready_of ?_, ?_⟩, ?_, ⟨_, ready_of ?_, ?_⟩, ?_, ⟨_, ready_of ?_, ?_⟩⟩ <;> decide +kernel

/-! ### Hypotheses of the statements: the ring -/

/-- A device with both ring links up. -/
def linked (d : Dev) (f : Hr → Hr := id) : Dev :=
  { d with hr := f { d.hr with bypassOpen := true, ports := Vector.replicate 2 { blockLock := true, link := true } } }

/-- The manager as master; a worker with number 3. -/
def master : Dev := linked up fun h => { h with master := true, topo := [some 0, some 3], present := 9 }
def worker : Dev := linked { up with sys := { up.sys with role := 1, nodeId := 3 } } fun h => { h with pos := 1 }

/-- The next cell on a port, from node `src` to node `dst`. -/
def cell (typ : Byte) (payload : List Byte) (dst src : BitVec 5 := 0) : Cell :=
  { dst := dst, pri := priOf typ, src := src, typ := typ, tick := 0, payload := payload }

/-- What `InOrder` asks of the next cell. -/
def inOrderAs (d : Dev) (p : Fin 2) (c : Cell) : Bool :=
  d.sys.fclkOn && (rport d p).link && (rport d p).transit == [] && (rport d p).own == [] && decide (c.payload.length ≤ 256) && c.seq == (rport d p).rxSeq &&
    (!isSched c.typ || (!bit d.hr.ingFrz c.src.toNat && !bit d.hr.ingWait c.src.toNat &&
      (!d.committed || (allowance d c).all fun n => decide (wireTaken d c ≤ n))))

theorem inOrder_of {d : Dev} {p : Fin 2} {c : Cell} (h : inOrderAs d p c = true) : InOrder d p c := by
  simp only [inOrderAs, Bool.and_eq_true, beq_iff_eq, decide_eq_true_eq, Bool.or_eq_true, Bool.not_eq_true'] at h
  obtain ⟨⟨⟨⟨⟨⟨y, a⟩, b⟩, e⟩, f⟩, g⟩, k⟩ := h
  refine ⟨⟨y, a, b, e, f, g⟩, fun hs => ?_⟩
  rcases k with k | ⟨⟨k1, k2⟩, k3⟩
  · simp [k] at hs
  · refine ⟨k1, k2, fun hc n hn => ?_⟩
    rcases k3 with k3 | k3
    · simp [k3] at hc
    · simpa [hn] using k3

theorem wit_LinksAcknowledgeRetryAndForward :
    (cell tRD (List.replicate 256 0)).payload.length ≤ 256 ∧ (rport up 0).link = false ∧ ((rport master 1).link = true ∧ hcrcOk [] = false) ∧
    (let l := (cell tRD []).bytes.take 13 ++ [1]
     let bad := l ++ leBytes 2 (crc16 l)
     hcrcOk bad = true ∧ headerOk bad = false ∧ mine worker (parseCell bad) = false ∧ (parseCell bad).seq = (rport worker 0).rxSeq) ∧
    (InOrder master 0 (cell tLINK []) ∧ ((rport master 0).rxSeq - 1 - (0xFFF : BitVec 12)).toNat < 2048 ∧
      2048 ≤ ((rport master 0).rxSeq - 1 - (2047 : BitVec 12)).toNat ∧ (2047 : BitVec 12) ≠ (rport master 0).rxSeq) ∧
    (InOrder master 1 (cell tNAK [7, 0]) ∧ (cell tNAK [7, 0]).typ = tNAK ∧
      (let x := { cell tRD [] with seq := 7 }
       let q (n : Nat) := updRport 1 (fun q => { q with replay := [x], tries := n }) (accepted 1 (cell tNAK [7, 0]) master)
       16 ≤ (rport (q 16) 1).tries ∧ (rport (q 15) 1).tries < 16 ∧ (rport (q 15) 1).replay = [] ++ x :: [] ∧ x.seq = 7)) ∧
    (let q (n : Nat) : RingPort := { link := true, replay := [cell tRD []], tries := n }
     (q 15).replay ≠ [] ∧ (q 15).tries < 16 ∧ 16 ≤ (q 16).tries) ∧
    (InOrder worker 0 (cell tRD [] 5) ∧ mine worker (cell tRD [] 5) = false ∧ (cell tRD [] 5).ttl ≠ 0 ∧
      InOrder worker 0 { cell tRD [] 5 with ttl := 0 } ∧ replayRoom (rport worker 1) 0 = true) := by
  refine ⟨?_, ?_, ?_, ?_, ⟨inOrder_of ?_, ?_⟩, ⟨inOrder_of ?_, ?_⟩, ?_, ⟨inOrder_of ?_, ?_, ?_, inOrder_of ?_, ?_⟩⟩ <;> decide +kernel

theorem wit_LinksComeUpGoDownAndLeave :
    (up.hr.powered = true ∧ State.reset.dev.hr.powered = false) ∧
    (let d := { up with hr := { up.hr with ports := Vector.replicate 2 { blockLock := true } } }
     (d.hr.powered = true ∧ d.hr.leave = false ∧ d.sys.ringLock = true ∧ d.sys.role ≠ 3 ∧ (rport d 0).blockLock = true ∧ (rport d 1).blockLock = true) ∧
     (let d := { d with hr := { d.hr with bypassOpen := true } }
      (rport d 0).blockLock = true ∧ (rport d 0).link = false ∧ d.hr.powered = true ∧ d.hr.bypassOpen = true)) ∧
    ((rport up 0).link = false ∧ (rport master 0).link = true) ∧
    (served .host 0xC000 master ∧ bit (0x100 : Word) 0 = false ∧ bit (0x100 : Word) 8 = true) := by decide +kernel

theorem wit_DiscoveryNumbersTheRing :
    (served .host 0xC000 master (fun d => d.hr.master && !d.committed && !d.hr.foreign) ∧ served .host 0xC000 worker = false ∧ Idle (rport master 0) ∧
      bit (1 : Word) 0 = true ∧ bit (1 : Word) 8 = false) ∧
    (InOrder worker 0 (cell tDISCOVER [0, 0]) ∧ (cell tDISCOVER [0, 0]).ring = false ∧ (cell tDISCOVER [0, 0]).ttl ≠ 0 ∧
      Idle (rport (accepted 0 (cell tDISCOVER [0, 0]) worker) 0) ∧ Idle (rport (accepted 0 (cell tDISCOVER [0, 0]) worker) 1) ∧
      InOrder worker 1 { cell tDISCOVER [0, 0] with ring := true }) ∧
    (let x : TopoNode := { die := 5, role := 1, num := none }
     let d := linked up fun h => { h with master := true, disc := true, discAns := [(1, x)] }
     let c := cell tDISCOVER [1, 0]
     InOrder d 0 c ∧ (accepted 0 c d).hr.master = true ∧ c.src = d.sys.nodeId ∧ leAt c.payload 0 2 = 1 ∧ 1 ≤ d.hr.discAns.length ∧
     (∀ x ∈ d.hr.discAns, x.1 ≠ 0) ∧ d.hr.discAns.find? (·.1 == 1) = some (1, x) ∧ x.role = 1 ∧ x.num = none ∧ d.hr.numbered = false) ∧
    (InOrder worker 0 (cell tHELLO [] 3) ∧ mine worker (cell tHELLO [] 3) = true ∧ worker.hr.master = false) ∧
    (let c := cell tHELLO (helloOf 5 1 none 1)
     InOrder master 0 c ∧ mine master c = true ∧ master.hr.disc = false ∧ c.payload = helloOf 5 1 none (1 : Half).toNat) ∧
    (let c := cell tTOPO (topoPayload master.hr)
     InOrder worker 0 c ∧ c.payload = topoPayload master.hr ∧ master.hr.topo.length ≤ 32 ∧ master.hr.absent.length ≤ 31 ∧ worker.hr.master = false) ∧
    (InOrder worker 0 (cell tASSIGN [1, 7]) ∧ mine worker (cell tASSIGN [1, 7]) = true ∧ worker.sys.role = 1) := by
  refine ⟨⟨?_, ?_, ?_, ?_⟩, ⟨inOrder_of ?_, ?_, ?_, ?_, ?_, inOrder_of ?_⟩, ⟨inOrder_of ?_, ?_⟩, ⟨inOrder_of ?_, ?_⟩, ⟨inOrder_of ?_, ?_⟩, ⟨inOrder_of ?_, ?_⟩,
    ⟨inOrder_of ?_, ?_⟩⟩ <;> (try unfold Idle) <;> decide +kernel

theorem wit_MastershipAndTimeOnTheRing :
    (let d := linked up
     (d.sys.role = 0 ∧ d.sys.inP = false ∧ d.hr.master = false ∧ d.hr.foreign = false) ∧ (passTo 1500000 d).hr.rediscover = false ∧
     Idle (rport (passTo 1500000 d) 0) ∧ Idle (rport (passTo 1500000 d) 1)) ∧
    (master.hr.master = true ∧ master.committed = false ∧
      (let d := passTo (master.hr.lastBeacon + 150000) master
       d.hr.foreign = false ∧ d.hr.master = true ∧ Idle (rport d 0) ∧ Idle (rport d 1) ∧ d.hr.rediscover = false ∧
       (updHr (fun h => { h with rediscover := true }) d).hr.rediscover = true)) ∧
    (let d := linked { live with sys := { live.sys with role := 2, nodeId := 31 } } fun h => { h with standbyOn := true, beaconMissed := 4 }
     d.sys.role = 2 ∧ d.committed = true ∧ d.hr.master = false ∧ d.hr.stbyMismatch = false ∧ d.hr.standbyOn = true ∧ 4 ≤ d.hr.beaconMissed) ∧
    (let b : Beacon := { tick := 0, tickClk := 0, node := 0, die := 5 }
     let c := cell tBEACON (beaconCell b)
     InOrder worker 0 c ∧ c.payload = beaconCell b ∧ ¬ (c.src = worker.sys.nodeId) ∧ c.ttl ≠ 0 ∧ worker.hr.master = false ∧ worker.hr.sent = [] ∧
     (let d := linked { up with sys := { up.sys with role := 2, nodeId := 31 } } fun h => { h with master := true }
      InOrder d 0 c ∧ ¬ (c.src = d.sys.nodeId) ∧ d.hr.master = true ∧ b.node.toNat < d.sys.nodeId.toNat ∧ d.committed = false) ∧
     (let b31 := { b with node := 31 }
      InOrder master 0 (cell tBEACON (beaconCell b31) 0 31) ∧ master.sys.nodeId.toNat < b31.node.toNat)) ∧
    ((rport { up with hr := { up.hr with ports := Vector.replicate 2 { blockLock := true } } } 0).link = false ∧ up.sys.role ≠ 1) ∧
    ((worker.hr.master = false ∧ worker.hr.powered = true ∧ worker.hr.foreign = false ∧ worker.hr.syncT1 = none) ∧
      (linked worker fun h => { h with syncT1 := some 0, syncFail := 63 }).hr.syncFail = 63) ∧
    InOrder master 0 (cell tSYNC (leBytes 8 64)) ∧
    (let c := cell tSYNCR (leBytes 8 64 ++ leBytes 8 100 ++ leBytes 8 110 ++ [1])
     let d := { worker with hr := { worker.hr with syncT1 := some 64 } }
     InOrder d 0 c ∧ d.hr.master = false ∧ d.hr.syncT1 = some 64 ∧ d.committed = false ∧ d.hr.timeSet = false ∧
     c.payload = leBytes 8 (64 : DWord).toNat ++ leBytes 8 (100 : DWord).toNat ++ leBytes 8 (110 : DWord).toNat ++ [if true then 1 else 0] ∧
     (let x := { c with payload := c.payload.take 24 ++ [0] }
      inOrderAs d 0 x = true ∧ x.payload = leBytes 8 (64 : DWord).toNat ++ leBytes 8 (100 : DWord).toNat ++ leBytes 8 (110 : DWord).toNat ++ [if false then 1 else 0]) ∧
     (let d2 := { d with committed := true, hr := { d.hr with syncLock := true, timeSet := true } }
      inOrderAs d2 0 c = true ∧ d2.committed = true ∧ d2.hr.timeSet = true ∧ d2.hr.syncLock = true)) := by
  refine ⟨⟨?_, ?_, ?_, ?_⟩, ?_, ?_, ⟨inOrder_of ?_, ?_, ?_, ?_, ?_, ?_, ⟨inOrder_of ?_, ?_⟩, ⟨inOrder_of ?_, ?_⟩⟩, ?_, ?_, inOrder_of ?_, ⟨inOrder_of ?_, ?_⟩⟩
    <;> (try unfold Idle) <;> decide +kernel

/-- The worker under a commit, its table installed; the master with a bin paired with the worker's bin 4. -/
def slotted : Dev := { worker with
  committed := true, clk := 5000
  hr := { worker.hr with table := some (Vector.replicate 32 { slotOffset := 2000, bytesA := 100, bytesB := 100 }), tickClk := 4000 } }
def gatherer : Dev := { master with
  cfg := { plan with bins := [(1, { ownerKind := 2, owner := 3, remoteBin := 4, base := 0x1000, size := 0x1000, maxrec := 64 })] } }

/-- A command's payload: ID, COUNT, OFFSET, DATA. -/
def command (id n o : Nat) (v : List Byte := []) : List Byte := leBytes 2 id ++ leBytes 1 n ++ [0] ++ leBytes 4 o ++ v

theorem wit_RingCommandsRunOnceAndAnswer :
    (∀ typ : Fin 4, let c := cell (if typ = 0 then tRD else if typ = 1 then tRDNS else if typ = 2 then tWR else tSCHED) (command 1 1 0x2000 [0, 0, 0, 0]) 3
      inOrderAs worker 0 c = true ∧ mine worker c = true ∧ BitVec.ofNat 16 (leAt c.payload 0 2) = (1 : Half) ∧ leAt c.payload 2 1 = 1 ∧
      leAt c.payload 4 4 = 0x2000) ∧
    CanSend worker 0 ∧ (slotted.committed = true ∧ slotted.hr.foreign = false ∧ slotted.hr.slotA = false ∧ slotted.hr.slotB = false) ∧
    (let seen (h : Half) (done : List Half) (kept : List (Half × List Byte)) : CmdSeen := { any := true, high := h, done := done, kept := kept }
     let ahead (id h : Nat) := (id + 65535 - h) % 65535
     (seen 1 [1] [(1, [])]).any = true ∧ ahead 2 1 = 1 ∧ ahead 32768 1 = 32767 ∧ ahead 32769 1 = 32768 ∧ ahead 1 4096 % 65535 ≠ 0 ∧
     (4096 + 65535 - 1) % 65535 = 4095 ∧ (4097 + 65535 - 1) % 65535 = 4096 ∧ (1 : Half) ∈ (seen 1 [1] []).done) ∧
    (regVal (.ring 0) 0x1D000 worker = none ∧ (regVal (.ring 0) 0x2010 worker).isSome = true ∧ (reached (.ring 0) 0x2000 worker).isSome = true ∧ 0x2001 % 4 ≠ 0) ∧
    (let d := { master with hr := { master.hr with chans := master.hr.chans.set 0 { busy := true, id := 1, sentTo := 3 } } }
     let c := cell tRESP (leBytes 2 1 ++ [1, 0]) 0 3
     InOrder d 0 c ∧ mine d c = true ∧ commitResp c d = none ∧ (d.hr.chans[0].busy = true ∧ d.hr.chans[0].id = 1 ∧ d.hr.chans[0].sentTo = c.src)) ∧
    (served .host 0xC200 master (fun d => chanReach .host d 0 && !d.hr.chans[0].busy && bit d.hr.present 3 && !bit d.hr.present 4) ∧
      bit (0x80000003 : Word) 31 = true ∧ CanSend master 3) ∧
    (let x : Chan := { busy := true, tries := 2, typ := tRD, sentTo := 3 }
     x.busy = true ∧ x.tries < 3 ∧ 3 ≤ { x with tries := 3 }.tries ∧ isSched x.typ = true) ∧
    (let d := { worker with hr := { worker.hr with ingFrz := 1 } }
     let c := cell tRD (command 1 1 0) 5
     (rport d 0).link = true ∧ isSched c.typ = true ∧ mine d c = false ∧ bit d.hr.ingFrz c.src.toNat = true ∧
     (let e := { worker with committed := true, hr := { worker.hr with table := some (Vector.replicate 32 { bytesA := 39 }) } }
      e.committed = true ∧ allowance e c = some 39 ∧ 39 < wireTaken e c)) := by
  refine ⟨?_, ⟨?_, ?_, ?_⟩, ?_, ?_, ?_, ⟨inOrder_of ?_, ?_⟩, ⟨?_, ?_, ⟨?_, ?_, ?_⟩⟩, ?_, ?_⟩ <;> (try unfold Idle) <;> decide +kernel

/-- A record of 2 units as REC carries it. -/
def recPayload (seq : Nat) (first last : Bool) : List Byte :=
  [4, BitVec.ofNat 8 ((if first then 1 else 0) + if last then 2 else 0), 0, 0] ++ leBytes 4 seq ++ [0, 0, 0, 0, 0, 0, 2, 0] ++ leBytes 8 9

theorem wit_RecordsAndRelaysOverTheRing :
    (tableEntry worker worker.sys.nodeId = none ∧ worker.committed = false) ∧
    (slotted.committed = true ∧ (tableEntry slotted slotted.sys.nodeId).isSome = true ∧ slotted.cfg.bins = [] ∧
      (∀ i : Fin 64, slotted.hr.relays[i].en = false) ∧ slotted.hr.sched = [] ∧ Idle (rport (passTo 6000 slotted) 0) ∧
      (let c := cell tRD (command 1 1 0) 0 3
       let d := passTo 6000 { slotted with hr := { slotted.hr with sched := [c] } }
       d.hr.sched = [c] ∧ c.payload.length ≤ 256 ∧ wayTo d c.dst = (if shorterB d c.dst then 1 else 0) ∧ 0 + (8 * ((c.payload.length + 27) / 8) + 8) ≤ 100)) ∧
    (let x := record 3 2 16 .released
     let k : BinEntry := { ownerKind := 0, owner := 0, base := 0x1000, size := 0x1000, maxrec := 64 }
     let d := passTo 6000 { slotted with
       cfg := { slotted.cfg with bins := [(1, k)] }, cl := { slotted.cl with bins := slotted.cl.bins.set 1 { recs := [x], seq := 4 } } }
     d.sys.role = 1 ∧ (∀ i : Fin 64, d.hr.relays[i].en = false) ∧ d.cfg.bins = [((1 : Fin 256).val, k)] ∧ d.hr.sched = [] ∧ d.hr.foreign = false ∧
     Idle (rport d 0) ∧ d.cl.bins[1].recs = [x] ∧ x.busy = false ∧ x.st = (if k.sealed then .sealed else .released) ∧ d.dr.frozen = false ∧
     wayTo d (masterNode d) = 0 ∧ (delivered k x d).length ≤ 248 ∧ 0 + (8 * ((8 + (delivered k x d).length + 27) / 8) + 8) ≤ 100 ∧
     99 < 60 + (8 * ((8 + (delivered k x d).length + 27) / 8) + 8)) ∧
    (let d := { slotted with hr := { slotted.hr with relays := slotted.hr.relays.set 0 { en := true, prev := 2 } } }
     d.hr.relays[0].en = true ∧ d.hr.relays[0].prev ≠ 0 ∧ d.hr.foreign = false ∧ 0 + 40 ≤ 100) ∧
    (let c := cell tREC (recPayload 0 true true) 0 3
     InOrder gatherer 0 c ∧ mine gatherer c = true ∧ gatherer.hr.master = true ∧ c.payload.length = 24 ∧ leAt (c.payload.drop 8) 6 2 = 2 ∧ leAt c.payload 0 1 = 4 ∧
     (c.payload.drop 8).length = 8 * 2 ∧ leAt c.payload 2 2 = 0 ∧ bit (c.payload.getD 1 0) 0 = true ∧ bit (c.payload.getD 1 0) 1 = true ∧
     (gatherer.cfg.bins.find? fun x => x.2.ownerKind == 2 && x.2.owner.toNat == c.src.toNat && x.2.remoteBin.toNat == 4).any (fun x => x.1 == 1 && hasRoom x.2 gatherer.cl.bins[1] 2) = true ∧
     gatherer.cl.bins[1].fwd = none ∧ Memory.wf gatherer.cl.mem ∧ CanSend gatherer 3 ∧ mine master c = true ∧ gatherer.hr.recNext = [] ∧
     (let later (next : Word) (fwd : Option (Word × Nat × DWord)) : Dev := { gatherer with
        hr := { gatherer.hr with recNext := [(1, next)] }, cl := { gatherer.cl with bins := gatherer.cl.bins.set 1 { fwd := fwd } } }
      let mid := cell tREC (recPayload 0 false false) 0 3
      inOrderAs (later 1 none) 0 c = true ∧ (1 : Word) ≠ 0 ∧ ((1 : Word) - 1 - 0).toNat < 2 ^ 31 ∧ (later 1 none).cl.bins[1].fwd = none ∧
      (later 5 (some (5, 16, 9))).cl.bins[1].fwd = some (5, 16, 9) ∧ (5 : Word) ≠ 0 ∧ 2 ^ 31 ≤ ((0 : Word) - 1 - 0).toNat ∧
      inOrderAs gatherer 0 mid = true ∧ bit (mid.payload.getD 1 0) 0 = false ∧
      (let d := { gatherer with cl := { gatherer.cl with bins := gatherer.cl.bins.set 1 { res := 0x1000, recs := [record 9 512 16 .released] } } }
       (binCfg? d 1).any (fun k => !hasRoom k d.cl.bins[1] 2) = true))) ∧
    (let r := { record 5 2 16 .released with busy := true }
     let k : BinEntry := { ownerKind := 0, owner := 0, base := 0x1000, size := 0x1000, maxrec := 64 }
     let d := { slotted with
       cfg := { slotted.cfg with bins := [(1, k)] }, cl := { slotted.cl with bins := slotted.cl.bins.set 1 { recs := [r], seq := 6 } }
       hr := { slotted.hr with sent := [{ bin := 1, seq := 5, tick := BitVec.ofInt 32 (-3) }] } }
     let c := cell tRECACK ([1, 0, 0, 0] ++ leBytes 4 5) 3
     InOrder d 0 c ∧ mine d c = true ∧ leAt c.payload 0 1 = 1 ∧ binCfg? d 1 = some k ∧ d.cl.bins[1].recs = [r] ∧ r.st = .released ∧ k.sealed = false ∧
     r.busy = true ∧ (∃ y ∈ d.hr.sent, y.bin = 1 ∧ 3 ≤ (d.tb.tick - y.tick).toNat ∧ fragmentWaits d 1 y.seq = false) ∧ d.committed = true ∧ CanSend d (masterNode d) ∧ (delivered k r d).length ≤ 248 ∧
     InOrder d 0 { c with typ := tRECNAK }) ∧
    (let c := cell tEVREL (leBytes 2 63 ++ leBytes 2 1 ++ leBytes 2 2 ++ [0, 0] ++ leBytes 4 0) 0 3
     InOrder master 0 c ∧ mine master c = true ∧ leAt c.payload 0 2 = 63 ∧ InOrder worker 0 { c with dst := 3 }) := by
  refine ⟨?_, ⟨?_, ?_, ?_, ?_, ?_, ?_, ?_⟩, ?_, ?_, ⟨inOrder_of ?_, ?_, ?_, ?_, ?_, ?_, ?_, ?_, ?_, ?_, ?_, ?_, ?_, ⟨?_, ?_, ?_⟩, ?_⟩,
    ⟨inOrder_of ?_, ?_, ?_, ?_, ?_, ?_, ?_, ?_, ?_, ?_, ⟨?_, ?_, ?_⟩, ?_, inOrder_of ?_⟩, ⟨inOrder_of ?_, ?_, ?_, inOrder_of ?_⟩⟩
    <;> (try unfold Idle) <;> decide +kernel

/-! ### Hypotheses of the statements: the endpoint and the drain -/

/-- `live` with the endpoint changed. -/
def peIs (f : Pe → Pe) (d : Dev := live) : Dev := { d with pe := f d.pe }

theorem wit_LinkPowerErrorsAndCompletions :
    ((up.sys.role = 0 ∨ up.sys.role = 2) ∧ up.sys.inP = false ∧ up.sys.pcieLock = true ∧ (peIs (fun p => { p with dlUp := false }) up).pe.dlUp = false) ∧
    (let d := peIs fun p => { p with aspmCtl := 3 }
     bit d.pe.aspmCtl 0 = true ∧ bit d.pe.aspmCtl 1 = true ∧ d.pe.link = .l0 ∧ d.pe.waiting = [] ∧ d.pe.intaDue = none ∧ intaCond d = d.pe.wire ∧ d.pe.reqs = []) ∧
    (peIs fun p => { p with link := .l1 }).pe.link = .l1 ∧
    (NoReads live ∧
      (let d := { (peIs fun p => { p with link := .l1, intaDue := some true }) with ev := { live.ev with hstat := live.ev.hstat.set 0 1, hen := live.ev.hen.set 0 1, ien := true } }
       d.pe.intaDue = some true ∧ intaCond d = true ∧ d.pe.wire ≠ true) ∧
      (∀ b, ¬ (live.pe.intaDue = some b ∧ intaCond live = b ∧ live.pe.wire ≠ b)) ∧ live.pe.dlUp = true ∧ live.pe.link ≠ .ready23) ∧
    ((peIs fun p => { p with d3 := true }).pe.d3 = true ∧ live.pe.d3 = false) ∧
    (hostLive live = true ∧ live.pe.flrBusy = false ∧ bit (1 : BitVec 4) 0 = true ∧ fld (3 : Word) 0 2 = 3 ∧ fld (4 : Word) 0 2 = 0) ∧
    (bit live.pe.ueMask 16 = false ∧ bit live.pe.ueSev 16 = false) ∧
    (let r : Req := { tag := 7, addr := 0x1000, len := 16, what := .desc }
     let d := { (peIs fun p => { p with reqs := [r], stale := [(9, 16)] }) with
       dr := { live.dr with busy := true, jKind := 2, jLen := 2, jSrc := 0x00010000 } }
     hostLive d = true ∧ d.pe.link = .l0 ∧ (∀ r ∈ d.pe.reqs, r.tag ≠ 8) ∧ (∀ x ∈ d.pe.stale, x.1 ≠ 8) ∧ d.pe.stale.find? (·.1 == 9) = some (9, 16) ∧
     d.pe.reqs.find? (·.tag == 7) = some r ∧ r.what = .desc ∧ d.trl.dmaLeft = 0 ∧ d.dr.busy = true ∧ d.dr.half = [] ∧
     d.dr.jLen.toNat = d.dr.done.toNat + 2 ∧ bankWritable d (fld d.dr.jSrc 24 5) (bit d.dr.jSrc 16) = true ∧ d.pe.ctoDis = false) ∧
    hostLive State.reset.dev = false := by
  refine ⟨?_, ?_, ?_, ⟨⟨?_, ?_⟩, ?_, ?_, ?_⟩, ?_⟩ <;> decide +kernel

/-- A committed manager with host ring 0 on for bin 1, which holds one released record. -/
def draining (f : HostRing → HostRing := id) : Dev :=
  let k : BinEntry := { base := 0x1000, size := 0x1000, maxrec := 64, hostRing := 0 }
  { live with
    cfg := { plan with bins := [(1, k)], drainInterval := 1, hostRings := plan.hostRings.set 0 { enable := 1, sizeLog2 := 16 } }
    cl := { live.cl with bins := live.cl.bins.set 1 { recs := [record 3 4 32 .released], seq := 4, res := 32, rel := 32 } }
    dr := { live.dr with pass := some { tick := 7, recs := [(1, 3)] }, rings := live.dr.rings.set 0 (f { run := true, base := 0x10000 }) } }

theorem wit_DrainPassesRingsAndDescriptors :
    (let bs : List Byte := List.replicate 128 0
     bs ≠ [] ∧ bs.length ≤ 128 * 2 ^ live.pe.mps.toNat ∧ (0xF80 : DWord).toNat % 4096 + bs.length ≤ 4096) ∧
    live.dr.pass = none ∧
    (let d := draining
     d.dr.pass = some { tick := 7, recs := [((1 : Fin 256).val, (record 3 4 32 .released).seq)] } ∧ d.dr.again = none ∧ d.dr.frozen = false ∧ d.dr.bad = none ∧
     mayIssue d = true ∧ d.pe.link = .l0 ∧ (∀ i : Fin 8, ringOn d i.val = decide (i = 0)) ∧ d.cfg.bins.map (·.1) = [1] ∧
     (d.cfg.bins.all fun c => c.2.hostRing.toNat == 0 && takeable c.2 (record 3 4 32 .released) &&
       decide ((d.dr.rings[0]).pidx.toNat % ringSize d 0 + 16 + (delivered c.2 (record 3 4 32 .released) d).length ≤ ringSize d 0)) = true ∧
     d.cl.bins[1].recs = [record 3 4 32 .released] ∧ (d.cfg.hostRings[0]).sizeLog2.toNat ≤ 31 ∧ d.dr.rings[0].modt = 0 ∧ d.dr.rings[0].unsig = 0 ∧
     (let d1 := { d with dr := { d.dr with pass := some { tick := 7, recs := [] } } }
      d1.dr.pass = some { tick := 7, recs := [] } ∧ mayIssue d1 = true) ∧
     (let d1 := peIs (fun p => { p with link := .l1 }) d
      d1.pe.link = .l1 ∧ mayIssue d1 = true) ∧ mayIssue (peIs (fun p => { p with bme := false }) d) = false) ∧
    ((draining fun y => { y with timer := some 6000, unsig := 8 }).dr.rings[0].timer = some 6000 ∧ draining.dr.rings[1].timer = none) ∧
    (served .host 0xA118 live ∧ served strong (0xA110 + 0x40 * 7) live) ∧
    (let job (a : DWord) (s : Word) (n : BitVec 24) : Dev := { up with
       cl := { up.cl with peekEn := true }, dr := { up.dr with daddr := a, dsrc := s, dlen := n } }
     served .host 0xA410 (job 0x1000 0 2) (fun d => !d.dr.busy && d.pe.bme && !d.pe.d3) ∧ hostLike .host = true ∧ hostLike strong = false ∧
     bit (0x80000001 : Word) 31 = true ∧ bf (0x80000001 : Word) 0 4 = 1 ∧ peekOk (job 0x1000 0 2) 8 = true ∧
     bankWritable live (fld (0x00010000 : Word) 24 5) (bit (0x00010000 : Word) 16) = true ∧
     bankWritable live (fld (0 : Word) 24 5) (bit (0 : Word) 16) = false ∧
     served .host 0xA410 { live with dr := { live.dr with busy := true } } (fun d => d.dr.busy)) ∧
    (let d := { live with dr := { live.dr with busy := true, jKind := 1, jLen := 2, jAddr := 0x1000 } }
     d.dr.busy = true ∧ d.dr.jKind = 1 ∧ d.dr.frozen = false ∧ mayIssue d = true ∧ d.pe.link = .l0 ∧ 1 < d.dr.jLen.toNat ∧
     (∀ i < 8 * d.dr.jLen.toNat, notAppended d (8 * fld d.dr.jSrc 3 20 + i) = false)) := by
  decide +kernel

/-! ### Single steps, with values from the spec -/

/-- What a step answers of a field. -/
def gives {α : Type} [DecidableEq α] (x : Host.Outcome State Fault Refusal) (f : Dev → α) (v : α) : Bool :=
  match x with
  | .next t => decide (f t.dev = v)
  | .fault _ => false
  | .refused _ => false

/-- CRC-32 of the nine digits (R52), CRC-32C of the same (R437), HCRC's CRC-16 (R484). -/
theorem test_crc : crc32 ("123456789".toList.map fun c => BitVec.ofNat 8 c.toNat) = 0xCBF43926 ∧
    crc32c ("123456789".toList.map fun c => BitVec.ofNat 8 c.toNat) = 0xE3069283 := by decide +kernel

/-- A W reset runs for 6,000 clk (R600). -/
theorem test_wreset : gives (exec (.rstcmd .host 0x3A5C0001 0xF) (on up)) (·.sys.wEnd) (some 6000) = true ∧
    gives (exec (.rstcmd .host 0x3A5D0001 0xF) (on up)) (·.sys.rstRej) 1 = true := by decide +kernel

/-- An engine's ADD that carries out (R138). -/
theorem test_engine_add : gives (exec (.next 0 .ok .ok) (on (running (word 1 [(88, 2), (84, 3), (80, 1), (93, 1), (0, 1)])
    fun g => { g with dp := { g.dp with g := g.dp.g.set 1 0xFFFFFFFF } }))) (fun d => let p := d.engines[0].dp; (p.g[3], p.z, p.n, p.c, p.v)) (0, true, false, true, false) = true := by
  decide +kernel

/-- CALL pushes the address after its own (R114). -/
theorem test_engine_call : gives (exec (.seqCall 0 .ok .ok) (on (running (word 5 [(116, 0xABC)])))) (fun d => (d.engines[0].seq.pc, d.engines[0].seq.stack)) (0xABC, [1]) = true := by
  decide +kernel

/-- A periodic compare channel re-arms (R244). -/
theorem test_compare : gives (exec (.compareMatch 1) (on { live with tb := { live.tb with cmps := live.tb.cmps.set 1 { armed := true, target := 1000, period := 50, perEn := true } } }))
    (fun d => (d.tb.cmps[1].target, d.tb.cmps[1].armed, d.tb.cmps[1].matched, d.tb.cmps[1].last)) (1050, true, true, 1000) = true := by decide +kernel

/-- A Steward's ADD that overflows (R345), DAA after 0x15 + 0x27 (R356), DIV of −7 by 2 (R353), a multiply that lands four slots on (R351). -/
theorem test_steward_add : gives (exec (.add 0 .ok) (on (atCode [0x16E0] fun k => { k with a := 0x7FFFFFFF, x := 1 })))
    (fun d => let k := d.cores[0]; (k.a, k.flag stN, k.flag stZ, k.flag stC, k.flag stV)) (0xFF80000000, true, false, false, true) = true := by decide +kernel
theorem test_steward_daa : gives (exec (.daa 0) (on (atCode [0x000C] fun k => { k with a := 0x3C }))) (fun d => d.cores[0].a) 0x42 = true := by decide +kernel
theorem test_steward_div : gives (exec (.div 0 .ok) (on (atCode [0x52E0] fun k => { k with a := 0xFFFFFFFFF9, x := 2 })))
    (fun d => (d.cores[0].a, d.cores[0].y)) (0xFFFFFFFFFD, 0xFFFFFFFF) = true := by decide +kernel
theorem test_steward_divide_by_zero : gives (exec (.div 0 .ok) (on (atCode [0x52E0] fun k => { k with a := 5, status := 0x0880 })))
    (fun d => let k := d.cores[0]; (k.lvl, fld k.sets[2].cause 2 6, k.pc)) (3, 0x08, 0x40) = true := by decide +kernel
theorem test_steward_mul : gives (exec (.mul 0 .ok) (on (atCode [0x4AE0] fun k => { k with a := 6, x := 7 })))
    (fun d => d.cores[0].muls.map fun m => (m.p, m.left)) [(42, 3)] = true := by decide +kernel
theorem test_steward_kderive : gives (exec (.kderive 0) (on (atCode [0xB082] fun k => { k with x := 0x10, y := 0x20, a := 0x3 })))
    (fun d => d.cores[0].key 1) (mkKey 0x8010 0x20 0 3 0 false true) = true := by decide +kernel

/-- Reading a clearing field (R7), a dropped route count. -/
theorem test_read_clears : gives (exec (.rcFieldRead .host .bar0 0x4010 [0xF] [] []) (on { live with ev := { live.ev with rldrop := 5 } })) (·.ev.rldrop) 0 = true := by
  decide +kernel

/-- A host bit set and enabled asserts INTA (R545). -/
theorem test_inta : gives (exec .assertInta (on { live with ev := { live.ev with hstat := live.ev.hstat.set 0 1, hen := live.ev.hen.set 0 1, ien := true } }))
    (fun d => (d.pe.wire, d.out)) (true, [.assertInta]) = true := by decide +kernel

/-- A worker forwards a cell that is not its own on the other port (R483). -/
theorem test_forward : gives (exec (.cellForward 0 (cell tRD (command 1 1 0) 5).bytes .clean) (on worker))
    (fun d => (d.out.length, (rport d 1).replay.map (·.ttl), (rport d 0).rxSeq)) (2, [62], 1) = true := by decide +kernel

/-- Test-Logic-Reset is five TCK cycles away (R646). -/
theorem test_tap : tapNext (tapNext (tapNext (tapNext (tapNext .shDr true) true) true) true) true = .reset := by decide

end Sys2Proof.Tests
end

section
/-!
PROOFS. The statements of 00_scope.md: a P reset and its end, reads of registers and of BAR2, writes that reach a register, writes
that reach none.
-/
namespace Sys2Proof.Machine

/-! ### P reset -/

/-- With no P reset in force, one with a source leaves the reset device but for what it keeps. -/
theorem pReset_starts {cause : BitVec 2} {d : Dev} (hc : cause ≠ 0) (hp : d.sys.inP = false) :
    pReset cause d = { State.reset.dev with
      rc := d.rc, lanes := d.lanes.map fun l => { sync := l.sync, syncOld := l.sync }
      sys := { State.reset.dev.sys with
        pCause := cause.zeroExtend 8, rstCause := cause.zeroExtend 8, pTime := if d.sys.fclkOn then d.tb.now else 0 }
      freeCtr := d.freeCtr, rdata := d.rdata, rcpl := d.rcpl, out := d.out } := by
  have h : ¬ (d.sys.inP = true ∨ cause = 0) := fun h => h.elim (by simp [hp]) hc
  unfold pReset
  rw [if_neg h]
  rfl

/-- A P reset in force holds: another source changes nothing (R595). -/
theorem pReset_holds {cause : BitVec 2} {d : Dev} (hp : d.sys.inP = true) : pReset cause d = d := if_pos (.inl hp)

/-- The end of a P reset samples the straps. -/
theorem pResetEnd_samples {role : BitVec 2} {b : Bool} {d : Dev} (hp : d.sys.inP = true) :
    pResetEnd role b d = { d with sys := { d.sys with
      inP := false, role := role, bistAtStart := b
      nodeValid := decide (role = 0 ∨ role = 2), nodeId := if role = 2 then 31 else 0 } } := by
  have hv : (role == 0 || role == 2) = decide (role = 0 ∨ role = 2) := by simp [Bool.beq_eq_decide_eq, Bool.decide_or]
  rw [← hv]
  exact if_neg (by simp [hp])

theorem exec_pReset (cause : BitVec 2) (s : State) : exec (.pReset cause) s = .next { s with dev := pReset cause s.dev } := rfl
theorem exec_pResetEnd (role : BitVec 2) (b : Bool) (s : State) :
    exec (.pResetEnd role b) s = .next { s with dev := pResetEnd role b s.dev } := rfl

/-- Settles O6: the two operations of the P reset, case by case. -/
theorem pResetClearsAllButTheRootCellar : Obligations.PResetClearsAllButTheRootCellar := by
  refine ⟨fun s cause hc hp => ?_, fun s cause hp => ?_, fun s role b hp => ?_⟩
  · rw [exec_pReset, pReset_starts hc hp]
  · rw [exec_pReset, pReset_holds hp]
  · rw [exec_pResetEnd, pResetEnd_samples hp]

/-! ### Accesses at an offset -/

theorem exec_rcFieldRead (who : Who) (sp : Space) (off : BitVec 24) (bes : List (BitVec 4)) (ce ue : List (BitVec 23)) (s : State) :
    exec (.rcFieldRead who sp off bes ce ue) s = .next { s with dev := rcFieldRead who sp off bes ce ue s.dev } := rfl

theorem exec_registerWrite (who : Who) (sp : Space) (off : BitVec 24) (ws : List (Word × BitVec 4)) (p : Bool) (s : State) :
    exec (.registerWrite who sp off ws p) s = .next { s with dev := registerWrite who sp off ws p s.dev } := rfl

/-- The DWORD address of an aligned offset is the offset. -/
theorem dwordOf_ofNat {o : Nat} (h4 : o % 4 = 0) (ho : o < 0x1000000) : (BitVec.ofNat 24 o).toNat / 4 * 4 = o := by
  rw [BitVec.toNat_ofNat, Nat.mod_eq_of_lt ho]
  omega

/-- A read of one word of BAR0 is the reader's word read. -/
theorem rcFieldRead_word (who : Who) (be : BitVec 4) {o : Nat} (h4 : o % 4 = 0) (ho : o < 0x1000000) (d : Dev) :
    rcFieldRead who .bar0 (BitVec.ofNat 24 o) [be] [] [] d = wordRead who o be d := by
  cases who with
  | host => rfl
  | ring n => simp only [rcFieldRead, dwordOf_ofNat h4 ho]
  | steward c fr sf sys => simp only [rcFieldRead, dwordOf_ofNat h4 ho]

/-- A write of one word of BAR0 is the writer's word write. -/
theorem registerWrite_word (who : Who) (v : Word) (be : BitVec 4) {o : Nat} (h4 : o % 4 = 0) (ho : o < 0x1000000) (d : Dev) :
    registerWrite who .bar0 (BitVec.ofNat 24 o) [(v, be)] false d = wordWrite who o v be d := by
  cases who with
  | host => rfl
  | ring n => simp only [registerWrite, dwordOf_ofNat h4 ho]
  | steward c fr sf sys => simp only [registerWrite, dwordOf_ofNat h4 ho]

/-- A request of the host reaches BAR0's registers: what it has met. -/
theorem reached_host {o : Nat} {d d1 : Dev} (h : reached .host o d = some d1) :
    hostLive d = true ∧ barOn (arrive d) = true ∧ (arrive d).sys.fclkOn = true ∧ (regVal .host o (arrive d)).isNone = false ∧
      d1 = regWake o (arrive d) := by
  simp only [reached, Option.ite_none_right_eq_some, Bool.and_eq_true, Option.some.injEq] at h
  obtain ⟨⟨⟨⟨hl, hb⟩, hf⟩, hv⟩, rfl⟩ := h
  exact ⟨hl, hb, hf, by rw [Option.isNone_eq_false_iff]; exact hv, rfl⟩

/-- An access by a ring command or a Steward reaches a register: what it has met. -/
theorem reached_inside {who : Who} {o : Nat} {d d1 : Dev} (hw : who ≠ .host) (h : reached who o d = some d1) :
    regsLive d = true ∧ (regVal who o d).isNone = false ∧ d1 = regWake o d := by
  cases who with
  | host => exact absurd rfl hw
  | ring n =>
    simp only [reached, Option.ite_none_right_eq_some, Bool.and_eq_true, Option.some.injEq] at h
    obtain ⟨⟨hl, hv⟩, rfl⟩ := h
    exact ⟨hl, by rw [Option.isNone_eq_false_iff]; exact hv, rfl⟩
  | steward c fr sf sys =>
    simp only [reached, Option.ite_none_right_eq_some, Bool.and_eq_true, Option.some.injEq] at h
    obtain ⟨⟨⟨⟨hl, hv⟩, -⟩, -⟩, rfl⟩ := h
    exact ⟨hl, by rw [Option.isNone_eq_false_iff]; exact hv, rfl⟩

/-! ### Word reads -/

/-- The word at `o` is the reader's own larder pop (R275). -/
def popsLarder (who : Who) (o : Nat) : Bool :=
  match who with
  | .steward c _ _ _ => o == 0x4060 + 8 * c.val
  | _ => false

/-- A read that neither pops nor latches returns the value and clears what it may clear. -/
theorem regRead_value {who : Who} {clr latch : Bool} {o : Nat} {d : Dev} {v : Word} (h0 : (regVal who o d).isNone = false)
    (hv : regVal who o (regWake o d) = some v) (hpop : popsLarder who o = true → clr = false)
    (htb : o = 0x2000 → latch = false) :
    regRead who clr latch o d = some (v, if clr ∧ clears who o (regWake o d) then regClear o (regWake o d) else regWake o d) := by
  have hp : ¬ (popsLarder who o = true ∧ clr = true) := fun ⟨a, b⟩ => by simp [hpop a] at b
  have ht : ¬ (o = 0x2000 ∧ latch = true) := fun ⟨a, b⟩ => by simp [htb a] at b
  unfold regRead
  rw [h0]
  simp only [Bool.false_eq_true, if_false, hv, Option.map_some, if_neg ht]
  exact if_neg hp

/-- A memory read of the host that finds BAR0 decoded and fclk running. -/
theorem hostRead_bar0 {off : BitVec 24} {d : Dev} (hl : hostLive d = true) (hb : barOn (arrive d) = true)
    (hf : (arrive d).sys.fclkOn = true) (ho : off.toNat < 0x100000) (bes : List (BitVec 4)) :
    hostRead .bar0 off bes [] [] d = barRead (off.toNat / 4 * 4) bes (arrive d) := by
  have ho : ¬ 0x100000 ≤ off.toNat / 4 * 4 := by omega
  simp [hostRead, hl, hb, hf, ho]

/-- A word read that is served answers with what the register gives. -/
theorem wordRead_served {who : Who} {be : BitVec 4} {o : Nat} {d d1 t : Dev} {v : Word} (h : reached who o d = some d1)
    (hbe : who ≠ .host → be = 0xF) (h4 : o % 4 = 0) (ho : o < 0x100000)
    (hr : ∀ d0, (regVal who o d0).isNone = false → d1 = regWake o d0 → regRead who (be == 0xF) (be == 0xF) o d0 = some (v, t)) :
    wordRead who o be d = answer (leBytes 4 v.toNat) t := by
  by_cases hw : who = .host
  · subst hw
    obtain ⟨hl, hb, hf, hv, hd⟩ := reached_host h
    have ha : (BitVec.ofNat 24 o).toNat < 0x100000 := by rw [BitVec.toNat_ofNat]; omega
    rw [wordRead, hostRead_bar0 hl hb hf ha, dwordOf_ofNat h4 (by omega)]
    simp only [barRead, hostWord, hr _ hv hd, Option.getD_some]
  · obtain ⟨hl, hv, hd⟩ := reached_inside hw h
    have hr := hr _ hv hd
    have hx : ¬ ((!regsLive d) = true ∨ be ≠ 0xF) := by simp [hl, hbe hw]
    have hT : (be == 0xF) = true := by simp [hbe hw]
    rw [hT] at hr
    cases who with
    | host => exact absurd rfl hw
    | ring n => simp only [wordRead, if_neg hx, hr]
    | steward c fr sf sys => simp only [wordRead, if_neg hx, hr]

/-- A served word read with all byte enables returns the value and clears the fields that this reader may clear. -/
theorem rcFieldRead_clears {who : Who} {o : Nat} {v : Word} {d d1 : Dev} (h : reached who o d = some d1) (h4 : o % 4 = 0)
    (ho : o < 0x100000) (htb : o ≠ 0x2000) (hpop : popsLarder who o = false) (hv : regVal who o d1 = some v) :
    rcFieldRead who .bar0 (BitVec.ofNat 24 o) [0xF] [] [] d =
      answer (leBytes 4 v.toNat) (if clears who o d1 then regClear o d1 else d1) := by
  rw [rcFieldRead_word who _ h4 (by omega)]
  refine wordRead_served h (fun _ => rfl) h4 ho fun d0 h0 hd => ?_
  subst hd
  simpa using regRead_value (clr := true) (latch := true) h0 hv (by simp [hpop]) (absurd · htb)

/-- A served word read of the host with a byte enable clear returns the value and clears nothing. -/
theorem rcFieldRead_partial {be : BitVec 4} {o : Nat} {v : Word} {d d1 : Dev} (h : reached .host o d = some d1) (h4 : o % 4 = 0)
    (ho : o < 0x100000) (hbe : be ≠ 0xF) (hv : regVal .host o d1 = some v) :
    rcFieldRead .host .bar0 (BitVec.ofNat 24 o) [be] [] [] d = answer (leBytes 4 v.toNat) d1 := by
  rw [rcFieldRead_word .host _ h4 (by omega)]
  refine wordRead_served h (absurd rfl) h4 ho fun d0 h0 hd => ?_
  subst hd
  rw [beq_eq_false_iff_ne.2 hbe]
  simpa using regRead_value (clr := false) (latch := false) h0 hv (fun _ => rfl) (fun _ => rfl)

/-- One word is answered in one completion. -/
theorem answer_word (v : Word) (d : Dev) : answer (leBytes 4 v.toNat) d = { d with rdata := leBytes 4 v.toNat, rcpl := [4] } := rfl

/-! ### A request of the host arrives -/

/-- Requests that waited for the link leave. -/
theorem sendWaiting_frame (d : Dev) : PeFrame d (sendWaiting d) := by
  have sent : ∀ (l : List Req) (t : Dev), PeFrame t
      (l.foldl (fun d r => emit (.hostRead r.tag r.addr r.len) (updPe (fun p => { p with reqs := p.reqs ++ [{ r with sent := d.clk }] }) d)) t) := by
    intro l
    induction l with
    | nil => exact fun _ => rfl
    | cons r l ih => exact fun t => (ih _).after rfl
  exact (sent _ _).after rfl

/-- A request that arrives changes the endpoint alone. -/
theorem arrive_frame (d : Dev) : PeFrame d (arrive d) := by
  unfold arrive linkReachesL0
  dsimp only
  split
  · rfl
  · split
    · rfl
    · refine (sendWaiting_frame _).after ?_
      split
      · split <;> rfl
      · rfl

theorem PeFrame.notAppended_eq {d t : Dev} (h : PeFrame d t) (a : Nat) : notAppended t a = notAppended d a := by
  unfold PeFrame at h
  rw [h]
  rfl

/-! ### BAR2 reads -/

/-- A read of BAR2 by the host of a live link. -/
theorem rcFieldRead_bar2 {d : Dev} (hl : hostLive d = true) (hb : barOn (arrive d) = true) (hf : (arrive d).sys.fclkOn = true)
    (off : BitVec 24) (n : Nat) :
    rcFieldRead .host .bar2 off (List.replicate n 0xF) [] [] d = bar2Read (off.toNat / 4 * 4) (4 * n) [] [] (arrive d) := by
  simp [rcFieldRead, hostRead, hl, hb, hf]

/-- Below the Cellar's window BAR2 reads zeros. -/
theorem bar2Read_low {o : Nat} (h : o < 0x800000) (n : Nat) (ce ue : List (BitVec 23)) (d : Dev) :
    bar2Read o n ce ue d = answerAt o (List.replicate n 0) d := if_pos h

/-- In the Cellar's window a read with no ECC error answers what the peek gives. -/
theorem bar2Read_peek {o : Nat} (h : 0x800000 ≤ o) (n : Nat) (d : Dev) :
    bar2Read o n [] [] d = answerAt o (peekBytes [] (o - 0x800000) n d).1 (peekBytes [] (o - 0x800000) n d).2 :=
  if_neg (Nat.not_lt.2 h)

/-- The byte of the peek window is the Cellar's where a peek reaches it. -/
theorem peekByte_eq (d : Dev) (a : Nat) : peekByte d a = if peeks d a then rd8 d.cl.mem a else 0 := by
  unfold peekByte peeks peekOk
  dsimp only
  congr 2
  rw [Bool.or_comm]

/-- Without uncorrectable words a peek shows the bytes it reaches and takes no free value. -/
theorem peekMask_clean (a : Nat) (bs : List Byte) (d : Dev) :
    peekMask [] a bs d = (bs.mapIdx fun i b => if peeks d (a + i) then b else 0, d) := by
  induction bs generalizing a with
  | nil => rfl
  | cons b r ih =>
    have hs : ∀ i, a + 1 + i = a + (i + 1) := fun i => by omega
    simp only [peekMask, List.any_nil, Bool.false_eq_true, if_false, List.mapIdx_cons, Nat.add_zero]
    cases hp : peeks d a <;> simp [ih, hs]

/-- Only free values have been taken. -/
def FreeFrame (d t : Dev) : Prop := t = { d with freeCtr := t.freeCtr }

theorem FreeFrame.trans {a b c : Dev} (h : FreeFrame a b) (h' : FreeFrame b c) : FreeFrame a c := by
  unfold FreeFrame at *
  rw [h] at h'
  exact h'

/-- Byte `i` of a Cellar read from `a` on: the byte that stands there or, where no append has placed it yet, zero (R302). -/
def ReadsByte (d : Dev) (a : Nat) (bs : List Byte) (i : Nat) : Prop :=
  bs[i]? = some (rd8 d.cl.mem (a + i)) ∨ (notAppended d (a + i) = true ∧ bs[i]? = some 0)

/-- What follows the first byte reads as a read from the next byte on. -/
theorem ReadsByte.cons {d t : Dev} {a i : Nat} {bs : List Byte} (x : Byte) (ht : FreeFrame d t) (h : ReadsByte t (a + 1) bs i) :
    ReadsByte d a (x :: bs) (i + 1) := by
  unfold FreeFrame at ht
  rw [ht, ReadsByte, show a + 1 + i = a + (i + 1) by omega] at h
  exact h

/-- What a read of the Cellar gives, and what it takes. -/
theorem cellarWords_reads (a : Nat) (old : Bool) (n : Nat) (d : Dev) :
    FreeFrame d (cellarWords a old n d).2 ∧ (cellarWords a old n d).1.length = n ∧
      ∀ i < n, ReadsByte d a (cellarWords a old n d).1 i := by
  induction n generalizing a old d with
  | zero => exact ⟨rfl, rfl, fun i hi => absurd hi (Nat.not_lt_zero i)⟩
  | succ n ih =>
    -- the rest of the read, after a first byte that reads as it may
    have step : ∀ (x : Byte) (old' : Bool) (t : Dev), FreeFrame d t → ReadsByte d a [x] 0 →
        FreeFrame d (cellarWords (a + 1) old' n t).2 ∧ (x :: (cellarWords (a + 1) old' n t).1).length = n + 1 ∧
          ∀ i < n + 1, ReadsByte d a (x :: (cellarWords (a + 1) old' n t).1) i := by
      intro x old' t ht hx
      obtain ⟨h1, h2, h3⟩ := ih (a + 1) old' t
      refine ⟨ht.trans h1, by rw [List.length_cons, h2], fun i hi => ?_⟩
      cases i with
      | zero => exact hx
      | succ i => exact .cons x ht (h3 i (by omega))
    unfold cellarWords
    split
    · rename_i hn
      have first : ∀ keep : Bool, ReadsByte d a [if keep then rd8 d.cl.mem a else 0] 0 := fun keep => by
        cases keep with
        | true => exact .inl rfl
        | false => exact .inr ⟨hn, rfl⟩
      refine step _ _ _ ?_ (first _)
      split <;> rfl
    · exact step _ _ _ rfl (.inl rfl)

/-- A read of the Cellar whose bytes have all been placed takes no free value. -/
theorem cellarBytes_placed {a n : Nat} {d : Dev} (h : ∀ i < n, notAppended d (a + i) = false) :
    cellarBytes a n d = (rdBytes d.cl.mem a n, d) := by
  refine if_neg ?_
  simpa using h

theorem cellarBytes_reads (a n : Nat) (d : Dev) :
    FreeFrame d (cellarBytes a n d).2 ∧ (cellarBytes a n d).1.length = n ∧ ∀ i < n, ReadsByte d a (cellarBytes a n d).1 i := by
  by_cases h : ((List.range n).any fun i => notAppended d (a + i)) = true
  · have hc : cellarBytes a n d = cellarWords a (bit (takeFree d).1 0) n (takeFree d).2 := if_pos h
    rw [hc]
    exact cellarWords_reads a _ n (takeFree d).2
  · rw [cellarBytes_placed (by simpa using h)]
    exact ⟨rfl, by simp [rdBytes], fun i hi => .inl (by simp [rdBytes, hi])⟩

/-- A peek of placed bytes gives the Cellar's bytes it reaches. -/
theorem peekBytes_placed {a n : Nat} {d : Dev} (h : ∀ i < n, notAppended d (a + i) = false) :
    peekBytes [] a n d = ((List.range n).map fun i => peekByte d (a + i), d) := by
  have hb : (rdBytes d.cl.mem a n).mapIdx (fun i b => if peeks d (a + i) then b else 0) = (List.range n).map fun i => peekByte d (a + i) :=
    List.ext_getElem (by simp [rdBytes]) fun i h1 h2 => by simp [rdBytes, peekByte_eq]
  simp only [peekBytes, cellarBytes_placed h, peekMask_clean, hb]

/-- A read that ends with BAR2 at the latest is one of its own offset; the one whose offset wraps reads no byte. -/
theorem bar2Read_offset {o n : Nat} (h4 : o % 4 = 0) (ho : o + n ≤ 0x1000000) (d : Dev) :
    bar2Read ((BitVec.ofNat 24 o).toNat / 4 * 4) n [] [] d = bar2Read o n [] [] d := by
  by_cases h : o < 0x1000000
  · rw [dwordOf_ofNat h4 h]
  · obtain ⟨rfl, rfl⟩ : o = 0x1000000 ∧ n = 0 := by omega
    rw [bar2Read_low (by decide), bar2Read_peek (by decide), peekBytes_placed (by simp)]
    rfl

/-- A peek gives the window's bytes, and zero for some that no append has placed; it takes free values. -/
theorem peekBytes_reads (a n : Nat) (d : Dev) :
    FreeFrame d (peekBytes [] a n d).2 ∧ (peekBytes [] a n d).1.length = n ∧
      ∀ i < n, (peekBytes [] a n d).1[i]? = some (peekByte d (a + i)) ∨
        (notAppended d (a + i) = true ∧ (peekBytes [] a n d).1[i]? = some 0) := by
  obtain ⟨hf, hn, hr⟩ := cellarBytes_reads a n d
  have hp : ∀ x, peeks (cellarBytes a n d).2 x = peeks d x := fun x => by rw [hf]; rfl
  have hb : peekBytes [] a n d =
      ((cellarBytes a n d).1.mapIdx fun i b => if peeks d (a + i) then b else 0, (cellarBytes a n d).2) := by
    simp only [peekBytes, peekMask_clean, hp]
  rw [hb]
  refine ⟨hf, by rw [List.length_mapIdx, hn], fun i hi => ?_⟩
  rw [List.getElem?_mapIdx, peekByte_eq]
  rcases hr i hi with h | ⟨hna, h⟩
  · exact .inl (by rw [h]; rfl)
  · rw [h]
    by_cases hpk : peeks d (a + i) = true
    · exact .inr ⟨hna, by simp⟩
    · exact .inl (by simp [hpk])

/-! ### Completions of a read (R532) -/

/-- The completions of a read of `n` bytes, split at 64-byte boundaries, add up to it, none above the limit. -/
theorem cplSplit_sum {m : Nat} (hm : 64 ≤ m) (k a n : Nat) (h : n < k) :
    (cplSplit m k a n).sum = n ∧ ∀ x ∈ cplSplit m k a n, x ≤ m := by
  induction k generalizing a n with
  | zero => exact absurd h (Nat.not_lt_zero n)
  | succ k ih =>
    have ha : a % 64 < 64 := Nat.mod_lt a (by decide)
    simp only [cplSplit]
    split
    · subst_vars
      exact ⟨rfl, by simp⟩
    · split
      · exact ⟨by simp, by simpa⟩
      · obtain ⟨hs, hx⟩ := ih (a + (m - a % 64)) (n - (m - a % 64)) (by omega)
        refine ⟨?_, ?_⟩
        · rw [List.sum_cons, hs]
          omega
        · rintro x (_ | ⟨_, hmem⟩)
          · omega
          · exact hx x hmem

/-- Settles O37: a word read by `rcFieldRead_clears` and `rcFieldRead_partial`, a peek by `peekBytes_placed` and `peekBytes_reads`. -/
theorem registerReadsReturnAndClear : Obligations.RegisterReadsReturnAndClear := by
  refine ⟨fun who o v s d h h4 ho htb hpop hv => ?_, fun be o v s d h h4 ho hv hbe => ?_, fun d => ⟨rfl, rfl⟩,
    fun o n s h4 ho hl hb hf hna => ?_, fun o n s h4 hlo ho hl hb hf => ?_, fun m a n hm => cplSplit_sum hm (n + 1) a n n.lt_succ_self⟩
  · have hp : popsLarder who o = false := by
      cases who with
      | steward c fr sf sys => exact beq_eq_false_iff_ne.2 hpop
      | host => rfl
      | ring n => rfl
    rw [exec_rcFieldRead, rcFieldRead_clears h h4 ho htb hp hv, answer_word]
  · rw [exec_rcFieldRead, rcFieldRead_partial h h4 ho hbe hv, answer_word]
  · rw [exec_rcFieldRead, rcFieldRead_bar2 hl hb hf, bar2Read_offset h4 ho]
    by_cases hlo : o < 0x800000
    · rw [bar2Read_low hlo, if_pos hlo, answerAt, List.length_replicate]
    · have hna : ∀ i < 4 * n, notAppended (arrive s.dev) (o - 0x800000 + i) = false := fun i hi => by
        rw [(arrive_frame s.dev).notAppended_eq]
        exact hna (Nat.not_lt.1 hlo) i hi
      rw [bar2Read_peek (Nat.not_lt.1 hlo), peekBytes_placed hna, if_neg hlo, answerAt, List.length_map, List.length_range]
  · obtain ⟨hfr, hn, hr⟩ := peekBytes_reads (o - 0x800000) (4 * n) (arrive s.dev)
    refine ⟨_, by rw [exec_rcFieldRead, rcFieldRead_bar2 hl hb hf, bar2Read_offset h4 ho, bar2Read_peek hlo], ?_, hn, fun i hi => ?_⟩
    · unfold FreeFrame at hfr
      unfold answerAt
      rw [hfr]
    · rw [← (arrive_frame s.dev).notAppended_eq]
      exact hr i hi

/-! ### Word writes that reach their register -/

/-- A word write that reaches its register stores there. -/
theorem registerWrite_reached {who : Who} {o : Nat} {s : State} {d : Dev} (h : reached who o s.dev = some d) (v : Word)
    (h4 : o % 4 = 0) (ho : o < 0x100000) :
    exec (.registerWrite who .bar0 (BitVec.ofNat 24 o) [(v, 0xF)] false) s = .next { s with dev := regStore who o v d } := by
  rw [exec_registerWrite, registerWrite_word who v 0xF h4 (by omega), wordWrite_eq_regStore h v h4 ho]

/-! The block whose register is written, by the offset. -/

theorem regStore_ev {o : Nat} (h : 0x4000 ≤ o) (h' : o < 0x6000) (who : Who) (v : Word) (d : Dev) :
    regStore who o v d = evWrite (o - 0x4000) v d := by
  simp (disch := omega) only [regStore, if_neg, if_pos]
theorem regStore_ln {o : Nat} (h : 0x6000 ≤ o) (h' : o < 0x8000) (who : Who) (v : Word) (d : Dev) :
    regStore who o v d = lnWrite who (o - 0x6000) v d := by
  simp (disch := omega) only [regStore, if_neg, if_pos]
theorem regStore_rc {o : Nat} (h : 0xF000 ≤ o) (h' : o < 0x10000) (who : Who) (v : Word) (d : Dev) :
    regStore who o v d = rcWrite who (o - 0xF000) v d := by
  simp (disch := omega) only [regStore, if_neg, if_pos]

theorem put?_fin {α : Type} {n : Nat} (v : Vector α n) (i : Fin n) (x : α) : put? v i.1 x = put v i x := dif_pos i.2

/-- A write of CL_BSEL chooses the bin of the window. -/
theorem regStore_bsel (who : Who) (v : Word) (d : Dev) :
    regStore who 0x8400 v d = { d with cl := { d.cl with bsel := bf v 0 8 } } := rfl

/-- A write of SYS_ALERTENG takes the engines. -/
theorem regStore_alertEng (who : Who) (v : Word) (d : Dev) :
    regStore who 0x004C v d = { d with sys := { d.sys with alertEng := v } } := rfl

/-- A write of EV_HENg takes the value. -/
theorem evWrite_hen (g : Fin 8) (v : Word) (d : Dev) :
    evWrite (0x120 + 4 * g.val) v d = { d with ev := { d.ev with hen := put d.ev.hen g v } } := by
  have hg : (0x120 + 4 * g.val - 0x120) / 4 = g.val := by omega
  unfold evWrite
  split
  case h_4 =>
    simp (disch := omega) only [if_neg, if_pos, hg, put?_fin]
    rfl
  all_goals omega

/-- A write of EV_HSTATg clears the bits written 1. -/
theorem evWrite_hstat (g : Fin 8) (v : Word) (d : Dev) :
    evWrite (0x100 + 4 * g.val) v d = { d with ev := { d.ev with hstat := put d.ev.hstat g (d.ev.hstat[g] &&& ~~~v) } } := by
  have hg : (0x100 + 4 * g.val - 0x100) / 4 = g.val := by omega
  unfold evWrite
  split
  case h_4 =>
    simp (disch := omega) only [if_neg, if_pos, hg, upd?_fin]
    rfl
  all_goals omega

/-- A write of LN_OUT takes PULSE_LEN, OE and LVL. -/
theorem lnWrite_out (n : Fin 64) (who : Who) (v : Word) (d : Dev) :
    lnWrite who (0x18 + 0x40 * n.val) v d =
      { d with lanes := put d.lanes n { d.lanes[n] with pulseLen := bf v 8 8, oe := bit v 1, lvl := bit v 0 } } := by
  have hn : (0x18 + 0x40 * n.val) / 0x40 = n.val := by omega
  have ho : (0x18 + 0x40 * n.val) % 0x40 = 0x18 := by omega
  unfold lnWrite
  rw [if_pos (by omega), if_neg (by omega), hn, ho]
  simp only [laneWrite, updLane, upd?_fin]

/-- A write of the Steward area of the root cellar needs SYS of a Steward. -/
theorem rcWrite_stewardArea (k : Fin 128) (who : Who) (v : Word) (d : Dev) :
    rcWrite who (0x200 + 4 * k.val) v d =
      if maySys who then { d with rc := wrLE d.rc (0x200 + 4 * k.val) 4 v.toNat } else denied who 1 d := by
  have hs : ∀ f : Dev → Dev, needSys who f d = if maySys who then f d else denied who 1 d := fun f => by
    cases who <;> rfl
  have hk : 0x200 ≤ 0x200 + 4 * k.val ∧ 0x200 + 4 * k.val < 0x400 := by omega
  unfold rcWrite
  rw [if_neg (by omega), hs, if_pos hk]

/-- A memory write of the host that finds BAR0 decoded and fclk running. -/
theorem hostWrite_bar0 {off : BitVec 24} {d : Dev} (hl : hostLive d = true) (hb : barOn (arrive d) = true)
    (hf : (arrive d).sys.fclkOn = true) (ho : off.toNat < 0x100000) (ws : List (Word × BitVec 4)) :
    hostWrite .bar0 off ws false false d = barWrite (off.toNat / 4 * 4) ws (arrive d) := by
  have ho : ¬ 0x100000 ≤ off.toNat / 4 * 4 := by omega
  simp [hostWrite, hl, hb, hf, ho]

/-- An aligned 8-byte write of TB_SET takes both halves. -/
theorem barWrite_tbSet (lo hi : Word) (d : Dev) :
    barWrite 0x2028 [(lo, 0xF), (hi, 0xF)] d = { d with tb := { d.tb with set := hi ++ lo } } := by
  have h : setHi (setLo d.tb.set lo) hi = hi ++ lo := by
    have hlo : lo32 (hi32 d.tb.set ++ lo) = lo := by
      rw [lo32, bf, BitVec.extractLsb'_append_eq_of_add_le (by decide), BitVec.extractLsb'_eq_self]
    simp only [setHi, setLo, join64, hlo]
  calc barWrite 0x2028 [(lo, 0xF), (hi, 0xF)] d
    _ = wideWrite .host 0x2028 lo hi d := by
      unfold barWrite
      dsimp only
      rw [if_neg (by decide), if_pos ⟨by decide, rfl, rfl⟩]
    _ = regWrite .host 0x202C hi (regWrite .host 0x2028 lo d) := rfl
    _ = regWrite .host 0x202C hi (updTb (fun t => { t with set := setLo t.set lo }) d) := rfl
    _ = updTb (fun t => { t with set := setHi (setLo t.set lo) hi }) d := rfl
    _ = { d with tb := { d.tb with set := hi ++ lo } } := by rw [← h]; rfl

/-- Settles O38: each write reaches its register, and the register's block stores the field. -/
theorem registerWritesStoreTheirFields : Obligations.RegisterWritesStoreTheirFields := by
  refine ⟨fun who v s d g h => ?_, fun who v s d g h => ?_, fun who v s d n h => ?_, fun who v s d h => ?_, fun who v s d h => ?_,
    fun who v s d k h => ?_, fun lo hi s hl hb hf => ?_⟩
  · rw [registerWrite_reached h v (by omega) (by omega), regStore_ev (by omega) (by omega),
      show 0x4120 + 4 * g.val - 0x4000 = 0x120 + 4 * g.val by omega, evWrite_hen]
  · rw [registerWrite_reached h v (by omega) (by omega), regStore_ev (by omega) (by omega),
      show 0x4100 + 4 * g.val - 0x4000 = 0x100 + 4 * g.val by omega, evWrite_hstat]
  · rw [registerWrite_reached h v (by omega) (by omega), regStore_ln (by omega) (by omega),
      show 0x6018 + 0x40 * n.val - 0x6000 = 0x18 + 0x40 * n.val by omega, lnWrite_out]
  · exact regStore_bsel who v d ▸ registerWrite_reached h v (by decide) (by decide)
  · exact regStore_alertEng who v d ▸ registerWrite_reached h v (by decide) (by decide)
  · rw [registerWrite_reached h v (by omega) (by omega), regStore_rc (by omega) (by omega),
      show 0xF200 + 4 * k.val - 0xF000 = 0x200 + 4 * k.val by omega, rcWrite_stewardArea]
  · rw [exec_registerWrite, registerWrite, hostWrite_bar0 hl hb hf (by decide),
      show (0x2028 : BitVec 24).toNat / 4 * 4 = 0x2028 from rfl, barWrite_tbSet]

/-! ### Writes that reach no register -/

@[simp] theorem message_pe (b : Bool) (o : Out) (d : Dev) : (message b o d).pe = d.pe := by
  unfold message
  split <;> rfl

/-- The header log keeps the count and the KIND of Unsupported Requests. -/
@[simp] theorem logHeader_ur (b : Nat) (l : Bool) (h : Option (List Word)) (d : Dev) :
    (logHeader b l h d).pe.urCnt = d.pe.urCnt ∧ (logHeader b l h d).pe.urKind = d.pe.urKind := by
  unfold logHeader
  split <;> exact ⟨rfl, rfl⟩

/-- So does an uncorrectable error, whatever its mask, severity and reporting. -/
theorem ueError_ur (b : Nat) (adv ur : Bool) (h : Option (List Word)) (d : Dev) :
    (ueError b adv ur h d).pe.urCnt = d.pe.urCnt ∧ (ueError b adv ur h d).pe.urKind = d.pe.urKind := by
  unfold ueError
  dsimp only
  split_ifs <;> simp

/-- `t` is `d` after an Unsupported Request with this KIND: it counts, its KIND is kept when the count was 0, and no other block's
register changes. -/
def UrOf (kind : BitVec 4) (d t : Dev) : Prop :=
  t.pe.urCnt = satInc d.pe.urCnt ∧ (d.pe.urCnt = 0 → t.pe.urKind = kind) ∧ t = { d with pe := t.pe, out := t.out, freeCtr := t.freeCtr }

/-- The endpoint's record of an Unsupported Request (R544): it counts, and the first since the count was read is described. -/
def urLogged (kind : BitVec 4) (w : BitVec 2) (o : BitVec 24) (p : Pe) : Pe :=
  { p with
    urCnt := satInc p.urCnt
    urKind := if p.urCnt = 0 then kind else p.urKind
    urWindow := if p.urCnt = 0 then w else p.urWindow
    urOffset := if p.urCnt = 0 then (if w = 3 then 0 else o) else p.urOffset }

/-- A posted one is recorded and reported as an error, with no completion. -/
theorem unsupportedReq_posted (kind : BitVec 4) (w : BitVec 2) (o : BitVec 24) (h : List Word) (d : Dev) :
    unsupportedReq kind true w o h d = ueError 20 false true (some h) (updPe (urLogged kind w o) d) := rfl

theorem PeFrame.free {d t : Dev} (h : PeFrame d t) : t = { d with pe := t.pe, out := t.out, freeCtr := t.freeCtr } := by
  unfold PeFrame at h
  rw [h]

/-- A posted Unsupported Request counts and keeps its KIND. -/
theorem unsupportedReq_counts (kind : BitVec 4) (w : BitVec 2) (o : BitVec 24) (h : List Word) (d : Dev) :
    UrOf kind d (unsupportedReq kind true w o h d) := by
  rw [unsupportedReq_posted]
  obtain ⟨hc, hk⟩ := ueError_ur 20 false true (some h) (updPe (urLogged kind w o) d)
  have hf := (ueError_frame 20 false true (some h) (updPe (urLogged kind w o) d)).after (updPe_frame _ d)
  exact ⟨hc, fun h0 => hk.trans (if_pos h0), hf.free⟩

/-- So does one whose header the row does not bring: four free words are taken. -/
theorem urFree_counts (kind : BitVec 4) (w : BitVec 2) (o : BitVec 24) (d : Dev) : UrOf kind d (urFree kind true w o d) := by
  obtain ⟨hc, hk, hf⟩ := unsupportedReq_counts kind w o (freeHeader d).1 (freeHeader d).2
  exact ⟨hc, hk, hf⟩

/-- The command answers a posted Unsupported Request on the device as the request arrives. -/
theorem registerWrite_ur {sp : Space} {off : BitVec 24} {ws : List (Word × BitVec 4)} {s : State} {kind : BitVec 4} {w : BitVec 2}
    {o : BitVec 24} (h : hostWrite sp off ws false false s.dev = urFree kind true w o (arrive s.dev)) :
    ∃ t : Dev, exec (.registerWrite .host sp off ws false) s = .next { s with dev := t } ∧ UrOf kind (arrive s.dev) t :=
  ⟨_, by rw [exec_registerWrite, registerWrite, h], urFree_counts kind w o (arrive s.dev)⟩

/-- On a dead link a write of the host changes nothing (R526, R559). -/
theorem hostWrite_dead {d : Dev} (hl : hostLive d = false) (sp : Space) (off : BitVec 24) (ws : List (Word × BitVec 4)) (p ue : Bool) :
    hostWrite sp off ws p ue d = d := if_pos (by simp [hl])

/-- With BAR0 not decoded a write to it is an Unsupported Request of KIND 1. -/
theorem hostWrite_undecoded {d : Dev} (hl : hostLive d = true) (hb : barOn (arrive d) = false) (off : BitVec 24)
    (ws : List (Word × BitVec 4)) : hostWrite .bar0 off ws false false d = urFree 1 true 3 0 (arrive d) := by
  simp [hostWrite, hl, hb]

/-- BAR2 takes writes below 0x10000 only. -/
theorem hostWrite_bar2_high {off : BitVec 24} {d : Dev} (hl : hostLive d = true) (hb : barOn (arrive d) = true)
    (hf : (arrive d).sys.fclkOn = true) (ho : 0x10000 ≤ off.toNat) (ws : List (Word × BitVec 4)) :
    hostWrite .bar2 off ws false false d =
      urFree 5 true 1 (firstByte (off.toNat / 4 * 4) ((ws.head?.map (·.2)).getD 0xF)) (arrive d) := by
  have ho : ¬ off.toNat / 4 * 4 < 0x10000 := by omega
  simp [hostWrite, hl, hb, hf, ho]

/-- The decoded ROM takes no write. -/
theorem hostWrite_rom {off : BitVec 24} {d : Dev} (hl : hostLive d = true) (hr : romOn (arrive d) = true) (ho : off.toNat < 0x10000)
    (ws : List (Word × BitVec 4)) :
    hostWrite .rom off ws false false d =
      urFree 6 true 2 (firstByte (off.toNat / 4 * 4) ((ws.head?.map (·.2)).getD 0xF)) (arrive d) := by
  have ho : ¬ 0x10000 ≤ off.toNat / 4 * 4 := by omega
  simp [hostWrite, hl, hr, ho]

/-- A word with some but not all byte enables, at a register that takes whole words, is dropped. -/
theorem barWrite_partial {o : Nat} {v : Word} {be : BitVec 4} {d : Dev} (hv : (regVal .host o d).isSome = true) (h0 : be ≠ 0)
    (hF : be ≠ 0xF) (ho : ¬ (0xF200 ≤ o ∧ o < 0xF400)) : barWrite o [(v, be)] d = urFree 4 true 0 (firstByte o be) d := by
  have hd : dropped o be d = true := by
    have hr : reservedAt o d = false := by rw [reservedAt, Option.isNone_eq_false_iff]; exact hv
    have hb : byteWritable o = false := by simpa [byteWritable] using ho
    simp only [dropped, hr, hb, bne_iff_ne.2 h0, bne_iff_ne.2 hF, Bool.not_false, Bool.and_self]
  exact if_pos hd

/-- A whole word at a reserved location is ignored (R11). -/
theorem barWrite_reserved {o : Nat} {v : Word} {d : Dev} (hv : regVal .host o d = none) : barWrite o [(v, 0xF)] d = d := by
  have hd : ¬ dropped o 0xF d = true := by simp [dropped]
  calc barWrite o [(v, 0xF)] d = barWord o v 0xF d := if_neg hd
    _ = regWrite .host o v d := if_pos rfl
    _ = d := if_pos (by rw [hv]; rfl)

/-- While registers are not live a write by a ring command or a Steward changes nothing. -/
theorem registerWrite_notLive {who : Who} {d : Dev} (hw : who ≠ .host) (hl : regsLive d = false) (sp : Space) (off : BitVec 24)
    (ws : List (Word × BitVec 4)) (p : Bool) : registerWrite who sp off ws p d = d := by
  have word : ∀ (o : Nat) (v : Word) (be : BitVec 4), wordWrite who o v be d = d := fun o v be => by
    cases who with
    | host => exact absurd rfl hw
    | ring n => simp [wordWrite, hl]
    | steward c fr sf sys => simp [wordWrite, hl]
  unfold registerWrite
  split
  · exact absurd rfl hw
  · split
    · exact word _ _ _
    · rfl

/-- A Steward's store to a reserved location pends a store error with detail 0 (R408). -/
theorem wordWrite_steward_reserved {c : Fin 4} {fr sf sys : Bool} {o : Nat} {d : Dev} (hl : regsLive d = true)
    (hv : regVal (.steward c fr sf sys) o d = none) (v : Word) :
    wordWrite (.steward c fr sf sys) o v 0xF d = busError c.val 0 (regBase + o) (inSealed d c.val) d := by
  simp [wordWrite, hl, stewardWrite, stewardStore, hv]

/-- Settles O39: what the host's endpoint turns away, then the writers inside. -/
theorem writesThatReachNoRegister : Obligations.WritesThatReachNoRegister := by
  refine ⟨fun sp o ws p s hl => ?_, fun s hl => ⟨fun o ws hb => ?_, fun hb hf => ⟨fun o v be h4 ho hv h0 hF hs => ?_,
    fun o x y h8 ho => ?_, fun o x y z r ho => ?_, fun o ws ho => ?_, fun o v h4 ho hv => ?_⟩, fun o ws hr ho => ?_⟩,
    fun who sp o ws p s hw hl => ?_, fun c fr sf sys o v s hl h4 hv => ?_⟩
  · rw [exec_registerWrite, registerWrite, hostWrite_dead hl]
  · exact registerWrite_ur (hostWrite_undecoded hl hb o ws)
  · have ha : o.toNat / 4 * 4 = o.toNat := by omega
    exact registerWrite_ur (by rw [hostWrite_bar0 hl hb hf ho, ha]; exact barWrite_partial hv h0 hF hs)
  · exact registerWrite_ur ((hostWrite_bar0 hl hb hf ho _).trans (if_pos (by omega)))
  · exact registerWrite_ur (hostWrite_bar0 hl hb hf ho _)
  · exact registerWrite_ur (hostWrite_bar2_high hl hb hf ho ws)
  · have ha : o.toNat / 4 * 4 = o.toNat := by omega
    rw [exec_registerWrite, registerWrite, hostWrite_bar0 hl hb hf ho, ha, barWrite_reserved hv]
  · exact registerWrite_ur (hostWrite_rom hl hr ho ws)
  · rw [exec_registerWrite, registerWrite_notLive hw hl]
  · have ho : BitVec.ofNat 24 o.toNat = o := by simp
    rw [exec_registerWrite, ← ho, registerWrite_word _ v 0xF (by simpa using h4) (by simpa using o.isLt),
      wordWrite_steward_reserved hl (by simpa using hv), ho]

end Sys2Proof.Machine
end

section
/-!
PROOFS. The statements of 01_architecture.md: the registers of reset and thaw.
-/
namespace Sys2Proof.Machine

/-! ### Reset and thaw registers -/

/-- A command that writes a whole word of BAR0 which reaches its register stores there. -/
theorem act_wordWrite {who : Who} {o : Nat} {s : State} {d : Dev} (h : reached who o s.dev = some d) (v : Word) (h4 : o % 4 = 0)
    (ho : o < 0x100000) : act (wordWrite who o v 0xF) s = .next { s with dev := regStore who o v d } := by
  rw [act_eq, wordWrite_eq_regStore h v h4 ho]

/-- Below 0x1000 the SYS block's registers are written. -/
theorem regStore_sys {o : Nat} (h : o < 0x1000) (who : Who) (v : Word) (d : Dev) : regStore who o v d = sysWrite who o v d := if_pos h

/-- A command that writes a register of the SYS block. -/
theorem act_sysWrite {who : Who} {o : Nat} {s : State} {d : Dev} (h : reached who o s.dev = some d) (v : Word) (h4 : o % 4 = 0)
    (ho : o < 0x1000) : act (wordWrite who o v 0xF) s = .next { s with dev := sysWrite who o v d } := by
  rw [act_wordWrite h v h4 (by omega), regStore_sys ho]

/-- SYS_RSTCMD: without SYS a Steward is denied, and only CONFIRM with GO starts a W reset (R602). -/
theorem rstcmdWrite_eq (who : Who) (v : Word) (d : Dev) :
    rstcmdWrite who v d =
      if maySys who = false then denied who 1 d
      else if fld v 16 16 = 0x3A5C ∧ bit v 0 = true then wReset (match who with | .ring _ => .ring | _ => .command) d
      else { d with sys := { d.sys with rstRej := satInc d.sys.rstRej } } := by
  cases who with
  | host => rfl
  | ring n => rfl
  | steward c fr sf sys => cases sys <;> rfl

/-- The result of a write of SYS_THAWKEY, in the order of the checks (R619). -/
def thawResultOf (v : Word) (d : Dev) : BitVec 3 :=
  match d.sys.thawArmed with
  | none => 6
  | some c =>
    if c + 1500000 < d.clk then 5 else if fld v 0 16 ≠ 0xC0DE then 4
    else if !freezable d.sys.thawId.toNat then 3 else if !isFrozen d d.sys.thawId.toNat then 2 else 1

/-- SYS_THAWKEY disarms, shows the result, counts a bad key, and with result 1 thaws. -/
theorem thawKeyWrite_eq (v : Word) (d : Dev) :
    thawKeyWrite v d = (if thawResultOf v d = 1 then thawMaster d.sys.thawId.toNat else id) { d with
      sys := { d.sys with
        thawArmed := none, thawResult := thawResultOf v d
        badKeys := if thawResultOf v d = 4 then satInc d.sys.badKeys else d.sys.badKeys } } := by
  show (if thawResultOf v d = 1 then _ else _) = _
  split <;> rfl

/-- Not armed: result 6. -/
theorem thawResultOf_unarmed {v : Word} {d : Dev} (h : d.sys.thawArmed = none) : thawResultOf v d = 6 := by
  simp only [thawResultOf, h]

/-- Later than the limit: result 5. -/
theorem thawResultOf_expired {v : Word} {d : Dev} {c : Nat} (h : d.sys.thawArmed = some c) (hc : c + 1500000 < d.clk) :
    thawResultOf v d = 5 := by
  simp only [thawResultOf, h, if_pos hc]

/-- In time, with a wrong key: result 4. -/
theorem thawResultOf_badKey {v : Word} {d : Dev} {c : Nat} (h : d.sys.thawArmed = some c) (hc : d.clk ≤ c + 1500000)
    (hk : fld v 0 16 ≠ 0xC0DE) : thawResultOf v d = 4 := by
  simp only [thawResultOf, h, if_neg (Nat.not_lt.2 hc), if_pos hk]

/-- In time, with the key: the master decides. -/
theorem thawResultOf_key {v : Word} {d : Dev} {c : Nat} (h : d.sys.thawArmed = some c) (hc : d.clk ≤ c + 1500000)
    (hk : fld v 0 16 = 0xC0DE) :
    thawResultOf v d = if freezable d.sys.thawId.toNat = false then 3 else if isFrozen d d.sys.thawId.toNat = false then 2 else 1 := by
  simp [thawResultOf, h, if_neg (Nat.not_lt.2 hc), hk]

/-- SYS_THAWKEY is the host's and ring commands'. -/
theorem sysWrite_thawKey (who : Who) (v : Word) (d : Dev) : sysWrite who 0x03C v d = if hostLike who then thawKeyWrite v d else d := rfl

/-- SYS_MTHAW of the host or a ring command does nothing. -/
theorem sysWrite_mthaw_hostLike {who : Who} (h : hostLike who = true) (v : Word) (d : Dev) : sysWrite who 0x044 v d = d := if_pos h

/-- SYS_MTHAW of a Steward needs FREEZE, then SYS, then a frozen master of 0x24 or above (R389, R618). -/
theorem sysWrite_mthaw_steward (c : Fin 4) (fr sf sys : Bool) (v : Word) (d : Dev) :
    sysWrite (.steward c fr sf sys) 0x044 v d =
      if fr = false then stDeny c 2 d else if sys = false then stDeny c 1 d
      else if 0x24 ≤ fld v 0 8 ∧ freezable (fld v 0 8) = true ∧ isFrozen d (fld v 0 8) = true then thawMaster (fld v 0 8) d else d := by
  cases fr <;> cases sys <;> rfl

/-- Settles O10: each write reaches its register of the SYS block. -/
theorem writesOfTheResetAndThawRegisters : Obligations.WritesOfTheResetAndThawRegisters := by
  refine ⟨fun who v s d h => ?_, fun who v s d h => ?_, fun who v s d h => ⟨fun hw => ?_, fun hw => ?_⟩, fun who v s d h => ?_⟩
  · exact (act_sysWrite h v (by decide) (by decide)).trans
      (congrArg (fun x => Host.Outcome.next { s with dev := x }) (rstcmdWrite_eq who v d))
  · exact act_sysWrite h v (by decide) (by decide)
  · exact (act_sysWrite h v (by decide) (by decide)).trans (by rw [sysWrite_thawKey, if_neg (by simp [hw])])
  · refine ⟨thawResultOf v d, ?_, thawResultOf_unarmed,
      fun c hc => ⟨thawResultOf_expired hc, thawResultOf_badKey hc, thawResultOf_key hc⟩⟩
    rw [← thawKeyWrite_eq]
    exact (act_sysWrite h v (by decide) (by decide)).trans (by rw [sysWrite_thawKey, if_pos hw])
  · refine (act_sysWrite h v (by decide) (by decide)).trans ?_
    cases who with
    | host => rw [sysWrite_mthaw_hostLike rfl]
    | ring n => rw [sysWrite_mthaw_hostLike rfl]
    | steward c fr sf sys => rw [sysWrite_mthaw_steward]

end Sys2Proof.Machine
end

section
/-!
PROOFS. The statements of 01_architecture.md: locks and supplies.
-/
namespace Sys2Proof.Machine

/-! ### Bits -/

/-- Bit `j` of a word whose bit `i` was set. -/
theorem bit_setBit {n : Nat} (v : BitVec n) {i : Nat} (hi : i < n) (b : Bool) (j : Nat) :
    bit (setBit v i b) j = if i = j then b else bit v j := by
  have hm : (BitVec.ofNat n (1 <<< i)).getLsbD j = decide (i = j) := by
    rw [BitVec.getLsbD_ofNat, Nat.one_shiftLeft, Nat.testBit_two_pow]
    by_cases h : i = j <;> simp [h]
    omega
  cases b with
  | false =>
    simp only [setBit, bit, Bool.false_eq_true, if_false, BitVec.getLsbD_and, BitVec.getLsbD_not, hm]
    by_cases h : i = j
    · simp [h]
    · by_cases hj : j < n
      · simp [h, hj]
      · simp [h, BitVec.getLsbD_of_ge v j (by omega)]
  | true =>
    simp only [setBit, bit, if_true, BitVec.getLsbD_or, hm]
    by_cases h : i = j <;> simp [h]

/-! ### Raising several occurrences -/

theorem raise_frame (s : Nat) (d : Dev) : EvFrame d (raise s d) := raiseIn_frame 0 s d
theorem EvFrame.clk_eq {d t : Dev} (h : EvFrame d t) : t.clk = d.clk := by
  unfold EvFrame at h
  rw [h]

theorem raiseIf_frame (b : Bool) (s : Nat) (d : Dev) : EvFrame d (raiseIf b s d) := by
  unfold raiseIf
  split
  · exact raise_frame s d
  · rfl

theorem raiseNextIf_frame (b : Bool) (s : Nat) (d : Dev) : EvFrame d (raiseNextIf b s d) := by
  unfold raiseNextIf
  split
  · exact raiseIn_frame 1 s d
  · rfl

/-- Raising the sources `f p` for every `p` of a list. -/
theorem raiseEach_frame {α : Type} (f : α → Nat) (l : List α) (d : Dev) : EvFrame d (l.foldl (fun d p => raise (f p) d) d) := by
  induction l generalizing d with
  | nil => rfl
  | cons p l ih => exact (raise_frame _ d).trans (ih _)

/-- An occurrence of this clk stays recorded while others are raised. -/
theorem pulses_raise_mono {s x : Nat} {d : Dev} (h : (d.clk, x) ∈ d.ev.pulses) : (d.clk, x) ∈ (raise s d).ev.pulses :=
  pulses_raiseIn_mono h le_rfl

theorem pulses_raiseEach_mono {α : Type} (f : α → Nat) (l : List α) {x : Nat} {d : Dev} (h : (d.clk, x) ∈ d.ev.pulses) :
    (d.clk, x) ∈ (l.foldl (fun d p => raise (f p) d) d).ev.pulses := by
  induction l generalizing d with
  | nil => exact h
  | cons p l ih =>
    have hc := (raise_frame (f p) d).clk_eq
    have h' := pulses_raise_mono (s := f p) h
    rw [← hc] at h' ⊢
    exact ih h'

/-- Each of them is recorded. -/
theorem mem_pulses_raiseEach {α : Type} (f : α → Nat) {l : List α} {p : α} (hp : p ∈ l) (d : Dev) :
    (d.clk, f p) ∈ (l.foldl (fun d p => raise (f p) d) d).ev.pulses := by
  induction l generalizing d with
  | nil => cases hp
  | cons q l ih =>
    have hc := (raise_frame (f q) d).clk_eq
    rcases List.mem_cons.1 hp with rfl | hp
    · have h := mem_pulses_raise (f p) d
      rw [← hc] at h ⊢
      exact pulses_raiseEach_mono f l h
    · rw [← hc]
      exact ih hp _

/-! ### The bypass closes (R510, R638) -/

/-- A port of a node whose bypass closes: a link that was up is down and the port wraps. -/
def RingPort.closed (q : RingPort) : RingPort :=
  if q.link then { q with link := false, blockLock := false, wrap := true, retrains := satInc q.retrains, replay := [] } else q

/-- The ring block of a node whose bypass has closed. -/
def bypassClosed (d : Dev) : Dev := updHr (fun h => { h with bypassOpen := false, ports := h.ports.map RingPort.closed }) d

/-- The ports whose link is up. -/
def linkedPorts (d : Dev) : List (Fin 2) := (List.finRange 2).filter fun p => d.hr.ports[p].link

theorem closeBypass_eq (d : Dev) :
    closeBypass d = raiseIf (!(linkedPorts d).isEmpty) 0x5A2
      ((linkedPorts d).foldl (fun d p => raise (0x5A0 + p.val) d) (bypassClosed d)) := rfl

/-- Closing the bypass changes the ports, and raises. -/
theorem closeBypass_frame (d : Dev) : EvFrame (bypassClosed d) (closeBypass d) :=
  (raiseEach_frame (fun p : Fin 2 => 0x5A0 + p.val) _ _).trans (raiseIf_frame _ _ _)

/-- So the ring block changes in BYPASS_OPEN, the ports and the relay counts. -/
theorem EvFrame.bypass {d t : Dev} (h : EvFrame (bypassClosed d) t) :
    t = { d with ev := t.ev, hr := { d.hr with bypassOpen := false, ports := t.hr.ports, relays := t.hr.relays } } := by
  unfold EvFrame at h
  rw [h]
  rfl

/-- Each link lost is reported, and so is the wrap. -/
theorem closeBypass_pulses {d : Dev} {p : Fin 2} (h : d.hr.ports[p].link = true) :
    (d.clk, 0x5A0 + p.val) ∈ (closeBypass d).ev.pulses ∧ (d.clk, 0x5A2) ∈ (closeBypass d).ev.pulses := by
  have hp : p ∈ linkedPorts d := List.mem_filter.2 ⟨List.mem_finRange p, h⟩
  have he : (!(linkedPorts d).isEmpty) = true := by simpa using List.ne_nil_of_mem hp
  have hm := mem_pulses_raiseEach (fun p : Fin 2 => 0x5A0 + p.val) hp (bypassClosed d)
  have hc := (raiseEach_frame (fun p : Fin 2 => 0x5A0 + p.val) (linkedPorts d) (bypassClosed d)).clk_eq
  rw [closeBypass_eq, raiseIf, if_pos he]
  have hd : (bypassClosed d).clk = d.clk := rfl
  rw [← hd]
  constructor
  · rw [← hc] at hm ⊢
    exact pulses_raise_mono hm
  · rw [← hc]
    exact mem_pulses_raise _ _

/-! ### A bank's supply is lost (R198) -/

/-- What errors of lanes may change. -/
def LaneErrFrame (d t : Dev) : Prop := t = { d with lanes := t.lanes, ev := t.ev, hr := { d.hr with relays := t.hr.relays } }

theorem LaneErrFrame.trans {a b c : Dev} (h : LaneErrFrame a b) (h' : LaneErrFrame b c) : LaneErrFrame a c := by
  unfold LaneErrFrame at *
  rw [h] at h'
  exact h'

theorem LaneErrFrame.cfg_eq {d t : Dev} (h : LaneErrFrame d t) : t.cfg = d.cfg := by
  unfold LaneErrFrame at h
  rw [h]

theorem EvFrame.laneErr {d t : Dev} (h : EvFrame d t) : LaneErrFrame d t := by
  unfold EvFrame at h
  unfold LaneErrFrame
  rw [h]

theorem laneErr_frame (n i : Nat) (d : Dev) : LaneErrFrame d (laneErr n i d) :=
  LaneErrFrame.trans (b := updLane n (fun l => { l with err := setBit l.err i true }) d) rfl (raiseNextIf_frame _ _ _).laneErr

/-- An error of lane `n` sets its bit there. -/
theorem laneErr_lanes (n i : Nat) (d : Dev) :
    (laneErr n i d).lanes = upd? d.lanes n fun l => { l with err := setBit l.err i true } := by
  have h := raiseNextIf_frame (!bit (lane d n).err i) (0x003 + 4 * n) (updLane n (fun l => { l with err := setBit l.err i true }) d)
  unfold EvFrame at h
  unfold laneErr
  dsimp only
  rw [h]
  rfl

/-- The first `m` lanes of bank `k` set BANK_PWR where their mode is not OFF. -/
def bankPwr (k m : Nat) (d : Dev) : Dev :=
  (List.range m).foldl (fun d i => if (laneCfg d (8 * k + i)).mode ≠ 0 then laneErr (8 * k + i) 4 d else d) d

theorem bankPwr_succ (k m : Nat) (d : Dev) :
    bankPwr k (m + 1) d =
      if (laneCfg (bankPwr k m d) (8 * k + m)).mode ≠ 0 then laneErr (8 * k + m) 4 (bankPwr k m d) else bankPwr k m d := by
  unfold bankPwr
  rw [List.range_succ, List.foldl_append]
  rfl

theorem bankPwr_frame (k m : Nat) (d : Dev) : LaneErrFrame d (bankPwr k m d) := by
  induction m with
  | zero => rfl
  | succ m ih =>
    rw [bankPwr_succ]
    split
    · exact ih.trans (laneErr_frame _ _ _)
    · exact ih

theorem bankPwr_lanes (k : Nat) {m : Nat} (hm : m ≤ 8) (d : Dev) (n : Fin 64) :
    (bankPwr k m d).lanes[n] =
      { d.lanes[n] with
        err := if n.val / 8 = k ∧ n.val % 8 < m ∧ d.cfg.lanes[n].mode ≠ 0 then setBit d.lanes[n].err 4 true else d.lanes[n].err } := by
  induction m with
  | zero => simp [bankPwr]
  | succ m ih =>
    have ih := ih (by omega)
    have hc : laneCfg (bankPwr k m d) (8 * k + m) = laneCfg d (8 * k + m) := by
      rw [laneCfg, (bankPwr_frame k m d).cfg_eq, laneCfg]
    rw [bankPwr_succ, hc]
    by_cases hn : 8 * k + m = n.val
    · -- lane `n` is the one that this step looks at
      have hl : laneCfg d (8 * k + m) = d.cfg.lanes[n] := by rw [hn, laneCfg, at?_fin]
      have h1 : ¬ n.val % 8 < m := by omega
      have h2 : n.val / 8 = k ∧ n.val % 8 < m + 1 := by omega
      simp only [h1, false_and, and_false, if_false] at ih
      rw [hl]
      split
      · rename_i hmode
        simp only [laneErr_lanes, Fin.getElem_fin, getElem_upd?, hn, if_true]
        rw [show (bankPwr k m d).lanes[n.val] = d.lanes[n.val] from ih, if_pos ⟨h2.1, h2.2, hmode⟩]
      · rename_i hmode
        rw [ih, if_neg (fun h => hmode h.2.2)]
    · have h1 : (n.val / 8 = k ∧ n.val % 8 < m + 1 ∧ d.cfg.lanes[n].mode ≠ 0) ↔
          (n.val / 8 = k ∧ n.val % 8 < m ∧ d.cfg.lanes[n].mode ≠ 0) :=
        ⟨fun ⟨a, b, c⟩ => ⟨a, by omega, c⟩, fun ⟨a, b, c⟩ => ⟨a, by omega, c⟩⟩
      simp only [h1]
      rw [← ih]
      split
      · simp only [laneErr_lanes, Fin.getElem_fin, getElem_upd?, hn, if_false]
      · rfl

/-- The bank registers after a loss of supply `k`. -/
def Banks.lost (k : Nat) (b : Banks) : Banks :=
  { b with good := setBit b.good k false, fault := if bit b.good k then setBit b.fault k true else b.fault }

theorem bankLoss_eq (k : Nat) (d : Dev) :
    bankLoss k d = if bit d.bank.good k then bankPwr k 8 { d with bank := d.bank.lost k } else { d with bank := d.bank.lost k } := rfl

/-- The loss of a supply changes the bank registers, lane errors and what they raise. -/
theorem bankLoss_frame (k : Nat) (d : Dev) : LaneErrFrame { d with bank := d.bank.lost k } (bankLoss k d) := by
  rw [bankLoss_eq]
  split
  · exact bankPwr_frame k 8 _
  · rfl

theorem LaneErrFrame.lost {k : Nat} {d t : Dev} (h : LaneErrFrame { d with bank := d.bank.lost k } t) :
    t = { d with bank := t.bank, lanes := t.lanes, ev := t.ev, hr := { d.hr with relays := t.hr.relays } } := by
  unfold LaneErrFrame at h
  rw [h]

theorem bankLoss_lanes (k : Nat) (d : Dev) (n : Fin 64) :
    (bankLoss k d).lanes[n] = { d.lanes[n] with
      err := if n.val / 8 = k ∧ bit d.bank.good k = true ∧ d.cfg.lanes[n].mode ≠ 0 then setBit d.lanes[n].err 4 true
        else d.lanes[n].err } := by
  have h8 : n.val % 8 < 8 := by omega
  cases hg : bit d.bank.good k with
  | true =>
    rw [bankLoss_eq, if_pos hg, bankPwr_lanes k le_rfl]
    simp only [h8, true_and]
  | false =>
    rw [bankLoss_eq, if_neg (by simp [hg])]
    simp only [Bool.false_eq_true, false_and, and_false, if_false]

/-- GOOD and FAULT, bit by bit. -/
theorem bit_lost (b : Banks) (k j : Fin 8) :
    bit (b.lost k).good j = (if k = j then false else bit b.good j) ∧
      bit (b.lost k).fault j = (if k = j then bit b.fault j || bit b.good j else bit b.fault j) := by
  refine ⟨?_, ?_⟩
  · simp only [Banks.lost, bit_setBit _ k.isLt, Fin.ext_iff]
  · by_cases h : k = j
    · subst h
      cases hg : bit b.good k <;> simp [Banks.lost, hg, bit_setBit]
    · have h' : k.val ≠ j.val := fun e => h (Fin.ext e)
      cases hg : bit b.good k <;> simp [Banks.lost, hg, bit_setBit, h, h']

/-! ### With fclk stopped -/

/-- With fclk stopped a command of fclk logic that no access carries leaves the state as it is (R28). -/
theorem actClk_off (f : Dev → Dev) {s : State} (h : s.dev.sys.fclkOn = false) : actClk f s = .next s := by
  rw [actClk_eq, if_neg (by simp [h])]

/-- So does a command of the ring. -/
theorem ringRow_off (f : Dev → Dev) {s : State} (h : s.dev.sys.fclkOn = false) : ringRow f s = .next s := actClk_off _ h

theorem exec_onFclk_off {s : State} (h : s.dev.sys.fclkOn = false) {c : Instr} (hc : onFclk c = true) : exec c s = .next s := by
  cases c with
  | resTimeout | recordRelease | triggerRecord | blockGrant | repairStart | backgroundEnd | descriptorEnd | laneFirstLevel
  | laneSample | serialiserBit | lanePulseEnd | contention | pairSample | clkgenClockEdge | graceExpired | precopyEnd
  | cutoverEnd | fenceStart | clusterDormant | clusterWake | clusterAwake | eligibilityCheck | budgetOverrun | stallLimit
  | lockstepEvent | coreWarmResetEnd | comparatorInjection | wdPeriodStart | ppsEdge | ppsLost | compareMatch | matchedPulseEnd
  | gcWrap | gcThreshold | workerImageResult | cellarBankPowerUp | tickOutFall =>
    exact actClk_off _ h
  | laneEdge n dt => exact actClk_off (fun d => laneEdge n (pass dt d)) h
  | linkUp | linkDown | bypassOpen | becomeMaster | beaconTimer | standbyTakeover | cellForward | link | nak | hopRetryTimeout
  | syncExchange | sync | syncr | beacon | discover | hello | topo | assign | rd | rdns | wr | sched | resp | cmdTimeout
  | slotOpen | recCell | recack | recnak | recResend | evrel | blockLock =>
    exact ringRow_off _ h
  | _ => cases hc

theorem exec_corePllLock (s : State) : exec .corePllLock s = .next { s with dev := corePllLock s.dev } := rfl
theorem exec_ringPllLock (s : State) : exec .ringPllLock s = .next { s with dev := ringPllLock s.dev } := rfl
theorem exec_pciePllLock (s : State) : exec .pciePllLock s = .next { s with dev := pciePllLock s.dev } := rfl
theorem exec_fclkLossOfLock (s : State) : exec .fclkLossOfLock s = .next { s with dev := fclkLossOfLock s.dev } := rfl
theorem exec_ringPllLossOfLock (s : State) : exec .ringPllLossOfLock s = .next { s with dev := ringPllLossOfLock s.dev } := rfl
theorem exec_bankSupplyReturn (k : Fin 8) (s : State) : exec (.bankSupplyReturn k) s = .next { s with dev := bankReturn k s.dev } := rfl

/-- Settles O7: clocks by the operation's branch, supplies by what the loss leaves of ports, banks and lanes. -/
theorem locksAndSuppliesAreLostAndReturn : Obligations.LocksAndSuppliesAreLostAndReturn := by
  refine ⟨fun s hp => ?_, fun s hp => ?_, fun s hp hr => ?_, fun s hf => ?_, fun s hp => ?_, fun s => rfl, fun s => ⟨rfl, fun a => rfl⟩,
    fun s => ?_, fun s k => ?_, fun s k => ?_, fun s c hf hc => exec_onFclk_off hf hc⟩
  · rw [exec_corePllLock, corePllLock, if_neg (by simp [hp])]
    rfl
  · rw [exec_ringPllLock, ringPllLock, if_neg (by simp [hp])]
    rfl
  · have he : hasEndpoint s.dev = true := by simpa [hasEndpoint] using hr
    rw [exec_pciePllLock, pciePllLock, if_neg (by simp [hp, he])]
    rfl
  · rw [exec_fclkLossOfLock, fclkLossOfLock, if_pos hf]
    rfl
  · rw [exec_ringPllLossOfLock, ringPllLossOfLock, if_neg (by simp [hp])]
    rfl
  · have hf := closeBypass_frame s.dev
    refine ⟨closeBypass s.dev, rfl, hf.bypass, fun p => ?_, fun p => closeBypass_pulses⟩
    have hp : (closeBypass s.dev).hr.ports = s.dev.hr.ports.map RingPort.closed := by
      unfold EvFrame at hf
      rw [hf]
      rfl
    simp only [hp, Fin.getElem_fin, Vector.getElem_map]
    rfl
  · have hf := bankLoss_frame k.val s.dev
    have hb : (bankLoss k.val s.dev).bank = s.dev.bank.lost k := by
      unfold LaneErrFrame at hf
      rw [hf]
    refine ⟨{ s with dev := bankLoss k.val s.dev }, rfl, ?_, ?_, ?_, ?_, fun j hj => ?_, fun n => ?_⟩
    · exact congrArg (fun x => { s with dev := x }) hf.lost
    · rw [hb]
      rfl
    · rw [hb, (bit_lost _ k k).1, if_pos rfl]
    · rw [hb, (bit_lost _ k k).2, if_pos rfl]
    · rw [hb, (bit_lost _ k j).1, (bit_lost _ k j).2, if_neg (Ne.symm hj), if_neg (Ne.symm hj)]
      exact ⟨rfl, rfl⟩
    · exact bankLoss_lanes k.val s.dev n
  · rw [exec_bankSupplyReturn]
    unfold bankReturn
    by_cases h : s.dev.committed = true ∧ s.dev.cfg.bankVSet = true ∧ bit s.dev.bank.good k.val = false
    · rw [if_pos h, if_pos (by simpa using h)]
    · rw [if_neg h, if_neg (by simpa using h)]

end Sys2Proof.Machine
end

section
/-!
PROOFS. The statements of 01_architecture.md: what the passing of clk leaves of the timebase, the compare channels, the loader and the
cores.
-/
namespace Sys2Proof.Machine

/-! ### The parts of the passing of clk -/

/-- What the parts that come before the clk is counted may change. -/
def PartsFrame (d t : Dev) : Prop :=
  t = { d with
    tb := { d.tb with gcs := t.tb.gcs }, ev := t.ev, engines := t.engines, lanes := t.lanes, cl := t.cl
    hr := { d.hr with relays := t.hr.relays } }

theorem PartsFrame.trans {a b c : Dev} (h : PartsFrame a b) (h' : PartsFrame b c) : PartsFrame a c := by
  unfold PartsFrame at *
  rw [h] at h'
  exact h'

theorem EvFrame.parts {d t : Dev} (h : EvFrame d t) : PartsFrame d t := by
  unfold EvFrame at h
  unfold PartsFrame
  rw [h]

/-- A fold of such parts. -/
theorem partsFrame_foldl {α : Type} (f : Dev → α → Dev) (hf : ∀ d a, PartsFrame d (f d a)) (l : List α) (d : Dev) :
    PartsFrame d (l.foldl f d) := by
  induction l generalizing d with
  | nil => rfl
  | cons a r ih => exact (hf d a).trans (ih _)

theorem partsFrame_ite {c : Prop} [Decidable c] {d t t' : Dev} (h : PartsFrame d t) (h' : PartsFrame d t') :
    PartsFrame d (if c then t else t') := by
  split
  · exact h
  · exact h'

theorem gcPass_parts (n : Nat) (d : Dev) (g : Fin 32) : PartsFrame d (gcPass n d g) := by
  have base : ∀ x : Gc, PartsFrame d { d with tb := { d.tb with gcs := put d.tb.gcs g x } } := fun x => rfl
  have next : ∀ (x : Gc) (k s : Nat), PartsFrame d (raiseIn k s { d with tb := { d.tb with gcs := put d.tb.gcs g x } }) :=
    fun x k s => (base x).trans (raiseIn_frame k s _).parts
  exact partsFrame_ite rfl (partsFrame_ite (partsFrame_ite (next _ _ _) ((next _ _ _).trans (raiseIn_frame _ _ _).parts))
    (partsFrame_ite (next _ _ _) (partsFrame_ite (next _ _ _) (base _))))

theorem bgPass_parts (n : Nat) (d : Dev) (e : Fin 32) : PartsFrame d (bgPass n d e) := by
  unfold bgPass bgTakeN
  dsimp only
  split
  · split
    · rfl
    · split
      · rfl
      · split <;> rfl
  · rfl

theorem enginePort_parts (n : Nat) (d : Dev) (e : Fin 32) : PartsFrame d (enginePort n d e) := by
  unfold enginePort
  dsimp only
  split <;> rfl

theorem stewardPort_parts (n : Nat) (d : Dev) (x : Fin 4 × Fin 4) : PartsFrame d (stewardPort n d x) := by
  unfold stewardPort
  dsimp only
  split <;> rfl

theorem landingPass_parts (n : Nat) (d : Dev) : PartsFrame d (landingPass n d) := by
  unfold landingPass
  split
  · rfl
  · refine partsFrame_foldl _ (fun d k => ?_) _ _
    split
    · rfl
    · exact partsFrame_foldl _ (fun _ _ => by rfl) _ _

theorem retainPass_parts (d : Dev) : PartsFrame d (retainPass d) := by
  refine partsFrame_foldl _ (fun d k => ?_) _ _
  dsimp only
  split <;> rfl

theorem passParts_parts (n : Nat) (d : Dev) : PartsFrame d (passParts n d) :=
  (((((partsFrame_foldl _ (gcPass_parts n) _ _).trans (partsFrame_foldl _ (bgPass_parts n) _ _)).trans
    (partsFrame_foldl _ (enginePort_parts n) _ _)).trans (partsFrame_foldl _ (stewardPort_parts n) _ _)).trans
    (raiseSoon_frame n _).parts).trans (landingPass_parts n _)

/-! ### What passes with the clk -/

/-- The gated counters do not bear on the timebase. -/
theorem tbPass_gcs (c n : Nat) (t : Tb) (x : Vector Gc 32) : tbPass c n { t with gcs := x } = { tbPass c n t with gcs := x } := by
  unfold tbPass
  dsimp only
  split
  · rfl
  · split
    · split <;> rfl
    · rfl

theorem commitEnd_tb (d : Dev) : (commitEnd d).tb = d.tb ∧ (commitEnd d).clk = d.clk := by
  unfold commitEnd
  split <;> exact ⟨rfl, rfl⟩

/-- `n` clk pass over the timebase, the cores' waits and the loader. -/
theorem passRaw_parts {n : Nat} (hn : n ≠ 0) (d : Dev) :
    (passRaw n d).tb = { tbPass d.clk n d.tb with gcs := (passRaw n d).tb.gcs } ∧
      (passRaw n d).cores = (commitEnd d).cores.map (waitPass n) ∧ (passRaw n d).trl = (commitEnd d).trl := by
  have h1 := passParts_parts n (commitEnd d)
  have h2 := retainPass_parts (passRest n (commitEnd d) (passParts n (commitEnd d)))
  obtain ⟨htb, hclk⟩ := commitEnd_tb d
  unfold passRaw
  rw [if_neg hn]
  dsimp only
  generalize retainPass (passRest n (commitEnd d) (passParts n (commitEnd d))) = r at h2 ⊢
  generalize passParts n (commitEnd d) = q at h1 h2
  unfold PartsFrame at h1 h2
  have hq : q.tb = { d.tb with gcs := q.tb.gcs } ∧ q.clk = d.clk ∧ q.cores = (commitEnd d).cores ∧ q.trl = (commitEnd d).trl := by
    rw [h1, htb]
    exact ⟨rfl, hclk, rfl, rfl⟩
  obtain ⟨h3, h4, h5, h6⟩ := hq
  have htb' : tbPass q.clk n q.tb = { tbPass d.clk n d.tb with gcs := (tbPass q.clk n q.tb).gcs } := by
    rw [h3, h4, tbPass_gcs]
  refine ⟨?_, ?_, ?_⟩
  · rw [h2]
    show ({ tbPass q.clk n q.tb with gcs := _ } : Tb) = _
    rw [htb']
  · rw [h2, ← h5]
    rfl
  · rw [h2, ← h6]
    rfl

/-- The timebase may advance: nothing else of it changes, but for the gated counters. -/
def TbFrame (a b : Tb) : Prop := b = { a with now := b.now, frac := b.frac, inc := b.inc, incNext := b.incNext, gcs := b.gcs }

theorem TbFrame.trans {a b c : Tb} (h : TbFrame a b) (h' : TbFrame b c) : TbFrame a c := by
  unfold TbFrame at *
  rw [h] at h'
  exact h'

/-- Clk that are counted change TB_NOW and its fraction only. -/
theorem tbAdd_now (n : Nat) (t : Tb) : ∃ a b, tbAdd n t = { t with now := a, frac := b } := ⟨_, _, rfl⟩

theorem tbAdd_frame (n : Nat) (t : Tb) : TbFrame t (tbAdd n t) := by
  obtain ⟨a, b, h⟩ := tbAdd_now n t
  rw [h]
  rfl

theorem tbFrame_of_inc (t : Tb) (v : DWord) (x : Option (Nat × DWord)) : TbFrame t { t with inc := v, incNext := x } := rfl

theorem tbPass_frame (c n : Nat) (t : Tb) : TbFrame t (tbPass c n t) := by
  unfold tbPass
  split
  · rfl
  · split
    · split
      · exact ((tbAdd_frame _ t).trans (tbFrame_of_inc _ _ _)).trans (tbAdd_frame _ _)
      · exact tbAdd_frame n t
    · exact tbAdd_frame n t

theorem passRaw_tbFrame {n : Nat} (hn : n ≠ 0) (d : Dev) : TbFrame d.tb (passRaw n d).tb := by
  have h := tbPass_frame d.clk n d.tb
  have h' := (passRaw_parts hn d).1
  generalize (passRaw n d).tb = t at h' ⊢
  generalize tbPass d.clk n d.tb = q at h h'
  unfold TbFrame at *
  rw [h', h]

/-- The ways in which `n` clk pass: none without fclk, in one go, or with the first two clk by themselves. -/
theorem pass_cases {P : Nat → Dev → Dev → Prop} (h0 : ∀ d, P 0 d d) (h1 : ∀ n d, n ≠ 0 → P n d (passRaw n d))
    (ht : ∀ m n a b c, P m a b → P n b c → P (m + n) a c) (n : Nat) {d : Dev} (hf : d.sys.fclkOn = true) : P n d (Machine.pass n d) := by
  by_cases hn : n = 0
  · subst hn
    rw [pass_zero]
    exact h0 d
  · have hx : ¬ ((!d.sys.fclkOn || n == 0) = true) := by simp [hf, hn]
    unfold Machine.pass
    rw [if_neg hx]
    split
    · match n, hn with
      | 1, _ => exact h1 1 d (by decide)
      | 2, _ => exact ht 1 1 _ _ _ (h1 1 d (by decide)) (h1 1 _ (by decide))
      | k + 3, _ =>
        have h := ht (1 + 1) (k + 1) _ _ _ (ht 1 1 _ _ _ (h1 1 d (by decide)) (h1 1 _ (by decide))) (h1 (k + 1) _ (by omega))
        rwa [show 1 + 1 + (k + 1) = k + 3 by omega] at h
    · exact h1 n d hn

/-- Time passes: of the Sundial only the timebase and the gated counters change. -/
theorem pass_tbFrame (n : Nat) (d : Dev) : TbFrame d.tb (Machine.pass n d).tb := by
  cases hf : d.sys.fclkOn with
  | false =>
    rw [pass_off n d hf]
    rfl
  | true =>
    exact pass_cases (P := fun _ a b => TbFrame a.tb b.tb) (fun _ => rfl) (fun _ d hn => passRaw_tbFrame hn d)
      (fun _ _ _ _ _ h h' => h.trans h') n hf

@[simp] theorem pass_cmps (n : Nat) (d : Dev) : (Machine.pass n d).tb.cmps = d.tb.cmps := by
  have h := pass_tbFrame n d
  unfold TbFrame at h
  rw [h]

@[simp] theorem pass_tick (n : Nat) (d : Dev) : (Machine.pass n d).tb.tick = d.tb.tick := by
  have h := pass_tbFrame n d
  unfold TbFrame at h
  rw [h]

@[simp] theorem pass_committed (n : Nat) (d : Dev) : (Machine.pass n d).committed = d.committed := by
  rw [(pass_frame n d).1]

@[simp] theorem pass_cfg (n : Nat) (d : Dev) : (Machine.pass n d).cfg = d.cfg := by
  rw [(pass_frame n d).1]

/-- One clk. -/
theorem pass_one {d : Dev} (hf : d.sys.fclkOn = true) : Machine.pass 1 d = passRaw 1 d := by
  unfold Machine.pass
  rw [if_neg (by simp [hf])]
  split <;> rfl

/-! ### The timebase (R229) -/

/-- TB_NOW with its fraction. -/
def nowVal (t : Tb) : Nat := t.now.toNat * 2 ^ 32 + t.frac.toNat

theorem nowVal_lt (t : Tb) : nowVal t < 2 ^ 96 := by
  have h1 := t.now.isLt
  have h2 := t.frac.isLt
  unfold nowVal
  omega

/-- TB_NOW lies below `x` when the value with its fraction lies below `x`. -/
theorem now_lt_iff (t : Tb) (x : Nat) : t.now.toNat < x ↔ nowVal t < x * 2 ^ 32 := by
  have h2 := t.frac.isLt
  unfold nowVal
  omega

theorem nowVal_tbAdd (n : Nat) (t : Tb) : nowVal (tbAdd n t) = (nowVal t + n * t.inc.toNat) % 2 ^ 96 := by
  simp only [nowVal, tbAdd, BitVec.toNat_ofNat]
  omega

/-- From `a` the timebase has counted `n` clk to `b`; TB_INC stands. -/
def Counted (n : Nat) (a b : Tb) : Prop :=
  a.counting = true → a.incNext = none →
    b.counting = true ∧ b.incNext = none ∧ b.inc = a.inc ∧ nowVal b = (nowVal a + n * a.inc.toNat) % 2 ^ 96

theorem Counted.trans {m n : Nat} {a b c : Tb} (h : Counted m a b) (h' : Counted n b c) : Counted (m + n) a c := by
  intro hc hi
  obtain ⟨h1, h2, h3, h4⟩ := h hc hi
  obtain ⟨h5, h6, h7, h8⟩ := h' h1 h2
  refine ⟨h5, h6, h7.trans h3, ?_⟩
  rw [h8, h4, h3, Nat.add_mul, Nat.mod_add_mod, Nat.add_assoc]

theorem passRaw_counted {n : Nat} (hn : n ≠ 0) (d : Dev) : Counted n d.tb (passRaw n d).tb := by
  intro hc hi
  have h : tbPass d.clk n d.tb = tbAdd n d.tb := by simp [tbPass, hc, hi]
  have h' := (passRaw_parts hn d).1
  generalize (passRaw n d).tb = t at h' ⊢
  rw [h', h]
  have hv := nowVal_tbAdd n d.tb
  obtain ⟨a, b, hab⟩ := tbAdd_now n d.tb
  rw [hab] at hv ⊢
  exact ⟨hc, hi, rfl, hv⟩

/-- While TB_INC stands, TB_NOW with its fraction grows by TB_INC a clk. -/
theorem pass_counted (n : Nat) {d : Dev} (hf : d.sys.fclkOn = true) : Counted n d.tb (Machine.pass n d).tb :=
  pass_cases (P := fun n a b => Counted n a.tb b.tb)
    (fun d hc hi => ⟨hc, hi, rfl, by rw [Nat.zero_mul, Nat.add_zero, Nat.mod_eq_of_lt (nowVal_lt d.tb)]⟩)
    (fun _ d hn => passRaw_counted hn d) (fun _ _ _ _ _ h h' => h.trans h') n hf

/-- How many steps of `k` reach `x`: fewer do not. -/
theorem lt_ceilDiv {k : Nat} (hk : 0 < k) (x n : Nat) : n < (x + k - 1) / k ↔ n * k < x := by
  rw [Nat.lt_iff_add_one_le, Nat.le_div_iff_mul_le hk, Nat.add_mul, Nat.one_mul]
  omega

/-- The clk until TB_NOW is at or past `t`, while TB_INC stands. -/
theorem clkUntil_plain {d : Dev} {t : DWord} (hi : d.tb.incNext = none) (h0 : d.tb.inc ≠ 0) (ht : ¬ t.toNat ≤ d.tb.now.toNat) :
    clkUntil d t = (t.toNat * 2 ^ 32 - nowVal d.tb + d.tb.inc.toNat - 1) / d.tb.inc.toNat := by
  rw [clkUntil, hi]
  dsimp only
  rw [if_neg (not_or.2 ⟨ht, h0⟩)]
  rfl

/-- They are the fewest after which TB_NOW is at or past `t`. -/
theorem clkUntil_fewest {d : Dev} {t : DWord} (hf : d.sys.fclkOn = true) (hc : d.tb.counting = true) (hi : d.tb.incNext = none)
    (h0 : d.tb.inc ≠ 0) (ht : t.toNat * 2 ^ 32 + d.tb.inc.toNat ≤ 2 ^ 96) :
    t.toNat ≤ (Machine.pass (clkUntil d t) d).tb.now.toNat ∧ ∀ n < clkUntil d t, (Machine.pass n d).tb.now.toNat < t.toNat := by
  by_cases hn : t.toNat ≤ d.tb.now.toNat
  · have hz : clkUntil d t = 0 := by simp [clkUntil, hi, hn]
    rw [hz, pass_zero]
    exact ⟨hn, fun n hn => absurd hn (Nat.not_lt_zero n)⟩
  · have hk : 0 < d.tb.inc.toNat := Nat.pos_of_ne_zero fun h => h0 (BitVec.eq_of_toNat_eq (by simpa using h))
    have hlt : nowVal d.tb < t.toNat * 2 ^ 32 := (now_lt_iff _ _).1 (Nat.not_le.1 hn)
    have hN := clkUntil_plain (t := t) hi h0 hn
    have fewer := lt_ceilDiv hk (t.toNat * 2 ^ 32 - nowVal d.tb)
    have value : ∀ n, nowVal d.tb + n * d.tb.inc.toNat < 2 ^ 96 →
        nowVal (Machine.pass n d).tb = nowVal d.tb + n * d.tb.inc.toNat := fun n h => by
      obtain ⟨-, -, -, hv⟩ := pass_counted n hf hc hi
      rw [hv, Nat.mod_eq_of_lt h]
    rw [hN]
    constructor
    · have hle := Nat.div_mul_le_self (t.toNat * 2 ^ 32 - nowVal d.tb + d.tb.inc.toNat - 1) d.tb.inc.toNat
      have hge := mt (fewer _).2 (Nat.lt_irrefl _)
      rw [← Nat.not_lt, now_lt_iff, value _ (by omega)]
      omega
    · intro n h
      have h := (fewer n).1 h
      rw [now_lt_iff, value _ (by omega)]
      omega

end Sys2Proof.Machine
end

section
/-!
PROOFS. The statements of 01_architecture.md: compare channels.
-/
namespace Sys2Proof.Machine

/-- With fclk a command of its logic acts. -/
theorem actClk_on (f : Dev → Dev) {s : State} (h : s.dev.sys.fclkOn = true) : actClk f s = .next { s with dev := f s.dev } := by
  rw [actClk_eq, if_pos h]

/-! ### Writes of a compare channel -/

/-- The device with channel `k` set to `c`. -/
def setCmp (k : Fin 64) (c : Cmp) (d : Dev) : Dev := { d with tb := { d.tb with cmps := put d.tb.cmps k c } }

theorem updCmp_fin (k : Fin 64) (f : Cmp → Cmp) (d : Dev) : updCmp k.val f d = setCmp k (f d.tb.cmps[k]) d := by
  show ({ d with tb := { d.tb with cmps := upd? d.tb.cmps k.val f } } : Dev) = _
  rw [upd?_fin]
  rfl

@[simp] theorem setCmp_setCmp (k : Fin 64) (c c' : Cmp) (d : Dev) : setCmp k c (setCmp k c' d) = setCmp k c d := by
  simp only [setCmp, put_put]

@[simp] theorem setCmp_cmps (k : Fin 64) (c : Cmp) (d : Dev) : (setCmp k c d).tb.cmps[k] = c := by
  simp [setCmp, put]

/-- A match of channel `k`: what it writes, and its source in the next clk. -/
theorem doMatch_fin (k : Fin 64) (d : Dev) :
    doMatch k.val d = raiseNext (0x100 + k.val) (setCmp k (cmpMatch d.clk d.tb.now d.tb.cmps[k]) d) := by
  rw [doMatch, updCmp_fin]

/-- The MODE that a write of TB_CMP_CTRL leaves: 3 keeps it. -/
def cmpMode (v : Word) (c : Cmp) : BitVec 2 := if bf v 4 2 = 3 then c.mode else bf v 4 2

/-- The fields that a write of TB_CMP_CTRL takes before CLRM, DISARM and ARM (R245). -/
def cmpWritten (v : Word) (c : Cmp) : Cmp :=
  { c with
    hold := bf v 16 16, mode := cmpMode v c, perEn := bit v 3, latePol := bit v 2
    pulseEnd := if cmpMode v c = c.mode then c.pulseEnd else none }

/-- The same with the staged target active. -/
def cmpStaged (v : Word) (c : Cmp) : Cmp :=
  { cmpWritten v c with target := c.staged, matched := if cmpMode v c = 0 then false else c.matched }

/-- CMP0 of a committed Trellis takes no write; it is counted (R19). -/
theorem cmpCtrlWrite_locked {k : Fin 64} {d : Dev} (h : k = 0 ∧ d.committed = true) (v : Word) :
    cmpCtrlWrite k.val v d = { d with tb := { d.tb with rej := satInc d.tb.rej } } := by
  obtain ⟨rfl, hc⟩ := h
  exact if_pos ⟨rfl, hc⟩

section
variable {k : Fin 64} {d : Dev} (own : ¬ (k = 0 ∧ d.committed = true)) {v : Word}
include own

/-- A write of TB_CMP_CTRL of a channel that takes it: the match that is due, the fields, then CLRM, DISARM, ARM. -/
theorem cmpCtrlWrite_own (h : bit v 8 = true ∨ bit v 9 = true ∨ bit v 10 = true) :
    cmpCtrlWrite k.val v d =
      let x := dueMatch k.val (bit v 8 || bit v 9) d
      let d1 := setCmp k (cmpWritten v x.tb.cmps[k]) x
      let d2 := if bit v 10 then doClrm k.val d1 else d1
      let d3 := if bit v 9 then doDisarm k.val d2 else d2
      if bit v 8 then doArm k.val d3 else d3 := by
  have hk : ¬ (k.val = 0 ∧ d.committed = true) := fun hk => own ⟨Fin.ext hk.1, hk.2⟩
  rw [cmpCtrlWrite, cmpGuard, if_neg hk, if_pos h]
  simp only [updCmp_fin]
  rfl

theorem cmpCtrlWrite_disarm (h8 : bit v 8 = false) (h9 : bit v 9 = true) (h10 : bit v 10 = false) :
    cmpCtrlWrite k.val v d =
      setCmp k { cmpWritten v (dueMatch k.val true d).tb.cmps[k] with armed := false } (dueMatch k.val true d) := by
  rw [cmpCtrlWrite_own own (by simp [h9])]
  simp only [h8, h9, h10, doDisarm, updCmp_fin, setCmp_setCmp, setCmp_cmps, Bool.or_true, if_true, Bool.false_eq_true, if_false]

theorem cmpCtrlWrite_clrm (h8 : bit v 8 = false) (h9 : bit v 9 = false) (h10 : bit v 10 = true) :
    cmpCtrlWrite k.val v d = setCmp k { cmpWritten v (dueMatch k.val false d).tb.cmps[k] with matched := false, pulseEnd := none }
      (dueMatch k.val false d) := by
  rw [cmpCtrlWrite_own own (by simp [h10])]
  simp only [h8, h9, h10, doClrm, updCmp_fin, setCmp_setCmp, setCmp_cmps, Bool.or_false, if_true, Bool.false_eq_true, if_false]

theorem cmpCtrlWrite_arm (h8 : bit v 8 = true) (h9 : bit v 9 = false) (h10 : bit v 10 = false) :
    cmpCtrlWrite k.val v d =
      doArm k.val (setCmp k (cmpWritten v (dueMatch k.val true d).tb.cmps[k]) (dueMatch k.val true d)) := by
  rw [cmpCtrlWrite_own own (by simp [h8])]
  simp [h8, h9, h10]

end

/-- ARM of a channel whose fields have just been written: ahead of its target, late and dropped, or late and met now (R242, R245). -/
theorem doArm_written (k : Fin 64) (v : Word) (x : Dev) :
    doArm k.val (setCmp k (cmpWritten v x.tb.cmps[k]) x) =
      if x.tb.cmps[k].staged.toNat ≤ x.tb.now.toNat then
        if bit v 2 then setCmp k { cmpStaged v x.tb.cmps[k] with armed := false, late := true } x
        else raiseNext (0x100 + k.val)
          (setCmp k (cmpMatch x.clk x.tb.now { cmpStaged v x.tb.cmps[k] with armed := true, late := true }) x)
      else setCmp k { cmpStaged v x.tb.cmps[k] with armed := true, since := x.clk + 1 } x := by
  have late : (cmpWritten v x.tb.cmps[k]).latePol = bit v 2 := rfl
  unfold doArm
  simp only [at?_fin, updCmp_fin, doMatch_fin, setCmp_cmps, setCmp_setCmp, late]
  refine if_congr Iff.rfl ?_ rfl
  by_cases h2 : bit v 2 = true
  · have ha : (!bit v 2) = false := by rw [h2]; rfl
    rw [if_pos h2, if_pos h2, ha]
    rfl
  · have ha : (!bit v 2) = true := by rw [eq_false_of_ne_true h2]; rfl
    rw [if_neg h2, if_neg h2, ha]
    rfl

/-! ### The register and its commands -/

theorem regStore_tb {o : Nat} (h : 0x2000 ≤ o) (h' : o < 0x4000) (who : Who) (v : Word) (d : Dev) :
    regStore who o v d = tbWrite (o - 0x2000) v d := by
  simp (disch := omega) only [regStore, if_neg, if_pos]

theorem tbWrite_cmpCtrl (k : Fin 64) (v : Word) (d : Dev) : tbWrite (0x40C + 0x20 * k.val) v d = cmpCtrlWrite k.val v d := by
  have hk : (0x40C + 0x20 * k.val - 0x400) / 0x20 = k.val := by omega
  have hm : (0x40C + 0x20 * k.val) % 0x20 = 0xC := by omega
  unfold tbWrite
  split
  case h_5 =>
    simp (disch := omega) only [if_pos, hk, hm]
  all_goals omega

/-- A write of TB_CMP_CTRL that reaches it. -/
theorem act_cmpCtrl {who : Who} {k : Fin 64} {s : State} {d : Dev} (h : reached who (0x240C + 0x20 * k.val) s.dev = some d) (v : Word) :
    act (wordWrite who (0x240C + 0x20 * k.val) v 0xF) s = .next { s with dev := cmpCtrlWrite k.val v d } := by
  rw [act_wordWrite h v (by omega) (by omega), regStore_tb (by omega) (by omega),
    show 0x240C + 0x20 * k.val - 0x2000 = 0x40C + 0x20 * k.val by omega, tbWrite_cmpCtrl]

/-! ### A match as a step of its own -/

/-- The match of an armed channel, once its target is reached. -/
theorem compareMatch_armed {k : Fin 64} {d : Dev} (ha : d.tb.cmps[k].armed = true) (hk : ¬ (k = 0 ∧ d.committed = true))
    (hc : d.tb.counting = true) :
    compareMatch k.val d = raiseNext (0x100 + k.val) (setCmp k
      (cmpMatch (passToMatch k.val d).clk (passToMatch k.val d).tb.now d.tb.cmps[k]) (passToMatch k.val d)) := by
  have h0 : ¬ (k.val = 0 ∧ d.committed = true) := fun h => hk ⟨Fin.ext h.1, h.2⟩
  have hcmps : (passToMatch k.val d).tb.cmps = d.tb.cmps := pass_cmps _ _
  unfold compareMatch
  rw [at?_fin, if_pos ⟨ha, h0, hc⟩, doMatch_fin, hcmps]

theorem compareMatch_idle {k : Fin 64} {d : Dev} (ha : d.tb.cmps[k].armed = false) : compareMatch k.val d = d := by
  unfold compareMatch
  rw [at?_fin]
  exact if_neg fun h => Bool.false_ne_true (ha.symm.trans h.1)

theorem matchedPulseEnd_due {k : Fin 64} {d : Dev} {p : Nat} (h : d.tb.cmps[k].pulseEnd = some p) :
    matchedPulseEnd k.val d = setCmp k { d.tb.cmps[k] with matched := false, pulseEnd := none } (passTo p d) := by
  have hcmps : (passTo p d).tb.cmps = d.tb.cmps := pass_cmps _ _
  simp only [matchedPulseEnd, at?_fin, h, updCmp_fin, hcmps]

/-! ### What a match writes -/

/-- MATCHED after a match, by MODE; the other fields stand, the end of a pulse apart (R245). -/
theorem matchedAfter_eq (clk : Nat) (c : Cmp) :
    matchedAfter clk c = { c with
      matched := if c.mode = 0 ∨ c.mode = 1 then true else if c.mode = 2 then !c.matched else c.matched
      pulseEnd := if c.mode = 1 then some (clk + max 1 c.hold.toNat) else c.pulseEnd } := by
  have hm : c.mode = 0 ∨ c.mode = 1 ∨ c.mode = 2 ∨ c.mode = 3 := by
    generalize c.mode = m
    revert m
    decide
  unfold matchedAfter
  obtain h | h | h | h := hm
  · simp [h]
  · simp [h]
  · simp [h]
  · have h01 : ¬ (c.mode = 0 ∨ c.mode = 1) := by simp [h]
    have h2 : ¬ c.mode = 2 := by simp [h]
    have h3 : c.mode.toNat = 3 := by simp [h]
    rw [if_neg h01, if_neg h2, if_neg (not_or.1 h01).2, h3]
    rfl

/-- What a match writes, field by field (R243, R244). -/
theorem cmpMatch_eq (clk : Nat) (now : DWord) (c : Cmp) :
    cmpMatch clk now c = { matchedAfter clk { c with last := now } with
      target := if c.perEn then c.target + c.period.zeroExtend 64 else c.target
      since := if c.perEn then clk + 1 else c.since
      armed := if c.perEn then c.armed else false } := by
  unfold cmpMatch
  rw [matchedAfter_eq]
  cases h : c.perEn <;> rfl

theorem cmpMatch_fields (clk : Nat) (now : DWord) (c : Cmp) : (cmpMatch clk now c).last = now ∧
    (c.perEn = true → (cmpMatch clk now c).target = c.target + c.period.zeroExtend 64 ∧ (cmpMatch clk now c).armed = c.armed ∧
      (cmpMatch clk now c).since = clk + 1) ∧
    (c.perEn = false → (cmpMatch clk now c).target = c.target ∧ (cmpMatch clk now c).armed = false) ∧
    (c.mode = 0 ∨ c.mode = 1 → (cmpMatch clk now c).matched = true) ∧ (c.mode = 2 → (cmpMatch clk now c).matched = !c.matched) ∧
    (c.mode = 1 → (cmpMatch clk now c).pulseEnd = some (clk + max 1 c.hold.toNat)) := by
  rw [cmpMatch_eq, matchedAfter_eq]
  refine ⟨rfl, fun h => ⟨if_pos h, if_pos h, if_pos h⟩, fun h => ?_, fun h => if_pos h, fun h => ?_, fun h => if_pos h⟩
  · simp [h]
  · simp [h]

/-- Settles O33: each command is one case of the write of TB_CMP_CTRL, or the match of an armed channel once clk have passed. -/
theorem compareChannelsArmAndMatch : Obligations.CompareChannelsArmAndMatch := by
  unfold Obligations.CompareChannelsArmAndMatch
  refine ⟨?_, ?_, fun d t hf hc hi h0 ht => clkUntil_fewest hf hc hi h0 ht, cmpMatch_fields⟩
  · intro who k v s d h own first m written setTo
    have ctrl := act_cmpCtrl h v
    refine ⟨?_, ?_, ?_, ?_⟩
    · intro hown _ r
      have locked := ctrl.trans (congrArg (fun x => Host.Outcome.next { s with dev := x }) (cmpCtrlWrite_locked (not_not.1 hown) v))
      exact ⟨locked, locked, locked⟩
    · intro hown h8 h9 h10 x c c1
      have arm := ctrl.trans (congrArg (fun x => Host.Outcome.next { s with dev := x })
        ((cmpCtrlWrite_arm hown h8 h9 h10).trans (doArm_written k v x)))
      refine ⟨fun hn => ?_, fun hn h2 => ?_, fun hn h2 => ?_⟩
      · rw [if_neg (Nat.not_le.2 hn)] at arm
        exact arm
      · rw [if_pos hn, if_pos h2] at arm
        exact arm
      · rw [if_pos hn, if_neg (ne_true_of_eq_false h2)] at arm
        exact arm
    · intro hown h8 h9 h10
      exact ctrl.trans (congrArg (fun x => Host.Outcome.next { s with dev := x }) (cmpCtrlWrite_disarm hown h8 h9 h10))
    · intro hown h8 h9 h10
      exact ctrl.trans (congrArg (fun x => Host.Outcome.next { s with dev := x }) (cmpCtrlWrite_clrm hown h8 h9 h10))
  · intro k s c d
    refine ⟨fun hf ha hk hc => ?_, fun ha => ?_, fun p hf hp => ?_⟩
    · exact (actClk_on _ hf).trans (congrArg (fun x => Host.Outcome.next { s with dev := x }) (compareMatch_armed ha hk hc))
    · exact (actClk_eq _ s).trans (by rw [compareMatch_idle ha, ite_self])
    · exact (actClk_on _ hf).trans (congrArg (fun x => Host.Outcome.next { s with dev := x }) (matchedPulseEnd_due hp))

end Sys2Proof.Machine
end

section
/-!
PROOFS. The statements of 01_architecture.md: a microword that commits a violation.
-/
namespace Sys2Proof.Machine

/-! ### A change of one engine -/

theorem updEng_put (e : Fin 32) (f : Engine → Engine) (d : Dev) :
    updEng e.val f d = { d with engines := put d.engines e (f d.engines[e]) } := by
  rw [updEng, upd?_fin]

theorem getElem_put_self (v : Vector Engine 32) (e : Fin 32) (g : Engine) : (put v e g)[e] = g := by simp [put]

theorem getElem_put_other (v : Vector Engine 32) {e f : Fin 32} (h : f ≠ e) (g : Engine) : (put v e g)[f] = v[f] := by
  have : ¬ e.val = f.val := fun hv => h (Fin.ext hv.symm)
  simp [put, this]

/-! ### A freeze -/

/-- What a freeze record may change. -/
def RecordFrame (d t : Dev) : Prop := t = { d with rc := t.rc, ev := t.ev, hr := { d.hr with relays := t.hr.relays } }

theorem freezeRecord_frame (m c : Nat) (multi boundary : Bool) (x w : Nat) (d : Dev) :
    RecordFrame d (freezeRecord m c multi boundary x w d) := by
  unfold freezeRecord
  dsimp only
  generalize wr8 _ _ _ = rc
  have h := raise_frame 0x601 { d with rc := rc }
  generalize raise 0x601 { d with rc := rc } = t at h ⊢
  unfold EvFrame at h
  unfold RecordFrame
  rw [h]

/-- Engine `g` frozen in `d` with cause `c` and detail `x` (R191, R620). -/
def frozenEngine (d : Dev) (e : Fin 32) (c : Nat) (multi : Bool) (x : Word) (g : Engine) : Engine :=
  { g with
    ep := { g.ep with cause := BitVec.ofNat 4 (shownCause d e.val) }, seq := { g.seq with step := false }
    life := { g.life with
      st := .frozen, parkPend := false, frzMulti := multi, frzCause := BitVec.ofNat 8 c, frzDetail := x
      frzPc := BitVec.ofNat 13 (g.seq.pc.toNat + 4096 * b2n g.seq.bank), frzTime := d.tb.now } }

/-- A freeze of engine `e` changes it as `frozenEngine` says, and the freeze record. -/
theorem freezeEngine_frame (e : Fin 32) (c : Nat) (multi boundary : Bool) (x : Word) (d : Dev) :
    RecordFrame { d with engines := put d.engines e (frozenEngine d e c multi x d.engines[e]) }
      (freezeEngine e.val c multi boundary x d) := by
  unfold freezeEngine updEp updLife updSeq
  simp only [engine_fin, updEng_put, getElem_put_self, put_put]
  exact freezeRecord_frame _ _ _ _ _ _ _

/-! ### The turn of an engine -/

/-- An engine that may run and whose microword has the row takes its clk when it is due. -/
theorem engineRow_due {d : Dev} {e : Fin 32} {p : MW → Bool} (h : canRun d e.val = true) (hp : p d.engines[e].current = true)
    (cs scr : Ecc) : engineRow p e.val cs scr d = microClk e.val cs scr (due d e) := by
  unfold engineRow engineClk
  rw [engine_fin, if_pos ⟨h, hp⟩]
  rfl

section
variable {e : Fin 32} {cs : Ecc} {d : Dev}

theorem microClk_ue (scr : Ecc) (h : cs = .ue) :
    microClk e.val cs scr d = freezeEngine e.val 1 false false (d.engines[e].seq.pc.zeroExtend 32) d := by
  unfold microClk
  rw [engine_fin, if_pos h]

theorem microClk_fix (scr : Ecc) (h : cs = .ce) (hf : d.engines[e].seq.fixed = false) :
    microClk e.val cs scr d = fixClk e.val d := by
  unfold microClk
  rw [engine_fin, if_neg (by simp [h]), if_pos ⟨h, by rw [hf]; rfl⟩]

/-- A whole microword that does not stall, or an illegal one, freezes the engine with the first of its violations. -/
theorem microClk_violation (scr : Ecc) (h : fetched d.engines[e] cs)
    (hs : illegal d e.val d.engines[e].current = true ∨ stallCause d e.val d.engines[e].current = 0) {c : Nat} {x : Word}
    {r : List (Nat × Word)} (hv : violations d e.val d.engines[e].current = (c, x) :: r) :
    ∃ multi, microClk e.val cs scr d = freezeEngine e.val c multi false x d := by
  obtain ⟨hue, hce⟩ := h
  have h1 : ¬ (cs = .ce ∧ (!d.engines[e].seq.fixed) = true) := fun ⟨a, b⟩ => by
    rw [hce a] at b
    cases b
  have h2 : ¬ (stallCause d e.val d.engines[e].current ≠ 0 ∧ (!illegal d e.val d.engines[e].current) = true) := by
    rintro ⟨a, b⟩
    rcases hs with hs | hs
    · rw [hs] at b
      cases b
    · exact a hs
  unfold microClk
  simp only [engine_fin, if_neg hue, if_neg h1, if_neg h2, hv, List.cons_append]
  exact ⟨_, rfl⟩

/-! ### The violations -/

/-- An illegal microword: cause 2 first. -/
theorem violations_illegal {w : MW} (h : illegal d e.val w = true) :
    ∃ r, violations d e.val w = (2, d.engines[e].seq.pc.zeroExtend 32) :: r := by
  unfold violations
  simp only [engine_fin, if_pos h]
  exact ⟨_, rfl⟩

/-- A CALL with eight return addresses: cause 3. -/
theorem violations_call {w : MW} (h : illegal d e.val w = false) (hw : w.seqop = 5) (hs : 8 ≤ d.engines[e].seq.stack.length) :
    ∃ r, violations d e.val w = (3, d.engines[e].seq.pc.zeroExtend 32) :: r := by
  unfold violations
  simp only [engine_fin, if_neg (ne_true_of_eq_false h), if_pos (And.intro hw hs)]
  exact ⟨_, rfl⟩

/-- A RET without a return address: cause 4. -/
theorem violations_ret {w : MW} (h : illegal d e.val w = false) (hw : w.seqop = 6) (hs : d.engines[e].seq.stack = []) :
    ∃ r, violations d e.val w = (4, d.engines[e].seq.pc.zeroExtend 32) :: r := by
  unfold violations
  have h5 : ¬ (w.seqop = 5 ∧ 8 ≤ d.engines[e].seq.stack.length) := fun h => absurd (hw.symm.trans h.1) (by decide)
  simp only [engine_fin, if_neg (ne_true_of_eq_false h), if_neg h5, if_pos (And.intro hw hs)]
  exact ⟨_, rfl⟩

end

/-! ### The engine that is due -/

/-- What `canRun` says of the engine. -/
theorem canRun_iff (d : Dev) (e : Fin 32) : canRun d e.val = true ↔
    d.sys.fclkOn = true ∧ d.committed = true ∧ d.engines[e].life.st = .running ∧ d.engines[e].seq.yielded = false := by
  simp [canRun, and_assoc]

/-- When it is due, the engine shows the stall cause that its microword meets. -/
theorem shownCause_due {d : Dev} {e : Fin 32} (h : canRun d e.val = true) :
    shownCause (due d e) e.val = stallCause (due d e) e.val (due d e).engines[e].current := by
  obtain ⟨hf, -, hst, hy⟩ := (canRun_iff d e).1 h
  have same := due_same d e e
  have hc : (due d e).engines[e].seq.reached ≤ (due d e).clk := by
    have : (due d e).clk = _ := pass_clk _ _ hf
    rw [this, same]
    show d.engines[e].seq.reached ≤ _
    omega
  have hst' : (due d e).engines[e].life.st = .running := by rw [same]; exact hst
  have hb : (!(due d e).engines[e].busy) = false := by
    rw [Engine.busy, hst', same, hy]
    rfl
  unfold shownCause
  rw [engine_fin]
  dsimp only
  rw [hst', hb]
  exact if_neg (Nat.not_lt.2 hc)

/-! ### A clk in which a corrected microword is written back -/

/-- What an idle clk of engine `e` may change: its datapath, its budget, and the lane of its background input. -/
def IdleFrame (e : Fin 32) (d t : Dev) : Prop :=
  ∃ g l, t = { d with engines := put d.engines e g, lanes := l } ∧ SameEngine d.engines[e] g ∧ g.ep = d.engines[e].ep

theorem IdleFrame.refl (e : Fin 32) (d : Dev) : IdleFrame e d d := ⟨d.engines[e], d.lanes, by simp [put], rfl, rfl⟩

theorem IdleFrame.trans {e : Fin 32} {a b c : Dev} (h : IdleFrame e a b) (h' : IdleFrame e b c) : IdleFrame e a c := by
  obtain ⟨g, l, rfl, hs, hp⟩ := h
  obtain ⟨g', l', rfl, hs', hp'⟩ := h'
  simp only [getElem_put_self, put_put] at hs' hp' ⊢
  exact ⟨g', l', rfl, hs.trans hs', hp'.trans hp⟩

theorem updEng_idle (e : Fin 32) (f : Engine → Engine) (hf : ∀ g, SameEngine g (f g) ∧ (f g).ep = g.ep) (d : Dev) :
    IdleFrame e d (updEng e.val f d) :=
  ⟨f d.engines[e], d.lanes, updEng_put e f d, hf _⟩

theorem bgTake_idle (e : Fin 32) (d : Dev) : IdleFrame e d (bgTake e.val d) := by
  unfold bgTake bgTakeN
  dsimp only
  split
  · exact .refl e d
  · split
    · exact .refl e d
    · split
      · exact .refl e d
      · exact ⟨_, _, updEng_put e _ _, rfl, rfl⟩

theorem countClk_idle (e : Fin 32) (d : Dev) : IdleFrame e d (countClk e.val d) := by
  unfold countClk
  split
  · exact .refl e d
  · exact updEng_idle e (fun g => { g with seq := { g.seq with budcnt := satInc g.seq.budcnt } }) (fun _ => ⟨rfl, rfl⟩) d

theorem checkBudget_idle (e : Fin 32) (d : Dev) : IdleFrame e d (checkBudget e.val d) := by
  unfold checkBudget
  split
  · exact .refl e d
  · exact updEng_idle e (fun g => { g with
      seq := { g.seq with overrun := g.seq.overrun || (!g.seq.yielded && decide (g.seq.budget.toNat ≤ g.seq.budcnt.toNat)) } })
      (fun _ => ⟨rfl, rfl⟩) d

/-- An idle clk: STALL_CLK counts, the clk is covered, and the rest is as `IdleFrame` says. -/
theorem idleClk_idle (e : Fin 32) (d : Dev) :
    IdleFrame e { d with engines := put d.engines e { d.engines[e] with
      ep := { d.engines[e].ep with stallClk := satInc d.engines[e].ep.stallClk }
      seq := { d.engines[e].seq with covered := d.clk + 1 } } } (idleClk e.val d) := by
  have dp : ∀ d, IdleFrame e d (updDp e.val (btPass 1) d) :=
    updEng_idle e (fun g => { g with dp := btPass 1 g.dp }) (fun _ => ⟨rfl, rfl⟩)
  have counted : updSeq e.val (fun s => { s with covered := d.clk + 1 })
      (updEp e.val (fun p => { p with stallClk := satInc p.stallClk }) d) = { d with engines := put d.engines e { d.engines[e] with
        ep := { d.engines[e].ep with stallClk := satInc d.engines[e].ep.stallClk }
        seq := { d.engines[e].seq with covered := d.clk + 1 } } } := by
    unfold updEp updSeq
    simp only [updEng_put e, getElem_put_self, put_put]
  rw [← counted]
  exact (((bgTake_idle e _).trans (dp _)).trans (countClk_idle e _)).trans (checkBudget_idle e _)

/-- The CS_FIX clk: CS_CE counts, PC stays, and the microword is due in the clk after. -/
theorem fixClk_frame (e : Fin 32) (d : Dev) : ∃ t, fixClk e.val d = t ∧ t.engines[e].ep.csCe = satInc d.engines[e].ep.csCe ∧
    t.engines[e].seq.fixed = true ∧ t.engines[e].seq.pc = d.engines[e].seq.pc ∧ t.engines[e].seq.reached = d.clk + 1 ∧
    EngineFrame d t e := by
  obtain ⟨g, l, h, hs, hp⟩ := idleClk_idle e { d with engines := put d.engines e { d.engines[e] with
    ep := { d.engines[e].ep with csCe := satInc d.engines[e].ep.csCe, cause := 9 }
    seq := { d.engines[e].seq with fixed := true, reached := d.clk + 1 } } }
  simp only [getElem_put_self, put_put] at h hs hp
  refine ⟨{ d with engines := put d.engines e g, lanes := l }, ?_, ?_⟩
  · unfold fixClk updEp updSeq
    simp only [updEng_put e, getElem_put_self, put_put]
    exact h
  · have he : ({ d with engines := put d.engines e g, lanes := l } : Dev).engines[e] = g := getElem_put_self _ _ _
    refine ⟨by rw [he, hp], by rw [he, hs], by rw [he, hs], by rw [he, hs], ?_⟩
    exact ⟨rfl, fun f hf => getElem_put_other _ hf _, by rw [he, hs], by rw [he, hs]⟩

/-! ### Outcomes -/

/-- A freeze with cause `c` at the engine's PC, field by field, where the stall cause shown is the one that its microword meets. -/
theorem freezeEngine_atPc {d t : Dev} {e : Fin 32} {c : Byte} {multi : Bool}
    (shown : shownCause d e.val = stallCause d e.val d.engines[e].current)
    (h : t = freezeEngine e.val c.toNat multi false (d.engines[e].seq.pc.zeroExtend 32) d) :
    let g := d.engines[e]
    t.engines[e] = { g with
      ep := { g.ep with cause := BitVec.ofNat 4 (stallCause d e.val g.current) }, seq := { g.seq with step := false }
      life := { g.life with
        st := .frozen, parkPend := false, frzMulti := t.engines[e].life.frzMulti, frzCause := c, frzDetail := g.seq.pc.zeroExtend 32
        frzPc := BitVec.ofNat 13 (g.seq.pc.toNat + 4096 * b2n g.seq.bank), frzTime := d.tb.now } } ∧
    (∀ f : Fin 32, f ≠ e → t.engines[f] = d.engines[f]) ∧
    t = { d with engines := t.engines, rc := t.rc, ev := t.ev, hr := { d.hr with relays := t.hr.relays } } := by
  have frame := freezeEngine_frame e c.toNat multi false (d.engines[e].seq.pc.zeroExtend 32) d
  rw [← h] at frame
  unfold RecordFrame at frame
  have he : t.engines = put d.engines e (frozenEngine d e c.toNat multi (d.engines[e].seq.pc.zeroExtend 32) d.engines[e]) := by
    rw [frame]
  intro g
  refine ⟨?_, fun f hf => ?_, ?_⟩
  · rw [he, getElem_put_self, frozenEngine, shown, BitVec.ofNat_toNat, BitVec.setWidth_eq]
  · rw [he, getElem_put_other _ hf]
  · rw [he]
    exact frame

/-- Settles O18: an engine that may run takes its clk when it is due, and the first violation of that clk freezes it. -/
theorem microwordViolationsFreezeTheEngine : Obligations.MicrowordViolationsFreezeTheEngine := by
  unfold Obligations.MicrowordViolationsFreezeTheEngine
  intro e cs scr s hr d g w frozen
  have hw : s.dev.engines[e].current = w := (due_current s.dev e).symm
  -- the row of the microword takes the clk
  have turn : ∀ (p : MW → Bool), p w = true → ∀ t, microClk e.val cs scr d = t →
      act (engineRow p e.val cs scr) s = .next { s with dev := t } := fun p hp t ht => by
    rw [act_eq, engineRow_due hr (hw ▸ hp), ← ht]
  -- a violation that is the first of its clk
  have violates : ∀ (p : MW → Bool) (c : Byte), p w = true → fetched g cs → illegal d e.val w = true ∨ stallCause d e.val w = 0 →
      (∃ r, violations d e.val w = (c.toNat, g.seq.pc.zeroExtend 32) :: r) →
      ∃ t : Dev, act (engineRow p e.val cs scr) s = .next { s with dev := t } ∧ frozen c t := fun p c hp hf hs ⟨r, hv⟩ => by
    obtain ⟨multi, h⟩ := microClk_violation scr hf hs hv
    exact ⟨_, turn p hp _ rfl, freezeEngine_atPc (shownCause_due hr) h⟩
  refine ⟨fun h1 hu => ?_, fun h1 hf hi => ?_, fun h5 hf hi h0 hs => ?_, fun h6 hf hi h0 hs => ?_, fun h1 hc hx => ?_⟩
  · exact ⟨_, turn _ (by simp [h1]) _ rfl, freezeEngine_atPc (c := 1) (shownCause_due hr) (microClk_ue scr hu)⟩
  · exact violates _ 2 (by simp [h1]) hf (.inl hi) (violations_illegal hi)
  · exact violates _ 3 (by simp [h5]) hf (.inr h0) (violations_call hi h5 hs)
  · exact violates _ 4 (by simp [h6]) hf (.inr h0) (violations_ret hi h6 hs)
  · obtain ⟨t, ht, h⟩ := fixClk_frame e d
    exact ⟨t, turn _ (by simp [h1]) t ((microClk_fix scr hc hx).trans ht), h⟩

end Sys2Proof.Machine
end

section
/-!
PROOFS. The statements of 01_architecture.md: what sending cells leaves, and what operations keep of a device.
-/
namespace Sys2Proof.Machine

/-! ### Cells that are sent -/

theorem startCell_slot (p : Fin 2) (c : Cell) (d : Dev) : SlotFrame d (startCell p c d) := rfl

theorem updRport_slot (p : Fin 2) (f : RingPort → RingPort) (d : Dev) : SlotFrame d (updRport p f d) := rfl

theorem updSched_slot (f : List Cell → List Cell) (d : Dev) : SlotFrame d (updHr (fun h => { h with sched := f h.sched }) d) := rfl

/-- Starting cells of a port's queues. -/
theorem pump_slot (p : Fin 2) (n : Nat) (d : Dev) : SlotFrame d (pump p n d) := by
  induction n generalizing d with
  | zero => rfl
  | succ n ih =>
    have next : ∀ (c : Cell) (f : RingPort → RingPort), SlotFrame d (pump p n (startCell p c (updRport p f d))) := fun c f =>
      ((updRport_slot p f d).trans (startCell_slot p c _)).trans (ih _)
    unfold pump
    dsimp only
    split
    · rfl
    · split
      · split
        · exact next _ _
        · rfl
      · split
        · exact next _ _
        · rfl
      · rfl

theorem queueOwn_slot (p : Fin 2) (c : Cell) (d : Dev) : SlotFrame d (queueOwn p c d) :=
  (updRport_slot _ _ d).trans (pump_slot _ _ _)

/-- Sending a cell changes the queues and what has been sent. -/
theorem sendCell_slot (n : BitVec 5) (t : Byte) (p : List Byte) (d : Dev) : SlotFrame d (sendCell n t p d) := by
  unfold sendCell
  split
  · rfl
  · dsimp only
    split
    · exact (updSched_slot _ d).trans (pumpSlots_frame _)
    · exact queueOwn_slot _ _ d

theorem sendCirc_slot (p : Fin 2) (t : Byte) (l : List Byte) (d : Dev) : SlotFrame d (sendCirc p t l d) := by
  unfold sendCirc
  split
  · rfl
  · exact queueOwn_slot _ _ d

/-! ### What operations keep -/

/-- A fold of operations that keep what `π` reads. -/
theorem foldl_keeps {α β : Type} {π : Dev → β} {f : Dev → α → Dev} (hf : ∀ d a, π (f d a) = π d) (l : List α) (d : Dev) :
    π (l.foldl f d) = π d := by
  induction l generalizing d with
  | nil => rfl
  | cons a r ih => exact (ih _).trans (hf d a)

end Sys2Proof.Machine
end

section
/-!
PROOFS. The statements of 01_architecture.md: COMMIT, verdicts, pending banks.
-/
namespace Sys2Proof.Machine

/-! ### What a commit keeps after it has put the configuration in force -/

/-- The clk, the configuration in force, the Sundial and the engines. -/
def inForce (d : Dev) : Nat × Bool × Cfg × Tb × Vector Engine 32 := (d.clk, d.committed, d.cfg, d.tb, d.engines)

theorem EvFrame.inForce_eq {d t : Dev} (h : EvFrame d t) : inForce t = inForce d := by
  unfold EvFrame at h
  rw [h]
  rfl

theorem SlotFrame.inForce_eq {d t : Dev} (h : SlotFrame d t) : inForce t = inForce d := by
  unfold SlotFrame at h
  rw [h]
  rfl

theorem installKeys_inForce (c : Nat) (d : Dev) : inForce (installKeys c d) = inForce d :=
  foldl_keeps (π := inForce) (fun _ _ => by rfl) _ d

theorem bankOn_inForce (k : Nat) (d : Dev) : inForce (bankOn k d) = inForce d := by
  unfold bankOn
  split <;> rfl

theorem powerBanks_inForce (d : Dev) : inForce (powerBanks d) = inForce d := by
  refine foldl_keeps (π := inForce) (fun d k => ?_) _ d
  split
  · exact bankOn_inForce k d
  · rfl

theorem wakeIneligible_inForce (d : Dev) : inForce (wakeIneligible d) = inForce d := by
  refine foldl_keeps (π := inForce) (fun d k => ?_) _ d
  split <;> rfl

theorem wdCommit_inForce (d : Dev) : inForce (wdCommit d) = inForce d := by
  unfold wdCommit
  rfl

theorem drainCommit_inForce (d : Dev) : inForce (drainCommit d) = inForce d := by
  unfold drainCommit updDr
  rfl

theorem closeBypass_inForce (d : Dev) : inForce (closeBypass d) = inForce d := (closeBypass_frame d).inForce_eq

theorem sendTable_inForce (d : Dev) : inForce (sendTable d) = inForce d := by
  unfold sendTable
  split
  · refine foldl_keeps (π := inForce) (fun d n => ?_) _ _
    split
    · rfl
    · exact ((sendCell_slot _ _ _ d).trans (sendCell_slot _ _ _ _)).inForce_eq
  · rfl

/-- A match that is due changes neither the clk nor the loader. -/
theorem dueMatch_keeps (k : Fin 64) (drop : Bool) (d : Dev) :
    (dueMatch k.val drop d).clk = d.clk ∧ (dueMatch k.val drop d).trl = d.trl ∧ (dueMatch k.val drop d).sys = d.sys := by
  have met : (doMatch k.val d).clk = d.clk ∧ (doMatch k.val d).trl = d.trl ∧ (doMatch k.val d).sys = d.sys := by
    have h := raiseIn_frame 1 (0x100 + k.val) (setCmp k (cmpMatch d.clk d.tb.now d.tb.cmps[k]) d)
    rw [doMatch_fin, raiseNext]
    unfold EvFrame at h
    rw [h]
    exact ⟨rfl, rfl, rfl⟩
  unfold dueMatch
  dsimp only
  split
  · exact ⟨rfl, rfl, rfl⟩
  · split
    · exact met
    · exact met

/-- The last of a commit: without a ring the bypass closes, else the table of windows is sent. -/
def commitRing (d : Dev) (c : Cfg) : Dev :=
  if c.ringEn = 0 then updHr (fun h => { h with powered := false }) (closeBypass d) else sendTable d

theorem commitRing_inForce (d : Dev) (c : Cfg) : inForce (commitRing d c) = inForce d := by
  unfold commitRing
  split
  · exact closeBypass_inForce d
  · exact sendTable_inForce d

/-- What follows when the configuration has been put in force, the bins are new and the engines started. -/
def commitRest (c : Cfg) (d : Dev) : Dev :=
  commitRing (wakeIneligible (powerBanks (drainCommit (wdCommit ((List.range 4).foldl (fun d k => installKeys k d) d))))) c

theorem commitRest_inForce (c : Cfg) (d : Dev) : inForce (commitRest c d) = inForce d := by
  unfold commitRest
  rw [commitRing_inForce, wakeIneligible_inForce, powerBanks_inForce, drainCommit_inForce, wdCommit_inForce]
  exact foldl_keeps (π := inForce) (fun d k => installKeys_inForce k d) _ d

/-- A commit puts the configuration in force, arms CMP0 and starts the engines (R88, R89). -/
theorem commitAll_eq (tfirst : DWord) (tick0 : Word) (d : Dev) :
    ∃ t : Dev, commitAll tfirst tick0 d = commitRest (dueMatch 0 true d).trl.cfg t ∧ t.committed = true ∧
      t.cfg = (dueMatch 0 true d).trl.cfg ∧ t.clk = (dueMatch 0 true d).clk ∧ t.tb.tick = tick0 ∧
      t.tb.cmps = upd? (dueMatch 0 true d).tb.cmps 0 (fun x => { x with
        target := tfirst, period := (dueMatch 0 true d).trl.cfg.tickClk, perEn := true, latePol := false, armed := true
        since := (dueMatch 0 true d).clk + 1, matched := x.mode != 0 && x.matched }) ∧
      t.engines = Vector.ofFn fun e : Fin 32 => engineCommit (dueMatch 0 true d).trl (dueMatch 0 true d).trl.cfg e.val
        (dueMatch 0 true d).engines[e] := by
  unfold commitAll commitRest commitRing
  generalize dueMatch 0 true d = q
  dsimp only
  exact ⟨_, rfl, rfl, rfl, rfl, rfl, rfl, rfl⟩

/-! ### The time of the first boundary -/

/-- What finding the first boundary and sending it to the workers may change. -/
def SentFrame (d t : Dev) : Prop :=
  t = { d with freeCtr := t.freeCtr, out := t.out, hr := t.hr, trl := { d.trl with commits := t.trl.commits } }

theorem SentFrame.trans {a b c : Dev} (h : SentFrame a b) (h' : SentFrame b c) : SentFrame a c := by
  unfold SentFrame at *
  rw [h] at h'
  exact h'

theorem SlotFrame.sent {d t : Dev} (h : SlotFrame d t) : SentFrame d t := by
  unfold SlotFrame at h
  unfold SentFrame
  rw [h]

theorem commitTime_sent (d : Dev) : SentFrame d (commitTime d).2.2 := by
  unfold commitTime
  dsimp only
  split
  · rfl
  · split
    · dsimp only
      split <;> rfl
    · rfl

theorem sendCommit_sent (t : DWord) (n : Nat) (d : Dev) : SentFrame d (sendCommit t n d) :=
  SentFrame.trans (b := updTrl _ (updHr _ d)) (by rfl) (sendCell_slot _ _ _ _).sent

theorem sendCommits_sent (t : DWord) (d : Dev) : SentFrame d (sendCommits t d) := by
  unfold sendCommits
  generalize ((List.range 31).filter _) = l
  induction l generalizing d with
  | nil => rfl
  | cons n r ih => exact (sendCommit_sent t n d).trans (ih _)

/-- Tfirst and the TB_TICK before it do not bear on SRC and MODE of TRL_CTRL. -/
theorem commitTime_mode (b : Bool) (m : BitVec 2) (d : Dev) :
    (commitTime { d with trl := { d.trl with src := b, mode := m } }).1 = (commitTime d).1 ∧
      (commitTime { d with trl := { d.trl with src := b, mode := m } }).2.1 = (commitTime d).2.1 := by
  unfold commitTime
  have h : otherMaster { d with trl := { d.trl with src := b, mode := m } } = otherMaster d := rfl
  rw [h]
  dsimp only
  split
  · exact ⟨rfl, rfl⟩
  · cases otherMaster d <;> exact ⟨rfl, rfl⟩

/-- A manager's first boundary lies 30,000 clk ahead (R89). -/
theorem commitTime_manager {d : Dev} (h : d.sys.role = 0) : commitTime d = (BitVec.ofNat 64 (d.tb.now.toNat + 30000), 0, d) := by
  have h2 : otherMaster d = none := by
    unfold otherMaster
    split
    · exact if_neg fun hc => absurd (h.symm.trans hc.1) (by decide)
    · rfl
  have h1 : ¬ d.sys.role = 1 := by
    rw [h]
    decide
  unfold commitTime
  simp only [if_neg h1, h2]

/-- A worker counts ticks from the manager's Tfirst: the first boundary that lies ahead (R89). -/
theorem commitTime_worker {d : Dev} (h : d.sys.role = 1) (ht : 0 < d.trl.cfg.tickClk.toNat) (hf : d.trl.first.toNat ≤ d.tb.now.toNat)
    (hb : d.tb.now.toNat + d.trl.cfg.tickClk.toNat < 2 ^ 64) :
    ∃ m : Nat, (commitTime d).2.1 = BitVec.ofNat 32 m ∧ (commitTime d).1.toNat = d.trl.first.toNat + m * d.trl.cfg.tickClk.toNat ∧
      d.tb.now.toNat < (commitTime d).1.toNat ∧ (commitTime d).1.toNat ≤ d.tb.now.toNat + d.trl.cfg.tickClk.toNat := by
  have hc : commitTime d = (d.trl.first + BitVec.ofNat 64 (stepsTo d.trl.first.toNat d.trl.cfg.tickClk.toNat (d.tb.now.toNat + 1) *
      d.trl.cfg.tickClk.toNat), BitVec.ofNat 32 (stepsTo d.trl.first.toNat d.trl.cfg.tickClk.toNat (d.tb.now.toNat + 1)), d) := if_pos h
  have hm : stepsTo d.trl.first.toNat d.trl.cfg.tickClk.toNat (d.tb.now.toNat + 1) =
      (d.tb.now.toNat - d.trl.first.toNat) / d.trl.cfg.tickClk.toNat + 1 := by
    rw [stepsTo, if_neg (Nat.ne_of_gt ht), ← Nat.add_div_right _ ht]
    congr 1
    omega
  have hle := Nat.div_mul_le_self (d.tb.now.toNat - d.trl.first.toNat) d.trl.cfg.tickClk.toNat
  have hlt := Nat.lt_div_mul_add (a := d.tb.now.toNat - d.trl.first.toNat) ht
  rw [hm] at hc
  generalize (d.tb.now.toNat - d.trl.first.toNat) / d.trl.cfg.tickClk.toNat = q at hc hle hlt
  have hv : (commitTime d).1.toNat = d.trl.first.toNat + (q + 1) * d.trl.cfg.tickClk.toNat := by
    have hq : (q + 1) * d.trl.cfg.tickClk.toNat = q * d.trl.cfg.tickClk.toNat + d.trl.cfg.tickClk.toNat := Nat.succ_mul _ _
    rw [hc, BitVec.toNat_add, BitVec.toNat_ofNat, Nat.mod_eq_of_lt (a := (q + 1) * _) (by omega), Nat.mod_eq_of_lt (by omega)]
  refine ⟨q + 1, by rw [hc], hv, ?_, ?_⟩
  · rw [hv, Nat.succ_mul]
    omega
  · rw [hv, Nat.succ_mul]
    omega

/-! ### COMMIT by the image's mode -/

theorem engineCommit_st (t : Trl) (c : Cfg) (e : Nat) (g : Engine) :
    (engineCommit t c e g).life.st = if bit c.active e then .running else if bit c.spare e then .spare else .unused := rfl

/-- The configuration in force once a full image has been committed: CMP0 armed for `tfirst`, the engines started. -/
def Committed (c : Cfg) (tfirst : DWord) (tick0 : Word) (clk : Nat) (t : Dev) : Prop :=
  t.committed = true ∧ t.cfg = c ∧ t.clk = clk ∧
    (at? t.tb.cmps 0 {}).armed = true ∧ (at? t.tb.cmps 0 {}).perEn = true ∧
    (at? t.tb.cmps 0 {}).target = tfirst ∧ (at? t.tb.cmps 0 {}).period = c.tickClk ∧ t.tb.tick = tick0 ∧
    ∀ e : Fin 32, t.engines[e].life.st = if bit c.active e.val then .running else if bit c.spare e.val then .spare else .unused

theorem Committed.of_inForce {c : Cfg} {tfirst : DWord} {tick0 : Word} {clk : Nat} {d t : Dev} (h : Committed c tfirst tick0 clk d)
    (he : inForce t = inForce d) : Committed c tfirst tick0 clk t := by
  simp only [inForce, Prod.mk.injEq] at he
  obtain ⟨h1, h2, h3, h4, h5⟩ := he
  unfold Committed at *
  rw [h1, h2, h3, h4, h5]
  exact h

theorem commitAll_committed (tfirst : DWord) (tick0 : Word) (d : Dev) :
    Committed d.trl.cfg tfirst tick0 d.clk (commitAll tfirst tick0 d) := by
  obtain ⟨hclk, htrl, -⟩ := dueMatch_keeps 0 true d
  obtain ⟨t, h, hc, hcfg, hk, htick, hcmps, heng⟩ := commitAll_eq tfirst tick0 d
  have put : ∀ (v : Vector Cmp 64) (f : Cmp → Cmp), at? (upd? v 0 f) 0 {} = f (at? v 0 {}) := fun v f => by
    rw [at?_upd?, if_pos ⟨rfl, by decide⟩]
  refine Committed.of_inForce (d := t) ?_ (h ▸ commitRest_inForce _ t)
  refine ⟨hc, hcfg.trans (congrArg Trl.cfg htrl), hk.trans hclk, ?_, ?_, ?_, ?_, htick, fun e => ?_⟩
  · rw [hcmps, put]
  · rw [hcmps, put]
  · rw [hcmps, put]
  · rw [hcmps, put, ← htrl]
    rfl
  · rw [heng, ← htrl]
    simp only [Fin.getElem_fin, Vector.getElem_ofFn, engineCommit_st]
    rfl

/-- COMMIT of a full image (R88). -/
theorem fullCommit_committed (d : Dev) :
    (fullCommit d).trl.st = .committing ∧ Committed d.trl.cfg (commitTime d).1 (commitTime d).2.1 d.clk (fullCommit d) := by
  have sent : SentFrame d (if d.sys.role = 0 then sendCommits (commitTime d).1 (commitTime d).2.2 else (commitTime d).2.2) := by
    split
    · exact (commitTime_sent d).trans (sendCommits_sent _ _)
    · exact commitTime_sent d
  have h : fullCommit d = raiseNext 0x607 (updTrl (fun l => { l.clear with st := .committing }) (commitAll (commitTime d).1 (commitTime d).2.1
    (if d.sys.role = 0 then sendCommits (commitTime d).1 (commitTime d).2.2 else (commitTime d).2.2))) := rfl
  rw [h]
  generalize (if d.sys.role = 0 then _ else _) = d1 at sent
  have hc := commitAll_committed (commitTime d).1 (commitTime d).2.1 d1
  generalize commitAll (commitTime d).1 (commitTime d).2.1 d1 = t at hc
  have hd : d1.trl.cfg = d.trl.cfg ∧ d1.clk = d.clk := by
    unfold SentFrame at sent
    rw [sent]
    exact ⟨rfl, rfl⟩
  rw [hd.1, hd.2] at hc
  have raised := raiseIn_frame 1 0x607 (updTrl (fun l => { l.clear with st := .committing }) t)
  refine ⟨?_, hc.of_inForce (raised.inForce_eq.trans rfl)⟩
  unfold EvFrame at raised
  rw [raiseNext, raised]
  rfl

theorem setTrl_keeps (x : TrlSt) (d : Dev) :
    (setTrl x d).trl.st = x ∧ (setTrl x d).committed = d.committed ∧ (setTrl x d).cfg = d.cfg := by
  have h := raiseIf_frame (x == .validated || x == .rejected || x == .committed || x == .pending) 0x607 (updTrl (fun t => { t with st := x }) d)
  unfold EvFrame at h
  rw [setTrl, h]
  exact ⟨rfl, rfl, rfl⟩

theorem bistAbort_keeps (p : Nat → Nat → Bool) (d : Dev) : inForce (bistAbort p d) = inForce d := by
  unfold bistAbort
  split
  · split
    · exact (raiseIf_frame _ _ _).inForce_eq.trans rfl
    · rfl
  · rfl

/-- COMMIT of a partial image: it waits, and nothing in force changes (R90). -/
theorem trlCommit_partial {d : Dev} (h : d.trl.st = .validated) (hm : d.trl.loadMode = 1) :
    (trlCommit d).trl.st = .pending ∧ (trlCommit d).committed = d.committed ∧ (trlCommit d).cfg = d.cfg := by
  have ht : trlCommit d = setTrl .pending (((List.range 16).filter (needsBank d)).foldl (fun d k => bistAbortCellar k d) d) := by
    unfold trlCommit
    rw [if_neg (not_not.2 h), hm]
    rfl
  have hk := foldl_keeps (π := inForce) (f := fun d k => bistAbortCellar k d) (fun d _ => bistAbort_keeps _ d)
    ((List.range 16).filter (needsBank d)) d
  simp only [inForce, Prod.mk.injEq] at hk
  obtain ⟨-, hc, hcfg, -⟩ := hk
  obtain ⟨h1, h2, h3⟩ := setTrl_keeps .pending (((List.range 16).filter (needsBank d)).foldl (fun d k => bistAbortCellar k d) d)
  rw [ht]
  exact ⟨h1, h2.trans hc, h3.trans hcfg⟩

/-- COMMIT of a worker-only image: the configuration in force stays (R95). -/
theorem trlCommit_workers {d : Dev} (h : d.trl.st = .validated) (hm : d.trl.loadMode = 2) :
    (trlCommit d).trl.st = .committed ∧ (trlCommit d).committed = d.committed ∧ (trlCommit d).cfg = d.cfg := by
  have ht : trlCommit d = workersCommit d := by
    unfold trlCommit
    rw [if_neg (not_not.2 h), hm]
    rfl
  have kept : ∀ t x, (updTrl Trl.clear (sendCommits t (updTrl (fun l => { l with first := x }) d))).committed = d.committed ∧
      (updTrl Trl.clear (sendCommits t (updTrl (fun l => { l with first := x }) d))).cfg = d.cfg := fun t x => by
    have sent := sendCommits_sent t (updTrl (fun l => { l with first := x }) d)
    unfold SentFrame at sent
    rw [sent]
    exact ⟨rfl, rfl⟩
  rw [ht, workersCommit]
  obtain ⟨h1, h2, h3⟩ := setTrl_keeps .committed (updTrl Trl.clear (sendCommits _ (updTrl _ d)))
  exact ⟨h1, h2.trans (kept _ _).1, h3.trans (kept _ _).2⟩

/-- COMMIT of a full image. -/
theorem trlCommit_full {d : Dev} (h : d.trl.st = .validated) (hm : d.trl.loadMode = 0) : trlCommit d = fullCommit d := by
  unfold trlCommit
  rw [if_neg (not_not.2 h), hm]
  rfl

theorem trlCommit_stray {d : Dev} (h : d.trl.st ≠ .validated) :
    trlCommit d = { d with trl := { d.trl with stray := satInc d.trl.stray } } := if_pos h

/-- What a write of TRL_CTRL takes before its commands: SRC and MODE, whose 3 is reserved. -/
def ctrlTaken (v : Word) (d : Dev) : Dev :=
  { d with trl := { d.trl with src := bit v 4, mode := if fld v 0 2 = 3 then d.trl.mode else bf v 0 2 } }

/-- A write of TRL_CTRL with COMMIT alone. -/
theorem trlCtrlWrite_commit {v : Word} (h8 : bit v 8 = false) (h9 : bit v 9 = false) (h10 : bit v 10 = true) (d : Dev) :
    trlCtrlWrite v d = trlCommit (ctrlTaken v d) := by
  unfold trlCtrlWrite
  rw [h8, h9, h10]
  rfl

theorem act_trlCtrl {who : Who} {s : State} {d : Dev} (h : reached who 0x1000 s.dev = some d) (hw : trlWriter d who = true) (v : Word) :
    act (wordWrite who 0x1000 v 0xF) s = .next { s with dev := trlCtrlWrite v d } := by
  have ht : trlWrite who 0 v d = trlCtrlWrite v d := by
    unfold trlWrite
    rw [hw]
    rfl
  rw [act_wordWrite h v (by decide) (by decide), ← ht]
  rfl

/-! ### The clk after a commit -/

/-- A core that does not wait spends no slots. -/
theorem waitPass_st {n : Nat} {k : Core} (h : k.st ≠ .waiting) : waitPass n k = k := if_neg fun hc => h hc.1

theorem start_st (on : Bool) (k : Core) : (k.start on).st = if on then .running else .idle := by
  cases on <;> rfl

/-- In the clk after a commit STATE becomes COMMITTED and the cores that the configuration starts run (R88). -/
theorem pass_committing {d : Dev} (hf : d.sys.fclkOn = true) (h : d.trl.st = .committing) :
    (Machine.pass 1 d).trl.st = .committed ∧ (Machine.pass 1 d).clk = d.clk + 1 ∧
    ∀ c : Fin 4, (Machine.pass 1 d).cores[c].st =
      if d.cores[c].st = .disabled then .disabled else if bit d.cfg.started c.val then .running else .idle := by
  obtain ⟨-, hcores, htrl⟩ := passRaw_parts (n := 1) (by decide) d
  have hc : commitEnd d = { d with
      trl := { d.trl with st := .committed }
      cores := Vector.ofFn fun c : Fin 4 => if d.cores[c].st = .disabled then d.cores[c] else d.cores[c].start (bit d.cfg.started c) } :=
    if_neg (not_not.2 h)
  refine ⟨?_, pass_clk 1 d hf, fun c => ?_⟩
  · rw [pass_one hf, htrl, hc]
  · rw [pass_one hf, hcores, hc]
    simp only [Fin.getElem_fin, Vector.getElem_map, Vector.getElem_ofFn]
    split
    · next hd =>
      rw [waitPass_st (by rw [hd]; decide)]
      exact hd
    · have hs := start_st (bit d.cfg.started c.val) d.cores[c.val]
      have hne : (d.cores[c.val].start (bit d.cfg.started c.val)).st ≠ .waiting := by
        rw [hs]
        split <;> decide
      rw [waitPass_st hne, hs]

/-! ### Verdicts, banks, TICK_OUT -/

/-- The verdict of a node whose image is being sent (R94). -/
theorem workerResult_sent {n : BitVec 5} {d : Dev} {base : Nat} (h : d.trl.workers.find? (fun w => w.1 == n.toNat) = some (n.toNat, base))
    (hs : (at? d.trl.ws n.toNat {}).st = 2) (code : Byte) (off : Word) :
    workerResult n code off d = { d with trl := { d.trl with
      ws := upd? d.trl.ws n.toNat fun w => if code = 0 then { w with st := 3 }
        else { w with st := 4, code := code, off := BitVec.ofNat 32 base + off } } } := by
  unfold workerResult
  rw [h]
  dsimp only
  rw [if_neg (not_not.2 hs)]
  by_cases hc : code = 0
  · simp only [if_pos hc]
    rfl
  · simp only [if_neg hc]
    rfl

theorem workerResult_other {n : BitVec 5} {d : Dev}
    (h : d.trl.workers.find? (fun w => w.1 == n.toNat) = none ∨ (at? d.trl.ws n.toNat {}).st ≠ 2) (code : Byte) (off : Word) :
    workerResult n code off d = d := by
  unfold workerResult
  obtain h | h := h
  · rw [h]
  · split
    · rfl
    · exact if_pos h

/-- A bank powers up for a pending partial image with a bin in it (R288). -/
theorem bankPowerUp_eq (k : Nat) (d : Dev) :
    bankPowerUp k d = if d.trl.st = .pending ∧ ∃ x ∈ d.trl.binsIn, x.2.base.toNat < (k + 1) * 2 ^ 19 ∧
      k * 2 ^ 19 < x.2.base.toNat + x.2.size.toNat then bankOn k d else d := by
  unfold bankPowerUp
  refine if_congr ?_ rfl rfl
  simp [List.any_eq_true]

/-- Settles O13: COMMIT by what has been validated, the clk after it, Tfirst, and the other three rows each from its function. -/
theorem commitsVerdictsAndPendingBanks : Obligations.CommitsVerdictsAndPendingBanks := by
  unfold Obligations.CommitsVerdictsAndPendingBanks
  refine ⟨?_, fun d hf h => pass_committing hf h, fun d h => commitTime_manager h, fun d h ht hf hb => commitTime_worker h ht hf hb,
    ?_, ?_, ?_, ?_⟩
  · intro who v s d h hw hf hW h8 h9 h10
    refine ⟨trlCommit (ctrlTaken v d), ?_, fun hv => trlCommit_stray hv, fun hv hm => ?_, fun hv hm => ?_, fun hv hm => ?_⟩
    · exact (act_trlCtrl h hw v).trans (congrArg (fun x => Host.Outcome.next { s with dev := x }) (trlCtrlWrite_commit h8 h9 h10 d))
    · obtain ⟨hst, hc⟩ := fullCommit_committed (ctrlTaken v d)
      obtain ⟨ht, hk⟩ := commitTime_mode (bit v 4) (if fld v 0 2 = 3 then d.trl.mode else bf v 0 2) d
      rw [trlCommit_full (d := ctrlTaken v d) hv hm, ← ht, ← hk]
      obtain ⟨h1, h2, h3, h4⟩ := hc
      exact ⟨h1, h2, hst, h3, h4⟩
    · exact trlCommit_partial (d := ctrlTaken v d) hv hm
    · exact trlCommit_workers (d := ctrlTaken v d) hv hm
  · intro n code off s base hf h hs
    exact (actClk_on _ hf).trans (congrArg (fun x => Host.Outcome.next { s with dev := x }) (workerResult_sent h hs code off))
  · intro n code off s h
    exact (actClk_eq _ s).trans (by rw [workerResult_other h, ite_self])
  · intro k s hf
    exact (actClk_on _ hf).trans (congrArg (fun x => Host.Outcome.next { s with dev := x }) (bankPowerUp_eq k.val s.dev))
  · intro s hf h
    exact (actClk_on _ hf).trans (congrArg (fun x => Host.Outcome.next { s with dev := x }) (if_pos h))

end Sys2Proof.Machine
end

section
/-!
PROOFS. The statements of 01_architecture.md: the tick boundary.
-/
namespace Sys2Proof.Machine

/-! ### What the boundary's actions keep -/

/-- What no action of the boundary changes but the one that is about it: the clk, whether a Trellis is committed, the Sundial, the cores,
the time flags, the ring's tick clk. -/
def tickView (d : Dev) : Nat × Bool × Tb × Vector Core 4 × Byte × Nat :=
  (d.clk, d.committed, d.tb, d.cores, d.cfg.timeFlags, d.hr.tickClk)

theorem EvFrame.tickView_eq {d t : Dev} (h : EvFrame d t) : tickView t = tickView d := by
  unfold EvFrame at h
  rw [h]
  rfl

theorem SlotFrame.tickView_eq {d t : Dev} (h : SlotFrame d t) : tickView t = tickView d := by
  unfold SlotFrame at h
  rw [h]
  rfl

theorem RecordFrame.tickView_eq {d t : Dev} (h : RecordFrame d t) : tickView t = tickView d := by
  unfold RecordFrame at h
  rw [h]
  rfl

/-- A fold of operations that keep it. -/
theorem foldl_tickView {α : Type} {f : Dev → α → Dev} (hf : ∀ d a, tickView (f d a) = tickView d) (l : List α) (d : Dev) :
    tickView (l.foldl f d) = tickView d := foldl_keeps (π := tickView) hf l d

/-- An action over all engines. -/
theorem allEngines_tickView {f : Dev → Nat → Dev} (hf : ∀ d e, tickView (f d e) = tickView d) (d : Dev) :
    tickView (allEngines f d) = tickView d := foldl_tickView hf _ d

/-- An operation in two cases. -/
theorem tickView_ite {c : Prop} [Decidable c] {a b d : Dev} (ha : tickView a = tickView d) (hb : tickView b = tickView d) :
    tickView (if c then a else b) = tickView d := by
  split
  · exact ha
  · exact hb

section
variable (d : Dev)
theorem tickView_updEng (e : Nat) (f : Engine → Engine) : tickView (updEng e f d) = tickView d := rfl
theorem tickView_engines (v : Vector Engine 32) : tickView { d with engines := v } = tickView d := rfl
theorem tickView_updCl (f : Cl → Cl) : tickView (updCl f d) = tickView d := rfl
theorem tickView_updBin (b : Nat) (f : Bin → Bin) : tickView (updBin b f d) = tickView d := rfl
theorem tickView_wrCellar (a : Nat) (l : List Byte) : tickView (wrCellar a l d) = tickView d := rfl
theorem tickView_updPort (c l : Nat) (f : Port → Port) : tickView (updPort c l f d) = tickView d := rfl
theorem tickView_updHr {f : Hr → Hr} (hf : ∀ h, (f h).tickClk = h.tickClk) : tickView (updHr f d) = tickView d := by
  simp [tickView, updHr, hf]
theorem tickView_updTrl (f : Trl → Trl) : tickView (updTrl f d) = tickView d := rfl
theorem tickView_updEv (f : Ev → Ev) : tickView (updEv f d) = tickView d := rfl
theorem tickView_updBist (f : Bist → Bist) : tickView (updBist f d) = tickView d := rfl
end

/-! ### Action 2 (R20) -/

theorem freezeEngine_tickView (e c : Nat) (multi boundary : Bool) (x : Word) (d : Dev) :
    tickView (freezeEngine e c multi boundary x d) = tickView d := by
  unfold freezeEngine updEp updLife updSeq
  dsimp only
  rw [(freezeRecord_frame _ _ _ _ _ _ _).tickView_eq, tickView_updEng, tickView_updEng, tickView_updEng]

theorem boundaryCheck_tickView (d : Dev) (e : Nat) : tickView (boundaryCheck d e) = tickView d := by
  unfold boundaryCheck
  dsimp only
  split
  · split
    · exact freezeEngine_tickView _ _ _ _ _ _
    · rfl
  · split
    · exact freezeEngine_tickView _ _ _ _ _ _
    · split <;> rfl

theorem laneErr_tickView (n i : Nat) (d : Dev) : tickView (laneErr n i d) = tickView d :=
  (raiseNextIf_frame _ _ _).tickView_eq.trans rfl

theorem bankCheck_tickView (d : Dev) : tickView (bankCheck d) = tickView d := by
  unfold bankCheck
  split
  · rfl
  · refine (foldl_tickView (fun d n => ?_) _ _).trans rfl
    split
    · exact laneErr_tickView _ _ _
    · rfl

theorem action2_tickView (d : Dev) : tickView (action2 d) = tickView d :=
  (bankCheck_tickView _).trans (allEngines_tickView boundaryCheck_tickView d)

/-! ### Action 3 -/

theorem applyTiming_tickView (n : Nat) (d : Dev) : tickView (applyTiming n d) = tickView d := by
  exact tickView_ite rfl (tickView_ite rfl rfl)

theorem cutoverStart_tickView (e : Nat) (d : Dev) : tickView (cutoverStart e d) = tickView d := by
  unfold cutoverStart
  split <;> rfl

theorem swapBank_tickView (e : Nat) (d : Dev) : tickView (swapBank e d) = tickView d := rfl

theorem forceSwap_tickView (e : Nat) (d : Dev) : tickView (forceSwap e d) = tickView d := rfl

/-- An engine whose UNPARK is pending runs again (R169). -/
def unparkDue (e : Nat) (d : Dev) : Dev :=
  if (engine d e).life.unparkPend ∧ (engine d e).life.st = .parked ∧ (engine d e).life.unparkAt ≤ d.clk ∧ ¬ clusterAsleep d e then
    updEng e (fun g => { g with
      life := { g.life with st := .running, unparkPend := false }
      seq := { g.seq with yielded := true, stallCnt := 0, fresh := true } }) d
  else d

/-- A pending replant at the boundary in clk `clk` (R177, R180). -/
def replantDue (e clk : Nat) (d : Dev) : Dev :=
  match (engine d e).life.rpPend with
  | some force =>
    if (engine d e).life.st = .parked ∨ (engine d e).life.st = .halted ∨ (engine d e).life.st = .frozen then swapBank e d
    else if (engine d e).life.st = .running ∧ (engine d e).life.rpAt ≤ clk then
      if force then forceSwap e d else updLife e (fun l => { l with graceCnt := l.graceCnt + 1 }) d
    else d
  | none => d

/-- The staged budget and stall limit of an engine take effect (R20). -/
def stagedDue (e : Nat) (d : Dev) : Dev :=
  updSeq e (fun s => { s with
    budget := s.budgetNext.getD s.budget, stall := s.stallNext.getD s.stall, budgetNext := none, stallNext := none }) d

theorem boundaryApply_eq (d : Dev) (e : Nat) : boundaryApply d e =
    if cutoverDue e (stagedDue e d) then cutoverStart e (stagedDue e d) else replantDue e d.clk (unparkDue e (stagedDue e d)) := rfl

theorem unparkDue_tickView (e : Nat) (d : Dev) : tickView (unparkDue e d) = tickView d := tickView_ite rfl rfl

theorem replantDue_tickView (e clk : Nat) (d : Dev) : tickView (replantDue e clk d) = tickView d := by
  unfold replantDue
  split
  · exact tickView_ite (swapBank_tickView e d) (tickView_ite (tickView_ite (forceSwap_tickView e d) rfl) rfl)
  · rfl

theorem boundaryApply_tickView (d : Dev) (e : Nat) : tickView (boundaryApply d e) = tickView d := by
  have h : tickView (stagedDue e d) = tickView d := tickView_updEng d e _
  rw [boundaryApply_eq]
  exact tickView_ite ((cutoverStart_tickView _ _).trans h) ((replantDue_tickView _ _ _).trans ((unparkDue_tickView _ _).trans h))

theorem bistAbort_tickView (p : Nat → Nat → Bool) (d : Dev) : tickView (bistAbort p d) = tickView d := by
  unfold bistAbort
  split
  · split
    · exact (raiseIf_frame _ _ _).tickView_eq.trans rfl
    · rfl
  · rfl

theorem postSwap_tickView (e : Nat) (force : Bool) (d : Dev) : tickView (postSwap e force d) = tickView d := by
  have h : ∀ (p : Prop) [Decidable p] (f : Life → Life), tickView (if p then updLife e f d else d) = tickView d :=
    fun p _ f => tickView_ite rfl rfl
  unfold postSwap
  dsimp only
  cases (engine d e).life.st with
  | running => exact (tickView_updEng _ _ _).trans (h _ _)
  | halted => exact (swapBank_tickView _ _).trans (h _ _)
  | parked => exact (swapBank_tickView _ _).trans (h _ _)
  | frozen => exact (swapBank_tickView _ _).trans (h _ _)
  | unused => exact h _ _
  | spare => exact h _ _
  | cutover => exact h _ _
  | vacated => exact h _ _

theorem swapRequest_tickView (d : Dev) (s : SwapReq) : tickView (postSwap s.eng s.force (bistAbortEngine s.eng d)) = tickView d :=
  (postSwap_tickView _ _ _).trans (bistAbort_tickView _ d)

theorem setTrl_tickView (x : TrlSt) (d : Dev) : tickView (setTrl x d) = tickView d := (raiseIf_frame _ _ _).tickView_eq.trans rfl

theorem applyRoutes_tickView (d : Dev) : tickView (applyRoutes d) = tickView d := foldl_tickView (fun _ _ => by rfl) _ d

theorem applyBins_tickView (d : Dev) : tickView (applyBins d) = tickView d := foldl_tickView (fun _ _ => by rfl) _ d

theorem applyLanes_tickView (d : Dev) : tickView (applyLanes d) = tickView d := rfl

theorem applyPartial_tickView (d : Dev) : tickView (applyPartial d) = tickView d := by
  unfold applyPartial
  split
  · rfl
  · rw [setTrl_tickView, tickView_updTrl, foldl_tickView swapRequest_tickView, applyBins_tickView, applyRoutes_tickView]
    exact tickView_ite ((applyLanes_tickView _).trans (tickView_engines d _)) (tickView_engines d _)

/-! ### Seal tags -/

theorem makeRoom_tickView (b : Nat) (c : BinEntry) (n : Nat) (d : Dev) : tickView (makeRoom b c n d) = tickView d := by
  unfold makeRoom
  split <;> rfl

theorem grant_tickView (b : Nat) (c : BinEntry) (n typ flags : Nat) (time : DWord) (q : Word) (d : Dev) :
    tickView (grant b c n typ flags time q d) = tickView d := by
  unfold grant
  dsimp only
  rw [(raiseNextIf_frame _ _ _).tickView_eq, tickView_updBin, tickView_wrCellar]
  exact tickView_ite rfl rfl

theorem serveTrigger_tickView (b : Nat) (c : BinEntry) (d : Dev) : tickView (serveTrigger b c d) = tickView d := by
  unfold serveTrigger
  split
  · split
    · exact grant_tickView _ _ _ _ _ _ _ _
    · rfl
  · rfl

theorem grantPort_tickView (b : Nat) (e : BinEntry) (c l : Fin 4) (typ : Byte) (len : Half) (d : Dev) :
    tickView (grantPort b e c l typ len d) = tickView d := by
  unfold grantPort
  dsimp only
  refine tickView_ite rfl ?_
  rw [tickView_updPort, tickView_updBin, grant_tickView]

theorem serveWaiting_tickView (b : Nat) (c : BinEntry) (d : Dev) : tickView (serveWaiting b c d) = tickView d := by
  refine (foldl_tickView (fun d w => ?_) _ _).trans (serveTrigger_tickView b c d)
  cases w with
  | steward k l typ len => exact grantPort_tickView _ _ _ _ _ _ _
  | engine _ _ => rfl

theorem commitRec_tickView (b : Nat) (c : BinEntry) (r : Rec) (d : Dev) : tickView (commitRec b c r d) = tickView d := by
  unfold commitRec hdrFlags updOpen updRec
  dsimp only
  rw [tickView_updBin, tickView_wrCellar, tickView_wrCellar]

theorem sealTag_tickView (d : Dev) (x : Nat × BinEntry) : tickView (sealTag d x) = tickView d := by
  obtain ⟨b, c⟩ := x
  have room : tickView (makeRoom b c 6 (serveWaiting b c d)) = tickView d :=
    (makeRoom_tickView b c 6 _).trans (serveWaiting_tickView b c d)
  unfold sealTag
  dsimp only
  generalize makeRoom b c 6 (serveWaiting b c d) = d1 at room
  refine tickView_ite rfl (tickView_ite room ?_)
  have granted := (grant_tickView b c 6 2 fBreta d1.tb.now (bin d1 b).seq d1).trans room
  generalize grant b c 6 2 fBreta d1.tb.now (bin d1 b).seq d1 = d2 at granted
  split
  · exact granted
  · rw [tickView_updCl, tickView_updBin, commitRec_tickView, tickView_wrCellar, granted]

theorem sealTags_tickView (d : Dev) : tickView (sealTags d) = tickView d := foldl_tickView sealTag_tickView _ d

/-- Action 3 applies every core's staged tick budget, and nothing else of the view. -/
theorem action3_tickView (d : Dev) : tickView (action3 d) = tickView { d with cores := d.cores.map coreApply } := by
  unfold action3 holdoffs ageRecs
  rw [sealTags_tickView, tickView_updEv, tickView_updCl, applyPartial_tickView, allEngines_tickView boundaryApply_tickView]
  exact foldl_tickView (f := fun d n => applyTiming n d) (fun d n => applyTiming_tickView n d) _ _

/-! ### Actions 4 to 8 -/

theorem boundaryRestart_tickView (d : Dev) (e : Nat) : tickView (boundaryRestart d e) = tickView d := by
  unfold boundaryRestart
  dsimp only
  split
  · split <;> rfl
  · rfl

theorem action4_tickView (d : Dev) : tickView (action4 d) = tickView d := allEngines_tickView boundaryRestart_tickView d

theorem discover_tickView (d : Dev) : tickView (discover d) = tickView d := by
  unfold discover
  split
  · exact (sendCirc_slot _ _ _ _).tickView_eq.trans rfl
  · rfl

theorem sendBeacon_tickView (ticks : Bool) (d : Dev) : tickView (sendBeacon ticks d) = tickView d := by
  have sent := ((sendCirc_slot 0 tBEACON (beaconPayload ticks d) d).trans (sendCirc_slot 1 tBEACON (beaconPayload ticks d) _)).tickView_eq
  unfold sendBeacon
  dsimp only
  generalize sendCirc 1 tBEACON (beaconPayload ticks d) _ = t at sent
  have mark : ∀ x, tickView (updHr (fun h => { h with lastBeacon := x }) t) = tickView d := fun x =>
    (tickView_updHr t fun _ => rfl).trans sent
  refine tickView_ite ?_ (mark _)
  exact (discover_tickView _).trans ((tickView_updHr _ fun _ => rfl).trans (mark _))

/-- Action 5: the ring's tick clk is this one. -/
theorem ringBoundary_tickView (d : Dev) : tickView (ringBoundary d) = tickView { d with hr := { d.hr with tickClk := d.clk } } := by
  unfold ringBoundary
  dsimp only
  refine tickView_ite ?_ (tickView_ite rfl rfl)
  rw [sendBeacon_tickView]
  exact tickView_ite rfl rfl

/-! ### What follows action 8 -/

theorem wdBoundary_tickView (d : Dev) : tickView (wdBoundary d) = tickView d := by
  refine foldl_tickView (fun d w => ?_) _ d
  dsimp only
  split <;> rfl

theorem drainBoundary_tickView (d : Dev) : tickView (drainBoundary d) = tickView d := by
  unfold drainBoundary
  dsimp only
  split
  · rfl
  · split
    · rfl
    · split
      · rfl
      · split <;> rfl

theorem leaveLowPower_tickView (d : Dev) : tickView (leaveLowPower d) = tickView d := by
  unfold leaveLowPower
  split <;> rfl

theorem issueRead_tickView (a : DWord) (n : Nat) (w : ReqFor) (d : Dev) : tickView (issueRead a n w d) = tickView d := by
  unfold issueRead
  split
  · rfl
  · dsimp only
    split
    · rfl
    · exact leaveLowPower_tickView _

theorem dmaPump_tickView (d : Dev) : tickView (dmaPump d) = tickView d := by
  unfold dmaPump
  split
  · exact issueRead_tickView _ _ _ d
  · rfl

theorem checkClusters_tickView (d : Dev) : tickView (checkClusters d) = tickView d := by
  refine foldl_tickView (fun d k => ?_) _ d
  split <;> rfl

theorem fenceChecks_tickView (d : Dev) : tickView (fenceChecks d) = tickView d := by
  refine foldl_tickView (fun d k => ?_) _ d
  unfold fenceCheck
  dsimp only
  split <;> rfl

theorem afterActions_tickView (d : Dev) : tickView (afterActions d) = tickView d := by
  unfold afterActions
  rw [tickView_updBist, fenceChecks_tickView, checkClusters_tickView, dmaPump_tickView, drainBoundary_tickView, wdBoundary_tickView]

/-! ### The boundary as a whole -/

/-- What the boundary leaves of `d`, the device in the clk in which CMP0 matches, as far as `tickView` shows it. -/
def atBoundary (d : Dev) : Dev :=
  { d with
    tb := { d.tb with
      cmps := put d.tb.cmps 0 (cmpMatch d.clk d.tb.now d.tb.cmps[0]), tick := d.tb.tick + 1, tickOut := bit d.cfg.timeFlags 1 }
    cores := (d.cores.map coreApply).map postTick, hr := { d.hr with tickClk := d.clk } }

/-- The match of CMP0, and TB_TICK counts. -/
theorem tickMatch_tickView (d : Dev) : tickView (updTb (fun t => { t with tick := t.tick + 1 }) (doMatch 0 d)) =
    tickView { setCmp 0 (cmpMatch d.clk d.tb.now d.tb.cmps[0]) d with
      tb := { (setCmp 0 (cmpMatch d.clk d.tb.now d.tb.cmps[0]) d).tb with tick := d.tb.tick + 1 } } := by
  have h := raiseIn_frame 1 0x100 (setCmp 0 (cmpMatch d.clk d.tb.now d.tb.cmps[0]) d)
  have hm : doMatch 0 d = raiseIn 1 0x100 (setCmp 0 (cmpMatch d.clk d.tb.now d.tb.cmps[0]) d) := doMatch_fin 0 d
  rw [hm]
  unfold EvFrame at h
  rw [h]
  rfl

/-- Actions 1 to 4, and what is posted after them. -/
theorem actions_tickView {x1 d : Dev} (h : tickView x1 = tickView d) :
    tickView (action6 (ringBoundary (action4 (action3 (action2 x1))))) =
      tickView { d with cores := (d.cores.map coreApply).map postTick, hr := { d.hr with tickClk := d.clk } } := by
  have h2 : tickView (action2 x1) = tickView d := (action2_tickView x1).trans h
  generalize action2 x1 = x2 at h2
  have h4 : tickView (action4 (action3 x2)) = tickView { x2 with cores := x2.cores.map coreApply } :=
    (action4_tickView _).trans (action3_tickView x2)
  generalize action4 (action3 x2) = x4 at h4
  have h5 := ringBoundary_tickView x4
  generalize ringBoundary x4 = x5 at h5
  simp only [tickView, Prod.mk.injEq] at h2 h4 h5
  obtain ⟨a2, b2, c2, d2, e2, -⟩ := h2
  obtain ⟨a4, b4, c4, d4, e4, -⟩ := h4
  obtain ⟨a5, b5, c5, d5, e5, f5⟩ := h5
  unfold action6 tickView
  dsimp only
  rw [a5, b5, c5, d5, e5, f5, a4, b4, c4, d4, e4, a2, b2, c2, d2, e2]

/-- TICK_BOUNDARY (R20). -/
theorem tickBoundary_tickView {d0 : Dev} (h : tickArmed d0 = true) :
    tickView (tickBoundary d0) = tickView (atBoundary (passToMatch 0 d0)) := by
  have ha := actions_tickView (tickMatch_tickView (passToMatch 0 d0))
  unfold tickBoundary
  rw [h]
  dsimp only
  rw [if_neg (by decide), afterActions_tickView]
  generalize passToMatch 0 d0 = d at ha ⊢
  have hr := (raise_frame 0x600 (action6 (ringBoundary (action4 (action3 (action2
    (updTb (fun t => { t with tick := t.tick + 1 }) (doMatch 0 d)))))))).tickView_eq.trans ha
  generalize raise 0x600 _ = x at hr ⊢
  simp only [tickView, Prod.mk.injEq] at hr
  obtain ⟨a, b, c, d', e, f⟩ := hr
  unfold tickView updTb
  dsimp only
  rw [a, b, c, d', e, f]
  rfl

theorem tickArmed_iff (d : Dev) : tickArmed d = true ↔ d.committed = true ∧ (at? d.tb.cmps 0 {}).armed = true ∧
    d.tb.counting = true ∧ d.sys.fclkOn = true ∧ d.sys.wEnd = none := by
  simp [tickArmed, and_assoc]

/-- Otherwise nothing happens. -/
theorem tickBoundary_idle {d : Dev} (h : tickArmed d = false) : tickBoundary d = d := by
  unfold tickBoundary
  rw [h]
  rfl

/-- Settles O15: every action of the boundary keeps the view but the one that is about it; STALL_LIMIT is the boundary itself. -/
theorem theTickBoundaryActs : Obligations.TheTickBoundaryActs := by
  unfold Obligations.TheTickBoundaryActs
  refine ⟨fun s h => ⟨tickBoundary s.dev, rfl, ?_⟩, fun s h => ?_, fun s e hf => ⟨fun h hx => ?_, fun h => ?_⟩⟩
  · intro d
    have hv : tickView (tickBoundary s.dev) = tickView (atBoundary d) := tickBoundary_tickView h
    have hcmps : d.tb.cmps = s.dev.tb.cmps := pass_cmps _ _
    have htick : d.tb.tick = s.dev.tb.tick := pass_tick _ _
    have hcom : d.committed = true := (pass_committed _ _).trans ((tickArmed_iff _).1 h).1
    have hcfg : d.cfg = s.dev.cfg := pass_cfg _ _
    have hc0 : at? (put d.tb.cmps 0 (cmpMatch d.clk d.tb.now d.tb.cmps[0])) 0 {} = cmpMatch d.clk d.tb.now (at? s.dev.tb.cmps 0 {}) := by
      rw [hcmps]
      simp [at?, put]
    generalize tickBoundary s.dev = t at hv
    simp only [tickView, atBoundary, Prod.mk.injEq] at hv
    obtain ⟨h1, h2, h3, h4, -, h6⟩ := hv
    rw [h1, h2, h3, h4, h6]
    refine ⟨by rw [htick], rfl, rfl, hcom, hc0, by rw [hcfg], rfl, fun c => ?_⟩
    simp only [Fin.getElem_fin, Vector.getElem_map]
  · exact (act_eq _ s).trans (by rw [tickBoundary_idle h])
  · exact ⟨tickBoundary s.dev, (actClk_on _ hf).trans (congrArg (fun x => Host.Outcome.next { s with dev := x }) (if_pos ⟨h, hx⟩)), rfl⟩
  · have hi : stallLimit e.val s.dev = s.dev := if_neg fun ⟨h1, h2⟩ => by
      obtain h | h := h
      · rw [h] at h1
        cases h1
      · rw [h] at h2
        cases h2
    exact (actClk_eq _ s).trans (by rw [hi, ite_self])

end Sys2Proof.Machine
end

section
/-!
PROOFS. The statements of 02_trellis.md: the start and the end of a W reset.
-/
namespace Sys2Proof.Machine

/-- Answers with equal devices are equal. -/
theorem next_eq (s : State) {a b : Dev} (h : a = b) :
    (Host.Outcome.next { s with dev := a } : Host.Outcome State Fault Refusal) = .next { s with dev := b } := by rw [h]

theorem exec_wReset (c : WCause) (s : State) : exec (.wReset c) s = .next { s with dev := wReset c s.dev } := rfl
theorem exec_wResetEnd (s : State) : exec .wResetEnd s = .next { s with dev := wResetEnd s.dev } := rfl

/-! ### A W reset starts -/

/-- Across a W reset the drain ends the running descriptor, whose reads leave the endpoint; the root cellar does not bear on it (R585,
R591). -/
theorem drainW_eq (d : Dev) : ∃ x : Dr, ∀ r : Bytes,
    drainW { d with rc := r } = { d with rc := r, dr := x, pe := if d.dr.busy then (endsDesc 8 d).pe else d.pe } := by
  exact ⟨(drainW d).dr, fun _ => by unfold drainW abortDesc; dsimp only; split <;> rfl⟩

/-- A history entry, and a count after it, are in the root cellar alone. -/
theorem rcCount_history_eq (off n k c x : Nat) (time : DWord) (d : Dev) :
    ∃ r : Bytes, rcCount off n (history k c x time d) = { d with rc := r } := by
  unfold rcCount history
  exact ⟨_, rfl⟩

/-- A W reset that starts, field by field (R600, R660). -/
theorem wReset_starts {c : WCause} {d : Dev} (hp : d.sys.inP = false) (hf : d.sys.fclkOn = true) (hw : d.sys.wEnd = none) :
    ∃ (x : Dr) (r : Bytes), (rcCount 0x004 4 (history 2 (wCode c) (if c = .wd4 then 4 else 0) d.tb.now d)).rc = r ∧ wReset c d = { d with
      rc := r
      sys := { d.sys with rstKind := 2, rstCause := BitVec.ofNat 8 (wCode c), wEnd := some (d.clk + 6000) }
      dr := x, pe := if d.dr.busy then (endsDesc 8 d).pe else d.pe
      committed := false, cfg := {}
      ev := { hstat := d.ev.hstat, hen := d.ev.hen, ien := d.ev.ien }
      tb := tbW d.tb
      lanes := d.lanes.map fun l => { sync := l.sync, syncClk := l.syncClk, syncOld := l.syncOld, syncPrev := l.syncPrev }
      pairs := d.pairs.map pairW
      bank := { d.bank with fresh := 0 }
      cl := clW d.cl, hr := hrW d.sys.role d.hr, trl := trlW d.trl
      pwr := { lastCheck := d.clk }
      engines := d.engines.map engineW, cores := d.cores.map coreW, mtags := []
      wd := Vector.replicate 5 {}, bist := bistW d.bist } := by
  have hn : ¬ (d.sys.inP = true ∨ (!d.sys.fclkOn) = true ∨ d.sys.wEnd.isSome = true) := by simp [hp, hf, hw]
  obtain ⟨x, hx⟩ := drainW_eq d
  have h : wReset c d = updSys (fun s => { s with rstKind := 2, rstCause := BitVec.ofNat 8 (wCode c), wEnd := some (d.clk + 6000) })
      (wValues (rcCount 0x004 4 (history 2 (wCode c) (if c = .wd4 then 4 else 0) d.tb.now d))) := if_neg hn
  obtain ⟨r, hr⟩ := rcCount_history_eq 0x004 4 2 (wCode c) (if c = .wd4 then 4 else 0) d.tb.now d
  refine ⟨x, r, by rw [hr], h.trans ?_⟩
  rw [hr, wValues, hx]
  rfl

/-- A W reset under way absorbs another (R597). -/
theorem wReset_absorbed {c : WCause} {d : Dev} (hw : d.sys.wEnd.isSome = true) : wReset c d = d := if_pos (.inr (.inr hw))

/-! ### It ends -/

/-- Outside a commit the passing of clk leaves the loader as it is. -/
theorem pass_trl (n : Nat) {d : Dev} (h : d.trl.st ≠ .committing) : (Machine.pass n d).trl = d.trl := by
  have one : ∀ (n : Nat) (d : Dev), n ≠ 0 → d.trl.st ≠ .committing → (passRaw n d).trl = d.trl := fun n d hn h => by
    rw [(passRaw_parts hn d).2.2, commitEnd, if_pos h]
  cases hf : d.sys.fclkOn with
  | false => rw [pass_off n d hf]
  | true =>
    exact pass_cases (P := fun _ a b => a.trl.st ≠ .committing → b.trl = a.trl) (fun _ _ => rfl) one
      (fun _ _ _ _ _ hab hbc ha => (hbc (by rwa [hab ha])).trans (hab ha)) n hf h

/-- Until the end of a W reset the loader stands. -/
theorem passTo_resetting (n : Nat) {d : Dev} (h : d.trl.st = .resetting) : (passTo n d).trl = d.trl :=
  pass_trl _ (by simp [h])

/-- The device in the clk in which the W reset ends. -/
def wEnded (n : Nat) (d : Dev) : Dev := { passTo n d with sys := { (passTo n d).sys with wEnd := none } }

/-- The end of a W reset that no full load started: STATE reads EMPTY. -/
theorem wResetEnd_empty {n : Nat} {d : Dev} (hw : d.sys.wEnd = some n) (hs : d.trl.st = .resetting) (ha : d.trl.afterReset = false) :
    wResetEnd d = { wEnded n d with trl := { (wEnded n d).trl with st := .empty } } := by
  have ht : (wEnded n d).trl = d.trl := passTo_resetting n hs
  unfold wResetEnd
  rw [hw]
  dsimp only
  exact (if_neg (by rw [← ht] at hs; exact not_not.2 hs)).trans
    (if_neg (by rw [← ht] at ha; exact (Bool.eq_false_iff.1 ha)))

/-- The end of one that a full load started: LOADING, with control stores, scratch and core memories zero (R54, R61, R73). -/
theorem wResetEnd_loading {n : Nat} {d : Dev} (hw : d.sys.wEnd = some n) (hs : d.trl.st = .resetting) (ha : d.trl.afterReset = true) :
    wResetEnd d = { wEnded n d with
      trl := { (wEnded n d).trl with st := .loading, afterReset := false }
      engines := (wEnded n d).engines.map fun g => { g with cs0 := [], cs1 := [], scr := [] }
      cores := (wEnded n d).cores.map fun k => { k with mem := [], tags := [] } } := by
  have ht : (wEnded n d).trl = d.trl := passTo_resetting n hs
  unfold wResetEnd
  rw [hw]
  dsimp only
  exact (if_neg (by rw [← ht] at hs; exact not_not.2 hs)).trans (if_pos (by rw [← ht] at ha; exact ha))

/-- Settles O9: the reset device field by field, then the two ends by what the loader waits for. -/
theorem wResetStartsAndEnds : Obligations.WResetStartsAndEnds := by
  unfold Obligations.WResetStartsAndEnds
  refine ⟨fun s c hp hf hw => ?_, fun s c hw => ?_, fun s n hw => ⟨fun hs ha => ?_, fun hs ha => ?_⟩⟩
  · obtain ⟨x, r, hr, hx⟩ := wReset_starts (c := c) hp hf hw
    rw [hr]
    refine ⟨_, (exec_wReset c s).trans (next_eq s hx), rfl, rfl, rfl, rfl, rfl, rfl, rfl, rfl, rfl, rfl, rfl, rfl, rfl,
      fun k => ?_, fun n => ?_, fun e => ?_, fun c => ?_, rfl, rfl, rfl, rfl, fun b => ?_, rfl, rfl, rfl, fun w => ?_, rfl, fun p => ?_⟩
    · simp [tbW]
    · simp
    · simp [engineW]
    · simp [coreW]
    · simp [clW]
    · simp
    · simp [pairW]
  · rw [exec_wReset, wReset_absorbed hw]
  · rw [exec_wResetEnd, wResetEnd_empty hw hs ha]
    rfl
  · refine ⟨_, (exec_wResetEnd s).trans (next_eq s (wResetEnd_loading hw hs ha)), rfl, rfl, rfl, fun e => ?_, fun c => ?_, rfl⟩
    · simp
    · simp

end Sys2Proof.Machine
end

section
/-!
PROOFS. The statements of 02_trellis.md: START and ABORT of a load.
-/
namespace Sys2Proof.Machine

theorem exec_trlStart (who : Who) (v : Word) (s : State) : exec (.trlStart who v 0xF) s = act (wordWrite who 0x1000 v 0xF) s := rfl
theorem exec_trlAbort (who : Who) (v : Word) (s : State) : exec (.trlAbort who v 0xF) s = act (wordWrite who 0x1000 v 0xF) s := rfl

/-! ### Writes of TRL_CTRL -/

/-- A write of TRL_CTRL by one who may not write the loader changes nothing (R80). -/
theorem act_trlCtrl_denied {who : Who} {s : State} {d : Dev} (h : reached who 0x1000 s.dev = some d) (hw : trlWriter d who = false)
    (v : Word) : act (wordWrite who 0x1000 v 0xF) s = .next { s with dev := d } := by
  have ht : trlWrite who 0 v d = d := if_pos (by simp [hw])
  exact (act_wordWrite h v (by decide) (by decide)).trans (next_eq s ht)

/-- A write of TRL_CTRL with START alone. -/
theorem trlCtrlWrite_start {v : Word} (h8 : bit v 8 = true) (h9 : bit v 9 = false) (h10 : bit v 10 = false) (d : Dev) :
    trlCtrlWrite v d = trlStart (ctrlTaken v d) := by
  unfold trlCtrlWrite
  rw [h8, h9, h10]
  rfl

/-- A write of TRL_CTRL with ABORT alone. -/
theorem trlCtrlWrite_abort {v : Word} (h8 : bit v 8 = false) (h9 : bit v 9 = true) (h10 : bit v 10 = false) (d : Dev) :
    trlCtrlWrite v d = trlAbort (ctrlTaken v d) := by
  unfold trlCtrlWrite
  rw [h8, h9, h10]
  rfl

/-! ### START -/

/-- A load may start: the loader is not frozen, and no load, commit or partial image is under way (R72). -/
def mayStart (d : Dev) : Prop :=
  d.trl.frozen = false ∧ (d.trl.st = .empty ∨ d.trl.st = .rejected ∨ d.trl.st = .validated ∨ d.trl.st = .committed)

/-- The loader at the beginning of a load, in STATE `x`. -/
def Trl.fresh (x : TrlSt) (t : Trl) : Trl := { t.clear with rx := 0, workers := [], loadMode := t.mode, st := x }

/-- A full load starts: the loader waits for the W reset that begins here (R73). -/
def fullLoadReset (d : Dev) : Dev :=
  wReset .fullLoad { d with trl := { d.trl.fresh .resetting with afterReset := true } }

/-- A W reset of every worker that a manager knows (R73). -/
def resetWorkers (d : Dev) : Dev :=
  ((List.range 31).filter fun n => n != 0 && bit d.hr.present n).foldl (fun d n => sendWr (BitVec.ofNat 5 n) offRstcmd 0x3A5C0001 d) d

theorem mayStart_iff (d : Dev) : mayStart d ↔
    ((d.trl.st == .empty || d.trl.st == .rejected || d.trl.st == .validated || d.trl.st == .committed) && !d.trl.frozen) = true := by
  unfold mayStart
  cases d.trl.frozen <;> simp [or_assoc]

/-- Otherwise START is counted (R72). -/
theorem trlStart_stray {d : Dev} (h : ¬ mayStart d) : trlStart d = stray d := by
  rw [mayStart_iff, Bool.not_eq_true] at h
  exact if_pos (by rw [h]; rfl)

/-- START of a partial or worker-only load: LOADING, and only the loader changes (R74). -/
theorem trlStart_loading {d : Dev} (h : mayStart d) (hm : d.trl.mode ≠ 0) : trlStart d = { d with trl := d.trl.fresh .loading } := by
  rw [mayStart_iff] at h
  exact (if_neg (by rw [h]; decide)).trans (if_neg hm)

/-- START of a full load: a W reset here, and of the workers by a manager (R73). -/
theorem trlStart_full {d : Dev} (h : mayStart d) (hm : d.trl.mode = 0) :
    trlStart d = if d.sys.role = 0 then resetWorkers (fullLoadReset d) else fullLoadReset d := by
  rw [mayStart_iff] at h
  exact (if_neg (by rw [h]; decide)).trans (if_pos hm)

/-- What a command sent over the ring may change. -/
def SendFrame (d t : Dev) : Prop := t = { d with out := t.out, hr := t.hr }

theorem SendFrame.trans {a b c : Dev} (h : SendFrame a b) (h' : SendFrame b c) : SendFrame a c := by
  unfold SendFrame at *
  rw [h] at h'
  exact h'

theorem SlotFrame.send {d t : Dev} (h : SlotFrame d t) : SendFrame d t := by
  unfold SlotFrame at h
  unfold SendFrame
  rw [h]

theorem sendWr_send (n : BitVec 5) (off : Nat) (v : Word) (d : Dev) : SendFrame d (sendWr n off v d) :=
  SendFrame.trans (b := updHr (fun h => { h with lastId := nextId d.hr.lastId }) d) rfl (sendCell_slot _ _ _ _).send

theorem resetWorkers_send (d : Dev) : SendFrame d (resetWorkers d) := by
  unfold resetWorkers
  generalize ((List.range 31).filter _) = l
  induction l generalizing d with
  | nil => rfl
  | cons n l ih => exact (sendWr_send _ _ _ d).trans (ih _)

/-- Beside the W reset a full load's start sends commands. -/
theorem trlStart_full_send {d : Dev} (h : mayStart d) (hm : d.trl.mode = 0) : SendFrame (fullLoadReset d) (trlStart d) := by
  rw [trlStart_full h hm]
  split
  · exact resetWorkers_send _
  · rfl

/-- The loader waits for the W reset, whether one starts here or not. -/
theorem fullLoadReset_trl (d : Dev) : (fullLoadReset d).trl.st = .resetting ∧ (fullLoadReset d).trl.afterReset = true := by
  unfold fullLoadReset wReset
  split
  · exact ⟨rfl, rfl⟩
  · exact ⟨rfl, rfl⟩

/-- Outside a W reset one of cause 4 starts here (R447, R600). -/
theorem fullLoadReset_starts {d : Dev} (hp : d.sys.inP = false) (hf : d.sys.fclkOn = true) (hw : d.sys.wEnd = none) :
    (fullLoadReset d).committed = false ∧ (fullLoadReset d).sys.wEnd = some (d.clk + 6000) ∧ (fullLoadReset d).sys.rstCause = 4 := by
  obtain ⟨x, r, -, h⟩ := wReset_starts (c := .fullLoad) (d := { d with trl := { d.trl.fresh .resetting with afterReset := true } }) hp hf hw
  rw [fullLoadReset, h]
  exact ⟨rfl, rfl, rfl⟩

/-! ### ABORT -/

/-- The loader of a rejected image (R79, R81); `out` says that a read of the running chunk is on its way. -/
def Trl.rejected (code off sect : Nat) (out : Bool) (t : Trl) : Trl :=
  { t.clear with
    errCode := BitVec.ofNat 8 code, errOff := BitVec.ofNat 32 off, errSect := BitVec.ofNat 16 sect, dmaBusy := out, dmaDead := out
    st := .rejected }

theorem trlReject_eq (code off sect : Nat) (d : Dev) :
    trlReject code off sect d = raiseIf true 0x607 { d with trl := d.trl.rejected code off sect (dmaOut d) } := rfl

/-- A rejected image: beside the loader, only what the event raises (R81). -/
theorem trlReject_frame (code off sect : Nat) (d : Dev) :
    EvFrame { d with trl := d.trl.rejected code off sect (dmaOut d) } (trlReject code off sect d) := by
  rw [trlReject_eq]
  exact raiseIf_frame _ _ _

theorem EvFrame.trl_eq {d t : Dev} (h : EvFrame d t) : t.trl = d.trl := by
  unfold EvFrame at h
  rw [h]

/-- The same from the device before. -/
theorem EvFrame.of_trl {d t : Dev} {x : Trl} (h : EvFrame { d with trl := x } t) :
    t = { d with trl := t.trl, ev := t.ev, hr := { d.hr with relays := t.hr.relays } } := by
  unfold EvFrame at h
  rw [h]

/-- ABORT of a load in progress rejects it (R101). -/
theorem trlAbort_rejects {d : Dev} (h : loadRuns d = true) : trlAbort d = trlStop 0x34 d := if_pos h

/-- Settles O12: who may write, then START and ABORT by the state of the loader, on SRC and MODE as the write takes them. -/
theorem loadsStartAndAbort : Obligations.LoadsStartAndAbort := by
  unfold Obligations.LoadsStartAndAbort
  intro who v s d h
  refine ⟨fun hw => ⟨act_trlCtrl_denied h hw v, act_trlCtrl_denied h hw v⟩, fun hw h8 h9 h10 => ?_, fun hw h8 h9 h10 => ?_⟩
  · refine ⟨trlStart (ctrlTaken v d), (act_trlCtrl h hw v).trans (next_eq s (trlCtrlWrite_start h8 h9 h10 d)),
      fun hr => trlStart_stray (d := ctrlTaken v d) hr, fun hr hm => ?_, fun hr hm => ?_, fun hr hm hp hf hW => ?_⟩
    · rw [trlStart_loading (d := ctrlTaken v d) hr hm]
      exact ⟨rfl, rfl, rfl, rfl, rfl⟩
    · rw [trlStart_full_send (d := ctrlTaken v d) hr hm]
      exact fullLoadReset_trl (ctrlTaken v d)
    · rw [trlStart_full_send (d := ctrlTaken v d) hr hm]
      exact fullLoadReset_starts (d := ctrlTaken v d) hp hf hW
  · refine ⟨trlAbort (ctrlTaken v d), (act_trlCtrl h hw v).trans (next_eq s (trlCtrlWrite_abort h8 h9 h10 d)), fun hl => ?_, fun hl => ?_⟩
    · have hx := trlReject_frame 0x34 d.trl.rx (rxSect (ctrlTaken v d)) (ctrlTaken v d)
      have ht := hx.trl_eq
      rw [trlAbort_rejects (d := ctrlTaken v d) hl]
      refine ⟨hx.of_trl (d := d), ?_⟩
      rw [show (trlStop 0x34 (ctrlTaken v d)).trl = _ from ht]
      exact ⟨rfl, rfl, rfl⟩
    · exact if_neg (by rw [show loadRuns (ctrlTaken v d) = loadRuns d from rfl, hl]; decide)

end Sys2Proof.Machine
end

section
/-!
PROOFS. The statements of 02_trellis.md: the bytes of an image reach the loader.
-/
namespace Sys2Proof.Machine

theorem exec_trlFifoWrite (who : Who) (ws : List (Word × BitVec 4)) (p ue : Bool) (s : State) :
    exec (.trlFifoWrite who ws p ue) s = .next { s with dev := trlFifoWrite who ws p ue s.dev } := rfl
theorem exec_trlDmaChunk (who : Who) (v : Word) (s : State) : exec (.trlDmaChunk who v 0xF) s = act (wordWrite who 0x101C v 0xF) s := rfl

/-! ### A write to TRL_FIFO arrives -/

/-- The host's write of the image stream goes through BAR2. -/
theorem trlFifoWrite_host {d : Dev} (hl : hostLive d = true) (hb : barOn (arrive d) = true) (hf : (arrive d).sys.fclkOn = true)
    (ws : List (Word × BitVec 4)) (ue : Bool) : trlFifoWrite .host ws false ue d = fifoWrite ws ue (arrive d) := by
  simp [trlFifoWrite, hostWrite, hl, hb, hf]

/-- A ring command writes it on a worker (R487). -/
theorem trlFifoWrite_ring {d : Dev} (n : BitVec 5) (hl : regsLive d = true) (hr : d.sys.role = 1) (ws : List (Word × BitVec 4))
    (p ue : Bool) : trlFifoWrite (.ring n) ws p ue d = fifoWrite ws ue d := if_pos ⟨hl, by simp [trlWriter, hr]⟩

/-! ### What the DWORDs of an image leave of STATE and the offset -/

/-- STATE and the bytes received. -/
def received (d : Dev) : TrlSt × Nat := (d.trl.st, d.trl.rx)

theorem EvFrame.received_eq {d t : Dev} (h : EvFrame d t) : received t = received d := by rw [received, h.trl_eq, received]

theorem sendWr_received (n : BitVec 5) (off : Nat) (v : Word) (d : Dev) : received (sendWr n off v d) = received d := by
  rw [sendWr_send n off v d]
  rfl

theorem bistAbort_received (p : Nat → Nat → Bool) (d : Dev) : received (bistAbort p d) = received d := by
  unfold bistAbort
  split
  · split
    · exact (raiseIf_frame _ _ _).received_eq
    · rfl
  · rfl

theorem setTag_received (c a : Nat) (t : Bool) (d : Dev) : received (setTag c a t d) = received d := by
  unfold setTag
  split <;> rfl

theorem loseResv_received (c a n : Nat) (d : Dev) : received (loseResv c a n d) = received d := by
  unfold loseResv
  dsimp only
  split <;> rfl

theorem memWrite_received (c a n v : Nat) (d : Dev) : received (memWrite c a n v d) = received d := by
  have h : received ((granules a n).foldl (fun d g => setTag c (16 * g) false d) (loseResv c a n d)) = received d :=
    (foldl_keeps (π := received) (fun d g => setTag_received c (16 * g) false d) _ _).trans (loseResv_received c a n d)
  unfold memWrite
  dsimp only
  split
  · exact h
  · exact h

/-- An operation in two cases. -/
theorem received_ite {c : Prop} [Decidable c] {a b d : Dev} (ha : received a = received d) (hb : received b = received d) :
    received (if c then a else b) = received d := by
  split
  · exact ha
  · exact hb

/-- An operation on other fields of the loader. -/
theorem received_updTrl (f : Trl → Trl) (hf : ∀ t, (f t).st = t.st ∧ (f t).rx = t.rx) (d : Dev) : received (updTrl f d) = received d :=
  Prod.ext (hf d.trl).1 (hf d.trl).2

/-- An operation that leaves the loader. -/
theorem received_of_trl {d t : Dev} (h : t.trl = d.trl) : received t = received d := by rw [received, h, received]

/-- A word placed at its target. -/
theorem placeWord_received (p : Parse) (d : Dev) : received (placeWord p d) = received d := by
  unfold placeWord
  dsimp only
  exact received_ite (received_ite rfl (received_ite rfl ((bistAbort_received _ (writeCs _ _ _ _ d)).trans (received_of_trl rfl))))
    (received_ite (received_ite rfl (received_ite rfl (received_of_trl rfl)))
      (received_ite (received_ite rfl (received_ite rfl (memWrite_received _ _ _ _ d))) rfl))

/-- A nested image begins. -/
theorem beginNested_received (p : Parse) (d : Dev) : received (beginNested p d) = received d := by
  have begun := received_updTrl (fun t => { t with nested := some { base := p.pos + 12, encl := some p.sect }, nestedBad := none })
    (fun _ => ⟨rfl, rfl⟩) d
  have stat : ∀ (n : Nat) (f : WStat → WStat) (d : Dev), received (updWs n f d) = received d :=
    fun _ _ d => received_updTrl _ (fun _ => ⟨rfl, rfl⟩) d
  unfold beginNested
  dsimp only
  refine received_ite begun (received_ite ?_ ((stat _ _ _).trans begun))
  rw [sendWr_received]
  exact (received_updTrl (fun t => { t with workers := _ :: t.workers }) (fun _ => ⟨rfl, rfl⟩) _).trans ((stat _ _ _).trans begun)

/-- A section of a nested image has been received. -/
theorem nestedSection_received (np : Parse) (s : List Byte) (d : Dev) : received (nestedSection np s d) = received d := by
  unfold nestedSection
  refine received_ite rfl (received_ite ?_ ?_)
  · split <;> rfl
  · split <;> rfl

theorem nestedCheck_received (p : Parse) (n : Nat) (dw : List Byte) (d : Dev) : received (nestedCheck p n dw d) = received d := by
  unfold nestedCheck
  split
  · rfl
  · split
    · rfl
    · rfl
    · split <;> rfl
    · exact nestedSection_received _ _ d

theorem nestedDword_received (p : Parse) (dw : List Byte) (d : Dev) : received (nestedDword p dw d) = received d :=
  (nestedCheck_received p _ dw _).trans (received_ite (sendWr_received _ _ _ d) rfl)

/-- What a DWORD of a running section does besides the checks. -/
theorem streamDword_received (p : Parse) (dw : List Byte) (d : Dev) : received (streamDword p dw d) = received d :=
  received_ite (received_ite (beginNested_received p d) (nestedDword_received p dw d)) (received_ite (placeWord_received p d) rfl)

/-- A section that is staged. -/
theorem stageSection_received (x : ChkCtx) (p : Parse) (s : List Byte) (d : Dev) : received (stageSection x p s d) = received d := by
  unfold stageSection
  dsimp only
  have staged : ∀ f : Trl → Trl, (∀ t, (f t).st = t.st ∧ (f t).rx = t.rx) → received (updTrl f d) = received d :=
    fun f hf => received_updTrl f hf d
  iterate 10 refine received_ite (staged _ fun _ => ⟨rfl, rfl⟩) ?_
  refine received_ite (received_ite (staged _ fun _ => ⟨rfl, rfl⟩) (staged _ fun _ => ⟨rfl, rfl⟩)) ?_
  iterate 3 refine received_ite (staged _ fun _ => ⟨rfl, rfl⟩) ?_
  rfl

/-! ### What the checks leave -/

/-- While the load goes on, `n` bytes more have been received. -/
def Adds (n : Nat) (d t : Dev) : Prop := t.trl.st = .loading → t.trl.rx = d.trl.rx + n

theorem Adds.of_received {d t : Dev} (h : received t = received d) : Adds 0 d t := fun _ => (Prod.mk.inj h).2

/-- A rejected image is not being loaded. -/
theorem trlReject_adds (n code off sect : Nat) (d0 d : Dev) : Adds n d0 (trlReject code off sect d) := fun h => by
  rw [(trlReject_frame code off sect d).trl_eq] at h
  cases h

/-- A section that has passed step 3. -/
theorem sectionDone_adds (more : Bool) (p : Parse) (s : List Byte) (d : Dev) : Adds 0 d (sectionDone more p s d) := by
  have hk : ∀ q, received (updTrl (fun t => { t with p := q }) (stageSection (chkCtx d p) p s d)) = received d :=
    fun _ => stageSection_received _ p s d
  unfold sectionDone
  dsimp only
  split
  · exact trlReject_adds _ _ _ _ _ _
  · generalize (if p.lastType = tBINS then _ else _) = deferred
    cases deferred with
    | some f => exact trlReject_adds _ _ _ _ _ _
    | none =>
      dsimp only
      split
      · split
        · exact trlReject_adds _ _ _ _ _ _
        · split
          · exact trlReject_adds _ _ _ _ _ _
          · intro h
            rw [(setTrl_keeps .validated _).1] at h
            cases h
      · split
        · exact trlReject_adds _ _ _ _ _ _
        · exact .of_received (hk _)
        · exact .of_received (hk _)
        · exact .of_received (hk _)

/-- One DWORD of the image: four bytes more, or the load is over. -/
theorem trlDword_adds (more : Bool) (dw : List Byte) {d : Dev} (h : d.trl.st = .loading) : Adds 4 d (trlDword more dw d) := by
  have hk : ∀ t, Adds 0 (updTrl (fun t => { t with rx := t.rx + 4 }) d) t → Adds 4 d t := fun _ ht => ht
  unfold trlDword
  rw [if_neg (not_not.2 h)]
  dsimp only
  split
  · exact trlReject_adds _ _ _ _ _ _
  · exact hk _ (.of_received (streamDword_received _ _ _))
  · split
    · exact trlReject_adds _ _ _ _ _ _
    · exact hk _ (.of_received rfl)
  · exact hk _ (sectionDone_adds _ _ _ _)

/-- Outside a load DWORDs change nothing. -/
theorem trlDwords_idle (more : Bool) (l : List (List Byte)) {d : Dev} (h : d.trl.st ≠ .loading) : trlDwords more l d = d := by
  induction l with
  | nil => rfl
  | cons w r ih => rw [trlDwords, show trlDword (more || !r.isEmpty) w d = d from if_pos h, ih]

/-- DWORDs in order: four bytes each while the load goes on (R75). -/
theorem trlDwords_adds (more : Bool) (l : List (List Byte)) {d : Dev} (h : d.trl.st = .loading) :
    Adds (4 * l.length) d (trlDwords more l d) := by
  induction l generalizing d with
  | nil => exact .of_received rfl
  | cons w r ih =>
    intro ht
    have hw := trlDword_adds (more || !r.isEmpty) w h
    rw [trlDwords] at ht ⊢
    by_cases hs : (trlDword (more || !r.isEmpty) w d).trl.st = .loading
    · rw [ih hs ht, hw hs, List.length_cons]
      omega
    · rw [trlDwords_idle _ _ hs] at ht
      exact absurd ht hs

/-! ### The staging buffer fails -/

/-- An uncorrectable word of the staging buffer freezes the loader in every state (R91). -/
theorem freezeLoader_frozen (d : Dev) : (freezeLoader d).trl.frozen = true := by
  have h : ∀ w, (freezeRecord 0x26 0x42 false false 0 w (updTrl (fun t => { t with frozen := true }) (takeFree d).2)).trl.frozen = true :=
    fun w => by
      have h := freezeRecord_frame 0x26 0x42 false false 0 w (updTrl (fun t => { t with frozen := true }) (takeFree d).2)
      unfold RecordFrame at h
      rw [h]
      rfl
  unfold freezeLoader
  dsimp only
  split
  · rw [trlStop, (trlReject_frame _ _ _ _).trl_eq]
    exact h _
  · exact h _

/-! ### A write to TRL_FIFO by STATE -/

theorem fifoWrite_stray {d : Dev} (h : d.trl.st ≠ .loading) (ws : List (Word × BitVec 4)) : fifoWrite ws false d = stray d := if_pos h

theorem fifoWrite_partial {ws : List (Word × BitVec 4)} {d : Dev} (h : d.trl.st = .loading) (hw : ∃ w ∈ ws, w.2 ≠ 0xF) :
    fifoWrite ws false d = trlStop 0x42 d :=
  (if_neg (not_not.2 h)).trans (if_pos (List.any_eq_true.2 (by simpa using hw)))

theorem fifoWrite_dwords {ws : List (Word × BitVec 4)} {d : Dev} (h : d.trl.st = .loading) (hw : ∀ w ∈ ws, w.2 = 0xF) :
    fifoWrite ws false d = trlDwords false (ws.map fun w => leBytes 4 w.1.toNat) d :=
  (if_neg (not_not.2 h)).trans (if_neg (by rw [Bool.not_eq_true, List.any_eq_false]; simpa using hw))

/-! ### A chunk -/

theorem issueRead_frame (a : DWord) (n : Nat) (w : ReqFor) (d : Dev) : PeFrame d (issueRead a n w d) := by
  unfold issueRead leaveLowPower
  split
  · rfl
  · dsimp only
    split
    · rfl
    · split <;> rfl

theorem dmaPump_frame (d : Dev) : PeFrame d (dmaPump d) := .ite (issueRead_frame _ _ _ d) rfl

/-- A chunk that may not start is counted (R78). -/
theorem dmaStart_stray {v : Word} {d : Dev} (h : d.trl.src = false ∨ d.trl.st ≠ .loading ∨ d.trl.dmaBusy = true ∨ 4 * fld v 2 25 < 4 ∨
    0x04000000 < 4 * fld v 2 25) : dmaStart v d = stray d := if_pos (by simpa using h)

/-- A chunk that starts: the loader takes address and length, and the endpoint its first read (R78). -/
theorem dmaStart_runs {v : Word} {d : Dev} (h : ¬ (d.trl.src = false ∨ d.trl.st ≠ .loading ∨ d.trl.dmaBusy = true ∨ 4 * fld v 2 25 < 4 ∨
    0x04000000 < 4 * fld v 2 25)) :
    PeFrame { d with trl := { d.trl with dmaBusy := true, dmaNext := d.trl.dmaAddr, dmaLeft := 4 * fld v 2 25 } } (dmaStart v d) := by
  have hs : dmaStart v d =
      dmaPump { d with trl := { d.trl with dmaBusy := true, dmaNext := d.trl.dmaAddr, dmaLeft := 4 * fld v 2 25 } } :=
    if_neg (by simpa using h)
  rw [hs]
  exact dmaPump_frame _

theorem PeFrame.trl_eq {d t : Dev} (h : PeFrame d t) : t.trl = d.trl := by
  unfold PeFrame at h
  rw [h]

theorem PeFrame.of_trl {d t : Dev} {x : Trl} (h : PeFrame { d with trl := x } t) : t = { d with trl := t.trl, pe := t.pe, out := t.out } := by
  unfold PeFrame at h
  rw [h]

/-- A write of TRL_DMA_LEN that reaches it. -/
theorem act_dmaLen {who : Who} {s : State} {d : Dev} (h : reached who 0x101C s.dev = some d) (hw : trlWriter d who = true) (v : Word) :
    act (wordWrite who 0x101C v 0xF) s = .next { s with dev := dmaStart v d } := by
  have ht : trlWrite who 0x01C v d = dmaStart v d := if_neg (by simp [hw])
  exact (act_wordWrite h v (by decide) (by decide)).trans (next_eq s ht)

/-- Settles O14: the write arrives as a write to TRL_FIFO, and STATE, the byte enables and the staging buffer say what it does. -/
theorem imageBytesReachTheLoader : Obligations.ImageBytesReachTheLoader := by
  unfold Obligations.ImageBytesReachTheLoader
  refine ⟨fun who ws ue s d h => ?_, fun who v s d h hw => ⟨dmaStart v d, act_dmaLen h hw v, dmaStart_stray, fun hb => ?_⟩⟩
  · have he : trlFifoWrite who ws false ue s.dev = fifoWrite ws ue d := by
      cases who with
      | host =>
        obtain ⟨hl, rfl, hb, hf⟩ := h
        exact trlFifoWrite_host hl hb hf ws ue
      | ring n =>
        obtain ⟨hl, hr, rfl⟩ := h
        exact trlFifoWrite_ring n hl hr ws false ue
      | steward => exact h.elim
    refine ⟨fifoWrite ws ue d, (exec_trlFifoWrite who ws false ue s).trans (next_eq s he), ?_, ?_, ?_, ?_⟩
    · rintro rfl hs
      exact fifoWrite_stray hs ws
    · rintro rfl hs hw
      rw [fifoWrite_partial hs hw, trlStop, (trlReject_frame _ _ _ _).trl_eq]
      exact ⟨rfl, rfl⟩
    · rintro rfl hs hw
      refine ⟨fifoWrite_dwords hs hw, fun ht => ?_⟩
      rw [fifoWrite_dwords hs hw] at ht ⊢
      rw [trlDwords_adds false _ hs ht, List.length_map]
    · rintro rfl
      exact freezeLoader_frozen _
  · have hr := dmaStart_runs hb
    exact ⟨hr.trl_eq, hr.of_trl⟩

end Sys2Proof.Machine
end

section
/-!
PROOFS. The statements of 08_events.md: occurrences reach their targets, software sources.
-/
namespace Sys2Proof.Machine

theorem exec_eventDelivery (s : State) : exec .eventDelivery s = .next { s with dev := fenceChecks (eventDelivery s.dev) } := rfl
theorem exec_softset (who : Who) (g : Fin 8) (v : Word) (s : State) :
    exec (.softset who g v) s = act (wordWrite who (0x4200 + 4 * g.val) v 0xF) s := rfl
theorem exec_softclr (who : Who) (g : Fin 8) (v : Word) (s : State) :
    exec (.softclr who g v) s = act (wordWrite who (0x4220 + 4 * g.val) v 0xF) s := rfl

/-! ### The oldest occurrence leaves -/

/-- The occurrence first on its way is delivered two clk after it was raised, TGT0 before TGT1 (R267, R269). -/
theorem eventDelivery_first {d : Dev} {f : Flight} {r : List Flight} (hf : d.sys.fclkOn = true) (h : d.ev.flights = f :: r) :
    eventDelivery d = deliver f.src.toNat f.time f.clk f.tgt1 (deliver f.src.toNat f.time f.clk f.tgt0
      (updEv (fun v => { v with flights := v.flights.erase f }) (passTo (f.clk + 2) d))) := by
  unfold eventDelivery
  rw [if_neg (by simp [hf])]
  simp only [h]

/-! ### A delivery by the KIND of its target -/

section
variable (n : Nat) (time : Word) (clk : Nat) (t : Half) (d : Dev)

theorem deliver_none (h : fld t 12 4 = 0) : deliver n time clk t d = d := by
  unfold deliver
  rw [h]
  rfl

theorem deliver_engine (e : Fin 32) (j : Fin 16) (h : fld t 12 4 = 1) (hi : fld t 0 12 = 16 * e.val + j.val) :
    deliver n time clk t d = deliverEngine e j clk d := by
  have he : (16 * e.val + j.val) / 16 = e.val := by omega
  have hj : (16 * e.val + j.val) % 16 = j.val := by omega
  unfold deliver
  rw [h]
  dsimp only
  simp only [hi, he, hj, e.isLt, dite_true, Fin.eta]

theorem deliver_steward (c : Fin 4) (j : Fin 32) (h : fld t 12 4 = 2) (hi : fld t 0 12 = 32 * c.val + j.val) :
    deliver n time clk t d = deliverSteward c.val j.val n time d := by
  have hc : (32 * c.val + j.val) / 32 = c.val := by omega
  have hj : (32 * c.val + j.val) % 32 = j.val := by omega
  unfold deliver
  rw [h]
  simp only [hi, hc, hj]

theorem deliver_host (h : fld t 12 4 = 4) : deliver n time clk t d = hostEvent (fld t 0 12) d := by
  unfold deliver
  rw [h]
  rfl

theorem deliver_lane (h : fld t 12 4 = 5) : deliver n time clk t d = laneAction (fld t 0 12 / 4) (fld t 0 12 % 4) d := by
  unfold deliver
  rw [h]
  rfl

end

/-! ### Engine inputs (R270, R280) -/

/-- An engine not in cutover in an ACTIVE cluster for which nothing waits takes the occurrence. -/
theorem deliverEngine_active {e : Fin 32} {d : Dev} (hs : (at? d.pwr.cls (e.val / 4) {}).st = .active)
    (hl : d.engines[e].life.st ≠ .cutover) (hw : ∀ x ∈ d.ev.landing, x.eng.val / 4 ≠ e.val / 4) (j : Fin 16) (clk : Nat) :
    deliverEngine e j clk d = addInput e.val j.val 1 d := by
  have hany : ¬ (d.ev.landing.any fun x => x.eng.val / 4 == e.val / 4) = true := by simpa using hw
  unfold deliverEngine
  simp only [engine_fin, hl, hs, false_and, if_false, reduceCtorEq]
  exact if_neg hany

/-- One in a dormant cluster has it held, unless the POLICY drops it. -/
theorem deliverEngine_dormant {e : Fin 32} {d : Dev} (hs : (cluster d (e.val / 4)).st = .dormant)
    (hl : d.engines[e].life.st ≠ .cutover) (hp : at? d.cfg.clusterPolicy (e.val / 4) 0 ≠ 2) (j : Fin 16) (clk : Nat) :
    deliverEngine e j clk d = landingHold e j d := by
  have hs : (at? d.pwr.cls (e.val / 4) {}).st = .dormant := hs
  unfold deliverEngine
  simp only [engine_fin, hl, hs, false_and, if_false, reduceCtorEq]
  exact if_neg hp

/-- The input counts one more, saturating, with its sticky flag set. -/
theorem addInput_fin (e : Fin 32) (j : Fin 16) (d : Dev) :
    addInput e.val j.val 1 d = { d with ev := { d.ev with inputs := put d.ev.inputs e (put d.ev.inputs[e] j
      { d.ev.inputs[e][j] with count := satInc d.ev.inputs[e][j].count, edge := true }) } } := by
  simp only [addInput, updEv, upd?_fin]

/-- With room an occurrence joins the list, on an entry of its own input or a new one. -/
theorem addKeyed_room {lim : Nat} {l : List LandEntry} (h : l.length < lim) (e : Fin 32) (j : Fin 16) :
    ∃ m, addKeyed e j lim l = some m ∧ ∃ x ∈ m, x.eng = e ∧ x.inp = j := by
  unfold addKeyed
  split
  · rename_i hx
    obtain ⟨x, hx, he⟩ := List.any_eq_true.1 hx
    have he : x.eng = e ∧ x.inp = j := by simpa using he
    exact ⟨_, rfl, { x with count := satInc x.count }, List.mem_map.2 ⟨x, hx, if_pos he⟩, he⟩
  · exact ⟨_, rfl, { eng := e, inp := j, count := 1 }, by simp, rfl, rfl⟩

/-- A dormant cluster that is asked to wake. -/
theorem requestWake_dormant {k : Nat} {d : Dev} (h : (cluster d k).st = .dormant) : (cluster (requestWake k d) k).wakeReq = true := by
  by_cases hk : k < 8
  · have hn : cluster (requestWake k d) k = if (cluster d k).st = .active ∨ (cluster d k).wakeReq = true then cluster d k
        else { cluster d k with wakeReq := true, cause := d.clk } := (at?_upd? _ _ _ _ _).trans (if_pos ⟨rfl, hk⟩)
    rw [hn]
    split
    · rename_i hc
      exact hc.resolve_left (by simp [h])
    · rfl
  · rw [cluster, at?_ge _ _ _ (Nat.le_of_not_lt hk)] at h
    cases h

/-- The landing buffer holds the occurrence, the inputs stay, and the cluster is asked to wake. -/
theorem landingHold_room {e : Fin 32} {d : Dev} (h : d.ev.landing.length < 32) (hs : (cluster d (e.val / 4)).st = .dormant) (j : Fin 16) :
    (∃ x ∈ (landingHold e j d).ev.landing, x.eng = e ∧ x.inp = j) ∧ (landingHold e j d).ev.inputs = d.ev.inputs ∧
      (cluster (landingHold e j d) (e.val / 4)).wakeReq = true := by
  obtain ⟨m, hm, hx⟩ := addKeyed_room h e j
  have hl : landingHold e j d = requestWake (e.val / 4) { d with ev := { d.ev with landing := m } } := by
    unfold landingHold
    rw [hm]
    rfl
  rw [hl]
  exact ⟨hx, rfl, requestWake_dormant hs⟩

/-! ### Steward lines (R272, R274) -/

/-- The device with larder `c` set to `q`. -/
def setLarder (c : Fin 4) (q : Larder) (d : Dev) : Dev := { d with ev := { d.ev with larders := put d.ev.larders c q } }

theorem updLarder_fin (c : Fin 4) (f : Larder → Larder) (d : Dev) :
    updEv (fun v => { v with larders := upd? v.larders c.val f }) d = setLarder c (f d.ev.larders[c]) d := by
  simp only [updEv, upd?_fin, setLarder]

/-- The larder has an entry of this source and line. -/
def hasEntry (q : Larder) (n j : Nat) : Bool := q.entries.any fun x => x.src.toNat == n && x.line.toNat == j

theorem hasEntry_iff (q : Larder) (n j : Nat) : hasEntry q n j = true ↔ ∃ x ∈ q.entries, x.src.toNat = n ∧ x.line.toNat = j := by
  simp [hasEntry]

/-- Delivery to a Steward line: an entry counts, a new one joins, or the loss is counted and marked. -/
theorem deliverSteward_eq (c : Fin 4) (j : Fin 32) (n : Nat) (time : Word) (d : Dev) :
    deliverSteward c.val j.val n time d =
      if hasEntry d.ev.larders[c] n j.val = true then
        setLarder c { d.ev.larders[c] with
          entries := d.ev.larders[c].entries.map fun x =>
            if x.src.toNat = n ∧ x.line.toNat = j.val then { x with count := satInc x.count } else x } d
      else if d.ev.larders[c].entries.length < d.cfg.larderLimit[c].toNat then
        setLarder c { d.ev.larders[c] with entries := d.ev.larders[c].entries ++
          [{ src := BitVec.ofNat 11 n, line := BitVec.ofNat 5 j.val, l2 := bit d.cfg.l2Lines[c] j.val, count := 1, time := time }] } d
      else raiseIf (!d.ev.larders[c].lostf) 0x605
        (setLarder c { d.ev.larders[c] with lost := satInc d.ev.larders[c].lost, lostf := true } d) := by
  unfold deliverSteward hasEntry
  simp only [at?_fin, updLarder_fin, Bool.and_eq_true, beq_iff_eq]

/-! ### Lanes (R214) -/

/-- A lane in an output mode drives low, high, toggles, or pulses for PULSE_LEN clk. -/
theorem laneAction_fin {l : Fin 64} {d : Dev} (h0 : d.cfg.lanes[l].mode ≠ 0) (h1 : d.cfg.lanes[l].mode ≠ 1) (a : Nat) (ha : a < 4) :
    laneAction l.val a d = { d with lanes := put d.lanes l (
      if a = 0 then { d.lanes[l] with lvl := false } else if a = 1 then { d.lanes[l] with lvl := true }
      else if a = 2 then { d.lanes[l] with lvl := !d.lanes[l].lvl }
      else { d.lanes[l] with pulse := some !d.lanes[l].lvl, pulseEnd := d.clk + max 1 d.lanes[l].pulseLen.toNat }) } := by
  have hm : ¬ ((laneCfg d l.val).mode = 0 ∨ (laneCfg d l.val).mode = 1) := by
    simpa [laneCfg] using ⟨h0, h1⟩
  unfold laneAction
  dsimp only
  rw [if_neg hm, updLane, upd?_fin]
  match a, ha with
  | 0, _ => rfl
  | 1, _ => rfl
  | 2, _ => rfl
  | 3, _ => rfl

/-! ### Software sources (R263) -/

theorem evWrite_softset (g : Fin 8) (v : Word) (d : Dev) : evWrite (0x200 + 4 * g.val) v d = softSet g.val v d := by
  have hg : (0x200 + 4 * g.val - 0x200) / 4 = g.val := by omega
  unfold evWrite
  split
  case h_4 => simp (disch := omega) only [if_neg, if_pos, hg]
  all_goals omega

theorem evWrite_softclr (g : Fin 8) (v : Word) (d : Dev) : evWrite (0x220 + 4 * g.val) v d = softClr g.val v d := by
  have hg : (0x220 + 4 * g.val - 0x220) / 4 = g.val := by omega
  unfold evWrite
  split
  case h_4 => simp (disch := omega) only [if_neg, if_pos, hg]
  all_goals omega

/-- A command that writes a register of the EV block. -/
theorem act_evWrite {who : Who} {o : Nat} {s : State} {d : Dev} (h : reached who o s.dev = some d) (v : Word) (h4 : o % 4 = 0)
    (hlo : 0x4000 ≤ o) (hhi : o < 0x6000) : act (wordWrite who o v 0xF) s = .next { s with dev := evWrite (o - 0x4000) v d } := by
  rw [act_wordWrite h v h4 (by omega), regStore_ev hlo hhi]

theorem softSet_fin (g : Fin 8) (v : Word) (d : Dev) :
    softSet g.val v d = (setBits v 32).foldl (fun d i => raise (0x700 + 32 * g.val + i) d)
      { d with ev := { d.ev with softLvl := put d.ev.softLvl g (d.ev.softLvl[g] ||| v) } } := by
  simp only [softSet, updEv, upd?_fin]

theorem softClr_fin (g : Fin 8) (v : Word) (d : Dev) :
    softClr g.val v d = { d with ev := { d.ev with softLvl := put d.ev.softLvl g (d.ev.softLvl[g] &&& ~~~v) } } := by
  simp only [softClr, updEv, upd?_fin]

/-- Settles O35: the occurrence that leaves, its delivery by the KIND of each target, and the two writes of software sources. -/
theorem occurrencesReachTheirTargets : Obligations.OccurrencesReachTheirTargets := by
  unfold Obligations.OccurrencesReachTheirTargets
  refine ⟨fun s f r hf h => ?_, fun n time clk t d => ⟨deliver_none n time clk t d, fun e j hk hi hs hl hw => ?_,
    fun e j hk hi hs hl hp hr => ?_, fun c j hk hi => ⟨fun hm => ?_, fun hm hr => ?_, fun hm hr => ?_⟩,
    fun hk _ => deliver_host n time clk t d hk, fun l hk hi h0 h1 => ?_⟩, fun who g v s d h => ?_, fun who g v s d h => ?_⟩
  · exact (exec_eventDelivery s).trans (next_eq s (congrArg fenceChecks (eventDelivery_first hf h)))
  · rw [deliver_engine n time clk t d e j hk hi, deliverEngine_active hs hl hw, addInput_fin]
  · rw [deliver_engine n time clk t d e j hk hi, deliverEngine_dormant hs hl hp]
    exact landingHold_room hr hs j
  · rw [deliver_steward n time clk t d c j hk hi, deliverSteward_eq, if_pos ((hasEntry_iff _ _ _).2 hm)]
    rfl
  · rw [deliver_steward n time clk t d c j hk hi, deliverSteward_eq, if_neg (by simpa [hasEntry_iff] using hm), if_pos hr]
    rfl
  · rw [deliver_steward n time clk t d c j hk hi, deliverSteward_eq, if_neg (by simpa [hasEntry_iff] using hm), if_neg (Nat.not_lt.2 hr)]
    cases d.ev.larders[c].lostf <;> rfl
  · rw [deliver_lane n time clk t d hk, hi, laneAction_fin h0 h1 _ (Nat.mod_lt _ (by decide))]
  · rw [exec_softset, act_evWrite h v (by omega) (by omega) (by omega), show 0x4200 + 4 * g.val - 0x4000 = 0x200 + 4 * g.val by omega,
      evWrite_softset, softSet_fin]
  · rw [exec_softclr, act_evWrite h v (by omega) (by omega) (by omega), show 0x4220 + 4 * g.val - 0x4000 = 0x220 + 4 * g.val by omega,
      evWrite_softclr, softClr_fin]

end Sys2Proof.Machine
end

section
/-!
PROOFS. The statements of 03_engine_sequencer.md: what a clk of an engine leaves, and the data actions of a microword.
-/
namespace Sys2Proof.Machine

/-! ### Frames of an engine's clk -/

theorem EngineFrame.refl (d : Dev) (e : Fin 32) : EngineFrame d d e := ⟨rfl, fun _ _ => rfl, rfl, rfl⟩

theorem EngineFrame.trans {a b c : Dev} {e : Fin 32} (h : EngineFrame a b e) (h' : EngineFrame b c e) : EngineFrame a c e := by
  obtain ⟨hd, ho, h0, h1⟩ := h
  obtain ⟨hd', ho', h0', h1'⟩ := h'
  rw [hd] at hd'
  exact ⟨hd', fun f hf => (ho' f hf).trans (ho f hf), h0'.trans h0, h1'.trans h1⟩

/-- What a clk of an engine may change outside the engines. -/
def OutsideFrame (d t : Dev) : Prop :=
  t = { d with ev := t.ev, lanes := t.lanes, cl := t.cl, freeCtr := t.freeCtr, hr := { d.hr with relays := t.hr.relays } }

theorem OutsideFrame.trans {a b c : Dev} (h : OutsideFrame a b) (h' : OutsideFrame b c) : OutsideFrame a c := by
  unfold OutsideFrame at *
  rw [h] at h'
  exact h'

theorem OutsideFrame.engines_eq {d t : Dev} (h : OutsideFrame d t) : t.engines = d.engines := by
  unfold OutsideFrame at h
  rw [h]

theorem OutsideFrame.ite {d a b : Dev} {c : Prop} [Decidable c] (ha : OutsideFrame d a) (hb : OutsideFrame d b) :
    OutsideFrame d (if c then a else b) := by
  split
  · exact ha
  · exact hb

theorem LaneErrFrame.outside {d t : Dev} (h : LaneErrFrame d t) : OutsideFrame d t := by
  unfold LaneErrFrame at h
  unfold OutsideFrame
  rw [h]

theorem EvFrame.outside {d t : Dev} (h : EvFrame d t) : OutsideFrame d t := h.laneErr.outside

theorem updLane_outside (n : Nat) (f : Lane → Lane) (d : Dev) : OutsideFrame d (updLane n f d) := rfl
theorem updCl_outside (f : Cl → Cl) (d : Dev) : OutsideFrame d (updCl f d) := rfl
theorem updBin_outside (b : Nat) (f : Bin → Bin) (d : Dev) : OutsideFrame d (updBin b f d) := rfl
theorem updEv_outside (f : Ev → Ev) (d : Dev) : OutsideFrame d (updEv f d) := rfl
theorem takeFree_outside (d : Dev) : OutsideFrame d (takeFree d).2 := rfl

theorem outside_foldl {α : Type} {f : Dev → α → Dev} (hf : ∀ d a, OutsideFrame d (f d a)) (l : List α) (d : Dev) :
    OutsideFrame d (l.foldl f d) := by
  induction l generalizing d with
  | nil => rfl
  | cons a r ih => exact (hf d a).trans (ih _)

/-- Acts of engine `e` within its frame that leave what `π` reads of it. -/
def Keeps {β : Type} (π : Engine → β) (e : Fin 32) (d t : Dev) : Prop := EngineFrame d t e ∧ π t.engines[e] = π d.engines[e]

/-- The sequencer and the lifecycle of an engine, which the data actions of a microword leave. -/
def controlOf (g : Engine) : Seq × Life := (g.seq, g.life)

/-- These, its general registers and the flags Z, N, C and V. -/
def aluViewOf (g : Engine) : (Seq × Life) × Vector Word 16 × Bool × Bool × Bool × Bool :=
  (controlOf g, g.dp.g, g.dp.z, g.dp.n, g.dp.c, g.dp.v)

section
variable {β : Type} {π : Engine → β} {e : Fin 32}

theorem Keeps.refl (d : Dev) : Keeps π e d d := ⟨.refl d e, rfl⟩

theorem Keeps.trans {a b c : Dev} (h : Keeps π e a b) (h' : Keeps π e b c) : Keeps π e a c := ⟨h.1.trans h'.1, h'.2.trans h.2⟩

theorem Keeps.ite {d a b : Dev} {c : Prop} [Decidable c] (ha : Keeps π e d a) (hb : Keeps π e d b) :
    Keeps π e d (if c then a else b) := by
  split
  · exact ha
  · exact hb

theorem keeps_foldl {α : Type} {f : Dev → α → Dev} (hf : ∀ d a, Keeps π e d (f d a)) (l : List α) (d : Dev) :
    Keeps π e d (l.foldl f d) := by
  induction l generalizing d with
  | nil => exact .refl d
  | cons a r ih => exact (hf d a).trans (ih _)

theorem Keeps.control {d t : Dev} (h : Keeps aluViewOf e d t) : Keeps controlOf e d t := ⟨h.1, congrArg Prod.fst h.2⟩

theorem OutsideFrame.keeps {d t : Dev} (h : OutsideFrame d t) : Keeps π e d t := by
  have he := h.engines_eq
  unfold OutsideFrame at h
  refine ⟨⟨?_, fun f _ => by rw [he], by rw [he], by rw [he]⟩, by rw [he]⟩
  rw [he]
  exact h

/-- A change of the engine itself that leaves its control store. -/
theorem engineFrame_updEng {f : Engine → Engine} (h0 : ∀ g, (f g).cs0 = g.cs0) (h1 : ∀ g, (f g).cs1 = g.cs1) (d : Dev) :
    EngineFrame d (updEng e.val f d) e := by
  have hs : (updEng e.val f d).engines[e] = f d.engines[e] := by rw [updEng_put, getElem_put_self]
  refine ⟨rfl, fun k hk => ?_, by rw [hs, h0], by rw [hs, h1]⟩
  rw [updEng_put, getElem_put_other _ hk]

theorem keeps_updEng {f : Engine → Engine} (h0 : ∀ g, (f g).cs0 = g.cs0) (h1 : ∀ g, (f g).cs1 = g.cs1) (hπ : ∀ g, π (f g) = π g)
    (d : Dev) : Keeps π e d (updEng e.val f d) := by
  refine ⟨engineFrame_updEng h0 h1 d, ?_⟩
  rw [updEng_put, getElem_put_self, hπ]

theorem keeps_updDp {f : Dp → Dp} (hπ : ∀ g : Engine, π { g with dp := f g.dp } = π g) (d : Dev) : Keeps π e d (updDp e.val f d) :=
  keeps_updEng (f := fun g => { g with dp := f g.dp }) (fun _ => rfl) (fun _ => rfl) hπ d

theorem keeps_updEp {f : Eport → Eport} (hπ : ∀ g : Engine, π { g with ep := f g.ep } = π g) (d : Dev) : Keeps π e d (updEp e.val f d) :=
  keeps_updEng (f := fun g => { g with ep := f g.ep }) (fun _ => rfl) (fun _ => rfl) hπ d

end

section
variable {e : Fin 32}

/-! ### Actions that leave registers and flags -/

theorem clearSticky_keeps (i : Nat) (d : Dev) : Keeps aluViewOf e d (clearSticky e.val i d) := by
  refine .ite (.ite (keeps_updEp (fun _ => rfl) d) (.ite (keeps_updEp (fun _ => rfl) d) (.refl d))) (.ite ?_ (.refl d))
  exact (updEv_outside _ d).keeps

theorem bgTake_keeps (d : Dev) : Keeps aluViewOf e d (bgTake e.val d) := by
  unfold bgTake bgTakeN
  dsimp only
  split
  · exact .refl d
  · split
    · exact .refl d
    · split
      · exact .refl d
      · refine (updLane_outside _ _ d).keeps.trans (keeps_updDp (fun g => ?_) _)
        unfold Dp.take
        dsimp only
        split <;> rfl

/-- Bits fed to the CRC unit change the CRC register alone. -/
theorem crcFeedBits_eq (bs : List Bool) (p : Dp) : crcFeedBits bs p = { p with crc := (crcFeedBits bs p).crc } := by
  induction bs generalizing p with
  | nil => rfl
  | cons b r ih => exact ih (crcFeed p b)

theorem crcFeedBits_view (g : Engine) (bs : List Bool) : aluViewOf { g with dp := crcFeedBits bs g.dp } = aluViewOf g := by
  rw [crcFeedBits_eq]
  rfl

theorem doCrc_keeps (g : Engine) (w : MW) (taken : List Bool) (scr : Ecc) (d : Dev) :
    Keeps aluViewOf e d (doCrc e.val g w taken scr d) := by
  have feed : ∀ (bs : Dp → List Bool), Keeps aluViewOf e d (updDp e.val (fun p => crcFeedBits (bs p) p) d) := fun bs =>
    keeps_updDp (fun g => crcFeedBits_view g (bs g.dp)) d
  have load : Keeps aluViewOf e d (updEng e.val crcLoad d) :=
    keeps_updEng (f := crcLoad) (fun _ => rfl) (fun _ => rfl) (fun _ => rfl) d
  unfold doCrc
  dsimp only
  split
  case h_1 | h_2 => exact keeps_updDp (fun _ => rfl) d
  case h_3 | h_4 | h_5 | h_6 | h_7 => exact feed _
  case h_8 => exact feed fun _ => taken
  case h_9 =>
    cases scr with
    | ok => exact load
    | ce => exact load.trans (keeps_updEp (fun _ => rfl) _)
    | ue =>
      refine Keeps.trans ?_ (raise_frame _ _).outside.keeps
      refine Keeps.trans ?_ (keeps_updEp (fun _ => rfl) _)
      exact ((takeFree_outside d).trans (takeFree_outside _)).keeps.trans (keeps_updDp (fun _ => rfl) _)
  case h_10 => exact .refl d

theorem btPass_keeps (n : Nat) (d : Dev) : Keeps aluViewOf e d (updDp e.val (btPass n) d) := by
  refine keeps_updDp (fun g => ?_) d
  unfold btPass
  split <;> rfl

theorem doShift_keeps (g : Engine) (w : MW) (taken : List Bool) (d : Dev) : Keeps aluViewOf e d (doShift e.val g w taken d) := by
  have lane : ∀ (f : Nat → Lane → Lane) (s : Nat),
      Keeps aluViewOf e d (match slotLane d e.val s with | some (l, _) => updLane l (f l) d | none => d) := fun f s => by
    split
    · exact (updLane_outside _ _ d).keeps
    · exact .refl d
  have timer : ∀ per smp, Keeps aluViewOf e d (updDp e.val (btSet per smp) d) := fun per smp => keeps_updDp (fun g => by
    unfold btSet
    split <;> rfl) d
  unfold doShift
  dsimp only
  split
  · split
    case h_5 => exact timer _ _
    case h_8 => exact .refl d
    all_goals exact keeps_updDp (fun _ => rfl) d
  case h_6 => exact keeps_updDp (fun _ => rfl) d
  case h_8 => exact .refl d
  all_goals exact (lane (fun _ => _) _).trans (keeps_updDp (fun _ => rfl) _)

theorem pulseSet_outside (e j n : Nat) (d : Dev) : OutsideFrame d (pulseSet e j n d) := .ite (updLane_outside _ _ d) rfl

theorem switchSets_outside (e : Nat) (d : Dev) : OutsideFrame d (switchSets e d) := by
  refine outside_foldl (fun d n => ?_) _ d
  split
  · exact .ite (updLane_outside _ _ d) rfl
  · rfl

theorem emitOne_keeps (k j : Nat) (d : Dev) : Keeps aluViewOf e d (emitOne e.val k j d) := by
  have level : ∀ (b : Bool) (d : Dev), Keeps aluViewOf e d (updDp e.val (fun p => { p with emitLvl := setBit p.emitLvl j b }) d) :=
    fun b d => keeps_updDp (fun _ => rfl) d
  unfold emitOne
  dsimp only
  split
  · have lanes := outside_foldl (fun d n => pulseSet_outside e.val j n d) (List.range 64) d
    exact (lanes.keeps.trans (level _ _)).trans (raiseIn_frame _ _ _).outside.keeps
  · exact (level _ d).trans (raiseNextIf_frame _ _ _).outside.keeps
  · exact level _ d

theorem doEmit_keeps (w : MW) (d : Dev) : Keeps aluViewOf e d (doEmit e.val w d) := by
  unfold doEmit
  dsimp only
  split
  · exact .refl d
  · exact (keeps_foldl (fun d j => emitOne_keeps _ j d) _ d).trans (switchSets_outside _ _).keeps

/-! ### Memory operations -/

theorem wrG_keeps (k : Nat) (v : Word) (d : Dev) : Keeps controlOf e d (wrG e.val k v d) := keeps_updDp (fun _ => rfl) d

theorem scrRead_keeps (i : Nat) (ecc : Ecc) (d : Dev) : Keeps controlOf e d (scrRead e.val i ecc d).2 := by
  cases ecc with
  | ok => exact .refl d
  | ce =>
    have corrected : Keeps controlOf e d (updEp e.val (fun p => { p with scrCe := satInc p.scrCe }) d) := keeps_updEp (fun _ => rfl) d
    exact corrected
  | ue =>
    refine Keeps.trans ?_ (raise_frame _ _).outside.keeps
    exact (takeFree_outside d).keeps.trans (keeps_updEp (fun _ => rfl) _)

theorem makeRoom_outside (b : Nat) (c : BinEntry) (L : Nat) (d : Dev) : OutsideFrame d (makeRoom b c L d) :=
  .ite rfl (updBin_outside _ _ d)

theorem grant_outside (b : Nat) (c : BinEntry) (L typ flags : Nat) (time : DWord) (seq : Word) (d : Dev) :
    OutsideFrame d (grant b c L typ flags time seq d) := by
  have skip : ∀ (p : Prop) [Decidable p] (a : Nat) (l : List Byte), OutsideFrame d (if p then d else wrCellar a l d) := fun p _ a l =>
    .ite rfl (updCl_outside _ d)
  exact (((skip _ _ _).trans (updCl_outside _ _)).trans (updBin_outside _ _ _)).trans (raiseNextIf_frame _ _ _).outside

theorem clearWaiting_outside (e : Nat) (d : Dev) : OutsideFrame d (clearWaiting e d) := rfl

theorem doReserve_keeps (w : MW) (d : Dev) : Keeps controlOf e d (doReserve e.val w d).2 := by
  have flags : ∀ (ok full big : Bool) (t : Dev), OutsideFrame d t →
      Keeps controlOf e d (updEp e.val (fun p => { p with resOk := ok, resFull := full, resTooBig := big }) t) := fun _ _ _ t h =>
    h.keeps.trans (keeps_updEp (fun _ => rfl) t)
  unfold doReserve
  dsimp only
  split
  · exact .refl d
  · split
    · exact flags _ _ _ _ (updBin_outside _ _ d)
    · have room := makeRoom_outside (resBin w) (by assumption) (max 2 (resLen (engine d e.val) w)) d
      split
      · exact flags _ _ _ _ ((room.trans (grant_outside _ _ _ _ _ _ _ _)).trans (clearWaiting_outside _ _))
      · exact flags _ _ _ _ (room.trans (updBin_outside _ _ _))

theorem portIssue_keeps (xs : List PortWr) (d : Dev) : Keeps controlOf e d (portIssue e.val xs d) := keeps_updEp (fun _ => rfl) d

theorem append4_keeps (b : Nat) (c : BinEntry) (r : Rec) (v : Word) (d : Dev) :
    Keeps controlOf e d (append4 (portIssue e.val) b c r v d).1 := by
  unfold append4
  split
  · exact (portIssue_keeps _ d).trans (updBin_outside _ _ _).keeps
  · exact (updBin_outside _ _ _).keeps

theorem appendWords_keeps (vs : List Word) (h : Word) (d : Dev) : Keeps controlOf e d (appendWords e.val vs h d) := by
  refine keeps_foldl (fun d v => ?_) vs d
  split
  · exact (append4_keeps _ _ _ v d).trans (keeps_updEp (fun _ => rfl) _)
  · exact .refl d

theorem portDo_keeps (h : Word) {f : Nat → BinEntry → Rec → Dev → Dev} (hf : ∀ b c r d, Keeps controlOf e d (f b c r d)) (d : Dev) :
    Keeps controlOf e d (portDo e.val h f d) := by
  unfold portDo
  split
  · exact keeps_updEp (fun _ => rfl) d
  · exact keeps_updEp (fun _ => rfl) d
  · exact hf _ _ _ d
  · exact .refl d

theorem doMem_keeps (g : Engine) (w : MW) (scr : Ecc) (d : Dev) : Keeps controlOf e d (doMem e.val g w scr d) := by
  unfold doMem
  dsimp only
  refine .ite ((scrRead_keeps _ scr d).trans (wrG_keeps _ _ _)) (.ite ?store (.ite ((doReserve_keeps w d).trans (wrG_keeps _ _ _))
    (.ite ?append (.ite ?commit (.ite ?void (.ite (wrG_keeps _ _ d) (.ite ?stamp (.ite ?count (.refl d)))))))))
  case store => refine keeps_updEng ?_ ?_ ?_ d <;> exact fun _ => rfl
  case append =>
    split
    · exact appendWords_keeps _ _ d
    · exact portDo_keeps _ (fun _ _ _ d => .refl d) d
  case commit => exact portDo_keeps _ (fun _ _ _ d => (portIssue_keeps _ d).trans (updBin_outside _ _ _).keeps) d
  case void => exact portDo_keeps _ (fun _ _ _ d => (portIssue_keeps _ d).trans (updBin_outside _ _ _).keeps) d
  case stamp =>
    split
    · split
      · exact (updLane_outside _ _ d).keeps.trans (wrG_keeps _ _ _)
      · exact .refl d
    · exact .refl d
  case count => exact (updEv_outside _ d).keeps.trans (wrG_keeps _ _ _)

/-- A microword without a MEMOP does nothing there. -/
theorem doMem_none {w : MW} (h : w.memop = 0) (g : Engine) (scr : Ecc) (d : Dev) : doMem e.val g w scr d = d := by
  unfold doMem
  simp [h]

end

end Sys2Proof.Machine
end

section
/-!
PROOFS. The statements of 03_engine_sequencer.md: how a microword ends, and the rows of the table of successors.
-/
namespace Sys2Proof.Machine

/-! ### One engine replaced -/

/-- The device with engine `e` as `g`. -/
def setEng (e : Fin 32) (g : Engine) (d : Dev) : Dev := { d with engines := put d.engines e g }

section
variable (e : Fin 32) (g h : Engine) (d : Dev)

theorem updEng_eq_setEng (f : Engine → Engine) : updEng e.val f d = setEng e (f d.engines[e]) d := updEng_put e f d

@[simp] theorem setEng_engine : (setEng e g d).engines[e] = g := getElem_put_self _ _ _

@[simp] theorem setEng_setEng : setEng e h (setEng e g d) = setEng e h d := by simp [setEng]

@[simp] theorem setEng_self : setEng e d.engines[e] d = d := by simp [setEng, put]

theorem setEng_ite (c : Prop) [Decidable c] : (if c then setEng e g d else setEng e h d) = setEng e (if c then g else h) d :=
  (apply_ite (setEng e · d) c g h).symm

theorem setEng_frame {d : Dev} {e : Fin 32} {g : Engine} (h0 : g.cs0 = d.engines[e].cs0) (h1 : g.cs1 = d.engines[e].cs1) :
    EngineFrame d (setEng e g d) e :=
  ⟨rfl, fun _ hf => getElem_put_other _ hf _, by rw [setEng_engine, h0], by rw [setEng_engine, h1]⟩

end

/-! ### The end of a microword -/

/-- The engine yields (R130). -/
def Engine.yielding (g : Engine) : Engine :=
  { g with seq := { g.seq with
      yielded := true, fresh := false, lastUse := g.seq.budcnt
      maxUse := if g.seq.maxUse.toNat < g.seq.budcnt.toNat then g.seq.budcnt else g.seq.maxUse } }

/-- The engine swaps to its other bank; its next microword is due in clk `n` (R179, R182). -/
def Engine.swapping (n : Nat) (g : Engine) : Engine :=
  let g1 := { g with seq := { g.seq with bank := !g.seq.bank, stack := [], fresh := true, fixed := false }
                     life := { g.life with rpPend := none, graceCnt := 0, swapGrace := none } }
  { g1 with seq := { g1.seq with pc := g1.replantEntry, reached := n }, ep := { g1.ep with cause := 0 } }

/-- The engine goes on, its next microword due in clk `n`, which is `late` after BR4 and DISPATCH (R111). -/
def Engine.goingOn (n : Nat) (late : Bool) (g : Engine) : Engine :=
  { g with seq := { g.seq with reached := n }, ep := { g.ep with cause := if late then 11 else 0 } }

/-- The engine parks (R169). -/
def Engine.parking (g : Engine) : Engine :=
  { g with life := { g.life with st := .parked, parkPend := false }, seq := { g.seq with step := false } }

/-- The engine halts (R127). -/
def Engine.halting (g : Engine) : Engine := { g with life := { g.life with st := .halted }, seq := { g.seq with step := false } }

/-- The microword yields; it parks its engine; it swaps banks (R126, R169, R179). -/
def yields (w : MW) : Bool := w.seqop == 0xA || w.ctlYield
def parks (w : MW) (g : Engine) : Bool := w.seqop == 0xB || w.ctlPark || ((yields w || w.ctlSafe) && g.life.parkPend)
def swaps (w : MW) (g : Engine) : Bool := w.ctlSafe && g.life.rpPend == some false

/-- CTL bits and pending requests in clk `clk`, on the engine itself (R126, R127, R169, R179). -/
def Engine.ctl (clk : Nat) (w : MW) (late : Bool) (g : Engine) : Engine :=
  let g1 := if yields w then g.yielding else g
  let g2 := if swaps w g1 then g1.swapping (clk + (if yields w || parks w g1 then 1 else 3)) else g1.goingOn (clk + 1 + b2n late) late
  if parks w g1 then g2.parking else if w.ctlBreak && g2.seq.brkEn || g2.seq.step then g2.halting else g2

theorem doYield_eq (e : Fin 32) (d : Dev) : doYield e.val d = setEng e d.engines[e].yielding d := updEng_put e _ d
theorem doPark_eq (e : Fin 32) (d : Dev) : doPark e.val d = setEng e d.engines[e].parking d := updEng_put e _ d

theorem swap_eq (e : Fin 32) (n : Nat) (d : Dev) :
    updSeq e.val (fun s => { s with reached := n }) (updEp e.val (fun p => { p with cause := 0 }) (swapBank e.val d)) =
      setEng e (d.engines[e].swapping n) d := by
  unfold updSeq updEp swapBank
  simp only [updEng_eq_setEng, setEng_engine, setEng_setEng]
  rfl

theorem goOn_eq (e : Fin 32) (n : Nat) (late : Bool) (d : Dev) :
    updSeq e.val (fun s => { s with reached := n }) (updEp e.val (fun p => { p with cause := if late then 11 else 0 }) d) =
      setEng e (d.engines[e].goingOn n late) d := by
  unfold updSeq updEp
  simp only [updEng_eq_setEng, setEng_engine, setEng_setEng]
  rfl

theorem halt_eq (e : Fin 32) (d : Dev) :
    updSeq e.val (fun s => { s with step := false }) (updLife e.val (fun l => { l with st := .halted }) d) =
      setEng e d.engines[e].halting d := by
  unfold updSeq updLife
  simp only [updEng_eq_setEng, setEng_engine, setEng_setEng]
  rfl

/-- CTL leaves an engine as `Engine.ctl` says, and nothing else changes. -/
theorem doCtl_eq (e : Fin 32) (w : MW) (late : Bool) (d : Dev) : doCtl e.val w late d = setEng e (d.engines[e].ctl d.clk w late) d := by
  have yielded : (if yields w then doYield e.val d else d) = setEng e (if yields w then d.engines[e].yielding else d.engines[e]) d := by
    rw [doYield_eq, ← setEng_ite, setEng_self]
  unfold Engine.ctl yields at *
  unfold doCtl
  dsimp only
  rw [yielded]
  simp only [engine_fin, swap_eq, goOn_eq, halt_eq, doPark_eq, setEng_ite, setEng_engine, setEng_setEng]
  rfl

/-- The microword's successor is taken: PC, the stack with return address `ret`, and what a microword that executes resets (R110, R114). -/
def Engine.advancing (clk : Nat) (w : MW) (nxt ret : BitVec 12) (g : Engine) : Engine :=
  { g with seq := { g.seq with
      pc := nxt, waiting := false, progress := true, fixed := false, covered := clk + 1
      stack := if w.seqop = 5 then g.seq.stack ++ [ret] else if w.seqop = 6 then g.seq.stack.dropLast else g.seq.stack } }

/-- One clk counts against the budget of a TICKED engine (R129). -/
def Engine.counting (stream : Bool) (g : Engine) : Engine :=
  if stream then g else { g with seq := { g.seq with budcnt := satInc g.seq.budcnt } }

/-- The end of the last clk of the budget without a yield latches OVERRUN (R129). -/
def Engine.judging (stream : Bool) (g : Engine) : Engine :=
  if stream then g else
  { g with seq := { g.seq with overrun := g.seq.overrun || (!g.seq.yielded && decide (g.seq.budget.toNat ≤ g.seq.budcnt.toNat)) } }

/-- The engine after a microword of clk `clk` whose data actions have left it as `g`. -/
def Engine.ended (stream : Bool) (clk : Nat) (w : MW) (nxt ret : BitVec 12) (g : Engine) : Engine :=
  (((g.advancing clk w nxt ret).counting stream).ctl clk w (w.seqop == 4 || w.seqop == 9)).judging stream

theorem countClk_eq (e : Fin 32) (d : Dev) : countClk e.val d = setEng e (d.engines[e].counting (isStream d e.val)) d := by
  unfold countClk Engine.counting
  split
  · rw [setEng_self]
  · exact updEng_put e _ d

theorem checkBudget_eq (e : Fin 32) (d : Dev) : checkBudget e.val d = setEng e (d.engines[e].judging (isStream d e.val)) d := by
  unfold checkBudget Engine.judging
  split
  · rw [setEng_self]
  · exact updEng_put e _ d

/-- The LOOP field on the loop counters, operands from `g` (R110, R116, R118). -/
def loopCounts (g : Engine) (w : MW) (s : Seq) : Seq :=
  let v : Half := if w.lsrc then bf (g.g w.srca) 0 16 else w.aux.zeroExtend 16
  let t := { s with lc0 := loopAct w.act0 v s.lc0, lc1 := loopAct w.act1 v s.lc1 }
  if w.seqop = 7 then
    if w.lsel then { t with lc1 := if s.lc1 = 0 then 0 else s.lc1 - 1 } else { t with lc0 := if s.lc0 = 0 then 0 else s.lc0 - 1 }
  else t

theorem doLoop_eq (e : Fin 32) (g : Engine) (w : MW) (d : Dev) :
    doLoop e.val g w d = setEng e { d.engines[e] with seq := loopCounts g w d.engines[e].seq } d := updEng_put e _ d

/-- LOOP counts the tested counter down, to 0 (R118). -/
theorem loopCounts_tested (g : Engine) {w : MW} (h : w.seqop = 7) (s : Seq) :
    (if w.lsel then (loopCounts g w s).lc1 else (loopCounts g w s).lc0) =
      if (if w.lsel then s.lc1 else s.lc0) = 0 then 0 else (if w.lsel then s.lc1 else s.lc0) - 1 := by
  unfold loopCounts
  rw [if_pos h]
  cases w.lsel <;> rfl

/-- The LOOP field changes the loop counters alone. -/
theorem loopCounts_frame (g : Engine) (w : MW) (s : Seq) :
    loopCounts g w s = { s with lc0 := (loopCounts g w s).lc0, lc1 := (loopCounts g w s).lc1 } := by
  unfold loopCounts
  dsimp only
  split
  · split <;> rfl
  · rfl

/-- The ALU of a microword, from the state before its clk (R139). -/
def aluOf (w : MW) (now : DWord) (g : Engine) : AluOut :=
  alu w.aluop w.bsel (g.g w.srca) (if w.bsel then w.imm else g.g w.srcb) (g.g w.dst) now g.dp

/-- The device after the sticky conditions are cleared and the ALU has acted (R124, R139). -/
def aluDone (e : Nat) (w : MW) (d : Dev) : Dev :=
  let o := aluOf w d.tb.now (engine d e)
  let d2 := updDp e (fun _ => o.dp) (clearSticky e w.cbsel (clearSticky e w.casel d))
  match o.res with | some v => wrG e w.dst v d2 | none => d2

/-- The data actions that follow the ALU and the memory operation, from `d`; the microword met the device as `d0`. -/
def unitsDone (e : Nat) (w : MW) (scr : Ecc) (d0 d : Dev) : Dev :=
  let g := engine d0 e
  let taken := if w.shop = 1 ∨ w.shop = 2 then (slotFifo d0 e w.shsub).take w.count else []
  let x := doCrc e g w taken scr (doShift e g w taken (bgTake e d))
  if w.shop = 0 ∧ (w.shsub = 5 ∨ w.shsub = 6) then x else updDp e (btPass 1) x

/-- The device after every data action of a microword (R107, R108, R159). -/
def dataDone (e : Nat) (w : MW) (scr : Ecc) (d : Dev) : Dev :=
  let g := engine d e
  doEmit e w (doLoop e g w (unitsDone e w scr d (doMem e g w scr (aluDone e w d))))

/-- A microword is its data actions and its end. -/
theorem execMicro_eq (e : Fin 32) (w : MW) (scr : Ecc) (d : Dev) :
    execMicro e.val w scr d =
      (let x := dataDone e.val w scr d
      setEng e (x.engines[e].ended (isStream x e.val) x.clk w (successor d e.val w) (d.engines[e].seq.pc + 1)) x) := by
  have cut : execMicro e.val w scr d =
      (let x := dataDone e.val w scr d
      checkBudget e.val (doCtl e.val w (w.seqop == 4 || w.seqop == 9) (countClk e.val
        (updEng e.val (Engine.advancing x.clk w (successor d e.val w) ((engine d e.val).seq.pc + 1)) x)))) := rfl
  rw [cut]
  dsimp only
  rw [updEng_eq_setEng, countClk_eq, doCtl_eq, checkBudget_eq, engine_fin]
  simp only [setEng_engine, setEng_setEng]
  rfl

section
variable {e : Fin 32}

theorem aluDone_keeps (w : MW) (d : Dev) : Keeps controlOf e d (aluDone e.val w d) := by
  have cleared := ((clearSticky_keeps w.casel d).trans (clearSticky_keeps (e := e) w.cbsel _)).control
  have flags := cleared.trans (keeps_updDp (f := fun _ => (aluOf w d.tb.now (engine d e.val)).dp) (fun _ => rfl) _)
  unfold aluDone
  dsimp only
  split
  · exact flags.trans (wrG_keeps _ _ _)
  · exact flags

theorem unitsDone_keeps (w : MW) (scr : Ecc) (d0 d : Dev) : Keeps aluViewOf e d (unitsDone e.val w scr d0 d) := by
  have crc : ∀ g taken, Keeps aluViewOf e d (doCrc e.val g w taken scr (doShift e.val g w taken (bgTake e.val d))) := fun g taken =>
    ((bgTake_keeps d).trans (doShift_keeps g w taken _)).trans (doCrc_keeps g w taken scr _)
  exact .ite (crc _ _) ((crc _ _).trans (btPass_keeps 1 _))

/-- The data actions stay within the frame of an engine's clk; of the sequencer they change the loop counters. -/
theorem dataDone_frame (w : MW) (scr : Ecc) (d : Dev) :
    EngineFrame d (dataDone e.val w scr d) e ∧
      controlOf (dataDone e.val w scr d).engines[e] = (loopCounts d.engines[e] w d.engines[e].seq, d.engines[e].life) := by
  obtain ⟨frame, same⟩ := ((aluDone_keeps (e := e) w d).trans (doMem_keeps (engine d e.val) w scr _)).trans (unitsDone_keeps w scr d _).control
  unfold dataDone
  dsimp only
  generalize unitsDone e.val w scr d (doMem e.val (engine d e.val) w scr (aluDone e.val w d)) = x at frame same
  obtain ⟨frame', same'⟩ := (doEmit_keeps (e := e) w (doLoop e.val (engine d e.val) w x)).control
  rw [doLoop_eq, engine_fin] at frame' same'
  rw [doLoop_eq, engine_fin]
  have counted : EngineFrame x (setEng e { x.engines[e] with seq := loopCounts d.engines[e] w x.engines[e].seq } x) e := setEng_frame rfl rfl
  refine ⟨(frame.trans counted).trans frame', same'.trans ?_⟩
  obtain ⟨hs, hl⟩ := Prod.mk.inj same
  rw [setEng_engine, controlOf, hs, hl]

end

/-! ### What the end of a microword keeps -/

section
variable (stream : Bool) (clk : Nat) (w : MW) (nxt ret : BitVec 12) (g : Engine)

theorem parks_life {g h : Engine} (hl : h.life = g.life) : parks w h = parks w g := by unfold parks; rw [hl]
theorem swaps_life {g h : Engine} (hl : h.life = g.life) : swaps w h = swaps w g := by unfold swaps; rw [hl]

theorem counting_frame : g.counting stream = { g with seq := { g.seq with budcnt := (g.counting stream).seq.budcnt } } := by
  unfold Engine.counting
  split <;> rfl

theorem judging_frame : g.judging stream = { g with seq := { g.seq with overrun := (g.judging stream).seq.overrun } } := by
  unfold Engine.judging
  split <;> rfl

/-- The datapath, the control store and the scratch stay, also with a swap. -/
theorem ctl_frame (late : Bool) : g.ctl clk w late = { g with
    seq := (g.ctl clk w late).seq, ep := (g.ctl clk w late).ep, life := (g.ctl clk w late).life } := by
  unfold Engine.ctl
  dsimp only
  split_ifs <;> rfl

/-- CTL without a swap. -/
theorem ctl_noSwap (late : Bool) (h : swaps w g = false) : g.ctl clk w late =
    (let g1 := (if yields w then g.yielding else g).goingOn (clk + 1 + b2n late) late
    if parks w g then g1.parking else if w.ctlBreak && g.seq.brkEn || g.seq.step then g1.halting else g1) := by
  have hl : (if yields w then g.yielding else g).life = g.life := by split <;> rfl
  unfold Engine.ctl
  dsimp only
  rw [swaps_life w hl, parks_life w hl, h]
  cases yields w <;> rfl

/-- Without a swap the program stays where the successor has put it. -/
theorem ctl_seq (late : Bool) (h : swaps w g = false) : (g.ctl clk w late).seq = { g.seq with
    yielded := (g.ctl clk w late).seq.yielded, fresh := (g.ctl clk w late).seq.fresh, lastUse := (g.ctl clk w late).seq.lastUse
    maxUse := (g.ctl clk w late).seq.maxUse, reached := (g.ctl clk w late).seq.reached, step := (g.ctl clk w late).seq.step } := by
  rw [ctl_noSwap clk w g late h]
  dsimp only
  cases yields w <;> split_ifs <;> rfl

/-- A microword that yields leaves its engine yielded, its use of the tick noted (R130). -/
theorem ctl_yields (late : Bool) (h : yields w = true) (hs : swaps w g = false) :
    (g.ctl clk w late).seq.yielded = true ∧ (g.ctl clk w late).seq.fresh = false ∧ (g.ctl clk w late).seq.lastUse = g.seq.budcnt := by
  rw [ctl_noSwap clk w g late hs, if_pos h]
  dsimp only
  split_ifs <;> exact ⟨rfl, rfl, rfl⟩

/-- A microword that parks leaves its engine PARKED, no park pending (R169). -/
theorem ctl_parks (late : Bool) (h : parks w g = true) (hs : swaps w g = false) :
    (g.ctl clk w late).life.st = .parked ∧ (g.ctl clk w late).life.parkPend = false := by
  rw [ctl_noSwap clk w g late hs]
  dsimp only
  rw [if_pos h]
  exact ⟨rfl, rfl⟩

/-- Under STEP a microword that does not park leaves its engine HALTED (R127). -/
theorem ctl_steps (late : Bool) (h : parks w g = false) (hs : swaps w g = false) (h1 : g.seq.step = true) :
    (g.ctl clk w late).life.st = .halted ∧ (g.ctl clk w late).seq.step = false := by
  rw [ctl_noSwap clk w g late hs]
  dsimp only
  rw [h, h1, if_neg (by decide), if_pos (by simp)]
  exact ⟨rfl, rfl⟩

theorem ended_dp : (g.ended stream clk w nxt ret).dp = g.dp := by
  unfold Engine.ended
  rw [judging_frame, ctl_frame, counting_frame]
  rfl

theorem counted_life : ((g.advancing clk w nxt ret).counting stream).life = g.life := by rw [counting_frame]; rfl

variable {w g}

/-- Without a swap PC is the successor and the stack the one that the successor leaves; bank and loop counters stay. -/
theorem ended_program (h : swaps w g = false) :
    (g.ended stream clk w nxt ret).seq.pc = nxt ∧
    (g.ended stream clk w nxt ret).seq.stack = (g.advancing clk w nxt ret).seq.stack ∧
    (g.ended stream clk w nxt ret).seq.bank = g.seq.bank ∧ (g.ended stream clk w nxt ret).seq.lc0 = g.seq.lc0 ∧
    (g.ended stream clk w nxt ret).seq.lc1 = g.seq.lc1 := by
  have hs := (swaps_life w (counted_life stream clk w nxt ret g)).trans h
  unfold Engine.ended
  rw [judging_frame, ctl_seq clk w _ _ hs, counting_frame]
  exact ⟨rfl, rfl, rfl, rfl, rfl⟩

theorem ended_yields (h : yields w = true) (hs : swaps w g = false) :
    (g.ended stream clk w nxt ret).seq.yielded = true ∧ (g.ended stream clk w nxt ret).seq.fresh = false ∧
    (g.ended stream clk w nxt ret).seq.lastUse = (g.ended stream clk w nxt ret).seq.budcnt := by
  have hs := (swaps_life w (counted_life stream clk w nxt ret g)).trans hs
  obtain ⟨h1, h2, h3⟩ := ctl_yields clk w ((g.advancing clk w nxt ret).counting stream) (w.seqop == 4 || w.seqop == 9) h hs
  unfold Engine.ended
  rw [judging_frame]
  refine ⟨h1, h2, h3.trans ?_⟩
  rw [ctl_seq clk w _ _ hs]

theorem ended_parks (h : parks w g = true) (hs : swaps w g = false) :
    (g.ended stream clk w nxt ret).life.st = .parked ∧ (g.ended stream clk w nxt ret).life.parkPend = false := by
  have hl := counted_life stream clk w nxt ret g
  unfold Engine.ended
  rw [judging_frame]
  exact ctl_parks clk w _ _ ((parks_life w hl).trans h) ((swaps_life w hl).trans hs)

theorem ended_steps (h : parks w g = false) (hs : swaps w g = false) (h1 : g.seq.step = true) :
    (g.ended stream clk w nxt ret).life.st = .halted ∧ (g.ended stream clk w nxt ret).seq.step = false := by
  have hl := counted_life stream clk w nxt ret g
  have hstep : ((g.advancing clk w nxt ret).counting stream).seq.step = true := by rw [counting_frame]; exact h1
  unfold Engine.ended
  rw [judging_frame]
  exact ctl_steps clk w _ _ ((parks_life w hl).trans h) ((swaps_life w hl).trans hs) hstep

end

/-! ### A microword that executes -/

section
variable {e : Fin 32} {w : MW} {d : Dev}

/-- The stack after a microword: CALL pushes, RET pops (R114). -/
def stackAfter (w : MW) (q : Seq) : List (BitVec 12) :=
  if w.seqop = 5 then q.stack ++ [q.pc + 1] else if w.seqop = 6 then q.stack.dropLast else q.stack

/-- What a microword leaves: the frame of its engine's clk, and its end on an engine whose loop counters alone have changed. -/
theorem execMicro_ends (w : MW) (scr : Ecc) (d : Dev) : ∃ (stream : Bool) (clk : Nat) (g : Engine),
    controlOf g = (loopCounts d.engines[e] w d.engines[e].seq, d.engines[e].life) ∧
    EngineFrame d (execMicro e.val w scr d) e ∧
    (execMicro e.val w scr d).engines[e] = g.ended stream clk w (successor d e.val w) (d.engines[e].seq.pc + 1) := by
  obtain ⟨frame, same⟩ := dataDone_frame (e := e) w scr d
  have ended := execMicro_eq e w scr d
  dsimp only at ended
  generalize dataDone e.val w scr d = x at frame same ended
  refine ⟨_, _, x.engines[e], same, ?_, by rw [ended, setEng_engine]⟩
  rw [ended]
  refine frame.trans (setEng_frame ?_ ?_)
  all_goals
    unfold Engine.ended
    rw [judging_frame, ctl_frame, counting_frame]
    rfl

/-- Without a swap it continues at its successor. -/
theorem execMicro_went (hs : swaps w d.engines[e] = false) (scr : Ecc) :
    WentTo d (execMicro e.val w scr d) e (successor d e.val w) (stackAfter w d.engines[e].seq) := by
  obtain ⟨stream, clk, g, hg, frame, ended⟩ := execMicro_ends (e := e) w scr d
  obtain ⟨hq, hl⟩ := Prod.mk.inj hg
  rw [loopCounts_frame] at hq
  obtain ⟨pc, stack, bank, -, -⟩ := ended_program stream clk (successor d e.val w) (d.engines[e].seq.pc + 1) ((swaps_life w hl).trans hs)
  rw [← ended] at pc stack bank
  refine ⟨frame, pc, stack.trans ?_, bank.trans (by rw [hq])⟩
  unfold Engine.advancing stackAfter
  dsimp only
  rw [hq]

theorem execMicro_loops (h : w.seqop = 7) (hs : swaps w d.engines[e] = false) (scr : Ecc) :
    let c := if w.lsel then d.engines[e].seq.lc1 else d.engines[e].seq.lc0
    let q := (execMicro e.val w scr d).engines[e].seq
    (if w.lsel then q.lc1 else q.lc0) = if c = 0 then 0 else c - 1 := by
  obtain ⟨stream, clk, g, hg, -, ended⟩ := execMicro_ends (e := e) w scr d
  obtain ⟨hq, hl⟩ := Prod.mk.inj hg
  obtain ⟨-, -, -, lc0, lc1⟩ := ended_program stream clk (successor d e.val w) (d.engines[e].seq.pc + 1) ((swaps_life w hl).trans hs)
  rw [← ended, hq] at lc0 lc1
  dsimp only
  rw [lc0, lc1]
  exact loopCounts_tested _ h _

theorem execMicro_yields (h : yields w = true) (hs : swaps w d.engines[e] = false) (scr : Ecc) :
    let q := (execMicro e.val w scr d).engines[e].seq
    q.yielded = true ∧ q.fresh = false ∧ q.lastUse = q.budcnt := by
  obtain ⟨stream, clk, g, hg, -, ended⟩ := execMicro_ends (e := e) w scr d
  rw [ended]
  exact ended_yields stream clk _ _ h ((swaps_life w (Prod.mk.inj hg).2).trans hs)

theorem execMicro_parks (h : parks w d.engines[e] = true) (hs : swaps w d.engines[e] = false) (scr : Ecc) :
    let l := (execMicro e.val w scr d).engines[e].life
    l.st = .parked ∧ l.parkPend = false := by
  obtain ⟨stream, clk, g, hg, -, ended⟩ := execMicro_ends (e := e) w scr d
  have hl := (Prod.mk.inj hg).2
  rw [ended]
  exact ended_parks stream clk _ _ ((parks_life w hl).trans h) ((swaps_life w hl).trans hs)

theorem execMicro_steps (h : parks w d.engines[e] = false) (hs : swaps w d.engines[e] = false) (h1 : d.engines[e].seq.step = true)
    (scr : Ecc) :
    let g := (execMicro e.val w scr d).engines[e]
    g.life.st = .halted ∧ g.seq.step = false := by
  obtain ⟨stream, clk, g, hg, -, ended⟩ := execMicro_ends (e := e) w scr d
  obtain ⟨hq, hl⟩ := Prod.mk.inj hg
  rw [loopCounts_frame] at hq
  rw [ended]
  exact ended_steps stream clk _ _ ((parks_life w hl).trans h) ((swaps_life w hl).trans hs) (by rw [hq]; exact h1)

end

end Sys2Proof.Machine
end

section
/-!
PROOFS. The statements of 03_engine_sequencer.md: the rows of the table of successors, YIELD, PARK, FAULT and overruns.
-/
namespace Sys2Proof.Machine

/-! ### Rows of the sequencer -/

theorem exec_fault (e : Fin 32) (cs scr : Ecc) (s : State) : exec (.fault e cs scr) s = act (engineRow (·.seqop == 0) e.val cs scr) s := rfl

/-- The row of a microword that executes does so in the clk in which it is due. -/
theorem act_executes {e : Fin 32} {cs : Ecc} {s : State} (h : executes s.dev e cs) {p : MW → Bool}
    (hp : p s.dev.engines[e].current = true) (scr : Ecc) :
    act (engineRow p e.val cs scr) s = .next { s with dev := execMicro e.val s.dev.engines[e].current scr (due s.dev e) } := by
  rw [act_eq, engineRow_executes h p (by rw [engine_fin]; exact hp)]

/-- Up to the clk in which it is due, an engine keeps its lifecycle and, of its sequencer, all but the budget count. -/
theorem due_life (d : Dev) (e : Fin 32) : (due d e).engines[e].life = d.engines[e].life := by rw [due_same d e e]

theorem due_seq (d : Dev) (e : Fin 32) : (due d e).engines[e].seq =
    { d.engines[e].seq with budcnt := (due d e).engines[e].seq.budcnt, overrun := (due d e).engines[e].seq.overrun } := by
  rw [due_same d e e]

theorem swaps_of_noSwap {d : Dev} {e : Fin 32} (h : noSwap d e) : swaps d.engines[e].current d.engines[e] = false := by
  unfold noSwap at h
  rw [engine_fin] at h
  unfold swaps
  rcases h with h | h
  · rw [h, Bool.false_and]
  · rw [beq_false_of_ne h, Bool.and_false]

section
variable {e : Fin 32} {cs : Ecc} {s : State} {pc : BitVec 12} {stack : List (BitVec 12)}

/-- Without a swap it continues at its successor. -/
theorem due_went (hn : noSwap s.dev e) (scr : Ecc) (hpc : successor (due s.dev e) e.val s.dev.engines[e].current = pc)
    (hst : stackAfter s.dev.engines[e].current s.dev.engines[e].seq = stack) :
    WentTo (due s.dev e) (execMicro e.val s.dev.engines[e].current scr (due s.dev e)) e pc stack := by
  have hs := swaps_of_noSwap hn
  have went := execMicro_went (d := due s.dev e) ((swaps_life _ (due_life s.dev e)).trans hs) scr
  rw [hpc, due_seq] at went
  exact hst ▸ went

/-- A row of the table of successors. -/
theorem row_went (h : executes s.dev e cs) (hn : noSwap s.dev e) {p : MW → Bool} (hp : p s.dev.engines[e].current = true) (scr : Ecc)
    (hpc : successor (due s.dev e) e.val s.dev.engines[e].current = pc)
    (hst : stackAfter s.dev.engines[e].current s.dev.engines[e].seq = stack) :
    ∃ t : Dev, act (engineRow p e.val cs scr) s = .next { s with dev := t } ∧ WentTo (due s.dev e) t e pc stack :=
  ⟨_, act_executes h hp scr, due_went hn scr hpc hst⟩

end

/-- Only CALL and RET change the stack. -/
theorem stackAfter_same {w : MW} {k : Nat} (h : w.seqop = k) (q : Seq) (h5 : k ≠ 5 := by decide) (h6 : k ≠ 6 := by decide) :
    stackAfter w q = q.stack := by
  unfold stackAfter
  rw [h, if_neg h5, if_neg h6]

theorem stackAfter_call {w : MW} (h : w.seqop = 5) (q : Seq) : stackAfter w q = q.stack ++ [q.pc + 1] := if_pos h

theorem stackAfter_ret {w : MW} (h : w.seqop = 6) (q : Seq) : stackAfter w q = q.stack.dropLast := by
  unfold stackAfter
  rw [h]
  rfl

/-! ### Successors (R110) -/

/-- Bits of an address whose low `k` bits are replaced by the number `c`. -/
theorem bit_lowReplaced (v : BitVec 12) {k c : Nat} (hc : c < 2 ^ k) {i : Nat} (hi : i < 12) :
    bit (BitVec.ofNat 12 (v.toNat / 2 ^ k * 2 ^ k + c)) i = if i < k then c.testBit i else bit v i := by
  rw [bit, BitVec.getLsbD_ofNat, Nat.mul_comm, Nat.testBit_two_pow_mul_add _ hc]
  simp only [hi, decide_true, Bool.true_and]
  split
  · rfl
  · rw [Nat.testBit_div_two_pow, bit, BitVec.getLsbD, Nat.sub_add_cancel (by omega)]

theorem eq_of_bit {n : Nat} {v w : BitVec n} (h : ∀ i < n, bit v i = bit w i) : v = w := BitVec.eq_of_getLsbD_eq h

/-- Bit 0 replaced by A (BR2). -/
theorem br2_address (v : BitVec 12) (a : Bool) : BitVec.ofNat 12 (v.toNat / 2 * 2 + b2n a) = setBit v 0 a := by
  refine eq_of_bit fun i hi => ?_
  have hc : b2n a < 2 ^ 1 := by cases a <;> decide
  have h := bit_lowReplaced v hc hi
  rw [pow_one] at h
  rw [h, bit_setBit v (by omega)]
  rcases Nat.eq_zero_or_pos i with rfl | hp
  · cases a <;> rfl
  · rw [if_neg (by omega), if_neg (by omega)]

/-- Bits 1 and 0 replaced by B and A (BR4). -/
theorem br4_address (v : BitVec 12) (a b : Bool) :
    BitVec.ofNat 12 (v.toNat / 4 * 4 + 2 * b2n b + b2n a) = setBit (setBit v 0 a) 1 b := by
  refine eq_of_bit fun i hi => ?_
  have hc : 2 * b2n b + b2n a < 2 ^ 2 := by cases a <;> cases b <;> decide
  rw [Nat.add_assoc, show (4 : Nat) = 2 ^ 2 by rfl, bit_lowReplaced v hc hi, bit_setBit _ (by omega), bit_setBit _ (by omega)]
  obtain rfl | rfl | h2 : i = 0 ∨ i = 1 ∨ 2 ≤ i := by omega
  · cases a <;> cases b <;> rfl
  · cases a <;> cases b <;> rfl
  · rw [if_neg (by omega), if_neg (by omega), if_neg (by omega)]

section
variable {d : Dev} {e : Fin 32} {w : MW}

theorem successor_next (h : w.seqop = 1) : successor d e.val w = d.engines[e].seq.pc + 1 := by simp only [successor, h, engine_fin]
theorem successor_br2 (h : w.seqop = 3) : successor d e.val w = setBit w.naddr 0 (condA d e.val w) := by
  simp only [successor, h, br2_address]
theorem successor_br4 (h : w.seqop = 4) : successor d e.val w = setBit (setBit w.naddr 0 (condA d e.val w)) 1 (condB d e.val w) := by
  simp only [successor, h, br4_address]
theorem successor_ret (h : w.seqop = 6) : successor d e.val w = d.engines[e].seq.stack.getLastD 0 := by
  simp only [successor, h, engine_fin]
theorem successor_loop (h : w.seqop = 7) : successor d e.val w =
    if (if w.lsel then d.engines[e].seq.lc1 else d.engines[e].seq.lc0) ≠ 0 then w.naddr else d.engines[e].seq.pc + 1 := by
  simp only [successor, h, engine_fin]
theorem successor_dispatch (h : w.seqop = 9) : successor d e.val w =
    w.naddr ||| (((if bit w.aux 8 then bf d.engines[e].dp.sh 0 8 else bf (d.engines[e].g w.srca) 0 8) &&& bf w.aux 0 8).zeroExtend 12) := by
  simp only [successor, h, engine_fin]
/-- JUMP, CALL, WAIT, YIELD and PARK continue at NADDR. -/
theorem successor_naddr (h : w.seqop = 2 ∨ w.seqop = 5 ∨ w.seqop = 8 ∨ w.seqop = 10 ∨ w.seqop = 11) : successor d e.val w = w.naddr := by
  rcases h with h | h | h | h | h <;> simp only [successor, h]

/-- Every stall cause has a code other than 0. -/
theorem causes_ne_zero : ∀ c ∈ openCauses d e.val w ++ fixedCauses d e.val w, c ≠ 0 := by
  have one : ∀ {p : Prop} [Decidable p] {k c : Nat}, k ≠ 0 → c ∈ (if p then [k] else []) → c ≠ 0 := fun hk hc => by
    split at hc
    · rwa [List.mem_singleton.1 hc]
    · cases hc
  intro c hc
  simp only [openCauses, fixedCauses, List.mem_append] at hc
  rcases hc with ((((((hc | hc) | hc) | hc) | hc) | hc) | hc) | hc | hc <;> exact one (by decide) hc

/-- The lowest of codes other than 0 is none of them only where there are none. -/
theorem lowest_ne_zero {l : List Nat} (hl : ∀ c ∈ l, c ≠ 0) {m : Nat} (h : m ≠ 0 ∨ l ≠ []) :
    l.foldl (fun m c => if m = 0 then c else min m c) m ≠ 0 := by
  induction l generalizing m with
  | nil => exact h.resolve_right (· rfl)
  | cons c r ih =>
    have hc := hl c List.mem_cons_self
    refine ih (fun x hx => hl x (List.mem_cons_of_mem c hx)) (.inl ?_)
    dsimp only
    split <;> omega

/-- A WAIT that does not stall finds its condition true. -/
theorem condA_of_stallCause (h : w.seqop = 8) (hs : stallCause d e.val w = 0) : condA d e.val w = true := by
  by_contra hA
  have lacks : 10 ∈ openCauses d e.val w := by simpa [openCauses, h] using hA
  exact lowest_ne_zero causes_ne_zero (m := 0) (.inr (List.ne_nil_of_mem (List.mem_append_left _ lacks))) hs

/-- A RET without a violation finds a return address. -/
theorem stack_of_violations (h : w.seqop = 6) (hv : violations d e.val w = []) : d.engines[e].seq.stack ≠ [] := fun hs => by
  have hi : illegal d e.val w = false := by
    cases hi : illegal d e.val w with
    | false => rfl
    | true =>
      obtain ⟨r, hr⟩ := violations_illegal hi
      rw [hr] at hv
      cases hv
  obtain ⟨r, hr⟩ := violations_ret hi h hs
  rw [hr] at hv
  cases hv

end

/-- Settles O16: each row by its successor and the stack that it leaves. -/
theorem sequencerSuccessors : Obligations.SequencerSuccessors := by
  unfold Obligations.SequencerSuccessors
  intro e cs scr s h hn d g w
  have hq : d.engines[e].seq = { g.seq with budcnt := d.engines[e].seq.budcnt, overrun := d.engines[e].seq.overrun } := due_seq s.dev e
  have ⟨_, _, hv, hstall, _⟩ := h
  refine ⟨fun h1 => ?_, fun h2 => ?_, fun h3 => ?_, fun h4 => ?_, fun h5 => ?_, fun h6 => ?_, fun h7 => ?_, fun h8 => ?_, fun h9 => ?_⟩
  · exact row_went h hn (by simp only [Bool.or_eq_true, beq_iff_eq]; exact .inl h1) scr ((successor_next h1).trans (by rw [hq]))
      (stackAfter_same h1 _)
  · exact row_went h hn (by simpa) scr (successor_naddr (.inl h2)) (stackAfter_same h2 _)
  · exact row_went h hn (by simpa) scr (successor_br2 h3) (stackAfter_same h3 _)
  · exact row_went h hn (by simpa) scr (successor_br4 h4) (stackAfter_same h4 _)
  · exact row_went h hn (by simpa) scr (successor_naddr (.inr (.inl h5))) (stackAfter_call h5 _)
  · have hne : g.seq.stack ≠ [] := by
      have := stack_of_violations h6 hv
      rw [hq] at this
      exact this
    obtain ⟨t, ht, went⟩ := row_went (p := (·.seqop == 6)) h hn (by simpa) scr (successor_ret h6) (stackAfter_ret h6 _)
    refine ⟨t, g.seq.stack.getLast hne, g.seq.stack.dropLast, (List.dropLast_append_getLast hne).symm, ht, ?_⟩
    rwa [hq, List.getLastD_eq_getLast?, List.getLast?_eq_getLast_of_ne_nil hne, Option.getD_some] at went
  · refine ⟨_, act_executes (p := (·.seqop == 7)) h (by simpa) scr,
      due_went hn scr ((successor_loop h7).trans (by rw [hq])) (stackAfter_same h7 _), ?_⟩
    have hs := (swaps_life _ (due_life s.dev e)).trans (swaps_of_noSwap hn)
    have count := execMicro_loops (d := d) h7 hs scr
    rw [hq] at count
    exact count
  · exact ⟨condA_of_stallCause h8 hstall, row_went h hn (by simpa) scr (successor_naddr (.inr (.inr (.inl h8)))) (stackAfter_same h8 _)⟩
  · exact row_went h hn (by simpa) scr (successor_dispatch h9) (stackAfter_same h9 _)

/-! ### FAULT and overruns -/

/-- A FAULT without another violation of its own codes: cause 5 with detail AUX (R110). -/
theorem violations_fault {d : Dev} {e : Fin 32} {w : MW} (h : w.seqop = 0) (hi : illegal d e.val w = false) :
    violations d e.val w = [(5, w.aux.zeroExtend 32)] := by
  unfold violations
  simp [h, hi]

/-- A whole microword that neither stalls nor violates its port and whose codes violate once freezes its engine with that cause alone. -/
theorem microClk_oneViolation {d : Dev} {e : Fin 32} {cs : Ecc} (scr : Ecc) (h : fetched d.engines[e] cs)
    (hs : stallCause d e.val d.engines[e].current = 0) {c : Nat} {x : Word} (hv : violations d e.val d.engines[e].current = [(c, x)])
    (hp : portViolations d e.val d.engines[e].current = []) :
    microClk e.val cs scr d = freezeEngine e.val c false false x d := by
  obtain ⟨hue, hce⟩ := h
  have h1 : ¬ (cs = .ce ∧ (!d.engines[e].seq.fixed) = true) := fun ⟨a, b⟩ => by
    rw [hce a] at b
    cases b
  unfold microClk
  simp only [engine_fin, if_neg hue, if_neg h1, hs, hv, hp]
  rfl

/-- A freeze, its record and the engine it leaves. -/
theorem freezeEngine_eq (e : Fin 32) (c : Nat) (multi boundary : Bool) (x : Word) (d : Dev) :
    freezeEngine e.val c multi boundary x d =
      freezeRecord e.val c multi boundary x.toNat (d.engines[e].seq.pc.toNat + 4096 * b2n d.engines[e].seq.bank)
        (setEng e (frozenEngine d e c multi x d.engines[e]) d) := by
  have hpc : (BitVec.ofNat 13 (d.engines[e].seq.pc.toNat + 4096 * b2n d.engines[e].seq.bank)).toNat =
      d.engines[e].seq.pc.toNat + 4096 * b2n d.engines[e].seq.bank := by
    have := d.engines[e].seq.pc.isLt
    rw [BitVec.toNat_ofNat, Nat.mod_eq_of_lt]
    cases d.engines[e].seq.bank <;> simp [b2n] <;> omega
  unfold freezeEngine updEp updLife updSeq
  simp only [engine_fin, updEng_eq_setEng, setEng_engine, setEng_setEng]
  rw [hpc]
  rfl

theorem exec_budgetOverrun (e : Fin 32) (s : State) : exec (.budgetOverrun e) s = actClk (budgetOverrun e.val) s := rfl

/-- Settles O17: how a microword that yields or parks ends, the freeze of a FAULT, and the latch of an overrun. -/
theorem yieldParkAndFault : Obligations.YieldParkAndFault := by
  unfold Obligations.YieldParkAndFault
  refine ⟨fun e cs scr s h hn => ?_, fun e cs scr s => ?_, fun e s h hx => ?_⟩
  · intro d g w
    have hs := (swaps_life _ (due_life s.dev e)).trans (swaps_of_noSwap hn)
    refine ⟨fun h10 => ?_, fun h11 => ?_⟩
    · have hy : yields w = true := by unfold yields; rw [h10]; rfl
      exact ⟨_, act_executes h (by simpa) scr, due_went hn scr (successor_naddr (.inr (.inr (.inr (.inl h10))))) (stackAfter_same h10 _),
        execMicro_yields hy hs scr⟩
    · have hp : parks w d.engines[e] = true := by unfold parks; rw [h11]; rfl
      exact ⟨_, act_executes h (by simpa) scr, due_went hn scr (successor_naddr (.inr (.inr (.inr (.inr h11))))) (stackAfter_same h11 _),
        execMicro_parks hp hs scr⟩
  · intro d g w h h0 hf hi hs hp
    have hc : s.dev.engines[e].current = w := (due_current s.dev e).symm
    have shown : shownCause d e.val = 0 := (shownCause_due h).trans hs
    rw [exec_fault, act_eq, engineRow_due h (by rw [hc]; simpa), microClk_oneViolation scr hf hs (violations_fault h0 hi) hp, freezeEngine_eq,
      frozenEngine, shown, show (w.aux.zeroExtend 32).toNat = w.aux.toNat from BitVec.toNat_setWidth_of_le (by decide)]
    rfl
  · intro q d g
    obtain ⟨hf, -, -, -⟩ := (canRun_iff s.dev e).1 h
    rw [exec_budgetOverrun, actClk_on _ hf]
    refine next_eq s ?_
    unfold budgetOverrun
    rw [h, hx, engine_fin]
    cases ho : q.overrun with
    | true => exact if_neg (by simp)
    | false =>
      rw [if_pos (by simp)]
      exact updEng_put e _ _

end Sys2Proof.Machine
end

section
/-!
PROOFS. The statements of 04_engine_datapath.md: ADD and SUB with their flags.
-/
namespace Sys2Proof.Machine

/-! ### Exact results -/

/-- V of a sum: the exact signed result lies outside 32 bits (R139). -/
theorem addOverflow_iff (a b : Word) :
    (bit a 31 == bit b 31 && bit (a + b) 31 != bit a 31) = decide (a.toInt + b.toInt < -2 ^ 31 ∨ 2 ^ 31 ≤ a.toInt + b.toInt) := by
  have msb : ∀ v : Word, v.msb = bit v 31 := BitVec.msb_eq_getLsbD_last
  have h := BitVec.saddOverflow_eq a b
  rw [msb, msb, msb] at h
  rw [Bool.decide_or, Bool.or_comm]
  exact h.symm

/-- V of a difference. -/
theorem subOverflow_iff (a b : Word) :
    (bit a 31 != bit b 31 && bit (a - b) 31 != bit a 31) = decide (a.toInt - b.toInt < -2 ^ 31 ∨ 2 ^ 31 ≤ a.toInt - b.toInt) := by
  have msb : ∀ v : Word, v.msb = bit v 31 := BitVec.msb_eq_getLsbD_last
  have h := BitVec.ssubOverflow_eq a b
  rw [msb, msb, msb] at h
  rw [Bool.decide_or, Bool.or_comm]
  refine Eq.trans ?_ h.symm
  cases bit a 31 <;> cases bit b 31 <;> cases bit (a - b) 31 <;> rfl

/-- ADD: the sum modulo 2^32 and its flags. -/
theorem flagsAdd_exact (a b : Word) (p : Dp) : flagsAdd a b false p = (a + b, { p with
    z := decide (a + b = 0), n := bit (a + b) 31, c := decide (2 ^ 32 ≤ a.toNat + b.toNat)
    v := decide (a.toInt + b.toInt < -2 ^ 31 ∨ 2 ^ 31 ≤ a.toInt + b.toInt) }) := by
  have hr : BitVec.ofNat 32 (a.toNat + b.toNat + b2n false) = a + b := by simp [b2n, BitVec.ofNat_add]
  unfold flagsAdd
  dsimp only
  rw [hr, addOverflow_iff]
  rfl

/-- SUB: the difference modulo 2^32 and its flags, C without a borrow. -/
theorem flagsSub_exact (a b : Word) (p : Dp) : flagsSub a b false p = (a - b, { p with
    z := decide (a - b = 0), n := bit (a - b) 31, c := decide (b.toNat ≤ a.toNat)
    v := decide (a.toInt - b.toInt < -2 ^ 31 ∨ 2 ^ 31 ≤ a.toInt - b.toInt) }) := by
  have hr : a - b - BitVec.ofNat 32 (b2n false) = a - b := BitVec.sub_zero _
  unfold flagsSub
  dsimp only
  rw [hr, subOverflow_iff]
  rfl

/-! ### From the ALU to the end of the microword -/

section
variable {e : Fin 32} {w : MW}

/-- Without a memory operation, registers and flags stand at the end of a microword as the ALU has left them, also with a swap. -/
theorem execMicro_alu (h : w.memop = 0) (scr : Ecc) (d : Dev) :
    (aluViewOf (execMicro e.val w scr d).engines[e]).2 = (aluViewOf (aluDone e.val w d).engines[e]).2 := by
  have units := (unitsDone_keeps (e := e) w scr d (aluDone e.val w d)).2
  have emitted := (doEmit_keeps (e := e) w (doLoop e.val (engine d e.val) w (unitsDone e.val w scr d (aluDone e.val w d)))).2
  rw [doLoop_eq, setEng_engine, ← doLoop_eq] at emitted
  have data : dataDone e.val w scr d = doEmit e.val w (doLoop e.val (engine d e.val) w (unitsDone e.val w scr d (aluDone e.val w d))) := by
    unfold dataDone
    dsimp only
    rw [doMem_none h]
  calc (aluViewOf (execMicro e.val w scr d).engines[e]).2
      = (aluViewOf (dataDone e.val w scr d).engines[e]).2 := by
        rw [execMicro_eq]
        dsimp only
        rw [setEng_engine]
        unfold aluViewOf
        rw [ended_dp]
    _ = (aluViewOf (unitsDone e.val w scr d (aluDone e.val w d)).engines[e]).2 := by
        rw [data]
        exact (congrArg Prod.snd emitted).trans rfl
    _ = (aluViewOf (aluDone e.val w d).engines[e]).2 := congrArg Prod.snd units

/-- An ALU operation with result `r` leaves `r` in DST and the flags of its datapath. -/
theorem aluDone_writes {d : Dev} {r : Word} {q : Dp} (h : aluOf w d.tb.now d.engines[e] = { res := some r, dp := q }) :
    (aluViewOf (aluDone e.val w d).engines[e]).2 = (put? q.g w.dst r, q.z, q.n, q.c, q.v) := by
  unfold aluDone
  rw [engine_fin, h]
  dsimp only
  unfold wrG updDp
  rw [updEng_eq_setEng, updEng_eq_setEng, setEng_engine, setEng_engine]
  rfl

theorem dst_lt (w : MW) : w.dst < 16 := Nat.mod_lt _ (by decide)

/-- So DST holds the result and the flags are those of the ALU at the end of the microword; the other registers stay. -/
theorem execMicro_writes {d : Dev} {r : Word} {z n c v : Bool} (hm : w.memop = 0)
    (h : aluOf w d.tb.now d.engines[e] = { res := some r, dp := { d.engines[e].dp with z := z, n := n, c := c, v := v } }) (scr : Ecc) :
    let p := (execMicro e.val w scr d).engines[e].dp
    at? p.g w.dst 0 = r ∧ (∀ k : Nat, k ≠ w.dst → at? p.g k 0 = at? d.engines[e].dp.g k 0) ∧ p.z = z ∧ p.n = n ∧ p.c = c ∧ p.v = v := by
  have view := (execMicro_alu hm scr d).trans (aluDone_writes h)
  simp only [aluViewOf, Prod.mk.injEq] at view
  obtain ⟨hg, hz, hn, hc, hv⟩ := view
  refine ⟨?_, fun k hk => ?_, hz, hn, hc, hv⟩
  · rw [hg, at?_lt _ _ _ (dst_lt w), getElem_put?, if_pos rfl]
  · rw [hg]
    by_cases hlt : k < 16
    · rw [at?_lt _ _ _ hlt, getElem_put?, if_neg hk.symm, at?_lt _ _ _ hlt]
    · rw [at?_ge _ _ _ (Nat.le_of_not_lt hlt), at?_ge _ _ _ (Nat.le_of_not_lt hlt)]

theorem aluOf_add (h : w.aluop = 2) (now : DWord) (g : Engine) :
    aluOf w now g =
      (let x := flagsAdd (g.g w.srca) (if w.bsel then w.imm else g.g w.srcb) false g.dp
      { res := some x.1, dp := x.2 }) := by
  unfold aluOf
  rw [h]
  rfl

theorem aluOf_sub (h : w.aluop = 4) (now : DWord) (g : Engine) :
    aluOf w now g =
      (let x := flagsSub (g.g w.srca) (if w.bsel then w.imm else g.g w.srcb) false g.dp
      { res := some x.1, dp := x.2 }) := by
  unfold aluOf
  rw [h]
  rfl

end

/-- Settles O19: the flags of the exact result, kept from the ALU to the end of the microword. -/
theorem enginesAddAndSubtractWithFlags : Obligations.EnginesAddAndSubtractWithFlags := by
  unfold Obligations.EnginesAddAndSubtractWithFlags
  intro e cs scr s h g w h1 hm ho
  have hw : s.dev.engines[e].current = w := (due_current s.dev e).symm
  have row := act_executes (p := fun w => w.seqop == 1 || 12 ≤ w.seqop) h
    (by simp only [Bool.or_eq_true, beq_iff_eq]; exact .inl (hw ▸ h1)) scr
  rw [hw] at row
  refine ⟨_, row, ?_⟩
  rcases ho with ho | ho
  · have sum := aluOf_add ho (due s.dev e).tb.now g
    rw [flagsAdd_exact] at sum
    obtain ⟨hr, hk, hz, hn, hc, hv⟩ := execMicro_writes hm sum scr
    rw [ho]
    exact ⟨hr, hk, hz, hn, fun _ => ⟨hc, hv⟩, fun h4 => absurd h4 (by decide)⟩
  · have difference := aluOf_sub ho (due s.dev e).tb.now g
    rw [flagsSub_exact] at difference
    obtain ⟨hr, hk, hz, hn, hc, hv⟩ := execMicro_writes hm difference scr
    rw [ho]
    exact ⟨hr, hk, hz, hn, fun h2 => absurd h2 (by decide), fun _ => ⟨hc, hv⟩⟩

end Sys2Proof.Machine
end

section
/-!
PROOFS. The statements of 05_engine_life.md: the control-store window, RESUME and STEP.
-/
namespace Sys2Proof.Machine

/-! ### Registers of an engine -/

theorem regStore_en {e : Fin 32} {o : Nat} (ho : o < 0x400) (who : Who) (v : Word) (d : Dev) :
    regStore who (enOff e o) v d = enWrite who e.val o v d := by
  have h1 : (0x10000 + 0x400 * e.val + o - 0x10000) / 0x400 = e.val := by omega
  have h2 : (0x10000 + 0x400 * e.val + o) % 0x400 = o := by omega
  unfold enOff
  simp (disch := omega) only [regStore, if_neg, if_pos]
  rw [h1, h2]

theorem wordWrite_en {who : Who} {e : Fin 32} {o : Nat} {d d1 : Dev} (h : reached who (enOff e o) d = some d1) (v : Word) (h4 : o % 4 = 0)
    (ho : o < 0x400) : wordWrite who (enOff e o) v 0xF d = enWrite who e.val o v d1 := by
  rw [wordWrite_eq_regStore h v (by unfold enOff; omega) (by unfold enOff; omega), regStore_en ho]

/-- A command that writes a register of an engine. -/
theorem act_en {who : Who} {e : Fin 32} {o : Nat} {s : State} {d : Dev} (h : reached who (enOff e o) s.dev = some d) (v : Word)
    (h4 : o % 4 = 0) (ho : o < 0x400) : act (wordWrite who (enOff e o) v 0xF) s = .next { s with dev := enWrite who e.val o v d } := by
  rw [act_eq, wordWrite_en h v h4 ho]

section
variable (who : Who) (e : Fin 32) (v : Word) (s : State)

theorem exec_entryset : exec (.entryset who e v) s = act (wordWrite who (enOff e 0x20C) v 0xF) s := rfl
theorem exec_csaddrWrite : exec (.csaddrWrite who e v) s = act (wordWrite who (enOff e 0x248) v 0xF) s := rfl
theorem exec_csdataWrite : exec (.csdataWrite who e v) s = act (wordWrite who (enOff e 0x25C) v 0xF) s := rfl
theorem exec_resume : exec (.resume who e v) s = act (wordWrite who (enOff e 0x020) v 0xF) s := rfl
theorem exec_step (cs scr : Ecc) : exec (.step who e v cs scr) s = act (stepRow who e v cs scr) s := rfl

theorem enWrite_dbg (e : Nat) (d : Dev) : enWrite who e 0x020 v d = enDbgWrite e v .ok .ok d := rfl
theorem enWrite_entryset (e : Nat) (d : Dev) : enWrite who e 0x20C v d = entrySet e v d := rfl
theorem enWrite_csaddr (e : Nat) (d : Dev) : enWrite who e 0x248 v d = csAddrWrite e v d := rfl
theorem enWrite_csdata3 (e : Nat) (d : Dev) :
    enWrite who e 0x25C v d = csDataWrite e 3 v (bistAbortBank e (engine d e).life.csBank d) := rfl

end

/-! ### Banks that accept writes -/

theorem rejectCs_eq (e : Fin 32) (d : Dev) : rejectCs e.val d = setEng e { d.engines[e] with
    life := { d.engines[e].life with csRej := satInc d.engines[e].life.csRej, result := 8 } } d := updEng_put e _ d

theorem writeCs_eq (e : Fin 32) (bank : Bool) (a : Nat) (w : MW) (d : Dev) : writeCs e.val bank a w d = setEng e { d.engines[e] with
    cs0 := if bank then d.engines[e].cs0 else store 0 d.engines[e].cs0 a w
    cs1 := if bank then store 0 d.engines[e].cs1 a w else d.engines[e].cs1 } d := by
  cases bank <;> exact updEng_put e _ d

/-- A write of EN_ENTRYSET (R176). -/
theorem entrySet_eq (e : Fin 32) (v : Word) (d : Dev) :
    entrySet e.val v d = setEng e (
      if bankWritable d e.val (bit v 31) = false then
        { d.engines[e] with life := { d.engines[e].life with csRej := satInc d.engines[e].life.csRej, result := 8 } }
      else if bit v 31 then { d.engines[e] with seq := { d.engines[e].seq with entry1 := bf v 0 12, rp1 := bf v 16 12 } }
      else { d.engines[e] with seq := { d.engines[e].seq with entry0 := bf v 0 12, rp0 := bf v 16 12 } }) d := by
  unfold entrySet
  dsimp only
  cases bankWritable d e.val (bit v 31) with
  | false => exact rejectCs_eq e d
  | true => cases bit v 31 <;> exact updEng_put e _ d

/-- Whether a bank accepts writes is a matter of the engines. -/
theorem bankWritable_engines {d t : Dev} (h : t.engines = d.engines) (e : Nat) (b : Bool) : bankWritable t e b = bankWritable d e b := by
  unfold bankWritable inXplant engine
  rw [h]

/-- The window's fields do not decide it. -/
theorem bankWritable_csData (e : Fin 32) (x : Vector Word 4) (b : Bool) (d : Dev) :
    bankWritable (setEng e { d.engines[e] with life := { d.engines[e].life with csData := x } } d) e.val b = bankWritable d e.val b := by
  have same : ∀ k : Nat, (engine (setEng e { d.engines[e] with life := { d.engines[e].life with csData := x } } d) k).life.xpend =
      (engine d k).life.xpend := fun k => by
    have h := engine_updEng e.val k (fun g => { g with life := { g.life with csData := x } }) d
    rw [updEng_eq_setEng] at h
    rw [h]
    split <;> rfl
  unfold bankWritable inXplant
  simp only [same, engine_fin, setEng_engine]

/-- An ended self-test changes the test unit, and raises. -/
theorem bistAbort_frame (p : Nat → Nat → Bool) (d : Dev) :
    bistAbort p d = { d with bist := (bistAbort p d).bist, ev := (bistAbort p d).ev
                             hr := { d.hr with relays := (bistAbort p d).hr.relays } } := by
  unfold bistAbort
  split
  · rename_i r _
    split
    · have h := raiseIf_frame (!r.rot) 0x618 (updBist (fun b => { b with run := none, result := 4 }) d)
      generalize raiseIf (!r.rot) 0x618 (updBist (fun b => { b with run := none, result := 4 }) d) = t at h ⊢
      unfold EvFrame at h
      rw [h]
      rfl
    · rfl
  · rfl

/-! ### The window (R196) -/

/-- The microword that EN_CSDATA3 completes. -/
def windowWord (v : Word) (l : Life) : MW := v ++ l.csData[2] ++ l.csData[1] ++ l.csData[0]

/-- The engine after a write of EN_CSDATA3 to a bank that accepts writes, or not. -/
def Engine.windowWritten (ok : Bool) (v : Word) (g : Engine) : Engine :=
  let l := { g.life with csData := put? g.life.csData 3 v, csAddr := g.life.csAddr + 1 }
  if ok then
    { g with
      life := l
      cs0 := if l.csBank then g.cs0 else store 0 g.cs0 g.life.csAddr.toNat (windowWord v g.life)
      cs1 := if l.csBank then store 0 g.cs1 g.life.csAddr.toNat (windowWord v g.life) else g.cs1 }
  else { g with life := { l with csRej := satInc l.csRej, result := 8 } }

/-- The words of the window with the one written. -/
theorem windowWord_eq (v : Word) (l : Life) :
    (let x := put? l.csData 3 v
    (x[3] ++ x[2] ++ x[1] ++ x[0] : MW)) = windowWord v l := by
  simp only [windowWord, getElem_put?]
  simp

theorem csDataWrite_eq (e : Fin 32) (v : Word) (d : Dev) :
    csDataWrite e.val 3 v d = setEng e (d.engines[e].windowWritten (bankWritable d e.val d.engines[e].life.csBank) v) d := by
  have staged : updLife e.val (fun l => { l with csData := put? l.csData 3 v }) d =
      setEng e { d.engines[e] with life := { d.engines[e].life with csData := put? d.engines[e].life.csData 3 v } } d := updEng_put e _ d
  have word := windowWord_eq v d.engines[e].life
  dsimp only at word
  unfold csDataWrite Engine.windowWritten
  dsimp only
  rw [staged, if_neg (by decide), engine_fin, setEng_engine, bankWritable_csData, word]
  cases bankWritable d e.val d.engines[e].life.csBank with
  | true =>
    rw [if_pos rfl, if_pos rfl, writeCs_eq, updLife, updEng_eq_setEng]
    simp only [setEng_engine, setEng_setEng]
  | false =>
    rw [if_neg (by decide), if_neg (by decide), rejectCs_eq, updLife, updEng_eq_setEng]
    simp only [setEng_engine, setEng_setEng]

/-- What the write leaves of the engine, and what it stores. -/
theorem windowWritten_fields (ok : Bool) (v : Word) (g : Engine) :
    let h := g.windowWritten ok v
    let w := windowWord v g.life
    let b := g.life.csBank
    h.life.csAddr = g.life.csAddr + 1 ∧ h.seq = g.seq ∧ h.scr = g.scr ∧ h.dp = g.dp ∧
    (ok = true → h.cs0 = (if b then g.cs0 else store 0 g.cs0 g.life.csAddr.toNat w) ∧
      h.cs1 = (if b then store 0 g.cs1 g.life.csAddr.toNat w else g.cs1)) ∧
    (ok = false → h.cs0 = g.cs0 ∧ h.cs1 = g.cs1 ∧ h.life.csRej = satInc g.life.csRej ∧ h.life.result = 8) := by
  cases ok with
  | true => exact ⟨rfl, rfl, rfl, rfl, fun _ => ⟨rfl, rfl⟩, fun h => Bool.noConfusion h⟩
  | false => exact ⟨rfl, rfl, rfl, rfl, fun h => Bool.noConfusion h, fun _ => ⟨rfl, rfl, rfl, rfl⟩⟩

/-! ### STEP -/

/-- Requests that waited leave the state of the link. -/
theorem sendWaiting_link (d : Dev) : (sendWaiting d).pe.link = d.pe.link ∧ (sendWaiting d).pe.dlUp = d.pe.dlUp := by
  refine Prod.mk.inj ?_
  exact foldl_keeps (π := fun d => (d.pe.link, d.pe.dlUp)) (f := fun d r => emit (.hostRead r.tag r.addr r.len)
    (updPe (fun p => { p with reqs := p.reqs ++ [{ r with sent := d.clk }] }) d)) (fun _ _ => rfl) d.pe.waiting _

/-- A link that reaches L0 is there when the requests that waited leave (R547). -/
theorem linkReachesL0_sends {d : Dev} (hd : d.pe.dlUp = true) (hr : d.pe.link ≠ .ready23) :
    ∃ t, linkReachesL0 d = sendWaiting t ∧ t.pe.link = .l0 ∧ t.pe.dlUp = d.pe.dlUp := by
  refine ⟨_, if_neg (by simp [hd, hr]), ?_⟩
  split
  · split <;> exact ⟨rfl, rfl⟩
  · exact ⟨rfl, rfl⟩

/-- The host's link is in L0 when a request has arrived (R547). -/
theorem arrive_link {d : Dev} (h : hostLive d = true) : (arrive d).pe.link = .l0 ∧ (arrive d).pe.dlUp = d.pe.dlUp := by
  simp only [hostLive, Bool.and_eq_true, bne_iff_ne] at h
  obtain ⟨⟨-, hd⟩, hr⟩ := h
  unfold arrive
  split
  · exact ⟨‹_›, rfl⟩
  · obtain ⟨t, ht, hl, hu⟩ := linkReachesL0_sends hd hr
    obtain ⟨h1, h2⟩ := sendWaiting_link t
    rw [ht]
    exact ⟨h1.trans hl, h2.trans hu⟩

/-- A request that has arrived arrives no other way. -/
theorem arrive_arrive {d : Dev} (h : hostLive d = true) : arrive (arrive d) = arrive d := if_pos (arrive_link h).1

theorem hostLive_arrive {d : Dev} (h : hostLive d = true) : hostLive (arrive d) = true := by
  obtain ⟨hl, hd⟩ := arrive_link h
  have hf := arrive_frame d
  unfold PeFrame at hf
  have hs : (arrive d).sys = d.sys := by rw [hf]
  unfold hostLive hasEndpoint at *
  rw [hl, hd, hs]
  simp only [Bool.and_eq_true] at h ⊢
  exact ⟨h.1, rfl⟩

/-- A write of a request that has arrived is the write. -/
theorem hostWrite_arrive {d : Dev} (h : hostLive d = true) (sp : Space) (off : BitVec 24) (ws : List (Word × BitVec 4)) (p ue : Bool) :
    hostWrite sp off ws p ue (arrive d) = hostWrite sp off ws p ue d := by
  unfold hostWrite
  rw [h, hostLive_arrive h, arrive_arrive h]
  rfl

/-- A STEP without ECC errors is the write of EN_DBG (R127). -/
theorem stepRow_eq {who : Who} {e : Fin 32} {d d1 : Dev} (h : reached who (enOff e 0x020) d = some d1) (v : Word) :
    stepRow who e v .ok .ok d = enDbgWrite e.val v .ok .ok d1 := by
  rw [← enWrite_dbg who v e.val d1, ← wordWrite_en h v (by decide) (by decide)]
  unfold stepRow
  dsimp only
  simp only [and_self, ↓reduceIte]
  cases who with
  | host =>
    obtain ⟨hl, -, hf, -, -⟩ := reached_host h
    have hs : (arrive d).sys = d.sys := by
      have hp := arrive_frame d
      unfold PeFrame at hp
      rw [hp]
    rw [hs] at hf
    dsimp only
    rw [if_pos hf]
    split
    · exact hostWrite_arrive hl .bar0 _ [(v, 0xF)] false false
    · rfl
  | ring n => exact if_pos (reached_inside (by simp) h).1
  | steward c fr sf sys => exact if_pos (reached_inside (by simp) h).1

theorem microClk_executes {d : Dev} {e : Fin 32} {cs : Ecc} (scr : Ecc) (h : fetched d.engines[e] cs)
    (hs : stallCause d e.val d.engines[e].current = 0) (hv : violations d e.val d.engines[e].current = [])
    (hp : portViolations d e.val d.engines[e].current = []) :
    microClk e.val cs scr d = execMicro e.val d.engines[e].current scr d := by
  obtain ⟨hue, hce⟩ := h
  have h1 : ¬ (cs = .ce ∧ (!d.engines[e].seq.fixed) = true) := fun ⟨a, b⟩ => by
    rw [hce a] at b
    cases b
  unfold microClk
  simp only [engine_fin, if_neg hue, if_neg h1, hs, hv, hp]
  rfl

/-- The engine as RESUME or STEP wakes it in clk `clk` (R127). -/
def Engine.woken (clk : Nat) (v : Word) (step : Bool) (g : Engine) : Engine :=
  { g with
    seq := { g.seq with brkEn := bit v 0, step := step, reached := max g.seq.reached clk, covered := max g.seq.covered clk }
    life := { g.life with st := .running } }

section
variable {e : Fin 32} {v : Word} {d : Dev}

theorem enDbgWrite_resume (h8 : bit v 8 = true) (h : d.engines[e].life.st = .halted) (cs scr : Ecc) :
    enDbgWrite e.val v cs scr d =
      setEng e { d.engines[e].woken d.clk v false with life := { d.engines[e].life with st := .running, result := 0 } } d := by
  unfold enDbgWrite setResult updSeq updLife engSt
  simp only [updEng_eq_setEng, engine_fin, setEng_engine, setEng_setEng, if_pos h8, if_pos h]
  rfl

theorem enDbgWrite_notHalted (h8 : bit v 8 = true) (h : d.engines[e].life.st ≠ .halted) (cs scr : Ecc) :
    enDbgWrite e.val v cs scr d = setEng e { d.engines[e] with
      seq := { d.engines[e].seq with brkEn := bit v 0 }, life := { d.engines[e].life with result := 2 } } d := by
  unfold enDbgWrite setResult updSeq updLife engSt
  simp only [updEng_eq_setEng, engine_fin, setEng_engine, setEng_setEng, if_pos h8, if_neg h]
  rfl

theorem enDbgWrite_step (h8 : bit v 8 = false) (h9 : bit v 9 = true) (h : d.engines[e].life.st = .halted) (cs scr : Ecc) :
    enDbgWrite e.val v cs scr d =
      microClk e.val cs scr (due (setEng e (d.engines[e].woken d.clk v true) d) e) := by
  unfold enDbgWrite setResult updSeq updLife engSt engineClk due
  simp only [updEng_eq_setEng, engine_fin, setEng_engine, setEng_setEng, h8, h9, h, Bool.false_eq_true, and_self, ↓reduceIte]
  rfl

theorem enDbgWrite_noStep (h8 : bit v 8 = false) (h : d.engines[e].life.st ≠ .halted) (cs scr : Ecc) :
    enDbgWrite e.val v cs scr d = setEng e { d.engines[e] with seq := { d.engines[e].seq with brkEn := bit v 0 } } d := by
  unfold enDbgWrite setResult updSeq updLife engSt
  simp only [updEng_eq_setEng, engine_fin, setEng_engine, h8, h, Bool.false_eq_true, and_false, ↓reduceIte]

end

/-- A HALTED engine whose microword does not swap or park executes it under STEP and is HALTED again (R127). -/
theorem woken_steps {e : Fin 32} {v : Word} {d t : Dev} (ht : t = due (setEng e (d.engines[e].woken d.clk v true) d) e)
    (hv : violations t e.val d.engines[e].current = []) (hst : stallCause t e.val d.engines[e].current = 0)
    (hport : portViolations t e.val d.engines[e].current = []) (hs : swaps d.engines[e].current d.engines[e] = false)
    (hp : parks d.engines[e].current d.engines[e] = false) :
    let t' := microClk e.val .ok .ok t
    EngineFrame t t' e ∧ t'.engines[e].life.st = .halted ∧ t'.engines[e].seq.step = false ∧
      t'.engines[e].seq.pc = successor t e.val d.engines[e].current := by
  have hw := setEng_engine e (d.engines[e].woken d.clk v true) d
  have hc := due_current (setEng e (d.engines[e].woken d.clk v true) d) e
  have hl := due_life (setEng e (d.engines[e].woken d.clk v true) d) e
  have hq := due_seq (setEng e (d.engines[e].woken d.clk v true) d) e
  rw [hw] at hc hl hq
  rw [← ht] at hc hl hq
  dsimp only
  have same : t.engines[e].current = d.engines[e].current := hc
  rw [microClk_executes (cs := .ok) .ok ⟨by decide, fun h => by cases h⟩ (by rw [same]; exact hst) (by rw [same]; exact hv)
    (by rw [same]; exact hport), same]
  have hs' : swaps d.engines[e].current t.engines[e] = false := (swaps_life _ hl).trans hs
  have hp' : parks d.engines[e].current t.engines[e] = false := (parks_life _ hl).trans hp
  obtain ⟨frame, pc, -, -⟩ := execMicro_went hs' .ok
  obtain ⟨st, step⟩ := execMicro_steps hp' hs' (by rw [hq]; rfl) .ok
  exact ⟨frame, st, step, pc⟩

/-- Settles O27: the writes of the window, and STEP as the clk of a woken engine. -/
theorem controlStoreWindowAndDebug : Obligations.ControlStoreWindowAndDebug := by
  unfold Obligations.ControlStoreWindowAndDebug
  refine ⟨fun who e v s d h => ?_, fun who e v s d h => ?_, fun who e v s d h => ?_, fun who e v s d h => ?_⟩
  · intro g
    rw [exec_entryset, act_en h v (by decide) (by decide), enWrite_entryset, entrySet_eq]
    rfl
  · intro g w
    rw [exec_csaddrWrite, act_en h v (by decide) (by decide), enWrite_csaddr]
    exact next_eq s (updEng_put e _ d)
  · intro g
    refine ⟨_, (exec_csdataWrite who e v s).trans (act_en h v (by decide) (by decide)), ?_⟩
    rw [enWrite_csdata3, csDataWrite_eq, engine_fin, bistAbortBank]
    have aborted := bistAbort_frame (fun k i => k == 2 && i == e.val || k == 3 && i == 2 * e.val + b2n g.life.csBank) d
    generalize bistAbort (fun k i => k == 2 && i == e.val || k == 3 && i == 2 * e.val + b2n g.life.csBank) d = t at aborted ⊢
    have he : t.engines = d.engines := by rw [aborted]
    rw [bankWritable_engines he, he]
    refine ⟨?_, fun f hf => (getElem_put_other _ hf _).trans (by rw [he]), ?_⟩
    · unfold setEng
      rw [aborted]
    · dsimp only
      rw [setEng_engine]
      exact windowWritten_fields _ _ _
  · intro g woken
    have write := act_en h v (by decide) (by decide)
    rw [enWrite_dbg] at write
    refine ⟨fun h8 _ hst => ?_, fun h8 _ hst => ?_, fun h8 _ hst => ?_, fun h8 h9 hst => ?_⟩
    · rw [exec_resume, write, enDbgWrite_resume h8 hst]
      rfl
    · rw [exec_resume, write, enDbgWrite_notHalted h8 hst]
      rfl
    · rw [exec_step, act_eq, stepRow_eq h, enDbgWrite_noStep h8 hst]
      rfl
    · intro d' hv hs hp hn h11 hpark hpend
      have parks : parks g.current g = false := by
        unfold Machine.parks
        rw [hpark, hpend, beq_false_of_ne h11]
        simp
      have hd : d' = due (setEng e (g.woken d.clk v true) d) e := rfl
      clear_value d'
      have steps := woken_steps hd hv hs hp (swaps_of_noSwap hn) parks
      refine ⟨microClk e.val .ok .ok d', ?_, steps⟩
      rw [exec_step, act_eq, stepRow_eq h, enDbgWrite_step h8 h9 hst, hd]

end Sys2Proof.Machine
end

section
/-!
PROOFS. The statements of 06_lanes.md about inputs: what the passing of clk leaves of a lane, and its samples.
-/
namespace Sys2Proof.Machine

theorem exec_lanePinChange (n : Fin 64) (b : Bool) (s : State) : exec (.lanePinChange n b) s = act (lanePin n.val b) s := rfl
theorem exec_laneFirstLevel (n : Fin 64) (s : State) : exec (.laneFirstLevel n) s = actClk (laneFirstLevel n.val) s := rfl
theorem exec_laneEdge (n : Fin 64) (dt : Nat) (s : State) :
    exec (.laneEdge n dt) s = actClk (fun d => laneEdge n.val (pass dt d)) s := rfl
theorem exec_laneSample (n : Fin 64) (s : State) : exec (.laneSample n) s = actClk (laneSample n.val) s := rfl

/-! ### Lanes by number -/

theorem updLane_fin (n : Fin 64) (f : Lane → Lane) (d : Dev) : updLane n.val f d = { d with lanes := put d.lanes n (f d.lanes[n]) } := by
  unfold updLane
  rw [upd?_fin]

theorem lane_put_self (v : Vector Lane 64) (n : Fin 64) (l : Lane) : (put v n l)[n] = l := by simp [put]

@[simp] theorem laneCfg_fin (d : Dev) (n : Fin 64) : laneCfg d n.val = d.cfg.lanes[n] := at?_fin _ _ _

/-- Whether a lane's input parts run for an owner is a matter of the configuration, and so are its bindings. -/
theorem laneDes_cfg {d t : Dev} (h : t.cfg = d.cfg) (n : Nat) : laneDes t n = laneDes d n := by
  unfold laneDes laneIn laneOwner laneCfg
  rw [h]

theorem laneBindings_cfg {d t : Dev} (h : t.cfg = d.cfg) (n : Nat) : laneBindings t n = laneBindings d n := by
  unfold laneBindings laneOwner laneCfg
  rw [h]

theorem EvFrame.lanes_eq {d t : Dev} (h : EvFrame d t) : t.lanes = d.lanes := by
  unfold EvFrame at h
  rw [h]

@[simp] theorem raiseIn_lanes (k s : Nat) (d : Dev) : (raiseIn k s d).lanes = d.lanes := (raiseIn_frame k s d).lanes_eq

/-! ### What the passing of clk leaves of the lanes -/

/-- A lane has taken its first level; the samples that SKEW has put off. -/
def lasting (l : Lane) : Bool × List Nat := (l.settled, l.due)

/-- These of every lane. -/
def lastings (d : Dev) : Fin 64 → Bool × List Nat := fun n => lasting d.lanes[n]

theorem lastings_of_lanes {d t : Dev} (h : t.lanes = d.lanes) : lastings t = lastings d := by
  unfold lastings
  rw [h]

theorem lastings_updLane (f : Lane → Lane) (hf : ∀ l, lasting (f l) = lasting l) (n : Nat) (d : Dev) :
    lastings (updLane n f d) = lastings d := by
  funext k
  have h := lane_updLane n k.val f d
  rw [lane_fin, lane_fin] at h
  unfold lastings
  rw [h]
  split
  · exact hf _
  · rfl

theorem capture_lasting (b : Bool) (c : Nat) (l : Lane) : lasting (l.capture b c) = lasting l := by
  unfold Lane.capture
  split <;> rfl

theorem settleSet_lasting (c : Nat) (l : Lane) : lasting (l.settleSet c) = lasting l := by
  have step : ∀ (x : Nat × Bool) (l : Lane),
      lasting (if c < x.1 then { l with setPend := l.setPend ++ [x] } else l.changeSet x) = lasting l := fun x l => by
    unfold Lane.changeSet
    dsimp only
    split_ifs <;> rfl
  have all : ∀ (xs : List (Nat × Bool)) (l : Lane),
      lasting (xs.foldl (fun l x => if c < x.1 then { l with setPend := l.setPend ++ [x] } else l.changeSet x) l) = lasting l := fun xs => by
    induction xs with
    | nil => exact fun _ => rfl
    | cons x r ih => exact fun l => (ih _).trans (step x l)
  exact all _ _

theorem lanePass_lasting (n : Nat) (d : Dev) (i : Nat) (l : Lane) : lasting (lanePass n d i l) = lasting l := by
  have captured : ∀ (l1 : Lane), lasting (match l1.readback, l1.drv with
      | some r, some b => if r < d.clk + n then { l1.capture b r with readback := none } else l1
      | _, _ => l1) = lasting l1 := fun l1 => by
    split
    · split
      · exact capture_lasting _ _ l1
      · rfl
    · rfl
  have settled : ∀ l2 : Lane, lasting (if l2.setPend.isEmpty then l2 else l2.settleSet (d.clk + n)) = lasting l2 := fun l2 => by
    split
    · rfl
    · exact settleSet_lasting _ l2
  refine (settled _).trans ((captured _).trans ?_)
  split <;> rfl

theorem gcPass_lanes (n : Nat) (d : Dev) (g : Fin 32) : (gcPass n d g).lanes = d.lanes := by
  unfold gcPass
  dsimp only
  split_ifs <;> simp

theorem bgPass_lastings (n : Nat) (d : Dev) (e : Fin 32) : lastings (bgPass n d e) = lastings d := by
  have taken : ∀ (f : Dp → Dp) (m k : Nat),
      lastings (updDp e.val f (updLane m (fun l => { l with fifo := l.fifo.drop k }) d)) = lastings d := fun f m k =>
    (lastings_of_lanes (d := updLane m (fun l => { l with fifo := l.fifo.drop k }) d) rfl).trans
      (lastings_updLane (fun l => { l with fifo := l.fifo.drop k }) (fun _ => rfl) m d)
  unfold bgPass bgTakeN
  dsimp only
  split
  · split
    · rfl
    · split
      · rfl
      · split
        · rfl
        · exact taken _ _ _
  · rfl

theorem enginePort_lanes (n : Nat) (d : Dev) (e : Fin 32) : (enginePort n d e).lanes = d.lanes := by
  unfold enginePort
  dsimp only
  split <;> rfl

theorem stewardPort_lanes (n : Nat) (d : Dev) (x : Fin 4 × Fin 4) : (stewardPort n d x).lanes = d.lanes := by
  unfold stewardPort
  dsimp only
  split <;> rfl

theorem landingPass_lanes (n : Nat) (d : Dev) : (landingPass n d).lanes = d.lanes := by
  unfold landingPass
  split
  · rfl
  · refine foldl_keeps (π := Dev.lanes) (fun d k => ?_) _ d
    split
    · rfl
    · exact foldl_keeps (π := Dev.lanes) (fun _ _ => by rfl) _ d

theorem retainPass_lanes (d : Dev) : (retainPass d).lanes = d.lanes := by
  refine foldl_keeps (π := Dev.lanes) (fun d k => ?_) _ d
  dsimp only
  split <;> rfl

theorem passParts_lastings (n : Nat) (d : Dev) : lastings (passParts n d) = lastings d := by
  unfold passParts
  refine (lastings_of_lanes (landingPass_lanes n _)).trans ?_
  refine (lastings_of_lanes (raiseSoon_frame n _).lanes_eq).trans ?_
  refine (foldl_keeps (fun d x => lastings_of_lanes (stewardPort_lanes n d x)) _ _).trans ?_
  refine (foldl_keeps (fun d e => lastings_of_lanes (enginePort_lanes n d e)) _ _).trans ?_
  exact (foldl_keeps (bgPass_lastings n) _ _).trans (foldl_keeps (fun d g => lastings_of_lanes (gcPass_lanes n d g)) _ d)

theorem passRaw_lastings {n : Nat} (hn : n ≠ 0) (d : Dev) : lastings (passRaw n d) = lastings d := by
  have began : lastings (commitEnd d) = lastings d := by
    unfold commitEnd
    split <;> rfl
  have rest : ∀ a b : Dev, lastings (passRest n a b) = lastings b := fun a b => by
    funext k
    simp only [lastings, passRest, Fin.getElem_fin, Vector.getElem_ofFn, lanePass_lasting]
  unfold passRaw
  rw [if_neg hn]
  exact (lastings_of_lanes (retainPass_lanes _)).trans ((rest _ _).trans ((passParts_lastings n _).trans began))

theorem pass_lastings (n : Nat) (d : Dev) : lastings (Machine.pass n d) = lastings d := by
  cases hf : d.sys.fclkOn with
  | false => rw [pass_off n d hf]
  | true =>
    exact pass_cases (P := fun _ a b => lastings b = lastings a) (fun _ => rfl) (fun _ d hn => passRaw_lastings hn d)
      (fun _ _ _ _ _ h h' => h'.trans h) n hf

theorem pass_settled (k : Nat) (d : Dev) (n : Fin 64) : (Machine.pass k d).lanes[n].settled = d.lanes[n].settled :=
  congrArg Prod.fst (congrFun (pass_lastings k d) n)

theorem pass_due (k : Nat) (d : Dev) (n : Fin 64) : (Machine.pass k d).lanes[n].due = d.lanes[n].due :=
  congrArg Prod.snd (congrFun (pass_lastings k d) n)

theorem pass_laneGood (k : Nat) (d : Dev) (n : Nat) : laneGood (Machine.pass k d) n = laneGood d n := by
  unfold laneGood
  rw [(pass_frame k d).1]

/-! ### Samples (R206, R209, R210) -/

/-- A lane after a bit-time has arrived at its FIFO. -/
def Lane.pushed (l : Lane) (b : Bool) : Lane :=
  if l.fifo.length < 512 then { l with fifo := l.fifo ++ [b] }
  else { l with fifoDrop := satInc l.fifoDrop, err := setBit l.err 0 true }

theorem satInc_zero {k : Nat} (v : BitVec k) : satInc v 0 = v := by
  have := v.isLt
  unfold satInc
  rw [Nat.min_eq_right (by omega), Nat.add_zero, BitVec.ofNat_toNat, BitVec.setWidth_eq]

/-- Counts that stop at the largest value add up. -/
theorem satInc_satInc {k : Nat} (v : BitVec k) (a b : Nat) : satInc (satInc v a) b = satInc v (a + b) := by
  have := Nat.two_pow_pos k
  unfold satInc
  rw [BitVec.toNat_ofNat, Nat.mod_eq_of_lt (by omega)]
  congr 1
  omega

theorem bit_setBit_mono {k : Nat} (v : BitVec k) (i : Nat) {j : Nat} (h : bit v j = true) : bit (setBit v i true) j = true := by
  unfold bit at *
  unfold setBit
  rw [if_pos rfl, BitVec.getLsbD_or, h, Bool.true_or]

/-- What bit-times that arrive change of a lane: the FIFO, its drops and the error bits. -/
def PushFrame (l m : Lane) : Prop := m = { l with fifo := m.fifo, fifoDrop := m.fifoDrop, err := m.err }

theorem PushFrame.trans {a b c : Lane} (h : PushFrame a b) (h' : PushFrame b c) : PushFrame a c := by
  unfold PushFrame at *
  rw [h] at h'
  exact h'

theorem pushed_frame (l : Lane) (b : Bool) : PushFrame l (l.pushed b) := by
  unfold Lane.pushed
  split <;> rfl

theorem foldl_pushed_frame (bs : List Bool) (l : Lane) : PushFrame l (bs.foldl Lane.pushed l) := by
  induction bs generalizing l with
  | nil => rfl
  | cons b r ih => exact (pushed_frame l b).trans (ih _)

theorem PushFrame.filt_eq {l m : Lane} (h : PushFrame l m) : m.filt = l.filt := by
  unfold PushFrame at h
  rw [h]

theorem foldl_pushed_err (bs : List Bool) {l : Lane} {i : Nat} (h : bit l.err i = true) : bit (bs.foldl Lane.pushed l).err i = true := by
  induction bs generalizing l with
  | nil => exact h
  | cons b r ih =>
    refine ih ?_
    unfold Lane.pushed
    split
    · exact h
    · exact bit_setBit_mono _ _ h

/-- The FIFO takes bit-times up to 512; those that do not fit are counted and set FIFO_OVF. -/
theorem foldl_pushed (bs : List Bool) {l : Lane} (h : l.fifo.length ≤ 512) :
    let t := bs.foldl Lane.pushed l
    t.fifo = (l.fifo ++ bs).take 512 ∧ t.fifoDrop = satInc l.fifoDrop (l.fifo.length + bs.length - 512) ∧
      (512 < l.fifo.length + bs.length → bit t.err 0 = true) := by
  induction bs generalizing l with
  | nil =>
    refine ⟨?_, ?_, fun hx => ?_⟩
    · rw [List.append_nil, List.take_of_length_le h]
      rfl
    · rw [List.length_nil, Nat.add_zero, Nat.sub_eq_zero_of_le h, satInc_zero]
      rfl
    · rw [List.length_nil] at hx
      omega
  | cons b r ih =>
    by_cases hl : l.fifo.length < 512
    · have hp : l.pushed b = { l with fifo := l.fifo ++ [b] } := if_pos hl
      have len : (l.fifo ++ [b]).length = l.fifo.length + 1 := List.length_append
      have := ih (l := l.pushed b) (by rw [hp]; dsimp only; omega)
      rw [hp] at this
      dsimp only at this
      rw [len, List.append_assoc, List.singleton_append, Nat.add_right_comm, Nat.add_assoc] at this
      dsimp only [List.foldl_cons]
      rw [hp]
      exact this
    · have hp : l.pushed b = { l with fifoDrop := satInc l.fifoDrop, err := setBit l.err 0 true } := if_neg hl
      have full : l.fifo.length = 512 := by omega
      obtain ⟨h1, h2, -⟩ := ih (l := l.pushed b) (by rw [hp]; exact h)
      rw [hp] at h1 h2
      dsimp only [List.foldl_cons]
      refine ⟨?_, ?_, fun _ => foldl_pushed_err r ?_⟩
      · rw [hp, h1, List.take_append_of_le_length (by simp [full]), List.take_append_of_le_length (by simp [full])]
      · have more : 1 + (512 + r.length - 512) = 512 + (b :: r).length - 512 := by rw [List.length_cons]; omega
        rw [hp, h2, satInc_satInc, full, more]
      · rw [hp]
        dsimp only
        rw [bit_setBit _ (by decide), if_pos rfl]

section
variable (n : Fin 64)

theorem pushBit_frame (n : Nat) (b : Bool) (d : Dev) : LaneErrFrame d (pushBit n b d) := by
  unfold pushBit
  split
  · rfl
  · exact LaneErrFrame.trans (b := updLane n (fun l => { l with fifoDrop := satInc l.fifoDrop }) d) rfl (laneErr_frame _ _ _)

theorem pushBit_lanes (b : Bool) (d : Dev) : (pushBit n.val b d).lanes = put d.lanes n (d.lanes[n].pushed b) := by
  unfold pushBit Lane.pushed
  rw [lane_fin]
  split
  · rw [updLane_fin]
  · rw [laneErr_lanes, updLane_fin, upd?_fin, put_put]
    dsimp only
    rw [lane_put_self]

/-- The bit-times of one sample of lane `n`. -/
def sampleBits (d : Dev) (n : Nat) : List Bool :=
  if (lane d n).timing.gang then [(lane d n).filt, (lane d (n + 1)).filt, (lane d (n + 2)).filt, (lane d (n + 3)).filt] else [(lane d n).filt]

theorem foldl_pushBit_frame (n : Nat) (bs : List Bool) (d : Dev) : LaneErrFrame d (bs.foldl (fun d b => pushBit n b d) d) := by
  induction bs generalizing d with
  | nil => rfl
  | cons b r ih => exact (pushBit_frame n b d).trans (ih _)

theorem foldl_pushBit_lanes (bs : List Bool) (d : Dev) :
    (bs.foldl (fun d b => pushBit n.val b d) d).lanes = put d.lanes n (bs.foldl Lane.pushed d.lanes[n]) := by
  induction bs generalizing d with
  | nil => simp [put]
  | cons b r ih =>
    refine (ih _).trans ?_
    rw [pushBit_lanes, put_put, lane_put_self]
    rfl

/-- A push changes no filtered level. -/
theorem pushBit_filt (b : Bool) (d : Dev) (m : Nat) : (lane (pushBit n.val b d) m).filt = (lane d m).filt := by
  unfold lane
  rw [pushBit_lanes, ← upd?_fin d.lanes n (fun l => l.pushed b), at?_upd?]
  split
  · exact (pushed_frame _ b).filt_eq
  · rfl

/-- A sample pushes its bit-times. -/
theorem sampleLane_eq (d : Dev) : sampleLane n.val d = (sampleBits d n.val).foldl (fun d b => pushBit n.val b d) d := by
  unfold sampleLane sampleBits
  dsimp only
  split
  · simp only [List.foldl_cons, List.foldl_nil, pushBit_filt]
  · rfl

theorem sampleLane_frame (d : Dev) : LaneErrFrame d (sampleLane n.val d) := by
  rw [sampleLane_eq]
  exact foldl_pushBit_frame _ _ d

theorem sampleLane_lanes (d : Dev) :
    (sampleLane n.val d).lanes = put d.lanes n ((sampleBits d n.val).foldl Lane.pushed d.lanes[n]) := by
  rw [sampleLane_eq, foldl_pushBit_lanes]

/-- One sample of lane `n` goes from `d` to `t`: what it leaves and what the FIFO holds then. -/
def Sampled (d t : Dev) : Prop :=
  LaneErrFrame d t ∧ (d.lanes[n].fifo.length ≤ 512 →
    t.lanes[n].fifo = (d.lanes[n].fifo ++ sampleBits d n.val).take 512 ∧
    t.lanes[n].fifoDrop = satInc d.lanes[n].fifoDrop (d.lanes[n].fifo.length + (sampleBits d n.val).length - 512) ∧
    (512 < d.lanes[n].fifo.length + (sampleBits d n.val).length → bit t.lanes[n].err 0 = true))

theorem sampleLane_sampled (d : Dev) : Sampled n d (sampleLane n.val d) := by
  refine ⟨sampleLane_frame n d, fun h => ?_⟩
  rw [sampleLane_lanes, lane_put_self]
  exact foldl_pushed _ h

/-- What of a lane's samples stands in it: the FIFO, its drops and the error bits. -/
def fifoView (l : Lane) : List Bool × Half × BitVec 6 := (l.fifo, l.fifoDrop, l.err)

variable {n}

/-- What follows a sample and leaves its FIFO. -/
theorem Sampled.after {d t u : Dev} (h : Sampled n d t) (hf : LaneErrFrame t u) (hv : fifoView u.lanes[n] = fifoView t.lanes[n]) :
    Sampled n d u := by
  obtain ⟨frame, fifo⟩ := h
  simp only [fifoView, Prod.mk.injEq] at hv
  obtain ⟨h1, h2, h3⟩ := hv
  refine ⟨frame.trans hf, ?_⟩
  rw [h1, h2, h3]
  exact fifo

/-- What precedes a sample and leaves the FIFO and the filtered levels. -/
theorem Sampled.before {f : Lane → Lane} (hf : ∀ l, fifoView (f l) = fifoView l ∧ (f l).filt = l.filt ∧ (f l).timing = l.timing) {d t : Dev}
    (h : Sampled n (updLane n.val f d) t) : Sampled n d t := by
  obtain ⟨frame, fifo⟩ := h
  have bits : sampleBits (updLane n.val f d) n.val = sampleBits d n.val := by
    have filt : ∀ m, (lane (updLane n.val f d) m).filt = (lane d m).filt := fun m => by
      rw [lane_updLane]
      split
      · exact (hf _).2.1
      · rfl
    have timing : (lane (updLane n.val f d) n.val).timing = (lane d n.val).timing := by
      rw [lane_updLane, if_pos ⟨rfl, n.isLt⟩]
      exact (hf _).2.2
    unfold sampleBits
    simp only [filt, timing]
  obtain ⟨hv, -, -⟩ := hf d.lanes[n]
  simp only [fifoView, Prod.mk.injEq] at hv
  obtain ⟨h1, h2, -⟩ := hv
  refine ⟨LaneErrFrame.trans (b := updLane n.val f d) rfl frame, ?_⟩
  rw [bits, updLane_fin, lane_put_self, h1, h2] at fifo
  exact fifo

end

/-! ### Acts on lanes that leave a part of each -/

/-- What goes from `d` to `t` changes lanes and raises sources; of the lanes it leaves what `π` reads, and of this clk and later ones
every occurrence. -/
def LanesKeep {β : Type} (π : Lane → β) (d t : Dev) : Prop :=
  LaneErrFrame d t ∧ (∀ x ∈ d.ev.pulses, d.clk ≤ x.1 → x ∈ t.ev.pulses) ∧ ∀ k : Fin 64, π t.lanes[k] = π d.lanes[k]

section
variable {β : Type} {π : Lane → β}

theorem LanesKeep.refl (d : Dev) : LanesKeep π d d := ⟨rfl, fun _ h _ => h, fun _ => rfl⟩

theorem LanesKeep.trans {a b c : Dev} (h : LanesKeep π a b) (h' : LanesKeep π b c) : LanesKeep π a c := by
  obtain ⟨hf, hp, hl⟩ := h
  obtain ⟨hf', hp', hl'⟩ := h'
  have hc : b.clk = a.clk := by
    unfold LaneErrFrame at hf
    rw [hf]
  exact ⟨hf.trans hf', fun x hx hle => hp' x (hp x hx hle) (hc ▸ hle), fun k => (hl' k).trans (hl k)⟩

theorem LanesKeep.ite {d a b : Dev} {c : Prop} [Decidable c] (ha : LanesKeep π d a) (hb : LanesKeep π d b) :
    LanesKeep π d (if c then a else b) := by
  split
  · exact ha
  · exact hb

theorem lanesKeep_foldl {α : Type} {f : Dev → α → Dev} (hf : ∀ d a, LanesKeep π d (f d a)) (l : List α) (d : Dev) :
    LanesKeep π d (l.foldl f d) := by
  induction l generalizing d with
  | nil => exact .refl d
  | cons a r ih => exact (hf d a).trans (ih _)

theorem lanesKeep_updLane (f : Lane → Lane) (hf : ∀ l, π (f l) = π l) (n : Nat) (d : Dev) : LanesKeep π d (updLane n f d) := by
  refine ⟨rfl, fun _ h _ => h, fun k => ?_⟩
  have h := lane_updLane n k.val f d
  rw [lane_fin, lane_fin] at h
  rw [h]
  split
  · exact hf _
  · rfl

theorem raiseNextIf_keep (b : Bool) (s : Nat) (d : Dev) : LanesKeep π d (raiseNextIf b s d) := by
  refine ⟨(raiseNextIf_frame b s d).laneErr, fun x hx hle => ?_, fun k => by rw [(raiseNextIf_frame b s d).lanes_eq]⟩
  cases b with
  | true => exact pulses_raiseIn_mono hx hle
  | false => exact hx

theorem laneErr_keep (hπ : ∀ (l : Lane) x, π { l with err := x } = π l) (n i : Nat) (d : Dev) : LanesKeep π d (laneErr n i d) :=
  (lanesKeep_updLane _ (fun l => hπ l _) n d).trans (raiseNextIf_keep _ _ _)

end

/-- The samples to come of a lane. -/
def schedule (l : Lane) : Bool × Nat × Nat × List Nat := (l.owed, l.tn, l.lastSample, l.due)

theorem PushFrame.schedule_eq {l m : Lane} (h : PushFrame l m) : schedule m = schedule l := by
  unfold PushFrame at h
  rw [h]
  rfl

theorem PushFrame.advance {l m : Lane} (h : PushFrame l m) :
    m.advance.lastSample = l.tn ∧ m.advance.tn = l.tn + l.timing.period l.setB := by
  unfold PushFrame at h
  rw [h]
  exact ⟨rfl, rfl⟩

/-- The bit boundaries that a sample schedules for lanes with this REFLANE. -/
theorem refBounds_keep (n : Nat) (d : Dev) : LanesKeep (fun l => (fifoView l, schedule l)) d (refBounds n d) := by
  unfold refBounds
  refine lanesKeep_foldl (fun d m => ?_) _ d
  dsimp only
  split
  · refine lanesKeep_updLane _ (fun _ => ?_) _ d
    rfl
  · exact .refl d

/-! ### The rows -/

theorem lanePin_eq (n : Fin 64) (b : Bool) (d : Dev) : lanePin n.val b d = { d with lanes := put d.lanes n (
    if b = d.lanes[n].sync then { d.lanes[n] with readback := none }
    else { d.lanes[n] with sync := b, syncClk := d.clk, syncOld := d.lanes[n].sync, syncPrev := d.lanes[n].syncClk, readback := none }) } := by
  unfold lanePin Lane.capture
  rw [updLane_fin]
  split <;> rfl

section
variable {n : Fin 64} {d : Dev}

/-- After the bit boundaries that it schedules, a sample and the lane's schedule stand. -/
theorem Sampled.bounds {t : Dev} (h : Sampled n d t) :
    Sampled n d (refBounds n.val t) ∧ schedule (refBounds n.val t).lanes[n] = schedule t.lanes[n] := by
  obtain ⟨frame, -, same⟩ := refBounds_keep n.val t
  obtain ⟨hf, hs⟩ := Prod.mk.inj (same n)
  exact ⟨h.after frame hf, hs⟩

/-- Without an owner nothing is sampled. -/
theorem laneSample_off (h : laneDes d n.val = false) : laneSample n.val d = d := by
  unfold laneSample
  simp only [h, Bool.not_false, ↓reduceIte]

/-- A sample that an edge of its clk has put off is taken in this clk. -/
theorem laneSample_owed (h : laneDes d n.val = true) (ho : d.lanes[n].owed = true) :
    let t := laneSample n.val d
    Sampled n d t ∧ t.lanes[n].owed = false ∧ t.lanes[n].tn = d.lanes[n].tn := by
  have eq : laneSample n.val d = refBounds n.val (sampleLane n.val (updLane n.val (fun l => { l with owed := false }) d)) := by
    unfold laneSample
    simp only [lane_fin, h, ho, Bool.not_true, Bool.false_eq_true, ↓reduceIte]
  have same := (foldl_pushed_frame (sampleBits (updLane n.val (fun l => { l with owed := false }) d) n.val)
    { d.lanes[n] with owed := false }).schedule_eq
  have lanes := sampleLane_lanes n (updLane n.val (fun l => { l with owed := false }) d)
  obtain ⟨sampled, sched⟩ := (Sampled.before (f := fun l => { l with owed := false }) (fun _ => ⟨rfl, rfl, rfl⟩)
    (sampleLane_sampled n (updLane n.val (fun l => { l with owed := false }) d))).bounds
  rw [← eq] at sampled sched
  rw [lanes, lane_put_self, updLane_fin, lane_put_self, ← updLane_fin n (fun l => { l with owed := false }), same] at sched
  simp only [schedule, Prod.mk.injEq] at sched
  obtain ⟨owed, tn, -⟩ := sched
  exact ⟨sampled, owed, tn⟩

/-- A TIMED sample is taken in its clk, and the next is one PERIOD later. -/
theorem laneSample_timed (h : laneDes d n.val = true) (ho : d.lanes[n].owed = false) (hs : d.lanes[n].timing.src = 1) :
    let x := passTo d.lanes[n].sampleClk d
    let t := laneSample n.val d
    Sampled n x t ∧ t.lanes[n].lastSample = x.lanes[n].tn ∧
      t.lanes[n].tn = x.lanes[n].tn + x.lanes[n].timing.period x.lanes[n].setB := by
  have eq : laneSample n.val d =
      refBounds n.val (updLane n.val Lane.advance (sampleLane n.val (passTo d.lanes[n].sampleClk d))) := by
    unfold laneSample
    simp only [lane_fin, h, ho, hs, Bool.not_true, Bool.false_eq_true, ↓reduceIte]
  dsimp only
  generalize passTo d.lanes[n].sampleClk d = x at eq ⊢
  have lanes := sampleLane_lanes n x
  have advanced := (foldl_pushed_frame (sampleBits x n.val) x.lanes[n]).advance
  obtain ⟨frame, -, same⟩ := lanesKeep_updLane (π := fifoView) Lane.advance (fun _ => rfl) n.val (sampleLane n.val x)
  obtain ⟨sampled, sched⟩ := ((sampleLane_sampled n x).after frame (same n)).bounds
  rw [← eq] at sampled sched
  rw [updLane_fin, lane_put_self, lanes, lane_put_self] at sched
  simp only [schedule, Prod.mk.injEq] at sched
  obtain ⟨-, tn, last, -⟩ := sched
  exact ⟨sampled, last.trans advanced.1, tn.trans advanced.2⟩

/-- A CLOCKED sample that SKEW has put off is taken in its clk and leaves the list. -/
theorem laneSample_clocked (h : laneDes d n.val = true) (ho : d.lanes[n].owed = false) (hs : d.lanes[n].timing.src = 2)
    {c : Nat} {r : List Nat} (hd : d.lanes[n].due = c :: r) :
    let t := laneSample n.val d
    Sampled n (passTo c d) t ∧ t.lanes[n].due = r := by
  have eq : laneSample n.val d = sampleLane n.val (updLane n.val (fun l => { l with due := l.due.tail }) (passTo c d)) := by
    unfold laneSample
    simp only [lane_fin, h, ho, hs, hd, Bool.not_true, Bool.false_eq_true, ↓reduceIte]
    rfl
  have hx : (passTo c d).lanes[n].due = c :: r := (pass_due (c - d.clk) d n).trans hd
  dsimp only
  generalize passTo c d = x at eq hx ⊢
  have same := (foldl_pushed_frame (sampleBits (updLane n.val (fun l => { l with due := l.due.tail }) x) n.val)
    { x.lanes[n] with due := x.lanes[n].due.tail }).schedule_eq
  have lanes := sampleLane_lanes n (updLane n.val (fun l => { l with due := l.due.tail }) x)
  have sampled := Sampled.before (f := fun l => { l with due := l.due.tail }) (fun _ => ⟨rfl, rfl, rfl⟩)
    (sampleLane_sampled n (updLane n.val (fun l => { l with due := l.due.tail }) x))
  rw [← eq] at sampled lanes
  refine ⟨sampled, ?_⟩
  simp only [schedule, Prod.mk.injEq] at same
  obtain ⟨-, -, -, due⟩ := same
  rw [lanes, lane_put_self, updLane_fin, lane_put_self, ← updLane_fin n (fun l => { l with due := l.due.tail }), due, hx]
  rfl

end

end Sys2Proof.Machine
end

section
/-!
PROOFS. The statements of 06_lanes.md about inputs: edges of the filtered level, and the first level after OFF.
-/
namespace Sys2Proof.Machine

/-! ### The RISE and FALL flags of the binding slots (R121) -/

/-- An edge sets the flag of slot `s`. -/
def flagged (up : Bool) (s : Nat) (p : Eport) : Eport :=
  if up then { p with rise := setBit p.rise s true } else { p with fall := setBit p.fall s true }

/-- The flag of slot `k` for this edge. -/
def edgeFlag (up : Bool) (p : Eport) (k : Nat) : Bool := if up then bit p.rise k else bit p.fall k

theorem edgeFlag_set (up : Bool) {s : Nat} (hs : s < 8) (p : Eport) : edgeFlag up (flagged up s p) s = true := by
  cases up <;> exact (bit_setBit _ hs true s).trans (if_pos rfl)

theorem edgeFlag_mono {up : Bool} {p : Eport} {k : Nat} (h : edgeFlag up p k = true) (s : Nat) : edgeFlag up (flagged up s p) k = true := by
  cases up <;> exact bit_setBit_mono _ s h

/-- The flags of the slots `xs` are set. -/
def flagSlots (up : Bool) (xs : List (Nat × Nat)) (d : Dev) : Dev := xs.foldl (fun d x => updEp x.1 (flagged up x.2) d) d

theorem updEp_engine (e : Nat) (f : Eport → Eport) (d : Dev) (k : Fin 32) :
    (updEp e f d).engines[k] = { d.engines[k] with ep := if e = k.val then f d.engines[k].ep else d.engines[k].ep } := by
  have h := engine_updEng e k.val (fun g => { g with ep := f g.ep }) d
  rw [engine_fin, engine_fin] at h
  refine h.trans ?_
  by_cases he : e = k.val
  · rw [if_pos ⟨he, k.isLt⟩, if_pos he]
  · rw [if_neg (fun hc => he hc.1), if_neg he]

/-- Only port fields of engines change. -/
def PortsFrame (d t : Dev) : Prop :=
  t = { d with engines := t.engines } ∧ ∀ e : Fin 32, t.engines[e] = { d.engines[e] with ep := t.engines[e].ep }

theorem PortsFrame.trans {a b c : Dev} (h : PortsFrame a b) (h' : PortsFrame b c) : PortsFrame a c := by
  obtain ⟨h1, h2⟩ := h
  obtain ⟨h1', h2'⟩ := h'
  refine ⟨?_, fun e => ?_⟩
  · rw [h1] at h1'
    exact h1'
  · have := h2' e
    rw [h2 e] at this
    exact this

theorem flagSlots_frame (up : Bool) (xs : List (Nat × Nat)) (d : Dev) : PortsFrame d (flagSlots up xs d) := by
  induction xs generalizing d with
  | nil => exact ⟨rfl, fun _ => rfl⟩
  | cons x r ih =>
    refine PortsFrame.trans ⟨rfl, fun e => ?_⟩ (ih (updEp x.1 (flagged up x.2) d))
    rw [updEp_engine]

/-- A flag that is set stays so. -/
theorem flagSlots_mono {up : Bool} {d : Dev} {e : Fin 32} {k : Nat} (h : edgeFlag up d.engines[e].ep k = true) (xs : List (Nat × Nat)) :
    edgeFlag up (flagSlots up xs d).engines[e].ep k = true := by
  induction xs generalizing d with
  | nil => exact h
  | cons x r ih =>
    refine ih ?_
    rw [updEp_engine]
    dsimp only
    split
    · exact edgeFlag_mono h _
    · exact h

theorem flagSlots_sets {up : Bool} {xs : List (Nat × Nat)} {e : Fin 32} {k : Nat} (hk : k < 8) (h : (e.val, k) ∈ xs) (d : Dev) :
    edgeFlag up (flagSlots up xs d).engines[e].ep k = true := by
  induction xs generalizing d with
  | nil => cases h
  | cons x r ih =>
    rcases List.mem_cons.1 h with rfl | h
    · refine flagSlots_mono ?_ r
      rw [updEp_engine]
      dsimp only
      rw [if_pos rfl]
      exact edgeFlag_set up hk _
    · exact ih h _

/-! ### The steps of an edge (R200 to R206, R208) -/

/-- The filtered level follows; a TIMED sample due in this clk is put off until then (R206). -/
def edgeLevel (n : Nat) (timed : Prop) [Decidable timed] (up : Bool) (d : Dev) : Dev :=
  updLane n (fun l => { (if timed ∧ l.sampleClk = d.clk ∧ !l.owed then { l.advance with owed := true } else l) with filt := up }) d

/-- The source that an edge raises in the next clk. -/
def edgeRaise (n : Nat) (up : Bool) (d : Dev) : Dev := raiseNext (if up then 0x000 + 4 * n else 0x001 + 4 * n) d

/-- The edge joins the stamps (R202, R203). -/
def edgeStamp (n : Nat) (c : LaneEntry) (up : Bool) (d : Dev) : Dev :=
  if bit c.stamp (if up then 0 else 1) ∧ laneDes d n then
    let k := (lane d n).stamps.length
    if k < 16 then
      raiseNextIf (k == 7) (0x002 + 4 * n)
        (updLane n (fun l => { l with stamps := l.stamps ++ [(d.tb.now - BitVec.ofNat 64 (c.filter.toNat + 1), up)] }) d)
    else laneErr n 1 (updLane n (fun l => { l with tsDrop := satInc l.tsDrop }) d)
  else d

/-- What follows the edge: resynchronisation, and the lanes that take this lane as reference (R205, R208). -/
def edgeFollow (n : Nat) (c : LaneEntry) (timed : Prop) [Decidable timed] (up : Bool) (d : Dev) : Dev :=
  let t := (lane d n).timing
  let x := if timed ∧ bit t.resync (if up then 1 else 0) then updLane n (resync d.clk) d else d
  if c.mode = 1 ∧ t.src ≠ 3 then refEdge n up x else x

theorem edge_eq {n : Nat} {d : Dev} (c : LaneEntry) (h : (lane d n).synced d.clk ≠ (lane d n).filt) :
    laneEdge.edge n c d =
      (let up := (lane d n).synced d.clk
      let timed := (lane d n).timing.src = 1 ∧ laneDes d n
      let x := edgeLevel n timed up d
      edgeFollow n c timed up (edgeStamp n c up
        (edgeRaise n up (flagSlots up (laneBindings x n) x)))) := by
  unfold laneEdge.edge
  rw [if_neg h]
  rfl

theorem edge_same {n : Fin 64} {d : Dev} (c : LaneEntry) (h : d.lanes[n].synced d.clk = d.lanes[n].filt) : laneEdge.edge n.val c d = d := by
  unfold laneEdge.edge
  rw [lane_fin, if_pos h]

/-- What an edge leaves in its lane to read. -/
def edgeView (l : Lane) : Bool × List (DWord × Bool) := (l.filt, l.stamps)

theorem sampleLane_keep (n : Nat) (d : Dev) : LanesKeep edgeView d (sampleLane n d) := by
  refine lanesKeep_foldl (fun d m => ?_) _ d
  unfold pushBit
  split
  · refine lanesKeep_updLane _ (fun _ => ?_) n d
    rfl
  · refine LanesKeep.trans (b := updLane n (fun l => { l with fifoDrop := satInc l.fifoDrop }) d) ?_ (laneErr_keep (fun _ _ => rfl) n 0 _)
    refine lanesKeep_updLane _ (fun _ => ?_) n d
    rfl

theorem clockedSample_keep (m : Nat) (d : Dev) : LanesKeep edgeView d (clockedSample m d) := by
  have take : ∀ c, LanesKeep edgeView d (clockedSample.take m c d) := fun c => by
    unfold clockedSample.take
    split
    · refine LanesKeep.trans (b := updLane m (fun l => { l with lastClocked := some c }) d) ?_ (sampleLane_keep m _)
      refine lanesKeep_updLane _ (fun _ => ?_) m d
      rfl
    · refine lanesKeep_updLane _ (fun _ => ?_) m d
      rfl
  unfold clockedSample
  dsimp only
  split
  · exact .ite (laneErr_keep (fun _ _ => rfl) m 3 d) (take _)
  · exact take _

theorem refEdge_keep (n : Nat) (rising : Bool) (d : Dev) : LanesKeep edgeView d (refEdge n rising d) := by
  unfold refEdge
  dsimp only
  refine LanesKeep.trans (lanesKeep_foldl (fun d m => ?_) _ d) (lanesKeep_updLane _ (fun _ => ?_) n _)
  · split
    · have short : ∀ b : Bool, LanesKeep edgeView d (if b then laneErr m 3 d else d) := fun b =>
        .ite (laneErr_keep (fun _ _ => rfl) m 3 d) (.refl d)
      refine .ite (((short _).trans (.ite (clockedSample_keep m _) (.refl _))).trans (lanesKeep_updLane _ (fun _ => ?_) m _)) (short _)
      rfl
    · exact .refl d
  · rfl

theorem edgeFollow_keep (n : Nat) (c : LaneEntry) (timed : Prop) [Decidable timed] (up : Bool) (d : Dev) :
    LanesKeep edgeView d (edgeFollow n c timed up d) := by
  have moved : LanesKeep edgeView d (if timed ∧ bit (lane d n).timing.resync (if up then 1 else 0) then updLane n (resync d.clk) d else d) :=
    .ite (lanesKeep_updLane (resync d.clk) (fun _ => rfl) n d) (.refl d)
  exact .ite (moved.trans (refEdge_keep n up _)) moved

/-- The stamp FIFO with this edge, unless it holds 16 (R203). -/
def stamped (c : LaneEntry) (now : DWord) (up : Bool) (xs : List (DWord × Bool)) : List (DWord × Bool) :=
  if xs.length < 16 then xs ++ [(now - BitVec.ofNat 64 (c.filter.toNat + 1), up)] else xs

/-- An edge that is stamped leaves the filtered levels, and joins the stamps of its lane where its selection and the lane's owner say. -/
theorem edgeStamp_keep (n : Fin 64) (c : LaneEntry) (up : Bool) (d : Dev) :
    LanesKeep Lane.filt d (edgeStamp n.val c up d) ∧ (edgeStamp n.val c up d).lanes[n].stamps =
      if bit c.stamp (if up then 0 else 1) = true ∧ laneDes d n.val = true then stamped c d.tb.now up d.lanes[n].stamps
      else d.lanes[n].stamps := by
  unfold edgeStamp stamped
  dsimp only
  rw [lane_fin]
  by_cases hc : bit c.stamp (if up then 0 else 1) = true ∧ laneDes d n.val = true
  · rw [if_pos hc, if_pos hc]
    by_cases hl : d.lanes[n].stamps.length < 16
    · rw [if_pos hl, if_pos hl]
      refine ⟨LanesKeep.trans (b := updLane n.val (fun l => { l with
        stamps := l.stamps ++ [(d.tb.now - BitVec.ofNat 64 (c.filter.toNat + 1), up)] }) d) ?_ (raiseNextIf_keep _ _ _), ?_⟩
      · refine lanesKeep_updLane _ (fun _ => ?_) n.val d
        rfl
      · rw [(raiseNextIf_frame _ _ _).lanes_eq, updLane_fin, lane_put_self]
    · rw [if_neg hl, if_neg hl]
      refine ⟨LanesKeep.trans (b := updLane n.val (fun l => { l with tsDrop := satInc l.tsDrop }) d) ?_
        (laneErr_keep (fun _ _ => rfl) n.val 1 _), ?_⟩
      · refine lanesKeep_updLane _ (fun _ => ?_) n.val d
        rfl
      · rw [laneErr_lanes, updLane_fin, upd?_fin, lane_put_self, lane_put_self]
  · rw [if_neg hc, if_neg hc]
    exact ⟨.refl d, rfl⟩

/-- What an edge of lane `n` changes. -/
def EdgeFrame (d t : Dev) : Prop :=
  t = { d with engines := t.engines, lanes := t.lanes, ev := t.ev, hr := { d.hr with relays := t.hr.relays } } ∧
    ∀ e : Fin 32, t.engines[e] = { d.engines[e] with ep := t.engines[e].ep }

theorem EdgeFrame.trans {a b c : Dev} (h : EdgeFrame a b) (h' : EdgeFrame b c) : EdgeFrame a c := by
  obtain ⟨h1, h2⟩ := h
  obtain ⟨h1', h2'⟩ := h'
  refine ⟨?_, fun e => ?_⟩
  · rw [h1] at h1'
    exact h1'
  · have := h2' e
    rw [h2 e] at this
    exact this

theorem PortsFrame.edge {d t : Dev} (h : PortsFrame d t) : EdgeFrame d t := by
  obtain ⟨h1, h2⟩ := h
  refine ⟨?_, h2⟩
  rw [h1]

theorem LaneErrFrame.engines_eq {d t : Dev} (h : LaneErrFrame d t) : t.engines = d.engines := h.outside.engines_eq

theorem LaneErrFrame.edge {d t : Dev} (h : LaneErrFrame d t) : EdgeFrame d t := by
  have he := h.engines_eq
  unfold LaneErrFrame at h
  refine ⟨?_, fun e => by rw [he]⟩
  rw [h]

theorem edgeLevel_frame (n : Nat) (timed : Prop) [Decidable timed] (up : Bool) (d : Dev) : LaneErrFrame d (edgeLevel n timed up d) := rfl

theorem edgeLevel_lane (n : Fin 64) (timed : Prop) [Decidable timed] (up : Bool) (d : Dev) :
    (edgeLevel n.val timed up d).lanes[n].filt = up ∧ (edgeLevel n.val timed up d).lanes[n].stamps = d.lanes[n].stamps := by
  unfold edgeLevel
  rw [updLane_fin, lane_put_self]
  refine ⟨rfl, ?_⟩
  dsimp only
  split <;> rfl

theorem edgeRaise_keep {β : Type} {π : Lane → β} (n : Nat) (up : Bool) (d : Dev) : LanesKeep π d (edgeRaise n up d) :=
  raiseNextIf_keep true _ d

theorem mem_pulses_edgeRaise (n : Nat) (up : Bool) (d : Dev) : (d.clk + 1, 4 * n + (if up then 0 else 1)) ∈ (edgeRaise n up d).ev.pulses := by
  have hs : 4 * n + (if up then 0 else 1) = if up then 0x000 + 4 * n else 0x001 + 4 * n := by
    cases up <;> exact Nat.add_comm _ _
  rw [hs]
  exact mem_pulses_raiseIn 1 _ d

/-- From the flags on: the source rises, the edge is stamped, and what follows leaves these and the filtered level. -/
theorem edge_end (n : Fin 64) (c : LaneEntry) (timed : Prop) [Decidable timed] (up : Bool) (d : Dev) :
    let t := edgeFollow n.val c timed up (edgeStamp n.val c up (edgeRaise n.val up d))
    LaneErrFrame d t ∧ (d.clk + 1, 4 * n.val + (if up then 0 else 1)) ∈ t.ev.pulses ∧ t.lanes[n].filt = d.lanes[n].filt ∧
      t.lanes[n].stamps = if bit c.stamp (if up then 0 else 1) = true ∧ laneDes d n.val = true then stamped c d.tb.now up d.lanes[n].stamps
        else d.lanes[n].stamps := by
  have raised := edgeRaise_keep (π := edgeView) n.val up d
  have source := mem_pulses_edgeRaise n.val up d
  dsimp only
  generalize edgeRaise n.val up d = a at raised source ⊢
  obtain ⟨frame1, -, same1⟩ := raised
  have ha : a.clk = d.clk ∧ a.tb = d.tb := by
    unfold LaneErrFrame at frame1
    rw [frame1]
    exact ⟨rfl, rfl⟩
  obtain ⟨hclk, htb⟩ := ha
  obtain ⟨filt1, stamps1⟩ := Prod.mk.inj (same1 n)
  obtain ⟨⟨frame2, pulses2, filt2⟩, stamps2⟩ := edgeStamp_keep n c up a
  obtain ⟨frame3, pulses3, same3⟩ := edgeFollow_keep n.val c timed up (edgeStamp n.val c up a)
  obtain ⟨filt3, stamps3⟩ := Prod.mk.inj (same3 n)
  have hclk2 : (edgeStamp n.val c up a).clk = d.clk := by
    unfold LaneErrFrame at frame2
    rw [frame2]
    exact hclk
  refine ⟨(frame1.trans frame2).trans frame3, ?_, filt3.trans ((filt2 n).trans filt1), ?_⟩
  · exact pulses3 _ (pulses2 _ source (by omega)) (by omega)
  · rw [stamps3, stamps2, laneDes_cfg frame1.cfg_eq, htb, stamps1]

/-- An edge of the filtered level (R201): the level follows, its source rises in the next clk, the flags of the binding slots are set,
and the edge is stamped. -/
theorem edge_effect {n : Fin 64} {d : Dev} (c : LaneEntry) (h : d.lanes[n].synced d.clk ≠ d.lanes[n].filt) :
    let up := d.lanes[n].synced d.clk
    let t := laneEdge.edge n.val c d
    EdgeFrame d t ∧ t.lanes[n].filt = up ∧ (d.clk + 1, 4 * n.val + (if up then 0 else 1)) ∈ t.ev.pulses ∧
    (∀ (e : Fin 32) (k : Nat), k < 8 → (e.val, k) ∈ laneBindings d n.val → edgeFlag up t.engines[e].ep k = true) ∧
    t.lanes[n].stamps = if bit c.stamp (if up then 0 else 1) = true ∧ laneDes d n.val = true then stamped c d.tb.now up d.lanes[n].stamps
      else d.lanes[n].stamps := by
  have eq := edge_eq c (by rw [lane_fin]; exact h)
  rw [lane_fin] at eq
  dsimp only at eq ⊢
  rw [eq]
  generalize d.lanes[n].synced d.clk = up
  have frame1 := edgeLevel_frame n.val (d.lanes[n].timing.src = 1 ∧ laneDes d n.val = true) up d
  obtain ⟨filt1, stamps1⟩ := edgeLevel_lane n (d.lanes[n].timing.src = 1 ∧ laneDes d n.val = true) up d
  generalize edgeLevel n.val (d.lanes[n].timing.src = 1 ∧ laneDes d n.val = true) up d = a at frame1 filt1 stamps1 ⊢
  rw [laneBindings_cfg frame1.cfg_eq]
  have sets : ∀ (e : Fin 32) (k : Nat), k < 8 → (e.val, k) ∈ laneBindings d n.val →
      edgeFlag up (flagSlots up (laneBindings d n.val) a).engines[e].ep k = true := fun e k hk hm => flagSlots_sets hk hm a
  have frame2 := flagSlots_frame up (laneBindings d n.val) a
  generalize flagSlots up (laneBindings d n.val) a = b at sets frame2 ⊢
  have frame := frame1.edge.trans frame2.edge
  have hb : b.clk = d.clk ∧ b.tb = d.tb ∧ b.cfg = d.cfg ∧ b.lanes = a.lanes := by
    refine ⟨?_, ?_, ?_, ?_⟩
    · rw [frame.1]
    · rw [frame.1]
    · rw [frame.1]
    · rw [frame2.1]
  obtain ⟨hclk, htb, hcfg, hlanes⟩ := hb
  obtain ⟨frame3, source, filt3, stamps3⟩ := edge_end n c (d.lanes[n].timing.src = 1 ∧ laneDes d n.val = true) up b
  rw [hclk] at source
  rw [hlanes, filt1] at filt3
  rw [laneDes_cfg hcfg, htb, hlanes, stamps1] at stamps3
  refine ⟨frame.trans frame3.edge, filt3, source, fun e k hk hm => ?_, stamps3⟩
  exact Eq.trans (congrArg (fun v : Vector Engine 32 => edgeFlag up v[e].ep k) frame3.engines_eq) (sets e k hk hm)

/-! ### The rows -/

/-- The input path of a lane stands still: mode OFF, no supply, or not (yet) what `x` says. -/
theorem inputOff_iff (m : Byte) (g x : Bool) : (m = 0 ∨ (!g) = true ∨ x = true) ↔ ¬ (m ≠ 0 ∧ g = true ∧ x = false) := by
  cases g <;> cases x <;> simp

theorem laneFirstLevel_eq (n : Fin 64) (d : Dev) : laneFirstLevel n.val d =
    (let l := d.lanes[n]
    let F := d.cfg.lanes[n].filter.toNat
    let x := passTo (max l.syncClk l.onClk + 1 + F) d
    if d.cfg.lanes[n].mode ≠ 0 ∧ laneGood d n.val = true ∧ l.settled = false then
      (if max x.lanes[n].syncClk x.lanes[n].onClk + 1 + F ≤ x.clk then
        { x with lanes := put x.lanes n { x.lanes[n] with filt := x.lanes[n].synced x.clk, settled := true } }
      else x)
    else d) := by
  unfold laneFirstLevel
  simp only [lane_fin, laneCfg_fin, updLane_fin, inputOff_iff, ite_not, ← Nat.not_lt]

section
variable {n : Fin 64} {d : Dev}

theorem laneEdge_eq (n : Fin 64) (d : Dev) : laneEdge n.val d =
    if d.cfg.lanes[n].mode ≠ 0 ∧ laneGood d n.val = true ∧ d.lanes[n].settled = true then
      ((d.lanes[n].filterDue d.cfg.lanes[n].filter.toNat d.clk).map fun x => laneEdge.edge n.val d.cfg.lanes[n] (passTo x d)).getD d
    else d := by
  unfold laneEdge
  simp only [lane_fin, laneCfg_fin, inputOff_iff, ite_not, Bool.not_eq_false']
  split
  · cases d.lanes[n].filterDue d.cfg.lanes[n].filter.toNat d.clk <;> rfl
  · rfl

/-- A lane that is OFF, has no supply or has not taken its first level sees no edge, and one whose other levels have passed neither. -/
theorem laneEdge_none (h : ¬ (d.cfg.lanes[n].mode ≠ 0 ∧ laneGood d n.val = true ∧ d.lanes[n].settled = true) ∨
    d.lanes[n].filterDue d.cfg.lanes[n].filter.toNat d.clk = none) : laneEdge n.val d = d := by
  rw [laneEdge_eq]
  rcases h with h | h
  · exact if_neg h
  · rw [h]
    exact ite_self d

theorem laneEdge_some (h : d.cfg.lanes[n].mode ≠ 0 ∧ laneGood d n.val = true ∧ d.lanes[n].settled = true) {x : Nat}
    (hx : d.lanes[n].filterDue d.cfg.lanes[n].filter.toNat d.clk = some x) :
    laneEdge n.val d = laneEdge.edge n.val d.cfg.lanes[n] (passTo x d) := by
  rw [laneEdge_eq, if_pos h, hx]
  rfl

end

/-- Settles O28: the rows of captures, of first levels, of edges and of samples. -/
theorem laneInputsFilterStampAndSample : Obligations.LaneInputsFilterStampAndSample := by
  unfold Obligations.LaneInputsFilterStampAndSample
  refine ⟨fun n b s => ?_, fun n s hf => ?_, fun n dt s hf => ?_, fun n s hf => ?_⟩
  · rw [exec_lanePinChange, act_eq, lanePin_eq]
  · rw [exec_laneFirstLevel, actClk_on _ hf, laneFirstLevel_eq]
    dsimp only
    split
    · split <;> rfl
    · rfl
  · intro d0 c live
    have hcfg : d0.cfg = s.dev.cfg := pass_cfg dt s.dev
    have hlive : (d0.cfg.lanes[n].mode ≠ 0 ∧ laneGood d0 n.val = true ∧ d0.lanes[n].settled = true) = live := by
      rw [hcfg, pass_laneGood, pass_settled]
    have row : exec (.laneEdge n dt) s = .next { s with dev := laneEdge n.val d0 } := (exec_laneEdge n dt s).trans (actClk_on _ hf)
    refine ⟨fun h => ?_, fun hl x hx => ?_⟩
    · rw [row, laneEdge_none (by rw [hlive, hcfg]; exact h)]
    · intro d l up
      have due : laneEdge n.val d0 = laneEdge.edge n.val c d :=
        (laneEdge_some (hlive.mpr hl) (by rw [hcfg]; exact hx)).trans (by rw [hcfg])
      have hd : d.cfg = s.dev.cfg := (pass_cfg _ d0).trans hcfg
      rw [row, due]
      refine ⟨fun h => next_eq s (edge_same c h), fun h => ⟨_, rfl, ?_⟩⟩
      obtain ⟨⟨frame, ports⟩, filt, source, flags, stamps⟩ := edge_effect c h
      rw [laneBindings_cfg hd] at flags
      rw [laneDes_cfg hd] at stamps
      refine ⟨frame, ports, filt, source, flags, stamps.trans ?_⟩
      simp only [stamped, ← ite_and, and_assoc]
      rfl
  · intro l pushed
    have row : exec (.laneSample n) s = .next { s with dev := laneSample n.val s.dev } := (exec_laneSample n s).trans (actClk_on _ hf)
    have bits : ∀ {d t : Dev}, Sampled n d t → pushed d t := fun h => by
      unfold Sampled sampleBits at h
      rw [lane_fin] at h
      exact h
    refine ⟨fun h => ?_, fun h ho => ?_, fun h ho hs => ?_, fun h ho hs x r hd => ?_⟩
    · rw [row, laneSample_off h]
    · obtain ⟨sampled, owed, tn⟩ := laneSample_owed h ho
      exact ⟨_, row, bits sampled, owed, tn⟩
    · obtain ⟨sampled, last, tn⟩ := laneSample_timed h ho hs
      exact ⟨_, row, bits sampled, last, tn⟩
    · obtain ⟨sampled, due⟩ := laneSample_clocked h ho hs hd
      exact ⟨_, row, bits sampled, due⟩

end Sys2Proof.Machine
end

section
/-!
PROOFS. The statements of 04_engine_datapath.md: what the data actions of a microword leave to one another.
-/
namespace Sys2Proof.Machine

/-! ### What actions leave of an engine, of the lanes and of the Cellar -/

/-- From `d` to `t` all that `π`, `ρ` and `κ` read of engine `e`, of each lane and of the Cellar stays. -/
def Leaves {β γ δ : Type} (π : Engine → β) (ρ : Lane → γ) (κ : Cl → δ) (e : Fin 32) (d t : Dev) : Prop :=
  π t.engines[e] = π d.engines[e] ∧ (∀ n : Fin 64, ρ t.lanes[n] = ρ d.lanes[n]) ∧ κ t.cl = κ d.cl

/-- The shift unit of an engine, and what the Cellar port shows and queues. -/
def shiftOf (g : Engine) : DWord × BitVec 7 × BitVec 7 × Option (BitVec 3) := (g.dp.sh, g.dp.sc, g.dp.target, g.dp.bg)
def portOf (g : Engine) : List PortWr × Bool × Bool × Bool × Bool :=
  (g.ep.queue, g.ep.trunc, g.ep.resOk, g.ep.resFull, g.ep.resTooBig)

/-- What the memory operation of a microword changes of its engine; the shift unit with it. -/
def memOf (g : Engine) : Vector Word 16 × List PortWr × Bool × Bool × Bool × Bool := (g.dp.g, portOf g)
def unitOf (g : Engine) := (shiftOf g, memOf g)

/-- The bits of a lane on their way in and out; its stamps with them. -/
def bitsOf (l : Lane) : List Bool × List Bool := (l.fifo, l.ser)
def streamOf (l : Lane) := (bitsOf l, l.stamps)

section
variable {β γ δ : Type} {π : Engine → β} {ρ : Lane → γ} {κ : Cl → δ} {e : Fin 32}

theorem Leaves.refl (d : Dev) : Leaves π ρ κ e d d := ⟨rfl, fun _ => rfl, rfl⟩

theorem Leaves.trans {a b c : Dev} (h : Leaves π ρ κ e a b) (h' : Leaves π ρ κ e b c) : Leaves π ρ κ e a c := by
  obtain ⟨he, hl, hc⟩ := h
  obtain ⟨he', hl', hc'⟩ := h'
  exact ⟨he'.trans he, fun n => (hl' n).trans (hl n), hc'.trans hc⟩

theorem Leaves.ite {d a b : Dev} {c : Prop} [Decidable c] (ha : Leaves π ρ κ e d a) (hb : Leaves π ρ κ e d b) :
    Leaves π ρ κ e d (if c then a else b) := by
  split
  · exact ha
  · exact hb

theorem leaves_foldl {α : Type} {f : Dev → α → Dev} (hf : ∀ d a, Leaves π ρ κ e d (f d a)) (l : List α) (d : Dev) :
    Leaves π ρ κ e d (l.foldl f d) := by
  induction l generalizing d with
  | nil => exact .refl d
  | cons a r ih => exact (hf d a).trans (ih _)

/-- What leaves a part leaves all that is read of it. -/
theorem Leaves.comp {β' γ' δ' : Type} {d t : Dev} (h : Leaves π ρ κ e d t) (f : β → β') (g : γ → γ') (k : δ → δ') :
    Leaves (f ∘ π) (g ∘ ρ) (k ∘ κ) e d t := by
  obtain ⟨he, hl, hc⟩ := h
  exact ⟨congrArg f he, fun n => congrArg g (hl n), congrArg k hc⟩

theorem leaves_updEng {f : Engine → Engine} (hπ : ∀ g, π (f g) = π g) (k : Nat) (d : Dev) : Leaves π ρ κ e d (updEng k f d) := by
  refine ⟨?_, fun _ => rfl, rfl⟩
  have h := engine_updEng k e.val f d
  rw [engine_fin, engine_fin] at h
  rw [h]
  split
  · exact hπ _
  · rfl

theorem leaves_updDp {f : Dp → Dp} (hπ : ∀ g : Engine, π { g with dp := f g.dp } = π g) (k : Nat) (d : Dev) :
    Leaves π ρ κ e d (updDp k f d) := leaves_updEng (f := fun g => { g with dp := f g.dp }) hπ k d

theorem leaves_updEp {f : Eport → Eport} (hπ : ∀ g : Engine, π { g with ep := f g.ep } = π g) (k : Nat) (d : Dev) :
    Leaves π ρ κ e d (updEp k f d) := leaves_updEng (f := fun g => { g with ep := f g.ep }) hπ k d

theorem leaves_updLane {f : Lane → Lane} (hρ : ∀ l, ρ (f l) = ρ l) (n : Nat) (d : Dev) : Leaves π ρ κ e d (updLane n f d) := by
  refine ⟨rfl, fun k => ?_, rfl⟩
  have h := lane_updLane n k.val f d
  rw [lane_fin, lane_fin] at h
  rw [h]
  split
  · exact hρ _
  · rfl

theorem leaves_updCl {f : Cl → Cl} (hκ : ∀ c, κ (f c) = κ c) (d : Dev) : Leaves π ρ κ e d (updCl f d) :=
  ⟨rfl, fun _ => rfl, hκ _⟩

theorem leaves_updEv (f : Ev → Ev) (d : Dev) : Leaves π ρ κ e d (updEv f d) := ⟨rfl, fun _ => rfl, rfl⟩
theorem leaves_takeFree (d : Dev) : Leaves π ρ κ e d (takeFree d).2 := ⟨rfl, fun _ => rfl, rfl⟩

theorem EvFrame.leaves {d t : Dev} (h : EvFrame d t) : Leaves π ρ κ e d t := by
  unfold EvFrame at h
  rw [h]
  exact ⟨rfl, fun _ => rfl, rfl⟩

end

section
variable {e : Fin 32}

/-! ### The actions before the memory operation -/

/-- The ALU changes flags, comparison results and the latch of TB_NOW of the datapath. -/
theorem alu_dp (k : Nat) (s : Bool) (a b old : Word) (now : DWord) (p : Dp) :
    let q := (alu k s a b old now p).dp
    q = { p with z := q.z, n := q.n, c := q.c, v := q.v, cmpEq := q.cmpEq, cmpLt := q.cmpLt, cmpLtu := q.cmpLtu, tbLatch := q.tbLatch } := by
  unfold alu flagsL flagsAdd flagsSub
  dsimp only
  split
  case h_31 => cases s <;> rfl
  all_goals rfl

/-- An ALU operation that writes no register has no result. -/
theorem alu_res {k : Nat} (hk : k < 32) (h : aluWrites k = false) (s : Bool) (a b old : Word) (now : DWord) (p : Dp) :
    (alu k s a b old now p).res = none := by
  have : k = 0 ∨ k = 0x0C ∨ k = 0x0D := by
    simp only [aluWrites, Bool.and_eq_false_iff, bne_eq_false_iff_eq] at h
    omega
  rcases this with rfl | rfl | rfl <;> rfl

theorem aluop_lt (w : MW) : w.aluop < 32 := Nat.mod_lt _ (by decide)

theorem clearSticky_leaves (i : Nat) (d : Dev) : Leaves unitOf streamOf id e d (clearSticky e.val i d) := by
  refine .ite (.ite (leaves_updEp (fun _ => rfl) _ d) (.ite (leaves_updEp (fun _ => rfl) _ d) (.refl d))) (.ite ?_ (.refl d))
  exact leaves_updEv _ d

theorem wrG_leaves (k : Nat) (v : Word) (d : Dev) :
    Leaves (fun g => (shiftOf g, portOf g)) streamOf id e d (wrG e.val k v d) := leaves_updDp (fun _ => rfl) _ d

/-- The ALU's datapath on an engine whose units stand as before the microword. -/
theorem aluFlags_leaves (w : MW) {d x : Dev} (h : Leaves unitOf streamOf id e d x) :
    Leaves unitOf streamOf id e d (updDp e.val (fun _ => (aluOf w d.tb.now d.engines[e]).dp) x) := by
  obtain ⟨he, hl, hc⟩ := h
  refine ⟨?_, hl, hc⟩
  simp only [unitOf, memOf, Prod.mk.injEq] at he
  obtain ⟨-, -, hp⟩ := he
  unfold updDp
  rw [updEng_eq_setEng, setEng_engine, aluOf, alu_dp]
  exact Prod.ext rfl (Prod.ext rfl hp)

/-- The ALU leaves the other units. -/
theorem aluDone_leaves (w : MW) (d : Dev) : Leaves (fun g => (shiftOf g, portOf g)) streamOf id e d (aluDone e.val w d) := by
  have flags := (aluFlags_leaves w ((clearSticky_leaves w.casel d).trans (clearSticky_leaves (e := e) w.cbsel _))).comp
    (fun x => (x.1, x.2.2)) id id
  unfold aluDone
  rw [engine_fin]
  dsimp only
  split
  · exact flags.trans (wrG_leaves _ _ _)
  · exact flags

/-- An ALU operation that writes no register leaves the registers too. -/
theorem aluDone_leaves_registers {w : MW} (h : aluWrites w.aluop = false) (d : Dev) :
    Leaves unitOf streamOf id e d (aluDone e.val w d) := by
  have none : (aluOf w d.tb.now d.engines[e]).res = none := alu_res (aluop_lt w) h _ _ _ _ _ _
  unfold aluDone
  rw [engine_fin]
  dsimp only
  rw [none]
  exact aluFlags_leaves w ((clearSticky_leaves w.casel d).trans (clearSticky_leaves (e := e) w.cbsel _))

/-! ### The actions after it -/

theorem crcFeedBits_unit (g : Engine) (bs : List Bool) : unitOf { g with dp := crcFeedBits bs g.dp } = unitOf g := by
  rw [crcFeedBits_eq]
  rfl

theorem doCrc_leaves (g : Engine) (w : MW) (taken : List Bool) (scr : Ecc) (d : Dev) :
    Leaves unitOf streamOf id e d (doCrc e.val g w taken scr d) := by
  have feed : ∀ bs : Dp → List Bool, Leaves unitOf streamOf id e d (updDp e.val (fun p => crcFeedBits (bs p) p) d) := fun bs =>
    leaves_updDp (fun g => crcFeedBits_unit g (bs g.dp)) _ d
  have load : Leaves unitOf streamOf id e d (updEng e.val crcLoad d) := leaves_updEng (f := crcLoad) (fun _ => rfl) _ d
  unfold doCrc
  dsimp only
  split
  case h_1 | h_2 => exact leaves_updDp (fun _ => rfl) _ d
  case h_3 | h_4 | h_5 | h_6 | h_7 => exact feed _
  case h_8 => exact feed fun _ => taken
  case h_9 =>
    cases scr with
    | ok => exact load
    | ce => exact load.trans (leaves_updEp (fun _ => rfl) _ _)
    | ue =>
      refine Leaves.trans ?_ (raise_frame _ _).leaves
      refine Leaves.trans ?_ (leaves_updEp (fun _ => rfl) _ _)
      exact ((leaves_takeFree d).trans (leaves_takeFree _)).trans (leaves_updDp (fun _ => rfl) _ _)
  case h_10 => exact .refl d

theorem btPass_leaves (n : Nat) (d : Dev) : Leaves unitOf streamOf id e d (updDp e.val (btPass n) d) := by
  refine leaves_updDp (fun g => ?_) _ d
  unfold btPass
  split <;> rfl

theorem pulseSet_leaves (j n : Nat) (d : Dev) : Leaves unitOf streamOf id e d (pulseSet e.val j n d) :=
  .ite (leaves_updLane (fun _ => by rfl) n d) (.refl d)

theorem switchSets_leaves (d : Dev) : Leaves unitOf streamOf id e d (switchSets e.val d) := by
  refine leaves_foldl (fun d n => ?_) _ d
  split
  · refine .ite (leaves_updLane (fun _ => ?_) n d) (.refl d)
    split <;> rfl
  · exact .refl d

theorem emitOne_leaves (k j : Nat) (d : Dev) : Leaves unitOf streamOf id e d (emitOne e.val k j d) := by
  have level : ∀ (b : Bool) (d : Dev),
      Leaves unitOf streamOf id e d (updDp e.val (fun p => { p with emitLvl := setBit p.emitLvl j b }) d) := fun b d =>
    leaves_updDp (fun _ => rfl) _ d
  unfold emitOne
  dsimp only
  split
  · exact ((leaves_foldl (fun d n => pulseSet_leaves j n d) (List.range 64) d).trans (level _ _)).trans (raiseIn_frame _ _ _).leaves
  · exact (level _ d).trans (raiseNextIf_frame _ _ _).leaves
  · exact level _ d

theorem doEmit_leaves (w : MW) (d : Dev) : Leaves unitOf streamOf id e d (doEmit e.val w d) := by
  unfold doEmit
  dsimp only
  split
  · exact .refl d
  · exact (leaves_foldl (fun d j => emitOne_leaves _ j d) _ d).trans (switchSets_leaves _)

theorem doLoop_leaves (g : Engine) (w : MW) (d : Dev) : Leaves unitOf streamOf id e d (doLoop e.val g w d) :=
  leaves_updEng (f := fun x => { x with seq := loopCounts g w x.seq }) (fun _ => rfl) _ d

/-- The end of a microword leaves the units. -/
theorem ended_unit (stream : Bool) (clk : Nat) (w : MW) (nxt ret : BitVec 12) (g : Engine) :
    unitOf (g.ended stream clk w nxt ret) = unitOf g := by
  have port : ∀ late, portOf (((g.advancing clk w nxt ret).counting stream).ctl clk w late) = portOf g := fun late => by
    rw [counting_frame]
    unfold Engine.ctl
    dsimp only
    split_ifs <;> rfl
  unfold unitOf memOf shiftOf
  rw [ended_dp]
  unfold Engine.ended
  rw [judging_frame]
  exact congrArg _ (congrArg _ (port _))

/-! ### The memory operation and the shift unit -/

theorem bgTake_leaves (d : Dev) : Leaves memOf Lane.stamps id e d (bgTake e.val d) := by
  unfold bgTake bgTakeN
  dsimp only
  split
  · exact .refl d
  · split
    · exact .refl d
    · split
      · exact .refl d
      · refine (leaves_updLane (fun _ => by rfl) _ d).trans (leaves_updDp (fun g => ?_) _ _)
        unfold Dp.take
        dsimp only
        split <;> rfl

theorem bgTake_none {d : Dev} (h : d.engines[e].dp.bg = none) : bgTake e.val d = d := by
  unfold bgTake bgTakeN
  rw [engine_fin]
  dsimp only
  rw [h]

theorem doShift_leaves (g : Engine) (w : MW) (taken : List Bool) (d : Dev) :
    Leaves memOf Lane.stamps id e d (doShift e.val g w taken d) := by
  have lane : ∀ (f : Nat → Lane → Lane) (_ : ∀ n l, (f n l).stamps = l.stamps) (s : Nat),
      Leaves memOf Lane.stamps id e d (match slotLane d e.val s with | some (l, _) => updLane l (f l) d | none => d) := fun f hf s => by
    split
    · exact leaves_updLane (hf _) _ d
    · exact .refl d
  have timer : ∀ per smp, Leaves memOf Lane.stamps id e d (updDp e.val (btSet per smp) d) := fun per smp => leaves_updDp (fun g => by
    unfold btSet
    split <;> rfl) _ d
  unfold doShift
  dsimp only
  split
  · split
    case h_5 => exact timer _ _
    case h_8 => exact .refl d
    all_goals exact leaves_updDp (fun _ => rfl) _ d
  case h_6 => exact leaves_updDp (fun _ => rfl) _ d
  case h_8 => exact .refl d
  case h_2 | h_3 => exact (lane (fun _ l => { l with fifo := l.fifo.drop _ }) (fun _ _ => rfl) _).trans (leaves_updDp (fun _ => rfl) _ _)
  all_goals exact (lane (fun _ l => l.give _ d.clk) (fun _ _ => rfl) _).trans (leaves_updDp (fun _ => rfl) _ _)

/-- What a memory operation leaves: the shift unit and the bits of the lanes. -/
abbrev LeavesShift (e : Fin 32) (d t : Dev) : Prop := Leaves shiftOf bitsOf (fun _ => ()) e d t

theorem wrG_leavesShift (k : Nat) (v : Word) (d : Dev) : LeavesShift e d (wrG e.val k v d) := leaves_updDp (fun _ => rfl) _ d

theorem updCl_leavesShift (f : Cl → Cl) (d : Dev) : LeavesShift e d (updCl f d) :=
  leaves_updCl (f := f) (fun _ => rfl) d

theorem updBin_leavesShift (b : Nat) (f : Bin → Bin) (d : Dev) : LeavesShift e d (updBin b f d) :=
  updCl_leavesShift (fun c => { c with bins := upd? c.bins b f }) d

theorem scrRead_leavesShift (i : Nat) (ecc : Ecc) (d : Dev) : LeavesShift e d (scrRead e.val i ecc d).2 := by
  cases ecc with
  | ok => exact .refl d
  | ce =>
    have corrected : LeavesShift e d (updEp e.val (fun p => { p with scrCe := satInc p.scrCe }) d) := leaves_updEp (fun _ => rfl) _ d
    exact corrected
  | ue =>
    refine Leaves.trans ?_ (raise_frame _ _).leaves
    exact (leaves_takeFree d).trans (leaves_updEp (fun _ => rfl) _ _)

theorem makeRoom_leavesShift (b : Nat) (c : BinEntry) (L : Nat) (d : Dev) : LeavesShift e d (makeRoom b c L d) :=
  .ite (.refl d) (updBin_leavesShift _ _ d)

theorem grant_leavesShift (b : Nat) (c : BinEntry) (L typ flags : Nat) (time : DWord) (seq : Word) (d : Dev) :
    LeavesShift e d (grant b c L typ flags time seq d) := by
  have skip : ∀ (p : Prop) [Decidable p] (a : Nat) (l : List Byte), LeavesShift e d (if p then d else wrCellar a l d) := fun p _ a l =>
    .ite (.refl d) (updCl_leavesShift _ d)
  exact (((skip _ _ _).trans (updCl_leavesShift _ _)).trans (updBin_leavesShift _ _ _)).trans (raiseNextIf_frame _ _ _).leaves

theorem doReserve_leavesShift (w : MW) (d : Dev) : LeavesShift e d (doReserve e.val w d).2 := by
  have flags : ∀ (ok full big : Bool) (t : Dev), LeavesShift e d t →
      LeavesShift e d (updEp e.val (fun p => { p with resOk := ok, resFull := full, resTooBig := big }) t) := fun _ _ _ t h =>
    h.trans (leaves_updEp (fun _ => rfl) _ t)
  unfold doReserve
  dsimp only
  split
  · exact .refl d
  · split
    · exact flags _ _ _ _ (updBin_leavesShift _ _ d)
    · have room := makeRoom_leavesShift (e := e) (resBin w) (by assumption) (max 2 (resLen (engine d e.val) w)) d
      split
      · exact flags _ _ _ _ ((room.trans (grant_leavesShift _ _ _ _ _ _ _ _)).trans (updCl_leavesShift _ _))
      · exact flags _ _ _ _ (room.trans (updBin_leavesShift _ _ _))

theorem portIssue_leavesShift (xs : List PortWr) (d : Dev) : LeavesShift e d (portIssue e.val xs d) := leaves_updEp (fun _ => rfl) _ d

theorem append4_leavesShift (b : Nat) (c : BinEntry) (r : Rec) (v : Word) (d : Dev) :
    LeavesShift e d (append4 (portIssue e.val) b c r v d).1 := by
  unfold append4
  split
  · exact (portIssue_leavesShift _ d).trans (updBin_leavesShift _ _ _)
  · exact updBin_leavesShift _ _ _

theorem appendWords_leavesShift (vs : List Word) (h : Word) (d : Dev) : LeavesShift e d (appendWords e.val vs h d) := by
  refine leaves_foldl (fun d v => ?_) vs d
  split
  · exact (append4_leavesShift _ _ _ v d).trans (leaves_updEp (fun _ => rfl) _ _)
  · exact .refl d

theorem portDo_leavesShift (h : Word) {f : Nat → BinEntry → Rec → Dev → Dev} (hf : ∀ b c r d, LeavesShift e d (f b c r d)) (d : Dev) :
    LeavesShift e d (portDo e.val h f d) := by
  unfold portDo
  split
  · exact leaves_updEp (fun _ => rfl) _ d
  · exact leaves_updEp (fun _ => rfl) _ d
  · exact hf _ _ _ d
  · exact .refl d

theorem doMem_leavesShift (g : Engine) (w : MW) (scr : Ecc) (d : Dev) : LeavesShift e d (doMem e.val g w scr d) := by
  unfold doMem
  dsimp only
  refine .ite ((scrRead_leavesShift _ scr d).trans (wrG_leavesShift _ _ _)) (.ite (leaves_updEng (fun _ => by rfl) _ d)
    (.ite ((doReserve_leavesShift w d).trans (wrG_leavesShift _ _ _)) (.ite ?append (.ite ?commit (.ite ?void
    (.ite (wrG_leavesShift _ _ d) (.ite ?stamp (.ite ?count (.refl d)))))))))
  case append =>
    split
    · exact appendWords_leavesShift _ _ d
    · exact portDo_leavesShift _ (fun _ _ _ d => .refl d) d
  case commit => exact portDo_leavesShift _ (fun _ _ _ d => (portIssue_leavesShift _ d).trans (updBin_leavesShift _ _ _)) d
  case void => exact portDo_leavesShift _ (fun _ _ _ d => (portIssue_leavesShift _ d).trans (updBin_leavesShift _ _ _)) d
  case stamp =>
    split
    · split
      · exact (leaves_updLane (fun _ => by rfl) _ d).trans (wrG_leavesShift _ _ _)
      · exact .refl d
    · exact .refl d
  case count => exact (leaves_updEv _ d).trans (wrG_leavesShift _ _ _)

/-! ### A microword up to its memory operation and up to its shift operation -/

/-- The device after the memory operation of a microword. -/
def memDone (e : Nat) (w : MW) (scr : Ecc) (d : Dev) : Dev := doMem e (engine d e) w scr (aluDone e w d)

/-- The bits that SHIN and SHINR take (R141). -/
def takenBits (d : Dev) (e : Nat) (w : MW) : List Bool := if w.shop = 1 ∨ w.shop = 2 then (slotFifo d e w.shsub).take w.count else []

/-- The device after the shift operation of a microword. -/
def shiftDone (e : Nat) (w : MW) (scr : Ecc) (d : Dev) : Dev :=
  doShift e (engine d e) w (takenBits d e w) (bgTake e (memDone e w scr d))

theorem memDone_control (w : MW) (scr : Ecc) (d : Dev) : Keeps controlOf e d (memDone e.val w scr d) :=
  (aluDone_keeps w d).trans (doMem_keeps _ _ _ _)

theorem memDone_leavesShift (w : MW) (scr : Ecc) (d : Dev) : LeavesShift e d (memDone e.val w scr d) :=
  ((aluDone_leaves w d).comp Prod.fst Prod.fst fun _ => ()).trans (doMem_leavesShift _ _ _ _)

/-- After its shift operation a microword leaves the units. -/
theorem execMicro_leaves (w : MW) (scr : Ecc) (d : Dev) :
    Leaves unitOf streamOf id e (shiftDone e.val w scr d) (execMicro e.val w scr d) := by
  have crc := doCrc_leaves (e := e) (engine d e.val) w (takenBits d e.val w) scr (shiftDone e.val w scr d)
  have units : Leaves unitOf streamOf id e (shiftDone e.val w scr d) (unitsDone e.val w scr d (memDone e.val w scr d)) :=
    .ite crc (crc.trans (btPass_leaves 1 _))
  have data : Leaves unitOf streamOf id e (shiftDone e.val w scr d) (dataDone e.val w scr d) :=
    (units.trans (doLoop_leaves (engine d e.val) w _)).trans (doEmit_leaves w _)
  rw [execMicro_eq]
  dsimp only
  refine data.trans ⟨?_, fun _ => rfl, rfl⟩
  rw [setEng_engine, ended_unit]

/-- After its memory operation it leaves registers, port, stamps and Cellar. -/
theorem execMicro_leavesMem (w : MW) (scr : Ecc) (d : Dev) :
    Leaves memOf Lane.stamps id e (memDone e.val w scr d) (execMicro e.val w scr d) :=
  ((bgTake_leaves _).trans (doShift_leaves _ w _ _)).trans ((execMicro_leaves w scr d).comp Prod.snd Prod.snd id)

/-- Every microword stays within the frame of its engine's clk. -/
theorem execMicro_frame (w : MW) (scr : Ecc) (d : Dev) : EngineFrame d (execMicro e.val w scr d) e := by
  obtain ⟨-, -, -, -, frame, -⟩ := execMicro_ends (e := e) w scr d
  exact frame

end

end Sys2Proof.Machine
end

section
/-!
PROOFS. The statements of 04_engine_datapath.md: the shift operations of a microword.
-/
namespace Sys2Proof.Machine

/-! ### A microword that does not stall -/

theorem foldl_min_eq_zero {l : List Nat} (h0 : ∀ x ∈ l, x ≠ 0) (h : l.foldl (fun m c => if m = 0 then c else min m c) 0 = 0) : l = [] := by
  have pos : ∀ (l : List Nat) (m : Nat), (∀ x ∈ l, x ≠ 0) → m ≠ 0 → l.foldl (fun m c => if m = 0 then c else min m c) m ≠ 0 := by
    intro l
    induction l with
    | nil => exact fun m _ hm => hm
    | cons x r ih =>
      intro m hx hm
      have := hx x (by simp)
      refine ih _ (fun y hy => hx y (by simp [hy])) ?_
      dsimp only
      rw [if_neg hm]
      omega
  cases l with
  | nil => rfl
  | cons x r => exact absurd h (pos r _ (fun y hy => h0 y (by simp [hy])) (by simpa using h0 x (by simp)))

/-- A microword for which no stall cause is shown meets none (R160). -/
theorem openCauses_eq_nil {d : Dev} {e : Nat} {w : MW} (h : stallCause d e w = 0) : openCauses d e w = [] := by
  have := foldl_min_eq_zero (fun x hx => ?_) h
  · exact (List.append_eq_nil_iff.1 this).1
  · simp only [openCauses, fixedCauses, List.mem_append, List.mem_ite_nil_right, List.mem_singleton] at hx
    omega

section
variable {d : Dev} {e : Nat} {w : MW}

/-- What the units hold for a microword that does not stall: bit-times, room, no background input, a stamp. -/
theorem units_ready (h : stallCause d e w = 0) :
    ((w.shop = 1 ∨ w.shop = 2) → w.count ≤ (slotFifo d e w.shsub).length) ∧
    (1 ≤ w.shop → w.shop ≤ 6 → (engine d e).dp.bg = none) ∧
    (0x18 ≤ w.memop → w.memop < 0x20 → slotStamps d e (w.memop % 8) ≠ []) := by
  have hc := openCauses_eq_nil h
  simp only [openCauses, List.append_eq_nil_iff, ite_eq_right_iff, List.cons_ne_nil, imp_false, Bool.and_eq_true, Bool.or_eq_true,
    beq_iff_eq, decide_eq_true_eq, not_and, List.isEmpty_iff, Nat.not_lt] at hc
  obtain ⟨⟨⟨⟨⟨⟨h1, -⟩, h3⟩, h4⟩, -⟩, -⟩, -⟩ := hc
  refine ⟨h1, fun a b => ?_, fun a b => h4 ⟨a, b⟩⟩
  have := h3 (.inl ⟨a, b⟩)
  simpa using this

/-- Bindings are a matter of the configuration. -/
theorem slotLane_cfg {t : Dev} (h : t.cfg = d.cfg) (e s : Nat) : slotLane t e s = slotLane d e s := by
  unfold slotLane laneBindings laneOwner laneCfg
  rw [h]

theorem slotFifo_bound {s : Nat} {l : Fin 64} {own : Bool} (h : slotLane d e s = some (l.val, own)) : slotFifo d e s = d.lanes[l].fifo := by
  unfold slotFifo
  rw [h]
  exact congrArg Lane.fifo (lane_fin d l)

theorem slotStamps_bound {s : Nat} {l : Fin 64} {own : Bool} (h : slotLane d e s = some (l.val, own)) :
    slotStamps d e s = d.lanes[l].stamps := by
  unfold slotStamps
  rw [h]
  exact congrArg Lane.stamps (lane_fin d l)

end

/-! ### The shift operations -/

/-- From `d` to `t` the shift unit of engine `e` goes as `F` says and the bits of lane `l` as `K` says. -/
def Shifted (e : Fin 32) (l : Fin 64) (F : DWord × BitVec 7 × BitVec 7 × Option (BitVec 3) → DWord × BitVec 7 × BitVec 7 × Option (BitVec 3))
    (K : List Bool × List Bool → List Bool × List Bool) (d t : Dev) : Prop :=
  shiftOf t.engines[e] = F (shiftOf d.engines[e]) ∧ bitsOf t.lanes[l] = K (bitsOf d.lanes[l])

section
variable {e : Fin 32} {l : Fin 64} {own : Bool} {w : MW} {g : Engine} {bs : List Bool} {d : Dev}

theorem updDp_engine (f : Dp → Dp) (d : Dev) : (updDp e.val f d).engines[e] = { d.engines[e] with dp := f d.engines[e].dp } := by
  unfold updDp
  rw [updEng_eq_setEng, setEng_engine]

theorem shifted_updDp {F K} {f : Dp → Dp} {k : Lane → Lane} (hF : ∀ g : Engine, shiftOf { g with dp := f g.dp } = F (shiftOf g))
    (hK : ∀ x, bitsOf (k x) = K (bitsOf x)) (d : Dev) : Shifted e l F K d (updDp e.val f (updLane l.val k d)) := by
  refine ⟨?_, ?_⟩
  · rw [updDp_engine]
    exact hF _
  · show bitsOf (updLane l.val k d).lanes[l] = _
    rw [updLane_fin, lane_put_self, hK]

/-- SHIN and SHINR. -/
theorem doShift_in {lsb : Bool} (h : w.shop = if lsb then 2 else 1) (hl : slotLane d e.val w.shsub = some (l.val, own)) :
    Shifted e l (fun x => (shiftIn x.1 lsb bs, BitVec.ofNat 7 w.count, BitVec.ofNat 7 w.count, x.2.2.2)) (fun b => (b.1.drop w.count, b.2)) d
      (doShift e.val g w bs d) := by
  unfold doShift
  dsimp only
  cases lsb with
  | false =>
    rw [show w.shop = 1 from h, hl]
    exact shifted_updDp (fun _ => rfl) (fun _ => rfl) d
  | true =>
    rw [show w.shop = 2 from h, hl]
    exact shifted_updDp (fun _ => rfl) (fun _ => rfl) d

/-- SHOUT and SHOUTR. -/
theorem doShift_out {lsb : Bool} (h : w.shop = if lsb then 4 else 3) (hl : slotLane d e.val w.shsub = some (l.val, own)) :
    Shifted e l (fun x => (if lsb then x.1 >>> w.count else x.1 <<< w.count, BitVec.ofNat 7 w.count, BitVec.ofNat 7 w.count, x.2.2.2))
      (fun b => (b.1, b.2 ++ shiftOut g.dp.sh lsb w.count)) d (doShift e.val g w bs d) := by
  unfold doShift
  dsimp only
  cases lsb with
  | false =>
    rw [show w.shop = 3 from h, hl]
    exact shifted_updDp (fun _ => rfl) (fun _ => rfl) d
  | true =>
    rw [show w.shop = 4 from h, hl]
    exact shifted_updDp (fun _ => rfl) (fun _ => rfl) d

/-- BGIN. -/
theorem doShift_bgin (h : w.shop = 5) :
    Shifted e l (fun x => (x.1, 0, BitVec.ofNat 7 w.count, some (BitVec.ofNat 3 w.shsub))) id d (doShift e.val g w bs d) := by
  unfold doShift
  dsimp only
  rw [h]
  exact ⟨congrArg shiftOf (updDp_engine _ d), rfl⟩

/-- XFER. -/
theorem doShift_xfer (h : w.shop = 6) (hl : slotLane d e.val w.shsub = some (l.val, own)) :
    Shifted e l (fun x => (x.1, 0, BitVec.ofNat 7 w.count, some (BitVec.ofNat 3 (w.shsub + 1))))
      (fun b => (b.1, b.2 ++ shiftOut g.dp.sh false w.count)) d (doShift e.val g w bs d) := by
  unfold doShift
  dsimp only
  rw [h, hl]
  exact shifted_updDp (fun _ => rfl) (fun _ => rfl) d

/-- What a shift operation does is done at the end of its microword, when no background input was under way. -/
theorem execMicro_shifted {F K} (hbg : d.engines[e].dp.bg = none) (hl : slotLane d e.val w.shsub = some (l.val, own)) (scr : Ecc)
    (op : ∀ y : Dev, slotLane y e.val w.shsub = some (l.val, own) →
      Shifted e l F K y (doShift e.val d.engines[e] w (takenBits d e.val w) y)) :
    Shifted e l F K d (execMicro e.val w scr d) := by
  obtain ⟨unit, bits, -⟩ := memDone_leavesShift (e := e) w scr d
  obtain ⟨unit', bits', -⟩ := execMicro_leaves (e := e) w scr d
  obtain ⟨frame, -⟩ := memDone_control (e := e) w scr d
  have none : (memDone e.val w scr d).engines[e].dp.bg = none := (congrArg (·.2.2.2) unit).trans hbg
  have cfg : (memDone e.val w scr d).cfg = d.cfg := by rw [frame.1]
  have done := op _ ((slotLane_cfg cfg e.val w.shsub).trans hl)
  unfold shiftDone at unit' bits'
  rw [bgTake_none none, engine_fin] at unit' bits'
  obtain ⟨hF, hK⟩ := done
  refine ⟨?_, ?_⟩
  · rw [← unit, ← hF]
    exact congrArg Prod.fst unit'
  · rw [← bits l, ← hK]
    exact congrArg Prod.fst (bits' l)

end

section
variable {e : Fin 32} {cs : Ecc} {s : State} {l : Fin 64} {own : Bool}

/-- The microword of an engine that executes, in the clk in which it is due, meets no stall. -/
theorem executes_due (h : executes s.dev e cs) : stallCause (due s.dev e) e.val (due s.dev e).engines[e].current = 0 := by
  obtain ⟨-, -, -, hs, -⟩ := h
  rw [due_current, hs]

/-- The row of a microword that executes, with what it does. -/
theorem row_executes (h : executes s.dev e cs) {p : MW → Bool} (hp : p (due s.dev e).engines[e].current = true) (scr : Ecc) :
    ∃ t : Dev, act (engineRow p e.val cs scr) s = .next { s with dev := t } ∧ EngineFrame (due s.dev e) t e ∧
      t = execMicro e.val (due s.dev e).engines[e].current scr (due s.dev e) := by
  rw [due_current] at hp ⊢
  exact ⟨_, act_executes h hp scr, execMicro_frame _ _ _, rfl⟩

/-- The row of a shift operation. -/
theorem row_shifted (h : executes s.dev e cs) {k : Nat} (hk : (due s.dev e).engines[e].current.shop = k) (scr : Ecc) {F K}
    (hl : slotLane (due s.dev e) e.val (due s.dev e).engines[e].current.shsub = some (l.val, own))
    (op : ∀ y : Dev, slotLane y e.val (due s.dev e).engines[e].current.shsub = some (l.val, own) →
      Shifted e l F K y (doShift e.val (due s.dev e).engines[e] (due s.dev e).engines[e].current
        (takenBits (due s.dev e) e.val (due s.dev e).engines[e].current) y))
    (h1 : 1 ≤ k := by decide) (h6 : k ≤ 6 := by decide) :
    ∃ t : Dev, act (engineRow (·.shop == k) e.val cs scr) s = .next { s with dev := t } ∧ EngineFrame (due s.dev e) t e ∧
      Shifted e l F K (due s.dev e) t := by
  obtain ⟨t, row, frame, ht⟩ := row_executes h (p := (·.shop == k)) (beq_iff_eq.2 hk) scr
  obtain ⟨-, idle, -⟩ := units_ready (executes_due h)
  rw [engine_fin] at idle
  refine ⟨t, row, frame, ?_⟩
  rw [ht]
  exact execMicro_shifted (idle (hk ▸ h1) (hk ▸ h6)) hl scr op

end

end Sys2Proof.Machine
end

section
/-!
PROOFS. The statements of 04_engine_datapath.md: what the passing of clk leaves of the shift units, the lanes' bits and the write queues.
-/
namespace Sys2Proof.Machine

/-! ### Folds over parts -/

/-- A fold over parts of which all but one leave the device. -/
theorem foldl_alone {α : Type} {f : Dev → α → Dev} {P : Dev → Prop} {a : α} (others : ∀ d, P d → ∀ b, b ≠ a → f d b = d)
    (keeps : ∀ d, P d → P (f d a)) {l : List α} (hn : l.Nodup) (ha : a ∈ l) {d : Dev} (hP : P d) : l.foldl f d = f d a := by
  have rest : ∀ (l : List α) (d : Dev), a ∉ l → P d → l.foldl f d = d := by
    intro l
    induction l with
    | nil => exact fun _ _ _ => rfl
    | cons b r ih =>
      intro d hb hd
      rw [List.mem_cons, not_or] at hb
      obtain ⟨hab, har⟩ := hb
      rw [List.foldl_cons, others d hd b (Ne.symm hab)]
      exact ih d har hd
  induction l generalizing d with
  | nil => exact absurd ha List.not_mem_nil
  | cons b r ih =>
    obtain ⟨hb, hr⟩ := List.nodup_cons.1 hn
    rw [List.foldl_cons]
    by_cases hab : b = a
    · subst hab
      exact rest r _ hb (keeps d hP)
    · rw [others d hP b hab]
      exact ih hr ((List.mem_cons.1 ha).resolve_left (Ne.symm hab)) hP

/-! ### Parts that leave engines, lanes and Cellar -/

/-- Gated counters change the Sundial and raise sources. -/
def CounterFrame (d t : Dev) : Prop := t = { d with tb := t.tb, ev := t.ev, hr := { d.hr with relays := t.hr.relays } }

theorem CounterFrame.trans {a b c : Dev} (h : CounterFrame a b) (h' : CounterFrame b c) : CounterFrame a c := by
  unfold CounterFrame at *
  rw [h] at h'
  exact h'

theorem CounterFrame.ite {d a b : Dev} {c : Prop} [Decidable c] (ha : CounterFrame d a) (hb : CounterFrame d b) :
    CounterFrame d (if c then a else b) := by
  split
  · exact ha
  · exact hb

theorem EvFrame.counter {d t : Dev} (h : EvFrame d t) : CounterFrame d t := by
  unfold EvFrame at h
  unfold CounterFrame
  rw [h]

theorem gcPass_counter (n : Nat) (d : Dev) (g : Fin 32) : CounterFrame d (gcPass n d g) := by
  have base : ∀ x : Gc, CounterFrame d { d with tb := { d.tb with gcs := put d.tb.gcs g x } } := fun _ => rfl
  have next : ∀ (x : Gc) (k s : Nat), CounterFrame d (raiseIn k s { d with tb := { d.tb with gcs := put d.tb.gcs g x } }) :=
    fun x k s => (base x).trans (raiseIn_frame k s _).counter
  exact .ite rfl (.ite (.ite (next _ _ _) ((next _ _ _).trans (raiseIn_frame _ _ _).counter))
    (.ite (next _ _ _) (.ite (next _ _ _) (base _))))

theorem counter_foldl {α : Type} {f : Dev → α → Dev} (hf : ∀ d a, CounterFrame d (f d a)) (l : List α) (d : Dev) :
    CounterFrame d (l.foldl f d) := by
  induction l generalizing d with
  | nil => rfl
  | cons a r ih => exact (hf d a).trans (ih _)

/-- The gated counters over `n` clk, on the device in which a commit has ended. -/
def countersPassed (n : Nat) (d : Dev) : Dev := (List.finRange 32).foldl (gcPass n) (commitEnd d)

theorem countersPassed_eq (n : Nat) (d : Dev) :
    (countersPassed n d).engines = d.engines ∧ (countersPassed n d).lanes = d.lanes ∧ (countersPassed n d).cl = d.cl ∧ (countersPassed n d).cfg = d.cfg ∧
      (countersPassed n d).clk = d.clk := by
  have began : (commitEnd d).engines = d.engines ∧ (commitEnd d).lanes = d.lanes ∧ (commitEnd d).cl = d.cl ∧ (commitEnd d).cfg = d.cfg ∧
      (commitEnd d).clk = d.clk := by
    unfold commitEnd
    split <;> exact ⟨rfl, rfl, rfl, rfl, rfl⟩
  have counter : CounterFrame (commitEnd d) (countersPassed n d) := counter_foldl (gcPass_counter n) _ _
  unfold CounterFrame at counter
  rw [counter]
  exact began

section
variable {β γ δ : Type} {π : Engine → β} {ρ : Lane → γ} {κ : Cl → δ} {e : Fin 32}

theorem landingPass_leaves (n : Nat) (d : Dev) : Leaves π ρ κ e d (landingPass n d) := by
  unfold landingPass
  split
  · exact .refl d
  · refine leaves_foldl (fun d k => ?_) _ d
    split
    · exact .refl d
    · exact leaves_foldl (fun d x => (leaves_updEv _ d).trans (leaves_updEv _ _)) _ d

theorem retainPass_leaves (d : Dev) : Leaves π ρ κ e d (retainPass d) := by
  refine leaves_foldl (fun d k => ?_) _ d
  dsimp only
  split
  · exact leaves_updEv _ d
  · exact .refl d

end

/-! ### The shift unit and the write queue of an engine -/

/-- What of an engine stands while clk pass, but for a background input and for its write queue. -/
def waitingOf (g : Engine) := (shiftOf g, g.ep.queue, g.ep.portWait)

theorem engPass_waiting (b : Bool) (c n : Nat) (g : Engine) : waitingOf (engPass b c n g) = waitingOf g := by
  unfold engPass Seq.count btPass
  dsimp only
  split_ifs <;> rfl

theorem wirePass_queue (n : Nat) (d : Dev) (e : Nat) (p : Eport) :
    (wirePass n d e p).queue = p.queue ∧ (wirePass n d e p).portWait = p.portWait := by
  unfold wirePass
  split
  · exact ⟨rfl, rfl⟩
  · dsimp only
    split <;> exact ⟨rfl, rfl⟩

/-- What the passing of clk may change of a lane: what it drives and reads back, its synchroniser, its timing set. -/
def LaneTimeFrame (l m : Lane) : Prop := m = { l with
  drv := m.drv, drvClk := m.drvClk, readback := m.readback, sync := m.sync, syncClk := m.syncClk, syncOld := m.syncOld, syncPrev := m.syncPrev
  setB := m.setB, setPend := m.setPend, tn := m.tn }

theorem LaneTimeFrame.trans {a b c : Lane} (h : LaneTimeFrame a b) (h' : LaneTimeFrame b c) : LaneTimeFrame a c := by
  unfold LaneTimeFrame at *
  rw [h] at h'
  exact h'

theorem settleSet_frame (c : Nat) (l : Lane) : LaneTimeFrame l (l.settleSet c) := by
  have step : ∀ (x : Nat × Bool) (l : Lane),
      LaneTimeFrame l (if c < x.1 then { l with setPend := l.setPend ++ [x] } else l.changeSet x) := fun x l => by
    unfold Lane.changeSet
    dsimp only
    split_ifs <;> rfl
  have all : ∀ (xs : List (Nat × Bool)) (l : Lane),
      LaneTimeFrame l (xs.foldl (fun l x => if c < x.1 then { l with setPend := l.setPend ++ [x] } else l.changeSet x) l) := fun xs => by
    induction xs with
    | nil => exact fun _ => rfl
    | cons x r ih => exact fun l => (step x l).trans (ih _)
  exact LaneTimeFrame.trans (b := { l with setPend := [] }) rfl (all _ _)

theorem lanePass_frame (n : Nat) (d : Dev) (i : Nat) (l : Lane) : LaneTimeFrame l (lanePass n d i l) := by
  have captured : ∀ l1 : Lane, LaneTimeFrame l1 (match l1.readback, l1.drv with
      | some r, some b => if r < d.clk + n then { l1.capture b r with readback := none } else l1
      | _, _ => l1) := fun l1 => by
    unfold Lane.capture
    split
    · split_ifs <;> rfl
    · rfl
  have settled : ∀ l2 : Lane, LaneTimeFrame l2 (if l2.setPend.isEmpty then l2 else l2.settleSet (d.clk + n)) := fun l2 => by
    split
    · rfl
    · exact settleSet_frame _ l2
  refine LaneTimeFrame.trans ?_ ((captured _).trans (settled _))
  split <;> rfl

theorem LaneTimeFrame.bits_eq {l m : Lane} (h : LaneTimeFrame l m) : bitsOf m = bitsOf l := by
  unfold LaneTimeFrame at h
  rw [h]
  rfl

section
variable {e : Fin 32}

theorem passRest_leaves (n : Nat) (d t : Dev) : Leaves waitingOf bitsOf id e t (passRest n d t) := by
  refine ⟨?_, fun k => ?_, rfl⟩
  · simp only [passRest, Fin.getElem_fin, Vector.getElem_ofFn, engPass_waiting]
    obtain ⟨hq, hw⟩ := wirePass_queue n d e.val t.engines[e].ep
    unfold waitingOf
    exact congrArg (Prod.mk _) (Prod.ext hq hw)
  · simp only [passRest, Fin.getElem_fin, Vector.getElem_ofFn, (lanePass_frame _ _ _ _).bits_eq]

theorem enginePort_leavesShift (n : Nat) (d : Dev) (f : Fin 32) : LeavesShift e d (enginePort n d f) := by
  have written : ∀ (c : Cl) (p : Eport → Eport), LeavesShift e d (updEp f.val p { d with cl := c }) := fun c p =>
    Leaves.trans (b := { d with cl := c }) ⟨rfl, fun _ => rfl, rfl⟩ (leaves_updEp (fun _ => rfl) _ _)
  exact .ite (.refl d) (written _ _)

theorem stewardPort_leavesShift (n : Nat) (d : Dev) (x : Fin 4 × Fin 4) : LeavesShift e d (stewardPort n d x) :=
  .ite (.refl d) ⟨rfl, fun _ => rfl, rfl⟩

/-- After the background inputs the passing of clk leaves the shift units and the lanes' bits. -/
theorem passRaw_leavesShift {n : Nat} (hn : n ≠ 0) (d : Dev) :
    LeavesShift e ((List.finRange 32).foldl (bgPass n) (countersPassed n d)) (passRaw n d) := by
  unfold passRaw
  rw [if_neg hn]
  refine Leaves.trans ?_ (retainPass_leaves _)
  refine Leaves.trans ?_ ((passRest_leaves n _ _).comp Prod.fst id fun _ => ())
  unfold passParts
  refine Leaves.trans ?_ (landingPass_leaves n _)
  refine Leaves.trans ?_ (raiseSoon_frame n _).leaves
  exact (leaves_foldl (enginePort_leavesShift n) _ _).trans (leaves_foldl (stewardPort_leavesShift n) _ _)

end

end Sys2Proof.Machine
end

section
/-!
PROOFS. The statements of 04_engine_datapath.md: background inputs, and the shift operations as stated.
-/
namespace Sys2Proof.Machine

/-! ### A background input takes bit-times -/

/-- The bit-times that the background input of an engine still lacks (R142). -/
def lacking (g : Engine) : Nat := g.dp.target.toNat - g.dp.sc.toNat

section
variable (e : Fin 32) (l : Fin 64)

/-- Of all engines `e` alone, which is RUNNING, may have a background input: from lane `l` through `slot`, until SC reaches the target. -/
def Inputting (own : Bool) (slot : BitVec 3) (d : Dev) : Prop :=
  d.engines[e].life.st = .running ∧ slotLane d e.val slot.toNat = some (l.val, own) ∧ (∀ f : Fin 32, f ≠ e → d.engines[f].dp.bg = none) ∧
    d.engines[e].dp.bg = if d.engines[e].dp.sc = d.engines[e].dp.target then none else some slot

/-- From `d` to `t` a background input of engine `e` has taken `k` bit-times from lane `l`. -/
def Took (k : Nat) (d t : Dev) : Prop :=
  t.engines[e].dp.sh = shiftIn d.engines[e].dp.sh false (d.lanes[l].fifo.take k) ∧
    t.engines[e].dp.sc = d.engines[e].dp.sc + BitVec.ofNat 7 k ∧ t.engines[e].dp.target = d.engines[e].dp.target ∧
    t.lanes[l].fifo = d.lanes[l].fifo.drop k

end

section
variable {e : Fin 32} {l : Fin 64} {own : Bool} {slot : BitVec 3}

theorem Took.none (d : Dev) : Took e l 0 d d := ⟨rfl, (BitVec.add_zero _).symm, rfl, rfl⟩

theorem Took.trans {i j : Nat} {a b c : Dev} (h : Took e l i a b) (h' : Took e l j b c) : Took e l (i + j) a c := by
  obtain ⟨sh, sc, target, fifo⟩ := h
  obtain ⟨sh', sc', target', fifo'⟩ := h'
  refine ⟨?_, ?_, target'.trans target, ?_⟩
  · rw [sh', sh, fifo, List.take_add, shiftIn, shiftIn, shiftIn, List.foldl_append]
  · rw [sc', sc, BitVec.add_assoc, ← BitVec.ofNat_add]
  · rw [fifo', fifo, List.drop_drop]

/-- What was taken is lacking no more. -/
theorem Took.lacking_eq {k : Nat} {a b : Dev} (h : Took e l k a b) (hk : k ≤ lacking a.engines[e]) :
    lacking b.engines[e] = lacking a.engines[e] - k := by
  obtain ⟨-, sc, target, -⟩ := h
  have := a.engines[e].dp.target.isLt
  unfold lacking at *
  rw [sc, target, BitVec.toNat_add, BitVec.toNat_ofNat]
  omega

/-- A part that leaves shift units and bits lets the input stand as it is. -/
theorem Took.after {k : Nat} {a b c : Dev} (h : Took e l k a b) (h' : LeavesShift e b c) : Took e l k a c := by
  obtain ⟨unit, bits, -⟩ := h'
  simp only [shiftOf, Prod.mk.injEq] at unit
  obtain ⟨sh, sc, target, -⟩ := unit
  have fifo : c.lanes[l].fifo = b.lanes[l].fifo := congrArg Prod.fst (bits l)
  unfold Took
  rw [sh, sc, target, fifo]
  exact h

theorem Inputting.after {b c : Dev} (h : Inputting e l own slot b) (h' : ∀ f : Fin 32, LeavesShift f b c) (hc : c.cfg = b.cfg)
    (hl : c.engines[e].life = b.engines[e].life) : Inputting e l own slot c := by
  obtain ⟨run, lane, others, bg⟩ := h
  have unit := (h' e).1
  simp only [shiftOf, Prod.mk.injEq] at unit
  obtain ⟨-, sc, target, bg'⟩ := unit
  refine ⟨hl ▸ run, (slotLane_cfg hc _ _).trans lane, fun f hf => ?_, by rw [bg', sc, target, bg]⟩
  exact (congrArg (·.2.2.2) (h' f).1).trans (others f hf)

/-- The input of a datapath with bit-times `bs`. -/
theorem take_eq (p : Dp) (bs : List Bool) : p.take bs = { p with
    sh := shiftIn p.sh false bs, sc := p.sc + BitVec.ofNat 7 bs.length
    bg := if p.sc + BitVec.ofNat 7 bs.length = p.target then none else p.bg } := by
  unfold Dp.take
  dsimp only
  split <;> rfl

/-- An input that lacks `k` bit-times or more, all in the FIFO, takes them when it is given `k` clk. -/
theorem bgTakeN_took {d : Dev} (h : Inputting e l own slot d) {k : Nat} (hk : k ≤ lacking d.engines[e])
    (hl : k ≤ d.lanes[l].fifo.length) : Took e l k d (bgTakeN e.val k d) ∧ Inputting e l own slot (bgTakeN e.val k d) := by
  obtain ⟨run, lane, others, bg⟩ := h
  rcases Nat.eq_zero_or_pos k with rfl | pos
  · have none : bgTakeN e.val 0 d = d := by
      unfold bgTakeN
      dsimp only
      split
      · rfl
      · split
        · rfl
        · rw [Nat.zero_min]
          rfl
    rw [none]
    exact ⟨.none d, run, lane, others, bg⟩
  · unfold lacking at hk
    have hne : d.engines[e].dp.sc ≠ d.engines[e].dp.target := fun h => by
      rw [h] at hk
      omega
    rw [if_neg hne] at bg
    have length : (d.lanes[l].fifo.take k).length = k := List.length_take_of_le hl
    have taken : bgTakeN e.val k d =
        updDp e.val (·.take (d.lanes[l].fifo.take k)) (updLane l.val (fun x => { x with fifo := x.fifo.drop k }) d) := by
      unfold bgTakeN
      rw [engine_fin]
      dsimp only
      rw [bg]
      dsimp only
      rw [lane]
      dsimp only
      rw [Nat.min_eq_left hk, lane_fin]
      generalize d.lanes[l].fifo.take k = bs at length
      cases bs with
      | nil => exact absurd length (Nat.ne_of_lt pos)
      | cons b r => rw [← length]
    have engine : (bgTakeN e.val k d).engines[e] = { d.engines[e] with dp := d.engines[e].dp.take (d.lanes[l].fifo.take k) } := by
      rw [taken, updDp_engine]
      rfl
    rw [take_eq, length] at engine
    refine ⟨⟨by rw [engine], by rw [engine], by rw [engine], ?_⟩, by rw [engine]; exact run, ?_, fun f hf => ?_, ?_⟩
    · rw [taken]
      show (updLane l.val _ d).lanes[l].fifo = _
      rw [updLane_fin, lane_put_self]
    · rw [slotLane_cfg (d := d) (by rw [taken]; rfl), lane]
    · rw [taken]
      unfold updDp
      rw [updEng_put, getElem_put_other _ hf]
      exact others f hf
    · rw [engine]
      dsimp only
      rw [bg]

/-! ### The passing of clk -/

theorem bgPass_idle (n : Nat) {d : Dev} {f : Fin 32} (h : d.engines[f].dp.bg = none) : bgPass n d f = d := by
  unfold bgPass
  dsimp only
  rw [h]
  exact if_neg (by simp)

theorem bgPass_other (n : Nat) (d : Dev) {f : Fin 32} (hf : f ≠ e) : (bgPass n d e).engines[f] = d.engines[f] := by
  have other : ∀ (p : Dp → Dp) (x : Dev), (updDp e.val p x).engines[f] = x.engines[f] := fun p x => by
    unfold updDp
    rw [updEng_put, getElem_put_other _ hf]
  unfold bgPass bgTakeN
  dsimp only
  split
  · split
    · rfl
    · split
      · rfl
      · split
        · rfl
        · exact other _ _
  · rfl

/-- Over `n` clk the input takes a bit-time in each that no row of the engine has counted. -/
theorem bgPass_took {d : Dev} (h : Inputting e l own slot d) {n : Nat} (hk : d.engines[e].uncounted d.clk n 0 ≤ lacking d.engines[e])
    (hl : d.engines[e].uncounted d.clk n 0 ≤ d.lanes[l].fifo.length) :
    Took e l (d.engines[e].uncounted d.clk n 0) d (bgPass n d e) ∧ Inputting e l own slot (bgPass n d e) := by
  have ⟨run, _, _, bg⟩ := h
  by_cases hb : d.engines[e].dp.sc = d.engines[e].dp.target
  · rw [if_pos hb] at bg
    have zero : d.engines[e].uncounted d.clk n 0 = 0 := by
      unfold lacking at hk
      rw [hb] at hk
      omega
    rw [bgPass_idle n bg, zero]
    exact ⟨.none d, h⟩
  · rw [if_neg hb] at bg
    have takes : bgPass n d e = bgTakeN e.val (d.engines[e].uncounted d.clk n 0) d := by
      unfold bgPass
      dsimp only
      rw [bg]
      exact if_pos ⟨run, rfl⟩
    rw [takes]
    exact bgTakeN_took h hk hl

theorem passRaw_took {n : Nat} (hn : n ≠ 0) {d : Dev} (h : Inputting e l own slot d)
    (hk : d.engines[e].uncounted d.clk n 0 ≤ lacking d.engines[e]) (hl : d.engines[e].uncounted d.clk n 0 ≤ d.lanes[l].fifo.length) :
    Took e l (d.engines[e].uncounted d.clk n 0) d (passRaw n d) ∧ Inputting e l own slot (passRaw n d) := by
  have left := fun f : Fin 32 => passRaw_leavesShift (e := f) hn d
  obtain ⟨frame, same⟩ := passRaw_frame n d
  obtain ⟨engines, lanes, -, cfg, clk⟩ := countersPassed_eq n d
  have h1 : Inputting e l own slot (countersPassed n d) := by
    unfold Inputting
    rw [slotLane_cfg cfg, engines]
    exact h
  have took := bgPass_took (n := n) h1 (by rw [engines, clk]; exact hk) (by rw [engines, clk, lanes]; exact hl)
  have alone : (List.finRange 32).foldl (bgPass n) (countersPassed n d) = bgPass n (countersPassed n d) e := by
    refine foldl_alone (P := fun x => ∀ f : Fin 32, f ≠ e → x.engines[f].dp.bg = none) (fun x hx f hf => bgPass_idle n (hx f hf))
      (fun x hx f hf => by rw [bgPass_other n x hf]; exact hx f hf) (List.nodup_finRange 32) (List.mem_finRange e) h1.2.2.1
  rw [alone] at left
  obtain ⟨took, inputting⟩ := took
  have t := took.after (left e)
  unfold Took at t ⊢
  rw [engines, lanes, clk] at t
  obtain ⟨frame', same'⟩ := bgPass_frame n (countersPassed n d) e
  refine ⟨t, inputting.after left ?_ ?_⟩
  · rw [frame, frame', cfg]
  · rw [same e, same' e, engines]

/-- The clk that an engine's rows have not counted add up. -/
theorem uncounted_add {g h : Engine} (hg : h.seq.covered = g.seq.covered) (c m n : Nat) :
    g.uncounted c (m + n) 0 = g.uncounted c m 0 + h.uncounted (c + m) n 0 := by
  unfold Engine.uncounted
  rw [hg]
  omega

/-- Clk pass until the input has what it lacked of the bit-times in the FIFO. -/
theorem pass_took (n : Nat) {d : Dev} (hf : d.sys.fclkOn = true) (h : Inputting e l own slot d)
    (hk : d.engines[e].uncounted d.clk n 0 ≤ lacking d.engines[e]) (hl : lacking d.engines[e] ≤ d.lanes[l].fifo.length) :
    Took e l (d.engines[e].uncounted d.clk n 0) d (Machine.pass n d) ∧ Inputting e l own slot (Machine.pass n d) := by
  have passes := pass_cases (P := fun n a b => b.clk = a.clk + n ∧ b.engines[e].seq.covered = a.engines[e].seq.covered ∧
      (Inputting e l own slot a → a.engines[e].uncounted a.clk n 0 ≤ lacking a.engines[e] → lacking a.engines[e] ≤ a.lanes[l].fifo.length →
        Took e l (a.engines[e].uncounted a.clk n 0) a b ∧ Inputting e l own slot b)) ?_ ?_ ?_ n hf
  · exact passes.2.2 h hk hl
  · intro d
    refine ⟨rfl, rfl, fun h _ _ => ?_⟩
    have zero : d.engines[e].uncounted d.clk 0 0 = 0 := by
      unfold Engine.uncounted
      omega
    rw [zero]
    exact ⟨.none d, h⟩
  · intro n d hn
    obtain ⟨frame, same⟩ := passRaw_frame n d
    refine ⟨by rw [frame], by rw [same e], fun h hk hl => passRaw_took hn h hk (hk.trans hl)⟩
  · intro m n a b c ⟨clk, covered, first⟩ ⟨clk', covered', second⟩
    refine ⟨by rw [clk', clk, Nat.add_assoc], covered'.trans covered, fun h hk hl => ?_⟩
    have sum := uncounted_add covered a.clk m n
    rw [← clk] at sum
    rw [sum] at hk ⊢
    obtain ⟨took, inputting⟩ := first h (by omega) hl
    have lack := took.lacking_eq (by omega)
    have fifo : b.lanes[l].fifo.length = a.lanes[l].fifo.length - a.engines[e].uncounted a.clk m 0 := by
      rw [took.2.2.2, List.length_drop]
    obtain ⟨took', inputting'⟩ := second inputting (by omega) (by omega)
    exact ⟨took.trans took', inputting'⟩

end

/-! ### The rows -/

theorem exec_backgroundEnd (e : Fin 32) (s : State) : exec (.backgroundEnd e) s = actClk (backgroundEnd e.val) s := rfl

/-- Settles O20: the unit's values are followed through the actions of the microword, and a background input's through the passing of clk. -/
theorem shiftOperationsMoveBits : Obligations.ShiftOperationsMoveBits := by
  unfold Obligations.ShiftOperationsMoveBits
  refine ⟨fun e cs scr s l own h => ?_, fun e s slot => ?_⟩
  · intro d g w n hl
    obtain ⟨bits, -⟩ := units_ready (executes_due h)
    have taken : (w.shop = 1 ∨ w.shop = 2) → takenBits d e.val w = d.lanes[l].fifo.take n := fun hw => by
      rw [takenBits, if_pos hw, slotFifo_bound hl]
    have enough : (w.shop = 1 ∨ w.shop = 2) → n ≤ d.lanes[l].fifo.length := fun hw => by
      have := bits hw
      rwa [slotFifo_bound hl] at this
    refine ⟨fun hw => ?_, fun hw => ?_, fun hw => ?_, fun hw => ?_, fun hw => ?_, fun hw => ?_⟩
    · obtain ⟨t, row, frame, unit, fifo⟩ := row_shifted h hw scr hl fun y hy => doShift_in (lsb := false) hw hy
      simp only [shiftOf, bitsOf, Prod.mk.injEq] at unit fifo
      refine ⟨t, row, frame, ?_, unit.2.1, unit.2.2.1, enough (.inl hw), fifo.1⟩
      rw [unit.1, taken (.inl hw)]
    · obtain ⟨t, row, frame, unit, fifo⟩ := row_shifted h hw scr hl fun y hy => doShift_in (lsb := true) hw hy
      simp only [shiftOf, bitsOf, Prod.mk.injEq] at unit fifo
      refine ⟨t, row, frame, ?_, unit.2.1, unit.2.2.1, enough (.inr hw), fifo.1⟩
      rw [unit.1, taken (.inr hw)]
    · obtain ⟨t, row, frame, unit, ser⟩ := row_shifted h hw scr hl fun y hy => doShift_out (lsb := false) hw hy
      simp only [shiftOf, bitsOf, Prod.mk.injEq] at unit ser
      exact ⟨t, row, frame, ser.2, unit.1, unit.2.1⟩
    · obtain ⟨t, row, frame, unit, ser⟩ := row_shifted h hw scr hl fun y hy => doShift_out (lsb := true) hw hy
      simp only [shiftOf, bitsOf, Prod.mk.injEq] at unit ser
      exact ⟨t, row, frame, ser.2, unit.1, unit.2.1⟩
    · obtain ⟨t, row, frame, unit, -⟩ := row_shifted h hw scr hl fun y _ => doShift_bgin hw
      simp only [shiftOf, Prod.mk.injEq] at unit
      exact ⟨t, row, frame, unit.2.2.2, unit.2.1, unit.2.2.1, unit.1⟩
    · obtain ⟨t, row, frame, unit, ser⟩ := row_shifted h hw scr hl fun y hy => doShift_xfer hw hy
      simp only [shiftOf, bitsOf, Prod.mk.injEq] at unit ser
      exact ⟨t, row, frame, ser.2, unit.2.2.2, unit.2.1, unit.2.2.1, unit.1⟩
  · intro g k t hf hst hbg
    refine ⟨?_, fun l own lane others pos enough => ?_⟩
    · rw [exec_backgroundEnd, actClk_on _ hf, backgroundEnd, engine_fin]
      rw [if_pos ⟨hst, by rw [hbg]; rfl⟩]
    · have hk : k = lacking g := rfl
      have ne : g.dp.sc ≠ g.dp.target := fun h => by
        rw [hk, lacking, h] at pos
        omega
      have counted : g.uncounted s.dev.clk (max s.dev.clk g.seq.covered + k - s.dev.clk) 0 = k := by
        unfold Engine.uncounted
        omega
      have inputting : Inputting e l own slot s.dev := ⟨hst, lane, others, hbg.trans (if_neg ne).symm⟩
      obtain ⟨⟨sh, sc, target, fifo⟩, -, -, -, bg⟩ := pass_took _ hf inputting (Nat.le_of_eq counted) enough
      have reached : g.dp.sc + BitVec.ofNat 7 k = g.dp.target := by
        have := g.dp.target.isLt
        rw [hk] at pos ⊢
        unfold lacking at *
        refine BitVec.eq_of_toNat_eq ?_
        rw [BitVec.toNat_add, BitVec.toNat_ofNat]
        omega
      rw [counted] at sh sc fifo
      rw [sc, target, if_pos reached] at bg
      exact ⟨sh, sc.trans reached, bg, fifo⟩

end Sys2Proof.Machine
end

section
/-!
PROOFS. The statements of 09_cellar.md: what room that is made, and a reservation that is granted, leave of a bin.
-/
namespace Sys2Proof.Machine

/-! ### Bins -/

section
variable {b : Nat} {d t : Dev}

theorem bin_of_cl (h : t.cl = d.cl) (b : Nat) : bin t b = bin d b := by
  unfold bin
  rw [h]

theorem bin_updBin_self (hb : b < 256) (f : Bin → Bin) (d : Dev) : bin (updBin b f d) b = f (bin d b) := by
  rw [bin_updBin, if_pos ⟨rfl, hb⟩]

theorem EvFrame.cl_eq (h : EvFrame d t) : t.cl = d.cl := by
  unfold EvFrame at h
  rw [h]

end

/-- The Cellar changes, and sources are raised. -/
def CellarActs (d t : Dev) : Prop := t = { d with cl := t.cl, ev := t.ev, hr := { d.hr with relays := t.hr.relays } }

theorem CellarActs.trans {a b c : Dev} (h : CellarActs a b) (h' : CellarActs b c) : CellarActs a c := by
  unfold CellarActs at *
  rw [h] at h'
  exact h'

theorem CellarActs.ite {d a b : Dev} {c : Prop} [Decidable c] (ha : CellarActs d a) (hb : CellarActs d b) :
    CellarActs d (if c then a else b) := by
  split
  · exact ha
  · exact hb

theorem cellarActs_updCl (f : Cl → Cl) (d : Dev) : CellarActs d (updCl f d) := rfl
theorem cellarActs_updBin (b : Nat) (f : Bin → Bin) (d : Dev) : CellarActs d (updBin b f d) := rfl

theorem EvFrame.cellarActs {d t : Dev} (h : EvFrame d t) : CellarActs d t := by
  have hc := h.cl_eq
  unfold EvFrame at h
  unfold CellarActs
  rw [hc]
  exact h

/-! ### Room -/

theorem makeRoom_acts (b : Nat) (c : BinEntry) (L : Nat) (d : Dev) : CellarActs d (makeRoom b c L d) :=
  .ite rfl (cellarActs_updBin _ _ d)

/-- What room is made depends on the Cellar alone. -/
theorem makeRoom_cl {d t : Dev} (h : t.cl = d.cl) (b : Nat) (c : BinEntry) (L : Nat) : (makeRoom b c L t).cl = (makeRoom b c L d).cl := by
  unfold makeRoom
  split
  · exact h
  · unfold updBin
    rw [h]

/-- Requests that are withdrawn wait no more; nothing else of a bin changes. -/
theorem bin_withdraw (p : Waiter → Bool) (d : Dev) (b : Nat) :
    bin (withdraw p d) b = { bin d b with waiting := (bin d b).waiting.filter fun w => !p w } := by
  unfold bin withdraw updCl
  dsimp only
  by_cases hb : b < 256
  · rw [at?_lt _ _ _ hb, at?_lt _ _ _ hb, Vector.getElem_map]
  · rw [at?_ge _ _ _ (Nat.le_of_not_lt hb), at?_ge _ _ _ (Nat.le_of_not_lt hb)]
    rfl

/-! ### Grants (R290, R300) -/

/-- The record that a grant of `L` units opens in a bin. -/
def Bin.opening (x : Bin) (c : BinEntry) (L : Nat) (seq : Word) : Rec :=
  { seq := seq, off := if skipFor c x L ≠ 0 then 0 else x.res, len := L, skip := skipFor c x L, st := .opened, slot := x.freeSlot, cursor := 16
    written := 16, trunc := false, age := 0, busy := false }

/-- The bin with that record open. -/
def Bin.granted (x : Bin) (c : BinEntry) (L : Nat) (seq : Word) : Bin :=
  { x with res := ((x.opening c L seq).off + 8 * L) % c.size.toNat, seq := seq + 1, recs := x.recs ++ [x.opening c L seq] }

section
variable {b : Nat} {c : BinEntry} {L typ flags : Nat} {time : DWord} {seq : Word}

theorem grant_acts (d : Dev) : CellarActs d (grant b c L typ flags time seq d) := by
  have skip : ∀ (p : Prop) [Decidable p] (a : Nat) (l : List Byte), CellarActs d (if p then d else wrCellar a l d) := fun p _ a l =>
    .ite rfl (cellarActs_updCl _ d)
  exact (((skip _ _ _).trans (cellarActs_updCl _ _)).trans (cellarActs_updBin _ _ _)).trans (raiseNextIf_frame _ _ _).cellarActs

/-- A grant changes its bin and the memory of the Cellar. -/
theorem grant_cl (d : Dev) : ∃ m, (grant b c L typ flags time seq d).cl = { d.cl with
    mem := m
    bins := upd? d.cl.bins b fun x => { x with
      res := (((bin d b).opening c L seq).off + 8 * L) % c.size.toNat, seq := seq + 1, recs := x.recs ++ [(bin d b).opening c L seq] } } := by
  have header : ∀ (p : Prop) [Decidable p] (a a' : Nat) (l l' : List Byte),
      ∃ m, (wrCellar a' l' (if p then d else wrCellar a l d)).cl = { d.cl with mem := m } := fun p _ a a' l l' => by
    split <;> exact ⟨_, rfl⟩
  have opened : ∀ (x : Dev) (f : Bin → Bin), (∃ m, x.cl = { d.cl with mem := m }) →
      ∃ m, (updBin b f x).cl = { d.cl with mem := m, bins := upd? d.cl.bins b f } := fun x f ⟨m, h⟩ => ⟨m, by unfold updBin; rw [h]⟩
  unfold grant
  dsimp only
  rw [(raiseNextIf_frame _ _ _).cl_eq]
  exact opened _ _ (header _ _ _ _ _)

theorem bin_grant (hb : b < 256) (d : Dev) : bin (grant b c L typ flags time seq d) b = (bin d b).granted c L seq := by
  obtain ⟨m, h⟩ := grant_cl (b := b) (c := c) (L := L) (typ := typ) (flags := flags) (time := time) (seq := seq) d
  unfold bin at *
  rw [h]
  dsimp only
  rw [at?_upd?, if_pos ⟨rfl, hb⟩]
  rfl

theorem grant_ports (d : Dev) : (grant b c L typ flags time seq d).cl.ports = d.cl.ports := by
  obtain ⟨m, h⟩ := grant_cl (b := b) (c := c) (L := L) (typ := typ) (flags := flags) (time := time) (seq := seq) d
  rw [h]

end

end Sys2Proof.Machine
end

section
/-!
PROOFS. The statements of 04_engine_datapath.md: stamps and reservations.
-/
namespace Sys2Proof.Machine

/-! ### A microword whose memory operation writes a register -/

/-- A microword that writes a register by its memory operation does not write one by its ALU (R112). -/
theorem aluWrites_of_legal {d : Dev} {e : Nat} {w : MW} (h : illegal d e w = false) (hm : memWrites w.memop = true) :
    aluWrites w.aluop = false := by
  simp only [illegal, Bool.or_eq_false_iff, Bool.and_eq_false_iff] at h
  obtain ⟨⟨⟨⟨⟨⟨-, writes⟩, -⟩, -⟩, -⟩, -⟩, -⟩ := h
  exact writes.resolve_right (by simp [hm])

theorem executes_legal {e : Fin 32} {cs : Ecc} {s : State} (h : executes s.dev e cs) :
    illegal (due s.dev e) e.val (due s.dev e).engines[e].current = false := by
  obtain ⟨-, -, hv, -, -⟩ := h
  rw [due_current]
  by_contra hi
  obtain ⟨r, hr⟩ := violations_illegal (Bool.not_eq_false _ ▸ hi)
  rw [hr] at hv
  exact List.cons_ne_nil _ _ hv

section
variable {e : Fin 32} {w : MW} {g : Engine} {scr : Ecc} {d y : Dev} {v : Word}

/-- The value that a memory operation writes stands in DST at the end of the microword. -/
theorem execMicro_dst (h : memDone e.val w scr d = wrG e.val w.dst v y) : at? (execMicro e.val w scr d).engines[e].dp.g w.dst 0 = v := by
  obtain ⟨mem, -, -⟩ := execMicro_leavesMem (e := e) w scr d
  have regs : (execMicro e.val w scr d).engines[e].dp.g = (memDone e.val w scr d).engines[e].dp.g := congrArg Prod.fst mem
  have written : (wrG e.val w.dst v y).engines[e].dp.g = put? y.engines[e].dp.g w.dst v := by
    unfold wrG
    rw [updDp_engine]
  rw [regs, h, written, at?_lt _ _ _ (dst_lt w), getElem_put?, if_pos rfl]

/-! ### TSPOP -/

theorem doMem_tspop {l : Fin 64} {own : Bool} {x : DWord × Bool} {r : List (DWord × Bool)} (h1 : 0x18 ≤ w.memop) (h2 : w.memop < 0x20)
    (hl : slotLane y e.val (w.memop % 8) = some (l.val, own)) (hs : y.lanes[l].stamps = x :: r) :
    doMem e.val g w scr y = wrG e.val w.dst (lo32 x.1) (updLane l.val (fun z => { z with stamps := r }) y) := by
  unfold doMem
  dsimp only
  iterate 7 rw [if_neg (by omega)]
  rw [if_pos ⟨h1, h2⟩, hl]
  dsimp only
  rw [lane_fin, hs]

theorem memDone_tspop {l : Fin 64} {own : Bool} {x : DWord × Bool} {r : List (DWord × Bool)} (h1 : 0x18 ≤ w.memop) (h2 : w.memop < 0x20)
    (hl : slotLane d e.val (w.memop % 8) = some (l.val, own)) (hs : d.lanes[l].stamps = x :: r) (scr : Ecc) :
    memDone e.val w scr d = wrG e.val w.dst (lo32 x.1) (updLane l.val (fun z => { z with stamps := r }) (aluDone e.val w d)) := by
  obtain ⟨frame, -⟩ := aluDone_keeps (e := e) w d
  obtain ⟨-, streams, -⟩ := aluDone_leaves (e := e) w d
  exact doMem_tspop h1 h2 ((slotLane_cfg (by rw [frame.1]) _ _).trans hl) ((congrArg Prod.snd (streams l)).trans hs)

/-! ### RESERVE and RESERVEG -/

/-- The outcome of a reservation as the port shows it (R151). -/
def showing (e : Nat) (ok full big : Bool) : Dev → Dev := updEp e fun p => { p with resOk := ok, resFull := full, resTooBig := big }

theorem doMem_reserve (h : w.memop = 8 ∨ w.memop = 9) :
    doMem e.val g w scr y = wrG e.val w.dst (doReserve e.val w y).1 (doReserve e.val w y).2 := by
  unfold doMem
  dsimp only
  rw [if_neg (by omega), if_neg (by omega), if_pos h]

section
variable {c : BinEntry} (hc : binCfg? y (resBin w) = some c)
include hc

theorem doReserve_tooBig (h : c.maxrec.toNat < resLen y.engines[e] w) :
    doReserve e.val w y = (badHandle (resBin w), showing e.val false false true (updBin (resBin w) (fun x => { x with tooBig := satInc x.tooBig }) y)) := by
  unfold doReserve
  dsimp only
  rw [engine_fin, hc]
  exact if_pos h

theorem doReserve_ok (h : resLen y.engines[e] w ≤ c.maxrec.toNat)
    (room : hasRoom c (bin (makeRoom (resBin w) c (max 2 (resLen y.engines[e] w)) y) (resBin w)) (max 2 (resLen y.engines[e] w)) = true) :
    doReserve e.val w y =
      (let z := makeRoom (resBin w) c (max 2 (resLen y.engines[e] w)) y
      let x := bin z (resBin w)
      (pack [(16, x.seq.toNat % 4096), (8, resBin w), (0, x.freeSlot)], showing e.val true false false (clearWaiting e.val
        (grant (resBin w) c (max 2 (resLen y.engines[e] w)) (resType y.engines[e] w) 0 (tbBefore z.tb) x.seq z)))) := by
  unfold doReserve
  dsimp only
  rw [engine_fin, hc]
  dsimp only
  rw [if_neg (Nat.not_lt.2 h), if_pos room]
  rfl

theorem doReserve_full (h : resLen y.engines[e] w ≤ c.maxrec.toNat)
    (room : hasRoom c (bin (makeRoom (resBin w) c (max 2 (resLen y.engines[e] w)) y) (resBin w)) (max 2 (resLen y.engines[e] w)) = false) :
    doReserve e.val w y = (badHandle (resBin w), showing e.val false true false
      (countFull (resBin w) (makeRoom (resBin w) c (max 2 (resLen y.engines[e] w)) y))) := by
  unfold doReserve
  dsimp only
  rw [engine_fin, hc]
  dsimp only
  rw [if_neg (Nat.not_lt.2 h), room]
  rfl

end

theorem resBin_lt (w : MW) : resBin w < 256 := Nat.mod_lt _ (by decide)

/-- The outcome of a reservation stands at the end of the microword. -/
theorem execMicro_reserves (hm : w.memop = 8 ∨ w.memop = 9) {ok full big : Bool}
    (h : doReserve e.val w (aluDone e.val w d) = (v, showing e.val ok full big y)) (scr : Ecc) :
    let t := execMicro e.val w scr d
    t.engines[e].ep.resOk = ok ∧ t.engines[e].ep.resFull = full ∧ t.engines[e].ep.resTooBig = big ∧ at? t.engines[e].dp.g w.dst 0 = v ∧
      t.cl = y.cl := by
  have done : memDone e.val w scr d = wrG e.val w.dst v (showing e.val ok full big y) := by
    unfold memDone
    rw [doMem_reserve hm, h]
  obtain ⟨mem, -, cl⟩ := execMicro_leavesMem (e := e) w scr d
  have shown : portOf (memDone e.val w scr d).engines[e] = (y.engines[e].ep.queue, y.engines[e].ep.trunc, ok, full, big) := by
    rw [done]
    unfold wrG showing updEp
    rw [updDp_engine, updEng_eq_setEng, setEng_engine]
    rfl
  have port := (congrArg Prod.snd mem).trans shown
  simp only [memOf, portOf, Prod.mk.injEq] at port
  obtain ⟨-, -, hok, hfull, hbig⟩ := port
  refine ⟨hok, hfull, hbig, execMicro_dst done, cl.trans ?_⟩
  rw [done]
  rfl

end

/-- Settles O21: a stamp leaves its FIFO; a reservation has the outcome of the bin as room has been made in it. -/
theorem stampsAndReservations : Obligations.StampsAndReservations := by
  unfold Obligations.StampsAndReservations
  refine ⟨fun e cs scr s l own h => ?_, fun e cs scr s c h => ?_⟩
  · intro d w h1 h2 hl
    obtain ⟨-, -, stamp⟩ := units_ready (executes_due h)
    have stamp := stamp h1 h2
    rw [slotStamps_bound hl] at stamp
    obtain ⟨x, r, hs⟩ := List.exists_cons_of_ne_nil stamp
    have done := memDone_tspop h1 h2 hl hs scr
    obtain ⟨t, row, frame, ht⟩ := row_executes h
      (p := fun w => 0x18 ≤ w.memop && w.memop < 0x20)
      ((Bool.and_eq_true _ _).mpr ⟨decide_eq_true h1, decide_eq_true h2⟩) scr
    obtain ⟨-, stamps, -⟩ := execMicro_leavesMem (e := e) w scr d
    refine ⟨t, x, r, hs, row, frame, ?_, ?_⟩
    · rw [ht]
      exact execMicro_dst done
    · rw [ht, stamps l, done]
      show (updLane l.val _ (aluDone e.val w d)).lanes[l].stamps = r
      rw [updLane_fin, lane_put_self]
  · intro d g w b n x hc hm
    have writes : memWrites w.memop = true := by rcases hm with hm | hm <;> (rw [hm]; rfl)
    obtain ⟨unit, -, cl⟩ := aluDone_leaves_registers (e := e) (aluWrites_of_legal (executes_legal h) writes) d
    obtain ⟨frame, -⟩ := aluDone_keeps (e := e) w d
    generalize hy : aluDone e.val w d = y at unit cl frame
    have cl : y.cl = d.cl := cl
    have hn : resLen y.engines[e] w = n := by
      have regs : y.engines[e].dp.g = g.dp.g := congrArg (fun z => z.2.1) unit
      simp only [n, resLen, Engine.g, regs]
    have hx : bin (makeRoom b c (max 2 n) y) b = x := bin_of_cl (makeRoom_cl cl b c (max 2 n)) b
    have hc' : binCfg? y b = some c := by
      rw [← hc]
      unfold binCfg?
      rw [frame.1]
    have hb : b < 256 := resBin_lt w
    have outcome := fun {v : Word} {ok full big : Bool} {z : Dev} (hr : doReserve e.val w y = (v, showing e.val ok full big z)) =>
      execMicro_reserves hm (hy ▸ hr) scr
    refine ⟨execMicro e.val w scr d, fun hm => ?_, fun hm => ?_, execMicro_frame _ _ _, ?_⟩
    · obtain ⟨t, row, -, ht⟩ := row_executes h (p := (·.memop == 8)) (beq_iff_eq.2 hm) scr
      exact ht ▸ row
    · obtain ⟨t, row, -, ht⟩ := row_executes h (p := (·.memop == 9)) (beq_iff_eq.2 hm) scr
      exact ht ▸ row
    · refine ⟨fun hbig => ?_, fun hle room => ?_, fun hle room => ?_⟩
      · obtain ⟨ok, full, big, dst, after⟩ := outcome (doReserve_tooBig hc' (hn ▸ hbig))
        have := bin_of_cl after b
        rw [bin_updBin_self hb, bin_of_cl cl] at this
        exact ⟨ok, full, big, dst, by rw [this], by rw [this]⟩
      · obtain ⟨ok, full, big, dst, after⟩ := outcome (doReserve_ok hc' (hn ▸ hle) (by rw [hn, hx]; exact room))
        have := bin_of_cl after b
        rw [hn] at this dst
        rw [hx] at this dst
        rw [clearWaiting, bin_withdraw, bin_grant hb, hx] at this
        exact ⟨ok, full, big, dst, by rw [this]; rfl⟩
      · obtain ⟨ok, full, big, dst, after⟩ := outcome (doReserve_full hc' (hn ▸ hle) (by rw [hn, hx]; exact room))
        have := bin_of_cl after b
        rw [hn, countFull, bin_updBin_self hb, hx] at this
        exact ⟨ok, full, big, dst, by rw [this], by rw [this]⟩

end Sys2Proof.Machine
end

section
/-!
PROOFS. The statements of 09_cellar.md: handles, and what a port operation makes of the record it names.
-/
namespace Sys2Proof.Machine

/-! ### Handles (R152) -/

/-- A record is the one that a handle names in its bin. -/
def namedBy (h : Word) (r : Rec) : Bool := r.slot == fld h 0 3 && r.seq.toNat % 4096 == fld h 16 12

section
variable {owns : BinEntry → Bool} {h : Word} {d t : Dev} {b : Nat} {c : BinEntry} {r : Rec}

/-- A handle resolves to a record that is held: its form, its bin and the open record it names. -/
theorem resolve_held : resolve owns h d = .held b c r ↔ bit h 31 = false ∧ ¬ (fld h 28 3 ≠ 0 ∨ fld h 3 5 ≠ 0) ∧ b = fld h 8 8 ∧
    binCfg? d b = some c ∧ owns c = true ∧ (bin d b).openRecs.find? (namedBy h) = some r := by
  have named : namedBy h = fun r => r.slot == fld h 0 3 && r.seq.toNat % 4096 == fld h 16 12 := rfl
  rw [named]
  unfold resolve
  dsimp only
  split
  case isTrue hi => simp [hi]
  case isFalse hi =>
    split
    case isTrue hf => simp [hf]
    case isFalse hf =>
      split
      case h_1 hc =>
        simp only [reduceCtorEq, false_iff]
        rintro ⟨-, -, rfl, hc', -⟩
        rw [hc] at hc'
        cases hc'
      case h_2 c' hc =>
        split
        case isTrue ho =>
          simp only [reduceCtorEq, false_iff]
          rintro ⟨-, -, rfl, hc', ho', -⟩
          rw [hc] at hc'
          cases hc'
          rw [ho'] at ho
          cases ho
        case isFalse ho =>
          have ho : owns c' = true := by simpa using ho
          split
          case h_1 r' hr =>
            simp only [Named.held.injEq]
            constructor
            · rintro ⟨rfl, rfl, rfl⟩
              exact ⟨by simpa using hi, hf, rfl, hc, ho, hr⟩
            · rintro ⟨-, -, rfl, hc', -, hr'⟩
              exact ⟨rfl, Option.some.inj (hc.symm.trans hc'), Option.some.inj (hr.symm.trans hr')⟩
          case h_2 hr =>
            have none : ∀ n : Named, (∀ b c r, n ≠ .held b c r) → (n = .held b c r ↔ bit h 31 = false ∧ ¬ (fld h 28 3 ≠ 0 ∨ fld h 3 5 ≠ 0) ∧
                b = fld h 8 8 ∧ binCfg? d b = some c ∧ owns c = true ∧ (bin d b).openRecs.find? (namedBy h) = some r) := fun n hn =>
              ⟨fun h => absurd h (hn _ _ _), by
                rintro ⟨-, -, rfl, -, -, hr'⟩
                exact absurd (hr.symm.trans hr') (by simp)⟩
            split
            · split
              · exact none _ (by simp)
              · exact none _ (by simp)
            · exact none _ (by simp)

/-- What a handle names depends on the configuration and the bins. -/
theorem resolve_congr (hc : t.cfg = d.cfg) (hb : t.cl.bins = d.cl.bins) : resolve owns h t = resolve owns h d := by
  unfold resolve binCfg? bin
  rw [hc, hb]

/-- The bin that a handle names is one of the 256. -/
theorem resolve_bin_lt (hr : resolve owns h d = .held b c r) : b < 256 := by
  obtain ⟨-, -, hb, -⟩ := resolve_held.1 hr
  rw [hb]
  exact Nat.mod_lt _ (by decide)

/-! ### Changes of an open record -/

theorem bin_updOpen (hb : b < 256) (r : Rec) (f : Rec → Rec) (d : Dev) :
    bin (updOpen b r f d) b = { bin d b with recs := (bin d b).recs.map fun x => if x.isOpen && x.slot == r.slot then f x else x } :=
  bin_updBin_self hb _ d

/-- A handle names its record also after a change that leaves it open, in its slot, with its number. -/
theorem resolve_updOpen (hr : resolve owns h d = .held b c r) {f : Rec → Rec}
    (hf : ∀ x, (f x).st = x.st ∧ (f x).slot = x.slot ∧ (f x).seq = x.seq) : resolve owns h (updOpen b r f d) = .held b c (f r) := by
  have hb := resolve_bin_lt hr
  obtain ⟨hi, hform, hbin, hc, ho, hfind⟩ := resolve_held.1 hr
  refine resolve_held.2 ⟨hi, hform, hbin, hc, ho, ?_⟩
  have opened : Rec.isOpen ∘ (fun x : Rec => if x.isOpen && x.slot == r.slot then f x else x) = Rec.isOpen := by
    funext x
    dsimp only [Function.comp]
    obtain ⟨hst, -, -⟩ := hf x
    split
    · unfold Rec.isOpen
      rw [hst]
    · rfl
  have named : namedBy h ∘ (fun x : Rec => if x.isOpen && x.slot == r.slot then f x else x) = namedBy h := by
    funext x
    dsimp only [Function.comp]
    obtain ⟨-, hslot, hseq⟩ := hf x
    split
    · unfold namedBy
      rw [hslot, hseq]
    · rfl
  have isOpen : r.isOpen = true := (List.mem_filter.1 (List.mem_of_find?_eq_some hfind)).2
  unfold Bin.openRecs at hfind ⊢
  rw [bin_updOpen hb]
  dsimp only
  rw [List.filter_map, opened, List.find?_map, named, hfind, Option.map_some, isOpen]
  simp

/-- A record whose COMMIT or VOID has been issued is open no more, nor is another in its slot. -/
theorem openRecs_closed (hb : b < 256) (r : Rec) (d : Dev) :
    ∀ y ∈ (bin (updOpen b r (fun x => { x with st := .closing }) d) b).openRecs, y.slot ≠ r.slot := by
  intro y hy
  rw [bin_updOpen hb] at hy
  obtain ⟨hy, ho⟩ := List.mem_filter.1 hy
  obtain ⟨x, -, rfl⟩ := List.mem_map.1 hy
  split at ho
  case isTrue h => cases ho
  case isFalse h =>
    rw [if_neg h]
    rw [ho, Bool.true_and, beq_iff_eq] at h
    exact h

end

end Sys2Proof.Machine
end

section
/-!
PROOFS. The statements of 04_engine_datapath.md: APPEND, COMMIT and VOID enter the write queue.
-/
namespace Sys2Proof.Machine

/-! ### Appends (R153, R154) -/

/-- The entry of word `i` of `vs`, appended from the cursor of record `r` on. -/
def appendEntry (b : Nat) (c : BinEntry) (r : Rec) (vs : List Word) (i : Nat) : PortWr :=
  { bin := b, seq := r.seq, addr := c.base.toNat + r.off + r.cursor + 4 * i, data := leBytes 4 (vs.getD i 0).toNat
    written := r.cursor + 4 * i + 4 }

/-- How many of `n` words fit between the cursor and the end of record `r`. -/
def fitting (r : Rec) (n : Nat) : Nat := min n ((8 * r.len - r.cursor) / 4)

/-- The record after `n` words have been appended to it or cut off (R153). -/
def Rec.appended (r : Rec) (n : Nat) : Rec :=
  { r with cursor := r.cursor + 4 * fitting r n, trunc := r.trunc || decide (fitting r n < n) }

theorem fitting_one (r : Rec) : fitting r 1 = if r.cursor + 4 ≤ 8 * r.len then 1 else 0 := by
  unfold fitting
  split <;> omega

/-- After a first word the rest fit as far as they would have with it. -/
theorem fitting_succ (r : Rec) (n : Nat) : fitting r (n + 1) = fitting r 1 + fitting (r.appended 1) n := by
  unfold Rec.appended
  rw [fitting_one]
  unfold fitting
  dsimp only
  split <;> omega

/-- After a word that does not fit none fits. -/
theorem fitting_appended {r : Rec} (h : fitting r 1 ≠ 1) (n : Nat) : fitting (r.appended 1) n = 0 := by
  unfold Rec.appended
  rw [fitting_one] at h ⊢
  unfold fitting
  dsimp only
  split at h <;> omega

theorem appended_succ (r : Rec) (n : Nat) : (r.appended 1).appended n = r.appended (n + 1) := by
  have more := fitting_succ r n
  have cursor : r.cursor + 4 * fitting r 1 + 4 * fitting (r.appended 1) n = r.cursor + 4 * fitting r (n + 1) := by omega
  have cut : (r.trunc || decide (fitting r 1 < 1) || decide (fitting (r.appended 1) n < n)) = (r.trunc || decide (fitting r (n + 1) < n + 1)) := by
    have h1 := fitting_one r
    have all : fitting (r.appended 1) n ≤ n := Nat.min_le_left _ _
    rw [Bool.or_assoc, ← Bool.decide_or]
    refine congrArg _ (decide_eq_decide.2 ?_)
    split at h1 <;> omega
  calc (r.appended 1).appended n
    _ = { r with cursor := r.cursor + 4 * fitting r 1 + 4 * fitting (r.appended 1) n
                 trunc := r.trunc || decide (fitting r 1 < 1) || decide (fitting (r.appended 1) n < n) } := rfl
    _ = r.appended (n + 1) := by rw [cursor, cut, Rec.appended]

/-- The entries of the words that follow the first. -/
theorem appendEntry_succ (b : Nat) (c : BinEntry) {r : Rec} (fits : fitting r 1 = 1) (v : Word) (vs : List Word) (i : Nat) :
    appendEntry b c r (v :: vs) (i + 1) = appendEntry b c (r.appended 1) vs i := by
  unfold appendEntry Rec.appended
  rw [fits]
  simp only [List.getD_cons_succ, PortWr.mk.injEq, true_and, and_true]
  omega

theorem appendEntries_cons (b : Nat) (c : BinEntry) (r : Rec) (v : Word) (vs : List Word) :
    (List.range (fitting r 1)).map (appendEntry b c r [v]) ++ (List.range (fitting (r.appended 1) vs.length)).map (appendEntry b c (r.appended 1) vs) =
      (List.range (fitting r (v :: vs).length)).map (appendEntry b c r (v :: vs)) := by
  rw [List.length_cons, fitting_succ r vs.length]
  by_cases fits : fitting r 1 = 1
  · rw [fits, Nat.add_comm 1, List.range_succ_eq_map (n := fitting (r.appended 1) vs.length), List.map_cons, List.map_map]
    refine congrArg (List.cons _) (List.map_congr_left fun i _ => ?_)
    exact (appendEntry_succ b c fits v vs i).symm
  · have none : fitting r 1 = 0 := by
      have := fitting_one r
      split at this <;> omega
    rw [none, fitting_appended fits]
    rfl

section
variable {e : Fin 32} {h : Word} {b : Nat} {c : BinEntry} {r : Rec} {d : Dev}

theorem updEp_self (f : Eport → Eport) (d : Dev) : (updEp e.val f d).engines[e] = { d.engines[e] with ep := f d.engines[e].ep } := by
  rw [updEp_engine, if_pos rfl]

theorem portIssue_queue (xs : List PortWr) (d : Dev) : (portIssue e.val xs d).engines[e].ep.queue = d.engines[e].ep.queue ++ xs := by
  unfold portIssue
  rw [updEp_self]

/-- One word of an append. -/
def appendOne (e b : Nat) (c : BinEntry) (r : Rec) (v : Word) (d : Dev) : Dev :=
  updEp e (fun p => { p with trunc := (append4 (portIssue e) b c r v d).2 }) (append4 (portIssue e) b c r v d).1

theorem appendWords_cons (v : Word) (vs : List Word) (hr : resolve (engOwns e.val) h d = .held b c r) :
    appendWords e.val (v :: vs) h d = appendWords e.val vs h (appendOne e.val b c r v d) := by
  unfold appendWords
  rw [List.foldl_cons, hr]
  rfl

/-- What the words `vs` of an append to record `r` leave: those that fit in the queue, and of the others the flag, the record's too. -/
def Appended (e : Fin 32) (h : Word) (b : Nat) (c : BinEntry) (r : Rec) (vs : List Word) (d t : Dev) : Prop :=
  t.engines[e].ep.queue = d.engines[e].ep.queue ++ (List.range (fitting r vs.length)).map (appendEntry b c r vs) ∧
    t.engines[e].ep.trunc = (if vs = [] then d.engines[e].ep.trunc else decide (fitting r vs.length < vs.length)) ∧
    resolve (engOwns e.val) h t = .held b c (r.appended vs.length) ∧ t.cl.mem = d.cl.mem

theorem appendOne_appended (v : Word) (hr : resolve (engOwns e.val) h d = .held b c r) :
    Appended e h b c r [v] d (appendOne e.val b c r v d) := by
  have one := fitting_one r
  unfold Appended Rec.appended appendOne
  simp only [List.length_cons, List.length_nil, Nat.zero_add, List.cons_ne_nil, if_false, updEp_self]
  by_cases fits : r.cursor + 4 ≤ 8 * r.len
  · have op : append4 (portIssue e.val) b c r v d = (updOpen b r (fun x => { x with cursor := x.cursor + 4 })
        (portIssue e.val [appendEntry b c r [v] 0] d), false) := if_pos fits
    have held : resolve (engOwns e.val) h (portIssue e.val [appendEntry b c r [v] 0] d) = .held b c r := (resolve_congr rfl rfl).trans hr
    rw [if_pos fits] at one
    rw [op, one]
    refine ⟨portIssue_queue _ d, rfl, ?_, rfl⟩
    refine (resolve_congr rfl rfl).trans ((resolve_updOpen (f := fun x => { x with cursor := x.cursor + 4 }) held fun _ => ⟨rfl, rfl, rfl⟩).trans ?_)
    simp
  · have op : append4 (portIssue e.val) b c r v d = (updOpen b r (fun x => { x with trunc := true }) d, true) := if_neg fits
    rw [if_neg fits] at one
    rw [op, one]
    refine ⟨(List.append_nil _).symm, rfl, ?_, rfl⟩
    refine (resolve_congr rfl rfl).trans ((resolve_updOpen (f := fun x => { x with trunc := true }) hr fun _ => ⟨rfl, rfl, rfl⟩).trans ?_)
    simp

/-- The words of an append enter the queue as far as they fit. -/
theorem appendWords_appended (vs : List Word) (hr : resolve (engOwns e.val) h d = .held b c r) :
    Appended e h b c r vs d (appendWords e.val vs h d) := by
  induction vs generalizing d r with
  | nil =>
    have none : r.appended 0 = r := by
      unfold Rec.appended fitting
      simp
    refine ⟨by simp [appendWords, fitting], rfl, ?_, rfl⟩
    rw [List.length_nil, none]
    exact hr
  | cons v vs ih =>
    obtain ⟨queue, trunc, held, mem⟩ := appendOne_appended v hr
    obtain ⟨queue', trunc', held', mem'⟩ := ih held
    rw [appendWords_cons v vs hr]
    refine ⟨?_, ?_, ?_, mem'.trans mem⟩
    · rw [queue', queue, List.append_assoc]
      exact congrArg _ (appendEntries_cons b c r v vs)
    · rw [trunc', trunc, if_neg (List.cons_ne_nil v vs), if_neg (List.cons_ne_nil v []), List.length_cons (as := vs), fitting_succ r vs.length]
      split
      case isTrue hv =>
        subst hv
        rfl
      case isFalse hv =>
        have pos : 0 < vs.length := List.length_pos_iff.2 hv
        refine decide_eq_decide.2 ?_
        by_cases fits : fitting r 1 = 1
        · rw [fits]
          show fitting (r.appended 1) vs.length < vs.length ↔ _
          omega
        · have none := fitting_appended fits vs.length
          have h1 : fitting r 1 ≤ 1 := Nat.min_le_left _ _
          show fitting (r.appended 1) vs.length < vs.length ↔ _
          omega
    · rw [held']
      exact congrArg _ (appended_succ r vs.length)

end

end Sys2Proof.Machine
end

section
/-!
PROOFS. The statements of 04_engine_datapath.md: the port's microwords that act on a handle, and those that stall.
-/
namespace Sys2Proof.Machine

/-! ### COMMIT and VOID (R154, R303, R304) -/

/-- The entries that a COMMIT and a VOID of a record enter in a write queue. -/
def commitEntry (b : Nat) (c : BinEntry) (r : Rec) : PortWr :=
  { bin := b, seq := r.seq, addr := c.base.toNat + r.off + r.cursor, data := List.replicate (8 * r.len - r.cursor) 0, written := 8 * r.len
    hdr := c.base.toNat + r.off, ends := some (if r.trunc then 0x0A else 0x02) }
def voidEntry (b : Nat) (c : BinEntry) (r : Rec) : PortWr :=
  { bin := b, seq := r.seq, addr := c.base.toNat + r.off, data := [], written := r.written, hdr := c.base.toNat + r.off, ends := some 0x04 }

section
variable (issue : List PortWr → Dev → Dev) (b : Nat) (c : BinEntry) (r : Rec) (d : Dev)

theorem commitIssue_eq :
    commitIssue issue b c r d = updOpen b r (fun x => { x with st := .closing }) (issue [commitEntry b c r] d) := by
  unfold commitIssue commitEntry
  cases r.trunc <;> rfl

theorem voidIssue_eq : voidIssue issue b c r d = updOpen b r (fun x => { x with st := .closing }) (issue [voidEntry b c r] d) := rfl

end

/-! ### The microwords -/

/-- The words that APPEND, APPENDSL and APPENDSH append. -/
def appendValues (g : Engine) (w : MW) : List Word :=
  if w.memop = 0x0A then [g.g w.srcb] else if w.memop = 0x0B then [lo32 g.dp.sh] else [lo32 g.dp.sh, hi32 g.dp.sh]

section
variable {e : Fin 32} {w : MW} {b : Nat} {c : BinEntry} {r : Rec} {d : Dev}

theorem portDo_held {h : Word} (hr : resolve (engOwns e.val) h d = .held b c r) (f : Nat → BinEntry → Rec → Dev → Dev) :
    portDo e.val h f d = f b c r d := by
  unfold portDo
  rw [hr]

section
variable {g : Engine} (hr : resolve (engOwns e.val) (portHandle g w) d = .held b c r)
include hr

theorem doMem_append (h1 : 0x0A ≤ w.memop) (h2 : w.memop ≤ 0x0C) (scr : Ecc) :
    doMem e.val g w scr d = appendWords e.val (appendValues g w) (portHandle g w) d := by
  unfold doMem
  dsimp only
  iterate 3 rw [if_neg (by omega)]
  rw [if_pos ⟨h1, h2⟩, hr]
  rfl

theorem doMem_commit (h : w.memop = 0x0D) (scr : Ecc) : doMem e.val g w scr d = commitIssue (portIssue e.val) b c r d := by
  unfold doMem
  dsimp only
  iterate 4 rw [if_neg (by omega)]
  rw [if_pos h, portDo_held hr]

theorem doMem_void (h : w.memop = 0x0E) (scr : Ecc) : doMem e.val g w scr d = voidIssue (portIssue e.val) b c r d := by
  unfold doMem
  dsimp only
  iterate 5 rw [if_neg (by omega)]
  rw [if_pos h, portDo_held hr]

end

/-- The ALU leaves the port and what a handle names. -/
theorem aluDone_port (w : MW) (d : Dev) : (aluDone e.val w d).engines[e].ep.queue = d.engines[e].ep.queue ∧ (aluDone e.val w d).cl = d.cl ∧
    ∀ owns h, resolve owns h (aluDone e.val w d) = resolve owns h d := by
  obtain ⟨unit, -, cl⟩ := aluDone_leaves (e := e) w d
  obtain ⟨frame, -⟩ := aluDone_keeps (e := e) w d
  exact ⟨congrArg (·.2.1) unit, cl, fun owns h => resolve_congr (by rw [frame.1]) (congrArg Cl.bins cl)⟩

/-- The end of a microword leaves the port and what a handle names as the memory operation left them. -/
theorem execMicro_port (w : MW) (scr : Ecc) (d : Dev) :
    (execMicro e.val w scr d).engines[e].ep.queue = (memDone e.val w scr d).engines[e].ep.queue ∧
      (execMicro e.val w scr d).engines[e].ep.trunc = (memDone e.val w scr d).engines[e].ep.trunc ∧
      (execMicro e.val w scr d).cl = (memDone e.val w scr d).cl ∧
      ∀ owns h, resolve owns h (execMicro e.val w scr d) = resolve owns h (memDone e.val w scr d) := by
  obtain ⟨mem, -, cl⟩ := execMicro_leavesMem (e := e) w scr d
  obtain ⟨frame, -⟩ := memDone_control (e := e) w scr d
  obtain ⟨frame', -⟩ := execMicro_frame (e := e) w scr d
  refine ⟨congrArg (·.2.1) mem, congrArg (·.2.2.1) mem, cl, fun owns h => resolve_congr ?_ (congrArg Cl.bins cl)⟩
  rw [frame', frame.1]

section
variable (hr : resolve (engOwns e.val) (portHandle d.engines[e] w) d = .held b c r)
include hr

/-- An append at the end of its microword. -/
theorem execMicro_append (h1 : 0x0A ≤ w.memop) (h2 : w.memop ≤ 0x0C) (scr : Ecc) :
    Appended e (portHandle d.engines[e] w) b c r (appendValues d.engines[e] w) d (execMicro e.val w scr d) := by
  obtain ⟨queue, cl, names⟩ := aluDone_port (e := e) w d
  obtain ⟨queue', trunc', cl', names'⟩ := execMicro_port (e := e) w scr d
  have some : appendValues d.engines[e] w ≠ [] := by
    unfold appendValues
    split_ifs <;> exact List.cons_ne_nil _ _
  have held := (names _ _).trans hr
  have done := appendWords_appended (appendValues d.engines[e] w) held
  rw [← doMem_append held h1 h2 scr] at done
  unfold memDone at queue' trunc' cl' names'
  rw [engine_fin] at queue' trunc' cl' names'
  unfold Appended at done ⊢
  rw [if_neg some] at done ⊢
  rw [queue', trunc', cl', names', ← queue, ← cl]
  exact done

/-- What ends a record at the end of its microword: its entry is in the queue, and no record is open in its slot. -/
theorem execMicro_closes {x : PortWr} {scr : Ecc}
    (op : ∀ y : Dev, resolve (engOwns e.val) (portHandle d.engines[e] w) y = .held b c r →
      doMem e.val d.engines[e] w scr y = updOpen b r (fun x => { x with st := .closing }) (portIssue e.val [x] y)) :
    (execMicro e.val w scr d).cl.mem = d.cl.mem ∧ (execMicro e.val w scr d).engines[e].ep.queue = d.engines[e].ep.queue ++ [x] ∧
      ∀ y ∈ (bin (execMicro e.val w scr d) b).openRecs, y.slot ≠ r.slot := by
  obtain ⟨queue, cl, names⟩ := aluDone_port (e := e) w d
  obtain ⟨queue', -, cl', -⟩ := execMicro_port (e := e) w scr d
  have done := op _ ((names _ _).trans hr)
  unfold memDone at queue' cl'
  rw [engine_fin, done] at queue' cl'
  refine ⟨?_, ?_, ?_⟩
  · rw [cl', ← cl]
    rfl
  · rw [queue', ← queue]
    exact portIssue_queue _ _
  · rw [bin_of_cl cl' b]
    exact openRecs_closed (resolve_bin_lt hr) r _

end

end

end Sys2Proof.Machine
end

section
/-!
PROOFS. The statements of 04_engine_datapath.md: what an entry that is written leaves, and when it is written.
-/
namespace Sys2Proof.Machine

/-! ### A stall (R160) -/

/-- A stalled microword that asks for no record: its clk counts, the Cellar and PC stay. -/
theorem microClk_stall {e : Fin 32} {cs : Ecc} (scr : Ecc) {d : Dev} (h : fetched d.engines[e] cs)
    (hi : illegal d e.val d.engines[e].current = false) (hs : stallCause d e.val d.engines[e].current ≠ 0)
    (hm : d.engines[e].current.memop ≠ 8 ∧ d.engines[e].current.memop ≠ 9) :
    let t := microClk e.val cs scr d
    EngineFrame d t e ∧ t.cl = d.cl ∧ t.engines[e].ep = { d.engines[e].ep with stallClk := satInc d.engines[e].ep.stallClk } ∧
      t.engines[e].seq.pc = d.engines[e].seq.pc := by
  obtain ⟨hue, hce⟩ := h
  obtain ⟨h8, h9⟩ := hm
  have fixed : ¬ (cs = .ce ∧ (!d.engines[e].seq.fixed) = true) := fun ⟨a, b⟩ => by
    rw [hce a] at b
    cases b
  have nothing : blockFull d e.val d.engines[e].current = false := by
    unfold blockFull
    rw [beq_eq_false_iff_ne.2 h8, beq_eq_false_iff_ne.2 h9]
    rfl
  have idle : microClk e.val cs scr d = idleClk e.val (updSeq e.val (fun s => { s with
      waiting := d.engines[e].current.seqop == 8 && !condA d e.val d.engines[e].current }) d) := by
    unfold microClk stallClk
    rw [engine_fin]
    dsimp only
    rw [if_neg hue, if_neg fixed, if_pos ⟨hs, by rw [hi]; rfl⟩, nothing]
    rw [if_neg (fun h => by cases h.1)]
  intro t
  obtain ⟨g, l, ht, same, ep⟩ := idleClk_idle e (updSeq e.val (fun s => { s with
    waiting := d.engines[e].current.seqop == 8 && !condA d e.val d.engines[e].current }) d)
  rw [← idle] at ht
  unfold updSeq at ht same ep
  simp only [updEng_put, getElem_put_self, put_put] at ht same ep
  have engine : t.engines[e] = g := by
    rw [show t = _ from ht]
    exact getElem_put_self _ _ _
  refine ⟨⟨by rw [show t = _ from ht], fun f hf => ?_, by rw [engine, same], by rw [engine, same]⟩, by rw [show t = _ from ht], engine ▸ ep,
    by rw [engine, same]⟩
  rw [show t = _ from ht]
  exact getElem_put_other _ hf _

/-! ### An entry that is written (R153, R303, R304) -/

theorem wrBytes_leBytes (m : Bytes) (a n v : Nat) : wrBytes m a (leBytes n v) = wrLE m a n v := by
  induction n generalizing m a v with
  | zero => rfl
  | succ n ih => exact ih _ _ _

section
variable {x : PortWr} {c : Cl} (hw : Memory.wf c.mem) (hr : (at? c.bins x.bin {}).recs.any (fun r => r.seq == x.seq) = true)
include hr

/-- An entry that ends no record writes its bytes. -/
theorem portWrite_mem_none (h : x.ends = none) : (portWrite x c).mem = wrBytes c.mem x.addr x.data := by
  unfold portWrite
  rw [hr, h]
  rfl

/-- One that ends a record writes its header after them. -/
theorem portWrite_mem_some {f : Nat} (h : x.ends = some f) : (portWrite x c).mem = wrLE (wrBytes c.mem x.addr x.data) x.hdr 8
    ((BitVec.ofNat 64 (rdLE (wrBytes c.mem x.addr x.data) x.hdr 8) &&& ~~~0x0000000100000000) ||| BitVec.ofNat 64 (f * 0x100000000)).toNat := by
  unfold portWrite
  rw [hr, h]
  exact wrBytes_leBytes _ _ _ _

include hw

theorem portWrite_outside {y : Nat} (h1 : y < x.addr ∨ x.addr + x.data.length ≤ y) (h2 : x.ends = none ∨ y < x.hdr ∨ x.hdr + 8 ≤ y) :
    rd8 (portWrite x c).mem y = rd8 c.mem y := by
  have data := rd8_wrBytes_outside hw x.addr x.data y h1
  cases he : x.ends with
  | none => rw [portWrite_mem_none hr he, data]
  | some f =>
    have header := h2.resolve_left (by rw [he]; exact Option.some_ne_none f)
    rw [portWrite_mem_some hr he, rd8_wrLE_outside (wf_wrBytes hw _ _) _ _ _ _ header, data]

variable (ha : x.data = [] ∨ x.hdr + 8 ≤ x.addr)
include ha

theorem portWrite_data (i : Nat) (hi : i < x.data.length) : rd8 (portWrite x c).mem (x.addr + i) = x.data[i] := by
  have data := rd8_wrBytes_inside hw x.addr x.data i hi
  have apart : x.hdr + 8 ≤ x.addr := ha.resolve_left (List.ne_nil_of_length_pos (Nat.zero_lt_of_lt hi))
  cases he : x.ends with
  | none => rw [portWrite_mem_none hr he, data]
  | some f => rw [portWrite_mem_some hr he, rd8_wrLE_outside (wf_wrBytes hw _ _) _ _ _ _ (by omega), data]

theorem portWrite_header {f : Nat} (he : x.ends = some f) : BitVec.ofNat 64 (rdLE (portWrite x c).mem x.hdr 8) =
    (BitVec.ofNat 64 (rdLE c.mem x.hdr 8) &&& ~~~0x0000000100000000) ||| BitVec.ofNat 64 (f * 0x100000000) := by
  have before : rdLE (wrBytes c.mem x.addr x.data) x.hdr 8 = rdLE c.mem x.hdr 8 := by
    refine rdLE_congr _ _ fun i hi => rd8_wrBytes_outside hw _ _ _ ?_
    rcases ha with ha | ha
    · rw [ha, List.length_nil]
      omega
    · omega
  rw [portWrite_mem_some hr he, before, rdLE_wrLE (wf_wrBytes hw _ _)]
  generalize (BitVec.ofNat 64 (rdLE c.mem x.hdr 8) &&& ~~~0x0000000100000000) ||| BitVec.ofNat 64 (f * 0x100000000) = v
  rw [Nat.mod_eq_of_lt (show v.toNat < 256 ^ 8 from v.isLt)]
  rw [BitVec.ofNat_toNat, BitVec.setWidth_eq]

end

theorem portWrite_ports (x : PortWr) (c : Cl) : (portWrite x c).ports = c.ports := by
  unfold portWrite
  split <;> rfl

/-! ### When it is written (R154) -/

/-- The write queue of an engine and the wait of its oldest entry. -/
def queueOf (g : Engine) : List PortWr × Nat := (g.ep.queue, g.ep.portWait)

section
variable {e : Fin 32} {x : PortWr} {l : Cl}

/-- Entry `x` waits `w` clk more in the port of engine `e` over Cellar `l`, or has been written. -/
def Waiting (e : Fin 32) (x : PortWr) (l : Cl) (w : Nat) (d : Dev) : Prop :=
  if w = 0 then d.engines[e].ep.queue = [] ∧ d.cl = portWrite x l else queueOf d.engines[e] = ([x], w) ∧ d.cl = l

/-- No write waits in another port than that of engine `e`. -/
def Alone (e : Fin 32) (d : Dev) : Prop :=
  (∀ f : Fin 32, f ≠ e → d.engines[f].ep.queue = []) ∧ ∀ c l : Fin 4, d.cl.ports[c][l].queue = []

/-- The write queues and the Cellar stay. -/
def QueuesStay (d t : Dev) : Prop := ∀ f : Fin 32, Leaves queueOf (fun _ => ()) id f d t

theorem QueuesStay.trans {a b c : Dev} (h : QueuesStay a b) (h' : QueuesStay b c) : QueuesStay a c := fun f => (h f).trans (h' f)

theorem QueuesStay.waiting {a b : Dev} (h : QueuesStay a b) {w : Nat} (hw : Waiting e x l w a) : Waiting e x l w b := by
  obtain ⟨queue, -, cl⟩ := h e
  have cl : b.cl = a.cl := cl
  have queue' : b.engines[e].ep.queue = a.engines[e].ep.queue := congrArg Prod.fst queue
  unfold Waiting
  rw [queue, queue', cl]
  exact hw

theorem QueuesStay.alone {a b : Dev} (h : QueuesStay a b) (ha : Alone e a) : Alone e b := by
  obtain ⟨engines, ports⟩ := ha
  refine ⟨fun f hf => (congrArg Prod.fst (h f).1).trans (engines f hf), ?_⟩
  have cl : b.cl = a.cl := (h e).2.2
  rw [cl]
  exact ports

theorem bgPass_queues (n : Nat) (d : Dev) (k : Fin 32) : QueuesStay d (bgPass n d k) := by
  intro f
  unfold bgPass bgTakeN
  dsimp only
  split
  · split
    · exact .refl d
    · split
      · exact .refl d
      · split
        · exact .refl d
        · exact (leaves_updLane (fun _ => by rfl) _ d).trans (leaves_updDp (fun _ => rfl) _ _)
  · exact .refl d

/-- Before the write queues the passing of clk leaves them. -/
theorem passBegin_queues (n : Nat) (d : Dev) : QueuesStay d ((List.finRange 32).foldl (bgPass n) (countersPassed n d)) := by
  obtain ⟨engines, -, cl, -⟩ := countersPassed_eq n d
  intro f
  refine Leaves.trans (b := countersPassed n d) ⟨by rw [engines], fun _ => rfl, cl⟩ ?_
  exact leaves_foldl (fun d k => bgPass_queues n d k f) _ _

/-- After them too. -/
theorem passEnd_queues (n : Nat) (d t : Dev) : QueuesStay t (retainPass (passRest n d (landingPass n (raiseSoon n t)))) := fun _ =>
  (((raiseSoon_frame n t).leaves.trans (landingPass_leaves n _)).trans
    ((passRest_leaves n d _).comp Prod.snd (fun _ => ()) id)).trans (retainPass_leaves _)

theorem enginePort_empty (n : Nat) {d : Dev} {f : Fin 32} (h : d.engines[f].ep.queue = []) : enginePort n d f = d := by
  unfold enginePort
  dsimp only
  rw [h]
  rfl

theorem enginePort_other (n : Nat) (d : Dev) {f : Fin 32} (hf : f ≠ e) : (enginePort n d e).engines[f] = d.engines[f] := by
  unfold enginePort updEp
  dsimp only
  split
  · rfl
  · rw [updEng_put]
    exact getElem_put_other _ hf _

section
variable {n w : Nat} {d : Dev} (h : queueOf d.engines[e] = ([x], w))
include h

/-- The one entry of a queue waits on. -/
theorem enginePort_waits (hn : n < w) : enginePort n d e = updEp e.val (fun p => { p with queue := [x], portWait := w - n }) d := by
  obtain ⟨queue, wait⟩ := Prod.mk.injEq .. ▸ h
  unfold enginePort
  dsimp only
  rw [queue, wait]
  unfold portRun
  rw [if_pos hn]
  rfl

/-- The one entry of a queue is written. -/
theorem enginePort_writes (hn : ¬ n < w) : enginePort n d e =
    updEp e.val (fun p => { p with queue := [], portWait := 0 }) { d with cl := portWrite x d.cl } := by
  obtain ⟨queue, wait⟩ := Prod.mk.injEq .. ▸ h
  unfold enginePort
  dsimp only
  rw [queue, wait]
  unfold portRun
  rw [if_neg hn]
  rfl

end

/-- The write queue over `n` clk. -/
theorem enginePort_waiting {n w : Nat} (hn : n ≠ 0) (hw : n ≤ w) {d : Dev} (h : Waiting e x l w d) :
    Waiting e x l (w - n) (enginePort n d e) ∧ (enginePort n d e).cl.ports = d.cl.ports := by
  unfold Waiting at h ⊢
  rw [if_neg (by omega)] at h
  obtain ⟨queue, cl⟩ := h
  by_cases hlt : n < w
  · rw [if_neg (by omega), enginePort_waits queue hlt, updEp_self]
    exact ⟨⟨rfl, cl⟩, rfl⟩
  · rw [if_pos (by omega), enginePort_writes queue hlt, updEp_self]
    exact ⟨⟨rfl, congrArg (portWrite x) cl⟩, portWrite_ports x d.cl⟩

theorem stewardPorts_empty (n : Nat) {d : Dev} (ha : Alone e d) : portSets.foldl (stewardPort n) d = d := by
  refine List.foldl_fixed' (fun k => ?_) portSets
  unfold stewardPort
  dsimp only
  rw [ha.2 k.1 k.2]
  rfl

/-- The write queues' place among the parts of the passing of clk. -/
theorem passRaw_eq {n : Nat} (hn : n ≠ 0) (d : Dev) : passRaw n d = retainPass (passRest n (commitEnd d) (landingPass n (raiseSoon n
    (portSets.foldl (stewardPort n) ((List.finRange 32).foldl (enginePort n) ((List.finRange 32).foldl (bgPass n) (countersPassed n d))))))) := by
  unfold passRaw passParts
  rw [if_neg hn]
  rfl

theorem passRaw_waiting {n w : Nat} (hn : n ≠ 0) (hw : n ≤ w) {d : Dev} (ha : Alone e d) (h : Waiting e x l w d) :
    Alone e (passRaw n d) ∧ Waiting e x l (w - n) (passRaw n d) := by
  have begun := passBegin_queues n d
  have waits := begun.waiting h
  have alone := begun.alone ha
  have passed := passRaw_eq hn d
  generalize (List.finRange 32).foldl (bgPass n) (countersPassed n d) = y at waits alone passed
  obtain ⟨waits', ports⟩ := enginePort_waiting hn hw waits
  have alone' : Alone e (enginePort n y e) := ⟨fun f hf => by rw [enginePort_other n y hf]; exact alone.1 f hf, by rw [ports]; exact alone.2⟩
  have queues : (List.finRange 32).foldl (enginePort n) y = enginePort n y e :=
    foldl_alone (P := fun z => ∀ f : Fin 32, f ≠ e → z.engines[f].ep.queue = []) (fun z hz f hf => enginePort_empty n (hz f hf))
      (fun z hz f hf => by rw [enginePort_other n z hf]; exact hz f hf) (List.nodup_finRange 32) (List.mem_finRange e) alone.1
  rw [queues, stewardPorts_empty n alone'] at passed
  have ended := passEnd_queues n (commitEnd d) (enginePort n y e)
  rw [passed]
  exact ⟨ended.alone alone', ended.waiting waits'⟩

/-- Clk pass until the entry is written. -/
theorem pass_waiting {d : Dev} (hf : d.sys.fclkOn = true) (ha : Alone e d) {w : Nat} (h : Waiting e x l w d) :
    Waiting e x l 0 (Machine.pass w d) := by
  have passes := pass_cases (P := fun n a b => ∀ w, n ≤ w → Alone e a → Waiting e x l w a → Alone e b ∧ Waiting e x l (w - n) b)
    (fun d w _ ha h => ⟨ha, h⟩) (fun n d hn w hw ha h => passRaw_waiting hn hw ha h) ?_ w hf
  · obtain ⟨-, done⟩ := passes w (Nat.le_refl w) ha h
    rwa [Nat.sub_self] at done
  · intro m n a b c first second w hw ha h
    obtain ⟨hb, waits⟩ := first w (by omega) ha h
    rw [Nat.sub_add_eq]
    exact second _ (by omega) hb waits

end

end Sys2Proof.Machine
end

section
/-!
PROOFS. The statements of 04_engine_datapath.md: appends, commits and voids, as stated.
-/
namespace Sys2Proof.Machine

/-- The row of an append that executes, with what enters the queue. -/
theorem row_append {e : Fin 32} {cs : Ecc} {s : State} {b : Nat} {c : BinEntry} {r : Rec} (h : executes s.dev e cs)
    (hr : resolve (engOwns e.val) (portHandle (due s.dev e).engines[e] (due s.dev e).engines[e].current) (due s.dev e) = .held b c r)
    {m : Nat} (hm : (due s.dev e).engines[e].current.memop = m) (h1 : 0x0A ≤ m) (h2 : m ≤ 0x0C) (scr : Ecc) :
    let d := due s.dev e
    let t := execMicro e.val d.engines[e].current scr d
    act (engineRow (·.memop == m) e.val cs scr) s = .next { s with dev := t } ∧
      Appended e (portHandle d.engines[e] d.engines[e].current) b c r (appendValues d.engines[e] d.engines[e].current) d t := by
  obtain ⟨t, row, -, ht⟩ := row_executes h (p := (·.memop == m)) (beq_iff_eq.2 hm) scr
  exact ⟨ht ▸ row, execMicro_append hr (hm ▸ h1) (hm ▸ h2) scr⟩

/-- Settles O22: appends, commits and voids are followed into the write queue, and an entry through the clk it waits to its bytes. -/
theorem appendsCommitsAndVoids : Obligations.AppendsCommitsAndVoids := by
  unfold Obligations.AppendsCommitsAndVoids
  refine ⟨fun e cs scr s b c r h => ?_, fun e cs scr s hrun => ?_, fun x c hw hr ha => ?_, fun e x d hf hq hw others ports => ?_⟩
  · intro d g w h' a hr
    have closes := fun {x : PortWr} op => execMicro_closes (x := x) (scr := scr) hr op
    refine ⟨fun m vs hvs hm => ?_, fun hm => ?_, fun hm => ?_⟩
    · have values : appendValues g w = vs ∧ vs ≠ [] ∧ 0x0A ≤ m ∧ m ≤ 0x0C := by
        unfold appendValues
        rcases hvs with ⟨rfl, rfl⟩ | ⟨rfl, rfl⟩ | ⟨rfl, rfl⟩ <;> simp [hm]
      obtain ⟨hvs, some, h1, h2⟩ := values
      obtain ⟨row, queue, trunc, held, mem⟩ := row_append h hr hm h1 h2 scr
      rw [show appendValues _ _ = vs from hvs] at queue trunc held
      rw [if_neg some] at trunc
      refine ⟨_, fun hk => ?_, fun hk => ?_, fun hk => ?_, execMicro_frame w scr d, mem, queue, trunc, held⟩
      all_goals
        subst hk
        exact row
    · obtain ⟨t, row, frame, ht⟩ := row_executes h (p := (·.memop == 0x0D)) (beq_iff_eq.2 hm) scr
      obtain ⟨mem, queue, closed⟩ := closes fun y hy => (doMem_commit hy hm scr).trans (commitIssue_eq ..)
      subst ht
      exact ⟨_, row, frame, mem, queue, closed⟩
    · obtain ⟨t, row, frame, ht⟩ := row_executes h (p := (·.memop == 0x0E)) (beq_iff_eq.2 hm) scr
      obtain ⟨mem, queue, closed⟩ := closes fun y hy => (doMem_void hy hm scr).trans (voidIssue_eq ..)
      subst ht
      exact ⟨_, row, frame, mem, queue, closed⟩
  · intro d g hfetch hi hs hm
    have row : exec (.append e cs scr) s = .next { s with dev := microClk e.val cs scr d } := by
      have kind : (fun w : MW => w.memop == 0x0A) s.dev.engines[e].current = true := by
        rw [← due_current s.dev e]
        exact beq_iff_eq.2 hm
      show act (engineRow (fun w => w.memop == 0x0A) e.val cs scr) s = _
      rw [act_eq, engineRow_due hrun kind]
    obtain ⟨frame, cl, ep, pc⟩ := microClk_stall scr hfetch hi (by rw [hs]; decide) ⟨by rw [hm]; decide, by rw [hm]; decide⟩
    exact ⟨_, row, frame, cl, ep, pc⟩
  · intro m h
    exact ⟨fun i hi => portWrite_data hw hr ha i hi, fun f hf _ => portWrite_header hw hr ha hf, fun y h1 h2 => portWrite_outside hw hr h1 h2⟩
  · have waits : Waiting e x d.cl d.engines[e].ep.portWait d := by
      unfold Waiting
      rw [if_neg (Nat.pos_iff_ne_zero.1 hw)]
      exact ⟨Prod.ext hq rfl, rfl⟩
    obtain ⟨queue, cl⟩ := pass_waiting hf ⟨others, ports⟩ waits
    exact ⟨cl, queue⟩

end Sys2Proof.Machine
end

section
/-!
PROOFS. The statements of 09_cellar.md: a Steward's port set, and requests that wait.
-/
namespace Sys2Proof.Machine

/-! ### A store to a port set (R309 to R311) -/

/-- The offset of register `o` of the port set of core `c` at level `l`. -/
def setOff (c l : Fin 4) (o : Nat) : Nat := 0x8100 + 0x80 * c.val + 0x20 * l.val + o

/-- The registers of a port set that make requests and port operations. -/
def portReg (o : Nat) : Prop := o = 0x00 ∨ o = 0x10 ∨ o = 0x14 ∨ o = 0x18

section
variable {c l : Fin 4} {o : Nat} (ho : portReg o)
include ho

theorem portReg_lt : o < 0x20 := by
  rcases ho with rfl | rfl | rfl | rfl <;> decide

theorem portVal_isSome (p : Port) : (portVal p o).isSome = true := by
  rcases ho with rfl | rfl | rfl | rfl <;> rfl

/-- The place of a port register. -/
theorem setOff_parts : (setOff c l o - 0x8100) / 0x80 = c.val ∧ setOff c l o % 0x80 / 0x20 = l.val ∧ setOff c l o % 0x20 = o := by
  have := portReg_lt ho
  unfold setOff
  omega

theorem setOff_range : 0x8100 ≤ setOff c l o ∧ setOff c l o < 0x8300 := by
  have := portReg_lt ho
  unfold setOff
  omega

/-- A port register is no reserved location. -/
theorem regVal_setOff (who : Who) (d : Dev) : (regVal who (setOff c l o) d).isNone = false := by
  obtain ⟨low, high⟩ := setOff_range (c := c) (l := l) ho
  obtain ⟨-, -, place⟩ := setOff_parts (c := c) (l := l) ho
  have reg : regVal who (setOff c l o) d = clVal who d (setOff c l o - 0x8000) := by
    unfold regVal
    iterate 5 rw [if_neg (by omega)]
    rw [if_pos (by omega)]
  rw [reg, Option.isNone_eq_false_iff]
  unfold clVal
  dsimp only
  split
  case h_8 =>
    rw [if_pos (by omega), Option.isSome_map, show (setOff c l o - 0x8000) % 0x20 = o by omega]
    exact portVal_isSome ho _
  all_goals omega

/-- A store of a core to its own port set goes there, and is reported when it is refused. -/
theorem wordWrite_set {d : Dev} (hl : regsLive d = true) (hlvl : d.cores[c].lvl = l.val) (v : Word) :
    wordWrite (.steward c false false false) (setOff c l o) v 0xF d =
      if (portStore c l d.cores[c].comp o v d).2 then
        busError c 2 (regBase + setOff c l o) (inSealed d c) (portStore c l d.cores[c].comp o v d).1
      else (portStore c l d.cores[c].comp o v d).1 := by
  obtain ⟨core, level, place⟩ := setOff_parts (c := c) (l := l) ho
  obtain ⟨low, high⟩ := setOff_range (c := c) (l := l) ho
  have lvl : Fin.ofNat 4 l.val = l := Fin.ext (Nat.mod_eq_of_lt l.isLt)
  have store : stewardStore c false false false l d.cores[c].comp (setOff c l o) v d =
      ((portStore c l d.cores[c].comp o v d).1, if (portStore c l d.cores[c].comp o v d).2 then some 2 else none) := by
    unfold stewardStore
    dsimp only
    rw [regVal_setOff ho, if_neg Bool.false_ne_true, if_pos (by simp [low, high]), if_pos ⟨core, level⟩, place]
  unfold wordWrite stewardWrite
  dsimp only
  rw [if_pos hl, if_neg (by decide), core_fin, hlvl, lvl, store]
  cases (portStore c l d.cores[c].comp o v d).2 <;> rfl

end

/-! ### The registers of a port set -/

section
variable {c l : Fin 4} (f : Port → Port) (d : Dev)

theorem updPort_put : updPort c.val l.val f d =
    { d with cl := { d.cl with ports := put d.cl.ports c (put d.cl.ports[c] l (f d.cl.ports[c][l])) } } := by
  unfold updPort updCl
  dsimp only
  rw [upd?_fin, upd?_fin]

theorem port_updPort : (updPort c.val l.val f d).cl.ports[c][l] = f d.cl.ports[c][l] := by
  rw [updPort_put]
  simp

theorem updPort_acts : CellarActs d (updPort c.val l.val f d) := rfl

end

/-! ### Requests that wait (R301) -/

theorem grantPort_acts (b : Nat) (e : BinEntry) (c l : Fin 4) (typ : Byte) (len : Half) (d : Dev) : CellarActs d (grantPort b e c l typ len d) :=
  .ite rfl (((grant_acts d).trans (cellarActs_updBin _ _ _)).trans (updPort_acts _ _))

theorem serveTrigger_acts (b : Nat) (e : BinEntry) (d : Dev) : CellarActs d (serveTrigger b e d) := by
  unfold serveTrigger
  split
  · exact .ite ((grant_acts d).trans (cellarActs_updBin _ _ _)) rfl
  · rfl

theorem cellarActs_foldl {α : Type} {f : Dev → α → Dev} (hf : ∀ d a, CellarActs d (f d a)) (l : List α) (d : Dev) :
    CellarActs d (l.foldl f d) := by
  induction l generalizing d with
  | nil => rfl
  | cons a r ih => exact (hf d a).trans (ih _)

theorem serveWaiting_acts (b : Nat) (e : BinEntry) (d : Dev) : CellarActs d (serveWaiting b e d) := by
  refine (serveTrigger_acts b e d).trans (cellarActs_foldl (fun d w => ?_) _ _)
  cases w with
  | steward c l typ len => exact grantPort_acts b e c l typ len d
  | engine f n => rfl

/-! ### CL_SREQ (R310) -/

/-- The record that a grant opens is the only one with its number, when no open one has it. -/
theorem find_opening {x : Bin} (hx : ∀ y ∈ x.openRecs, y.seq ≠ x.seq) (c : BinEntry) (L : Nat) :
    (x.granted c L x.seq).openRecs.find? (fun r => r.seq == x.seq) = some (x.opening c L x.seq) := by
  have old : x.openRecs.find? (fun r => r.seq == x.seq) = none := List.find?_eq_none.2 fun y hy => by
    rw [beq_iff_eq]
    exact hx y hy
  unfold Bin.openRecs Bin.granted at *
  dsimp only
  rw [List.filter_append, List.find?_append, old, Option.none_or, List.filter_cons_of_pos rfl, List.find?_cons_of_pos]
  exact beq_self_eq_true _

/-- The answer that RESULT and CL_SRESP of a port set give. -/
def answering (c l : Fin 4) (result : BitVec 3) (resp : Word) : Dev → Dev :=
  updPort c l fun p => { p with result := result, resp := resp }

section
variable {c l : Fin 4} {comp : Byte} {v : Word} {d d0 : Dev} {e : BinEntry} {b n : Nat} (hb : fld v 0 8 = b) (hn : fld v 16 16 = n)
  (hd : withdraw (Waiter.ofSet c l) d0 = d)
include hb hn hd

theorem portRequest_refused (h : n = 0 ∨ binCfg? d b = none ∨ ∃ e, binCfg? d b = some e ∧ coreMay d c.val b e comp = false) :
    portRequest c l comp v d0 = (d, true) := by
  unfold portRequest
  dsimp only
  rw [hb, hn, hd]
  cases he : binCfg? d b with
  | none => rfl
  | some e =>
    dsimp only
    rw [if_pos]
    rcases h with h | h | ⟨e', he', h⟩
    · exact .inl h
    · rw [he] at h
      cases h
    · rw [he] at he'
      cases he'
      rw [h]
      exact .inr rfl

section
variable (h0 : n ≠ 0) (he : binCfg? d b = some e) (may : coreMay d c.val b e comp = true)
include h0 he may

theorem portRequest_tooBig (h : e.maxrec.toNat < n) :
    portRequest c l comp v d0 = (answering c l 3 (badHandle b) (updBin b (fun x => { x with tooBig := satInc x.tooBig }) d), false) := by
  unfold portRequest
  dsimp only
  rw [hb, hn, hd, he]
  dsimp only
  rw [if_neg (by simp [h0, may]), if_pos h]
  rfl

/-- A request that is not too long, on the bin as those that wait have been served and room has been made. -/
theorem portRequest_fits (h : n ≤ e.maxrec.toNat) {y : Dev} (hy : makeRoom b e (max 2 n) (serveWaiting b e d) = y) :
    let x := bin y b
    (hasRoom e x (max 2 n) = true → (∀ r ∈ x.openRecs, r.seq ≠ x.seq) → portRequest c l comp v d0 =
      (answering c l 1 (pack [(16, x.seq.toNat % 4096), (8, b), (0, x.freeSlot)]) (grant b e (max 2 n) (fld v 8 8) 0 y.tb.now x.seq y), false)) ∧
    (hasRoom e x (max 2 n) = false → e.policy = 2 → portRequest c l comp v d0 =
      (answering c l 4 (badHandle b) (updBin b (fun x => { x with waiting := x.waiting ++ [.steward c l (bf v 8 8) (bf v 16 16)] }) y), false)) ∧
    (hasRoom e x (max 2 n) = false → e.policy ≠ 2 → portRequest c l comp v d0 = (answering c l 2 (badHandle b) (countFull b y), false)) := by
  have lt : b < 256 := hb ▸ Nat.mod_lt _ (by decide)
  intro x
  refine ⟨fun room fresh => ?_, fun room policy => ?_, fun room policy => ?_⟩
  all_goals
    unfold portRequest
    dsimp only
    rw [hb, hn, hd, he]
    dsimp only
    rw [if_neg (by simp [h0, may]), if_neg (Nat.not_lt.2 h), hy, room]
  · rw [if_pos rfl, bin_grant lt, find_opening fresh]
    rfl
  · rw [if_neg Bool.false_ne_true, if_pos policy]
    rfl
  · rw [if_neg Bool.false_ne_true, if_neg policy]
    rfl

end

end

end Sys2Proof.Machine
end

section
/-!
PROOFS. The statements of 09_cellar.md: the operations of a port set enter its write queue.
-/
namespace Sys2Proof.Machine

/-! ### The row of a port store -/

/-- A store of core `c`, at level `l`, to register `o` of its port set. -/
def setStore (c : Fin 4) (o : Nat) (v : Word) (d : Dev) : Dev :=
  wordWrite (.steward c false false false) (0x8100 + 0x80 * c.val + 0x20 * (core d c.val).lvl + o) v 0xF d

theorem exec_clSreq (c : Fin 4) (v : Word) (s : State) : exec (.clSreq c v) s = act (setStore c 0x00 v) s := rfl
theorem exec_clSappend (c : Fin 4) (v : Word) (s : State) : exec (.clSappend c v) s = act (setStore c 0x10 v) s := rfl
theorem exec_clScommit (c : Fin 4) (v : Word) (s : State) : exec (.clScommit c v) s = act (setStore c 0x14 v) s := rfl
theorem exec_clSvoid (c : Fin 4) (v : Word) (s : State) : exec (.clSvoid c v) s = act (setStore c 0x18 v) s := rfl

section
variable {c l : Fin 4} {o : Nat} {v : Word} {s : State} {t : Dev} (ho : portReg o) (hl : regsLive s.dev = true)
  (hlvl : s.dev.cores[c].lvl = l.val)
include ho hl hlvl

theorem setStore_eq : setStore c o v s.dev = if (portStore c l s.dev.cores[c].comp o v s.dev).2 then
    busError c.val 2 (regBase + setOff c l o) (inSealed s.dev c.val) (portStore c l s.dev.cores[c].comp o v s.dev).1
    else (portStore c l s.dev.cores[c].comp o v s.dev).1 := by
  unfold setStore
  rw [core_fin, hlvl]
  exact wordWrite_set ho hl hlvl v

theorem act_setStore (h : portStore c l s.dev.cores[c].comp o v s.dev = (t, false)) : act (setStore c o v) s = .next { s with dev := t } := by
  rw [act_eq, setStore_eq ho hl hlvl, h]
  rfl

theorem act_setStore_refused (h : portStore c l s.dev.cores[c].comp o v s.dev = (t, true)) :
    act (setStore c o v) s = .next { s with dev := busError c.val 2 (regBase + setOff c l o) (inSealed s.dev c.val) t } := by
  rw [act_eq, setStore_eq ho hl hlvl, h]
  rfl

end

/-! ### Room in the queue (R311) -/

/-- The handles that the port sets hold. -/
def handlesOf (x : Cl) (c l : Fin 4) : Word := x.ports[c][l].handle

theorem portRun_ports (d : Dev) (me c n : Nat) (q : List PortWr) (w : Nat) (x : Cl) : (portRun d me c n q w x).2.2.ports = x.ports := by
  induction q generalizing c n w x with
  | nil => rfl
  | cons y q ih =>
    unfold portRun
    split
    · rfl
    · rw [ih, portWrite_ports]

theorem enginePort_handles (n : Nat) (d : Dev) (e : Fin 32) : handlesOf (enginePort n d e).cl = handlesOf d.cl := by
  unfold enginePort
  dsimp only
  split
  · rfl
  · unfold handlesOf
    exact congrArg (fun p => fun c l : Fin 4 => p[c][l].handle) (portRun_ports ..)

theorem stewardPort_handles (n : Nat) (d : Dev) (k : Fin 4 × Fin 4) : handlesOf (stewardPort n d k).cl = handlesOf d.cl := by
  unfold stewardPort
  dsimp only
  split
  · rfl
  · unfold handlesOf
    dsimp only
    rw [portRun_ports]
    funext c l
    rw [upd?_fin, upd?_fin]
    by_cases hc : k.1 = c
    · subst hc
      by_cases hl : k.2 = l
      · subst hl
        simp
      · simp [Fin.val_ne_of_ne hl]
    · simp [Fin.val_ne_of_ne hc]

theorem handles_foldl {α : Type} {f : Dev → α → Dev} (hf : ∀ d a, handlesOf (f d a).cl = handlesOf d.cl) (l : List α) (d : Dev) :
    handlesOf (l.foldl f d).cl = handlesOf d.cl := by
  induction l generalizing d with
  | nil => rfl
  | cons a r ih => exact (ih _).trans (hf d a)

/-- The passing of clk leaves the handles. -/
theorem passRaw_handles {n : Nat} (hn : n ≠ 0) (d : Dev) : handlesOf (passRaw n d).cl = handlesOf d.cl := by
  rw [passRaw_eq hn]
  obtain ⟨-, -, begun⟩ := passBegin_queues n d 0
  obtain ⟨-, -, ended⟩ := passEnd_queues n (commitEnd d) (portSets.foldl (stewardPort n)
    ((List.finRange 32).foldl (enginePort n) ((List.finRange 32).foldl (bgPass n) (countersPassed n d)))) 0
  calc handlesOf _
    _ = handlesOf _ := congrArg handlesOf ended
    _ = handlesOf _ := handles_foldl (stewardPort_handles n) _ _
    _ = handlesOf _ := handles_foldl (enginePort_handles n) _ _
    _ = handlesOf d.cl := congrArg handlesOf begun

theorem pass_handles (n : Nat) {d : Dev} (hf : d.sys.fclkOn = true) : handlesOf (Machine.pass n d).cl = handlesOf d.cl :=
  pass_cases (P := fun _ a b => handlesOf b.cl = handlesOf a.cl) (fun _ => rfl) (fun _ d hn => passRaw_handles hn d)
    (fun _ _ _ _ _ first second => second.trans first) n hf

theorem setRoom_handle (c l : Fin 4) {d : Dev} (hf : d.sys.fclkOn = true) :
    (setRoom c l d).cl.ports[c][l].handle = d.cl.ports[c][l].handle := by
  unfold setRoom
  dsimp only
  split
  · exact congrFun (congrFun (pass_handles _ hf) c) l
  · rfl

/-! ### Operations on a handle (R152, R311) -/

section
variable {c l : Fin 4} {h : Word} {f : (List PortWr → Dev → Dev) → Nat → BinEntry → Rec → Dev → Dev} {d0 d : Dev} (hd : setRoom c l d0 = d)
include hd

theorem portOp_invalid (hr : resolve (coreOwns c.val) h d = .invalid) :
    portOp c l h f d0 = (updPort c.val l.val (fun p => { p with discard := satInc p.discard }) d, false) := by
  unfold portOp
  dsimp only
  rw [hd, hr]

theorem portOp_late (hr : resolve (coreOwns c.val) h d = .late) :
    portOp c l h f d0 = (updPort c.val l.val (fun p => { p with late := satInc p.late }) d, false) := by
  unfold portOp
  dsimp only
  rw [hd, hr]

theorem portOp_other (hr : resolve (coreOwns c.val) h d = .other) : portOp c l h f d0 = (d, true) := by
  unfold portOp
  dsimp only
  rw [hd, hr]

theorem portOp_held {b : Nat} {e : BinEntry} {r : Rec} (hr : resolve (coreOwns c.val) h d = .held b e r) :
    portOp c l h f d0 = (f (setIssue c l) b e r d, false) := by
  unfold portOp
  dsimp only
  rw [hd, hr]

end

/-! ### What enters the queue (R153, R303, R304, R311) -/

section
variable {c l : Fin 4} {b : Nat} {e : BinEntry} {r : Rec} {v h : Word} {d : Dev}

theorem setIssue_queue (xs : List PortWr) (d : Dev) : (setIssue c l xs d).cl.ports[c][l].queue = d.cl.ports[c][l].queue ++ xs := by
  unfold setIssue
  rw [port_updPort]

/-- From `d` to `t` the entries `xs` have entered the queue of a port set; of the rest the Cellar alone has changed, and no byte of it. -/
def Queued (c l : Fin 4) (xs : List PortWr) (d t : Dev) : Prop :=
  t = { d with cl := t.cl } ∧ t.cl.mem = d.cl.mem ∧ t.cl.ports[c][l].queue = d.cl.ports[c][l].queue ++ xs

/-- Entries enter the queue, and the record they speak of changes with them. -/
theorem queued_updOpen (xs : List PortWr) (f : Rec → Rec) : Queued c l xs d (updOpen b r f (setIssue c l xs d)) :=
  ⟨rfl, rfl, setIssue_queue xs d⟩

theorem append4_fits (fits : r.cursor + 4 ≤ 8 * r.len) (issue : List PortWr → Dev → Dev) : (append4 issue b e r v d).1 =
    updOpen b r (fun x => { x with cursor := x.cursor + 4 }) (issue [appendEntry b e r [v] 0] d) := by
  unfold append4
  rw [if_pos fits]
  rfl

theorem append4_cut (cut : 8 * r.len < r.cursor + 4) (issue : List PortWr → Dev → Dev) :
    (append4 issue b e r v d).1 = updOpen b r (fun x => { x with trunc := true }) d := by
  unfold append4
  rw [if_neg (Nat.not_le.2 cut)]

/-- The record a handle names while entries enter the queue. -/
theorem resolve_queued (hr : resolve (coreOwns c.val) h d = .held b e r) (xs : List PortWr) {f : Rec → Rec}
    (hf : ∀ x, (f x).st = x.st ∧ (f x).slot = x.slot ∧ (f x).seq = x.seq) :
    resolve (coreOwns c.val) h (updOpen b r f (setIssue c l xs d)) = .held b e (f r) :=
  resolve_updOpen ((resolve_congr rfl rfl).trans hr) hf

end

end Sys2Proof.Machine
end

section
/-!
PROOFS. The statements of 09_cellar.md: a Steward's requests and port operations, and the grant of those that wait, as stated.
-/
namespace Sys2Proof.Machine

/-! ### CL_SREQ (R310) -/

section
variable {c l : Fin 4}

theorem bin_answering (k : BitVec 3) (resp : Word) (x : Dev) (b : Nat) : bin (answering c l k resp x) b = bin x b := rfl

theorem port_answering (k : BitVec 3) (resp : Word) (x : Dev) :
    (answering c l k resp x).cl.ports[c][l] = { x.cl.ports[c][l] with result := k, resp := resp } := port_updPort _ x

/-- An answer given after changes of the Cellar is one. -/
theorem CellarActs.answering {d x : Dev} (h : CellarActs d x) (k : BitVec 3) (resp : Word) :
    CellarActs d (Machine.answering c l k resp x) := h.trans (updPort_acts _ _)

end

/-- The table of R310: from `d`, where the bin of a request of `n` units reads `x` once room has been made, the answer in `t`. -/
def Answered (c l : Fin 4) (v : Word) (b n : Nat) (e : BinEntry) (d : Dev) (x : Bin) (t : Dev) : Prop :=
  (e.maxrec.toNat < n → t.cl.ports[c][l].result = 3 ∧ t.cl.ports[c][l].resp = badHandle b ∧ (bin t b).tooBig = satInc (bin d b).tooBig) ∧
  (n ≤ e.maxrec.toNat → hasRoom e x (max 2 n) = true → t.cl.ports[c][l].result = 1 ∧
    t.cl.ports[c][l].resp = pack [(16, x.seq.toNat % 4096), (8, b), (0, x.freeSlot)] ∧ (bin t b).seq = x.seq + 1) ∧
  (n ≤ e.maxrec.toNat → hasRoom e x (max 2 n) = false → t.cl.ports[c][l].resp = badHandle b ∧ (bin t b).seq = x.seq ∧
    (e.policy = 2 → t.cl.ports[c][l].result = 4 ∧ (bin t b).waiting = x.waiting ++ [.steward c l (bf v 8 8) (bf v 16 16)]) ∧
    (e.policy ≠ 2 → t.cl.ports[c][l].result = 2 ∧ (bin t b).full = satInc x.full))

theorem portRequest_answered {c l : Fin 4} {comp : Byte} {v : Word} {b n : Nat} {e : BinEntry} {d0 d y : Dev} (hb : fld v 0 8 = b)
    (hn : fld v 16 16 = n) (hd : withdraw (Waiter.ofSet c l) d0 = d) (h0 : n ≠ 0) (he : binCfg? d b = some e)
    (may : coreMay d c.val b e comp = true) (hy : makeRoom b e (max 2 n) (serveWaiting b e d) = y)
    (fresh : ∀ r ∈ (bin y b).openRecs, r.seq ≠ (bin y b).seq) :
    ∃ t, portRequest c l comp v d0 = (t, false) ∧ CellarActs d t ∧ Answered c l v b n e d (bin y b) t := by
  have lt : b < 256 := hb ▸ Nat.mod_lt _ (by decide)
  have acts : CellarActs d y := hy ▸ (serveWaiting_acts b e d).trans (makeRoom_acts b e _ _)
  unfold Answered
  by_cases h : e.maxrec.toNat < n
  · refine ⟨_, portRequest_tooBig hb hn hd h0 he may h, (cellarActs_updBin _ _ d).answering _ _, fun _ => ?_, fun h' => absurd h (Nat.not_lt.2 h'),
      fun h' => absurd h (Nat.not_lt.2 h')⟩
    rw [port_answering, bin_answering, bin_updBin_self lt]
    exact ⟨rfl, rfl, rfl⟩
  · obtain ⟨ok, pending, full⟩ := portRequest_fits hb hn hd h0 he may (Nat.not_lt.1 h) hy
    cases room : hasRoom e (bin y b) (max 2 n) with
    | true =>
      refine ⟨_, ok room fresh, (acts.trans (grant_acts y)).answering _ _, fun h' => absurd h' h, fun _ _ => ?_, fun _ h' => absurd h' (by decide)⟩
      rw [port_answering, bin_answering, bin_grant lt]
      exact ⟨rfl, rfl, rfl⟩
    | false =>
      by_cases policy : e.policy = 2
      · refine ⟨_, pending room policy, (acts.trans (cellarActs_updBin _ _ y)).answering _ _, fun h' => absurd h' h, fun _ h' => absurd h' (by decide),
          fun _ _ => ?_⟩
        rw [port_answering, bin_answering, bin_updBin_self lt]
        exact ⟨rfl, rfl, fun _ => ⟨rfl, rfl⟩, fun h' => absurd policy h'⟩
      · refine ⟨_, full room policy, (acts.trans (cellarActs_updBin _ _ y)).answering _ _, fun h' => absurd h' h, fun _ h' => absurd h' (by decide),
          fun _ _ => ?_⟩
        rw [port_answering, bin_answering, countFull, bin_updBin_self lt]
        exact ⟨rfl, rfl, fun h' => absurd h' policy, fun _ => ⟨rfl, rfl⟩⟩

/-! ### The operations on a handle (R311) -/

/-- The registers that act on a handle, each with the handle it acts on and the row of its store. -/
theorem handle_stores {c l : Fin 4} {v h : Word} {o : Nat} {i : Instr} {s : State} (hl : regsLive s.dev = true)
    (hi : (h = (setRoom c l s.dev).cl.ports[c][l].handle ∧ o = 0x10 ∧ i = .clSappend c v) ∨ (h = v ∧ o = 0x14 ∧ i = .clScommit c v) ∨
      (h = v ∧ o = 0x18 ∧ i = .clSvoid c v)) :
    portReg o ∧ exec i s = act (setStore c o v) s ∧ ∃ f, ∀ comp, portStore c l comp o v s.dev = portOp c l h f s.dev := by
  have hf : s.dev.sys.fclkOn = true := ((Bool.and_eq_true _ _).mp hl).1
  rcases hi with ⟨rfl, rfl, rfl⟩ | ⟨rfl, rfl, rfl⟩ | ⟨rfl, rfl, rfl⟩
  · refine ⟨.inr (.inl rfl), exec_clSappend c v s, fun issue b e r d => (append4 issue b e r v d).1, fun comp => ?_⟩
    rw [setRoom_handle c l hf]
    rfl
  · exact ⟨.inr (.inr (.inl rfl)), exec_clScommit c h s, _, fun comp => rfl⟩
  · exact ⟨.inr (.inr (.inr rfl)), exec_clSvoid c h s, _, fun comp => rfl⟩

/-! ### BLOCK_GRANT (R301) -/

section
variable {b : Fin 256} {e : BinEntry} {d : Dev} (ht : d.cl.bins[b].trgOpen = none)
include ht

theorem serveTrigger_none : serveTrigger b.val e d = d := by
  unfold serveTrigger
  rw [bin_fin, ht]

theorem serveWaiting_engine {f : Fin 32} {n : Nat} (hw : d.cl.bins[b].waiting = [.engine f n]) : serveWaiting b.val e d = d := by
  unfold serveWaiting
  rw [serveTrigger_none ht, bin_fin, hw]
  rfl

theorem serveWaiting_set {c l : Fin 4} {typ : Byte} {n : Half} (hw : d.cl.bins[b].waiting = [.steward c l typ n]) :
    serveWaiting b.val e d = grantPort b.val e c l typ n d := by
  unfold serveWaiting
  rw [serveTrigger_none ht, bin_fin, hw]
  rfl

end

/-- A granted set reads OK and the handle, and its request waits no more. -/
theorem grantPort_room {b : Fin 256} {e : BinEntry} {c l : Fin 4} {typ : Byte} {n : Half} {d : Dev}
    (room : hasRoom e d.cl.bins[b] (max 2 n.toNat) = true) :
    let x := d.cl.bins[b]
    let t := grantPort b.val e c l typ n d
    t.cl.ports[c][l] = { d.cl.ports[c][l] with result := 1, resp := pack [(16, x.seq.toNat % 4096), (8, b.val), (0, x.freeSlot)] } ∧
      t.cl.bins[b] = { x.granted e (max 2 n.toNat) x.seq with waiting := x.waiting.filter (· ≠ .steward c l typ n) } := by
  intro x t
  have granted : t = answering c l 1 (pack [(16, x.seq.toNat % 4096), (8, b.val), (0, x.freeSlot)])
      (updBin b.val (fun x => { x with waiting := x.waiting.filter (· ≠ .steward c l typ n) })
        (grant b.val e (max 2 n.toNat) typ.toNat 0 d.tb.now x.seq d)) := by
    have h : t = grantPort b.val e c l typ n d := rfl
    unfold grantPort at h
    dsimp only at h
    rw [bin_fin, room] at h
    exact h
  refine ⟨?_, ?_⟩
  · rw [granted, port_answering]
    exact congrArg (fun q : Vector (Vector Port 4) 4 => ({ q[c][l] with result := 1, resp := _ } : Port)) (grant_ports d)
  · rw [← bin_fin, granted, bin_answering, bin_updBin_self b.isLt, bin_grant b.isLt, bin_fin]
    rfl

theorem exec_blockGrant {b : Fin 256} {e : BinEntry} {s : State} (hf : s.dev.sys.fclkOn = true) (he : binCfg? s.dev b.val = some e) {t : Dev}
    (ht : serveWaiting b.val e s.dev = t) (hw : t.cl.bins[b].waiting = []) : exec (.blockGrant b) s = .next { s with dev := t } := by
  show actClk (blockGrant b.val) s = _
  rw [actClk_on _ hf]
  unfold blockGrant
  rw [he]
  dsimp only
  rw [ht, bin_fin, hw]

/-- An engine whose request waits executes its microword when it is due. -/
theorem exec_blockGrant_engine {b : Fin 256} {e : BinEntry} {s : State} {f : Fin 32} {n : Nat} (hf : s.dev.sys.fclkOn = true)
    (he : binCfg? s.dev b.val = some e) (ht : s.dev.cl.bins[b].trgOpen = none) (hw : s.dev.cl.bins[b].waiting = [.engine f n])
    (hrun : canRun s.dev f.val = true) (full : blockFull s.dev f.val s.dev.engines[f].current = false) {p : MW → Bool}
    (hp : p s.dev.engines[f].current = true) : exec (.blockGrant b) s = act (engineRow p f.val .ok .ok) s := by
  show actClk (blockGrant b.val) s = _
  have row : engineRow p f.val .ok .ok s.dev = engineClk f.val .ok .ok s.dev := by
    unfold engineRow
    rw [engine_fin, if_pos ⟨hrun, hp⟩]
  rw [actClk_on _ hf, act_eq, row]
  unfold blockGrant
  rw [he]
  dsimp only
  rw [serveWaiting_engine ht hw, bin_fin, hw]
  dsimp only
  rw [engine_fin, full]
  unfold grantEngine
  rw [if_pos hrun]
  rfl

/-- Settles O41: a store to a port set goes to its request or its operation, whose answers and entries are read off; waiting requests are
served one by one. -/
theorem stewardPortsReserveAppendCommitAndVoid : Obligations.StewardPortsReserveAppendCommitAndVoid := by
  unfold Obligations.StewardPortsReserveAppendCommitAndVoid
  refine ⟨fun c l s hl hlvl => ?_, fun b e s hf he ht => ?_⟩
  · intro off err
    refine ⟨fun v => ?_, ?_⟩
    · intro b n d
      refine ⟨fun h => (exec_clSreq c v s).trans (act_setStore_refused (.inl rfl) hl hlvl (portRequest_refused rfl rfl rfl h)),
        fun e h0 he may => ?_⟩
      intro x fresh
      obtain ⟨t, request, acts, big, ok, none⟩ := portRequest_answered rfl rfl rfl h0 he may rfl fresh
      exact ⟨t, (exec_clSreq c v s).trans (act_setStore (.inl rfl) hl hlvl request), acts, big, ok, none⟩
    · intro d p port
      have hd : setRoom c l s.dev = d := rfl
      refine ⟨fun h v o i hi => ?_, fun v b e r => ?_⟩
      · obtain ⟨reg, row, f, op⟩ := handle_stores hl hi
        rw [row]
        refine ⟨fun hr => ?_, fun hr => ?_, fun hr => ?_⟩
        · rw [act_setStore reg hl hlvl ((op _).trans (portOp_invalid hd hr)), updPort_put]
        · rw [act_setStore reg hl hlvl ((op _).trans (portOp_late hd hr)), updPort_put]
        · exact act_setStore_refused reg hl hlvl ((op _).trans (portOp_other hd hr))
      · intro a queued
        have hf : s.dev.sys.fclkOn = true := ((Bool.and_eq_true _ _).mp hl).1
        have same : s.dev.cl.ports[c][l].handle = p.handle := (setRoom_handle c l hf).symm
        have append := fun (hr : resolve (coreOwns c.val) p.handle d = .held b e r) =>
          act_setStore (o := 0x10) (v := v) (.inr (.inl rfl)) hl hlvl
            (portOp_held (f := fun issue b e r d => (append4 issue b e r v d).1) hd (same ▸ hr))
        refine ⟨fun hr fits => ?_, fun hr cut => ?_, fun hr => ?_, fun hr => ?_⟩
        · have row := append hr
          rw [append4_fits fits] at row
          exact ⟨_, ⟨(exec_clSappend c v s).trans row, queued_updOpen _ _⟩, resolve_queued hr _ fun _ => ⟨rfl, rfl, rfl⟩⟩
        · have row := append hr
          rw [append4_cut cut] at row
          exact ⟨_, ⟨(exec_clSappend c v s).trans row, rfl, rfl, (List.append_nil _).symm⟩, resolve_updOpen hr fun _ => ⟨rfl, rfl, rfl⟩⟩
        · have row := act_setStore (o := 0x14) (v := v) (.inr (.inr (.inl rfl))) hl hlvl (portOp_held hd hr)
          rw [commitIssue_eq] at row
          exact ⟨_, ⟨(exec_clScommit c v s).trans row, queued_updOpen _ _⟩, openRecs_closed (resolve_bin_lt hr) r _⟩
        · have row := act_setStore (o := 0x18) (v := v) (.inr (.inr (.inr rfl))) hl hlvl (portOp_held hd hr)
          rw [voidIssue_eq] at row
          exact ⟨_, ⟨(exec_clSvoid c v s).trans row, queued_updOpen _ _⟩, openRecs_closed (resolve_bin_lt hr) r _⟩
  · intro x
    refine ⟨fun c l typ n hw room => ?_, fun f n hw hx full => ?_⟩
    · obtain ⟨answer, after⟩ := grantPort_room (c := c) (l := l) (typ := typ) room
      have none : (grantPort b.val e c l typ n s.dev).cl.bins[b].waiting = [] := by
        rw [after]
        show x.waiting.filter _ = []
        rw [hw]
        simp
      refine ⟨_, exec_blockGrant hf he (serveWaiting_set ht hw) none, answer, none, ?_, grantPort_acts b.val e c l typ n s.dev⟩
      rw [after]
      rfl
    · obtain ⟨hrun, -⟩ := hx
      exact ⟨fun hm => exec_blockGrant_engine hf he ht hw hrun full (p := (·.memop == 8)) (beq_iff_eq.2 hm),
        fun hm => exec_blockGrant_engine hf he ht hw hrun full (p := (·.memop == 9)) (beq_iff_eq.2 hm)⟩

end Sys2Proof.Machine
end

section
/-!
PROOFS. The statements of 05_engine_life.md: PARK and UNPARK.
-/
namespace Sys2Proof.Machine

section
variable (who : Who) (e : Fin 32) (v : Word) (s : State)

theorem exec_parkRequest : exec (.parkRequest who e v) s = act (wordWrite who (enOff e 0x204) v 0xF) s := rfl
theorem exec_unpark : exec (.unpark who e v) s = act (wordWrite who (enOff e 0x204) v 0xF) s := rfl

end

/-- A write of EN_LIFE without FREEZE and THAW needs no key (R389). -/
theorem enWrite_life {v : Word} (hv : v &&& 0xC = 0) (who : Who) (e : Nat) (d : Dev) : enWrite who e 0x204 v d = enLifeWrite who e v d := by
  unfold enWrite
  dsimp only
  rw [hv]
  cases who <;> simp

theorem enLifeWrite_park (who : Who) (e : Nat) (d : Dev) : enLifeWrite who e 0x01 d = parkRequest e d := rfl
theorem enLifeWrite_unpark (who : Who) (e : Nat) (d : Dev) : enLifeWrite who e 0x02 d = unparkRequest e d := rfl

section
variable {who : Who} {e : Fin 32} {s : State} {d : Dev}

theorem exec_parkRequest_reached (h : reached who (enOff e 0x204) s.dev = some d) :
    exec (.parkRequest who e 0x01) s = .next { s with dev := parkRequest e.val d } := by
  rw [exec_parkRequest, act_en h _ (by decide) (by decide), enWrite_life (by decide), enLifeWrite_park]

theorem exec_unpark_reached (h : reached who (enOff e 0x204) s.dev = some d) :
    exec (.unpark who e 0x02) s = .next { s with dev := unparkRequest e.val d } := by
  rw [exec_unpark, act_en h _ (by decide) (by decide), enWrite_life (by decide), enLifeWrite_unpark]

end

/-! ### The requests on an engine -/

theorem setResult_eq (e : Fin 32) (r : Byte) (d : Dev) :
    setResult e.val r d = setEng e { d.engines[e] with life := { d.engines[e].life with result := r } } d := updEng_put e _ d

/-- A change of the life cycle, and the result of the request. -/
theorem setResult_updLife (e : Fin 32) (r : Byte) (f : Life → Life) (d : Dev) :
    setResult e.val r (updLife e.val f d) =
      setEng e { d.engines[e] with life := { f d.engines[e].life with result := r } } d := by
  unfold updLife
  rw [setResult_eq, updEng_eq_setEng, setEng_engine, setEng_setEng]

/-- The engine after PARK (R169). -/
def Engine.parkAsked (g : Engine) : Engine :=
  if g.life.st = .running then
    let g1 := if g.seq.yielded then g.parking else { g with life := { g.life with parkPend := true } }
    { g1 with life := { g1.life with result := 0 } }
  else { g with life := { g.life with result := 2 } }

theorem parkRequest_eq (e : Fin 32) (d : Dev) : parkRequest e.val d = setEng e d.engines[e].parkAsked d := by
  unfold parkRequest engSt Engine.parkAsked
  rw [engine_fin]
  split
  · rw [doPark_eq, updLife, updEng_eq_setEng, setEng_ite, setResult_eq, setEng_engine, setEng_setEng]
  · exact setResult_eq e 2 d

/-- The engine after UNPARK in clk `clk` (R172, R173). -/
def Engine.unparkAsked (clk : Nat) (g : Engine) : Engine :=
  { g with life :=
      if g.life.st = .parked then { g.life with unparkPend := true, unparkAt := clk + 1, result := 0 }
      else if g.life.st = .running ∧ g.life.parkPend then { g.life with parkPend := false, result := 0 }
      else { g.life with result := 2 } }

theorem unparkRequest_eq (e : Fin 32) (d : Dev) : unparkRequest e.val d = setEng e (d.engines[e].unparkAsked d.clk) d := by
  unfold unparkRequest Engine.unparkAsked
  rw [engine_fin]
  dsimp only
  split
  · exact setResult_updLife e 0 _ d
  · split
    · exact setResult_updLife e 0 _ d
    · exact setResult_eq e 2 d

/-- Settles O23: what PARK and UNPARK leave of an engine, by its state. -/
theorem parkAndUnparkAnEngine : Obligations.ParkAndUnparkAnEngine := by
  unfold Obligations.ParkAndUnparkAnEngine
  intro who e s d h g goes
  rw [exec_parkRequest_reached h, exec_unpark_reached h, parkRequest_eq, unparkRequest_eq]
  unfold Engine.parkAsked Engine.unparkAsked
  refine ⟨fun running yielded => ?_, fun running yielded => ?_, fun other => ?_, fun parked => ?_, fun running pending => ?_,
    fun notParked idle => ?_⟩
  · rw [if_pos running, if_pos yielded]
    rfl
  · rw [if_pos running, if_neg (Bool.eq_false_iff.1 yielded)]
    rfl
  · rw [if_neg other]
    rfl
  · rw [if_pos parked]
    rfl
  · rw [if_neg (by rw [running]; decide), if_pos ⟨running, pending⟩]
    rfl
  · have : ¬ (g.life.st = .running ∧ g.life.parkPend = true) := fun ⟨hr, hp⟩ =>
      idle.elim (· hr) fun hf => Bool.noConfusion (hf.symm.trans hp)
    rw [if_neg notParked, if_neg this]
    rfl

end Sys2Proof.Machine
end

section
/-!
PROOFS. The statements of 05_engine_life.md: replants.
-/
namespace Sys2Proof.Machine

section
variable (who : Who) (e : Fin 32) (v : Word) (s : State)

theorem exec_replantGo : exec (.replantGo who e v) s = act (wordWrite who (enOff e 0x208) v 0xF) s := rfl
theorem exec_replantCancel : exec (.replantCancel who e v) s = act (wordWrite who (enOff e 0x208) v 0xF) s := rfl
theorem exec_graceExpired : exec (.graceExpired e) s = actClk (graceExpired e.val) s := rfl

theorem enWrite_replant (e : Nat) (d : Dev) :
    enWrite who e 0x208 v d = enReplantWrite e v (if bit v 0 then bistAbortEngine e d else d) := rfl

end

/-! ### Self-tests that a request ends (R456) -/

/-- What an ended self-test changes: the test unit, the event router, relay counts. -/
def BistFrame (d t : Dev) : Prop := t = { d with bist := t.bist, ev := t.ev, hr := { d.hr with relays := t.hr.relays } }

theorem BistFrame.trans {a b c : Dev} (h : BistFrame a b) (h' : BistFrame b c) : BistFrame a c := by
  unfold BistFrame at *
  rw [h] at h'
  exact h'

theorem bistAbortEngine_frame (e : Nat) (d : Dev) : BistFrame d (bistAbortEngine e d) := bistAbort_frame _ d

theorem BistFrame.engines_eq {d t : Dev} (h : BistFrame d t) : t.engines = d.engines := by
  unfold BistFrame at h
  rw [h]

/-- Which engines a transplant names is a matter of the engines. -/
theorem inXplant_engines {d t : Dev} (h : t.engines = d.engines) (k : Nat) : inXplant t k = inXplant d k := by
  unfold inXplant engine
  rw [h]

/-! ### One engine replaced by another that agrees with it -/

theorem engine_setEng_keeps {β : Type} {π : Engine → β} {e : Fin 32} {g : Engine} {d : Dev} (h : π g = π d.engines[e]) (k : Nat) :
    π (engine (setEng e g d) k) = π (engine d k) := by
  have hk := engine_updEng e.val k (fun _ => g) d
  rw [updEng_eq_setEng] at hk
  rw [hk]
  split
  · rename_i hc
    rw [h, ← hc.1, engine_fin]
  · rfl

/-- A transplant names the same engines when no pending one changes. -/
theorem inXplant_setEng {e : Fin 32} {g : Engine} {d : Dev} (h : g.life.xpend = d.engines[e].life.xpend) (k : Nat) :
    inXplant (setEng e g d) k = inXplant d k := by
  have same := engine_setEng_keeps (π := fun g => g.life.xpend) h
  unfold inXplant
  simp only [same]

/-! ### Swaps (R181, R182) -/

/-- The engine on its other bank, at that bank's REPLANT_ENTRY (R182). -/
def Engine.swapped (g : Engine) : Engine :=
  { g with
    seq := { g.seq with
      bank := !g.seq.bank, stack := [], fresh := true, fixed := false, pc := if g.seq.bank then g.seq.rp0 else g.seq.rp1 }
    life := { g.life with rpPend := none, graceCnt := 0, swapGrace := none } }

theorem swapBank_eq (e : Fin 32) (d : Dev) : swapBank e.val d = setEng e d.engines[e].swapped d := by
  unfold swapBank
  rw [updEng_eq_setEng]
  unfold Engine.swapped Engine.replantEntry
  cases d.engines[e].seq.bank <;> rfl

/-- The engine after the FORCE swap in clk `clk` (R181). -/
def Engine.forced (clk : Nat) (g : Engine) : Engine :=
  Engine.swapped { g with
    life := { g.life with shSave := g.dp.sh, shValid := true, shBg := g.dp.bg.isSome, shTarget := g.dp.target, shSc := g.dp.sc }
    dp := { g.dp with bg := none }, ep := { g.ep with cause := 0 }
    seq := { g.seq with waiting := false, yielded := false, budcnt := 0, reached := clk + 2, budFrom := clk + 2, step := false } }

theorem forceSwap_eq (e : Fin 32) (d : Dev) : forceSwap e.val d = setEng e (d.engines[e].forced d.clk) (clearWaiting e.val d) := by
  unfold forceSwap
  dsimp only
  rw [swapBank_eq, updEng_eq_setEng, setEng_engine, setEng_setEng]
  rfl

/-! ### EN_REPLANT (R177, R178, R196) -/

/-- The engine with GRACE and ESCALATE of a write of EN_REPLANT. -/
def Engine.graced (v : Word) (g : Engine) : Engine := { g with life := { g.life with escalate := bit v 24, grace := bf v 16 8 } }

/-- GO acts on an engine that runs or has stopped (R177, R178). -/
def Engine.replantable (g : Engine) : Bool := g.life.st == .running || g.life.st == .halted || g.life.st == .parked || g.life.st == .frozen

/-- What GO does to an engine, `busy` when a replant is pending or a transplant names it (R177, R178). -/
def Engine.replantAsked (busy force : Bool) (clk : Nat) (g : Engine) : Engine :=
  if g.replantable then
    if busy then { g with life := { g.life with result := 1 } }
    else if g.life.st = .running then
      { g with life := { g.life with rpPend := some force, graceCnt := 0, swapGrace := none, rpAt := clk + 1, result := 0 } }
    else { g.swapped with life := { g.swapped.life with result := 0 } }
  else { g with life := { g.life with result := 2 } }

theorem replantable_iff (g : Engine) :
    g.replantable = true ↔ g.life.st = .running ∨ g.life.st = .halted ∨ g.life.st = .parked ∨ g.life.st = .frozen := by
  unfold Engine.replantable
  cases g.life.st <;> decide

theorem replantGo_if (e : Nat) (force : Bool) (d : Dev) :
    replantGo e force d =
      if (engine d e).replantable then
        if (engine d e).life.rpPend.isSome || inXplant d e then setResult e 1 d
        else if (engine d e).life.st = .running then
          setResult e 0 (updLife e (fun l => { l with rpPend := some force, graceCnt := 0, swapGrace := none, rpAt := d.clk + 1 }) d)
        else setResult e 0 (swapBank e d)
      else setResult e 2 d := by
  unfold replantGo Engine.replantable
  dsimp only
  cases (engine d e).life.st <;> rfl

theorem replantGo_eq (e : Fin 32) (force : Bool) (d : Dev) :
    replantGo e.val force d =
      setEng e (d.engines[e].replantAsked (d.engines[e].life.rpPend.isSome || inXplant d e.val) force d.clk) d := by
  rw [replantGo_if, engine_fin]
  unfold Engine.replantAsked
  split
  · split
    · exact setResult_eq e 1 d
    · split
      · exact setResult_updLife e 0 _ d
      · rw [swapBank_eq, setResult_eq, setEng_engine, setEng_setEng]
  · exact setResult_eq e 2 d

/-- What GO leaves of an engine in each of its answers (R177, R178). -/
theorem replantAsked_fields (busy force : Bool) (clk : Nat) (g : Engine) :
    let h := g.replantAsked busy force clk
    h.life.escalate = g.life.escalate ∧ h.life.grace = g.life.grace ∧ h.life.st = g.life.st ∧
    (g.replantable = false → h.life.result = 2 ∧ h.seq = g.seq) ∧
    (g.replantable = true → busy = true → h.life.result = 1 ∧ h.seq = g.seq ∧ h.life.rpPend = g.life.rpPend) ∧
    (g.life.st = .running → busy = false → h.life.result = 0 ∧ h.life.rpPend = some force ∧ h.life.rpAt = clk + 1 ∧ h.seq = g.seq) ∧
    (g.replantable = true → g.life.st ≠ .running → busy = false → h.life.result = 0 ∧ h.seq = g.swapped.seq) := by
  dsimp only
  unfold Engine.replantAsked
  refine ⟨?_, ?_, ?_, fun hn => ?_, fun ha hb => ?_, fun hr hb => ?_, fun ha hr hb => ?_⟩
  iterate 3 split_ifs <;> rfl
  · rw [hn]
    exact ⟨rfl, rfl⟩
  · rw [if_pos ha, if_pos hb]
    exact ⟨rfl, rfl, rfl⟩
  · rw [if_pos ((replantable_iff g).2 (.inl hr)), if_neg (Bool.eq_false_iff.1 hb), if_pos hr]
    exact ⟨rfl, rfl, rfl, rfl⟩
  · rw [if_pos ha, if_neg (Bool.eq_false_iff.1 hb), if_neg hr]
    exact ⟨rfl, rfl⟩

section
variable {v : Word}

/-- GO without CANCEL (R177, R178). -/
theorem enReplantWrite_go (h0 : bit v 0 = true) (h2 : bit v 2 = false) (e : Fin 32) (d : Dev) :
    enReplantWrite e.val v d = setEng e ((d.engines[e].graced v).replantAsked
      (d.engines[e].life.rpPend.isSome || inXplant d e.val) (bit v 1) d.clk) d := by
  have taken : updLife e.val (fun l => { l with escalate := bit v 24, grace := bf v 16 8 }) d = setEng e (d.engines[e].graced v) d :=
    updEng_put e _ d
  have named := inXplant_setEng (e := e) (g := d.engines[e].graced v) (d := d) rfl e.val
  unfold enReplantWrite
  dsimp only
  rw [taken, if_neg (Bool.eq_false_iff.1 h2), if_pos h0, replantGo_eq, setEng_engine, setEng_setEng, named]
  rfl

/-- CANCEL without GO (R196). -/
theorem enReplantWrite_cancel (h0 : bit v 0 = false) (h2 : bit v 2 = true) (e : Fin 32) (d : Dev) :
    enReplantWrite e.val v d = setEng e { d.engines[e] with life :=
      if d.engines[e].life.rpPend.isSome then { d.engines[e].life with
        escalate := bit v 24, grace := bf v 16 8, rpPend := none, graceCnt := 0, swapGrace := none, result := 6 }
      else { d.engines[e].life with escalate := bit v 24, grace := bf v 16 8 } } d := by
  have taken : updLife e.val (fun l => { l with escalate := bit v 24, grace := bf v 16 8 }) d = setEng e (d.engines[e].graced v) d :=
    updEng_put e _ d
  unfold enReplantWrite replantCancel updLife at *
  dsimp only
  rw [taken, if_neg (Bool.eq_false_iff.1 h0), if_pos h2, engine_fin, setEng_engine, updEng_eq_setEng, setEng_engine, setEng_setEng,
    setEng_ite]
  unfold Engine.graced
  dsimp only
  split <;> rfl

end

/-! ### GRACE_EXPIRED (R180) -/

section
variable {e : Fin 32} {d : Dev}

/-- The graceful replant of a RUNNING engine has waited GRACE boundaries (R180). -/
def outOfGrace (g : Engine) : Prop :=
  g.life.st = .running ∧ g.life.rpPend = some false ∧ g.life.graceOf.1 ≠ 0 ∧ g.life.graceOf.1.toNat ≤ g.life.graceCnt

theorem graceExpired_forces (h : outOfGrace d.engines[e]) (he : d.engines[e].life.graceOf.2 = true) :
    graceExpired e.val d = setEng e (d.engines[e].forced d.clk) (clearWaiting e.val d) := by
  unfold graceExpired
  rw [engine_fin, ← forceSwap_eq]
  exact (if_pos h).trans (if_pos he)

theorem graceExpired_expires (h : outOfGrace d.engines[e]) (he : d.engines[e].life.graceOf.2 = false) :
    graceExpired e.val d = setEng e { d.engines[e] with
      life := { d.engines[e].life with rpPend := none, graceCnt := 0, swapGrace := none, result := 7 } } d := by
  unfold graceExpired
  rw [engine_fin]
  exact ((if_pos h).trans (if_neg (Bool.eq_false_iff.1 he))).trans (updEng_put e _ d)

end

/-- One engine replaced after self-tests have ended. -/
theorem setEng_bist {d x : Dev} (h : BistFrame d x) (e : Fin 32) (g : Engine) :
    let t := setEng e g x
    t = { d with engines := t.engines, bist := t.bist, ev := t.ev, hr := { d.hr with relays := t.hr.relays } } ∧
    ∀ f : Fin 32, f ≠ e → t.engines[f] = d.engines[f] := by
  refine ⟨?_, fun f hf => (getElem_put_other _ hf g).trans (by rw [h.engines_eq])⟩
  unfold BistFrame at h
  unfold setEng
  rw [h]

/-- Settles O25: GO and CANCEL as `Engine.replantAsked` and the write's own fields say, the end of grace as the FORCE swap. -/
theorem replantsSwapBanks : Obligations.ReplantsSwapBanks := by
  unfold Obligations.ReplantsSwapBanks
  refine ⟨fun who e v s d h => ?_, fun e s => ?_⟩
  · intro g stopped busy
    have able : g.replantable = true ↔ g.life.st = .running ∨ stopped := replantable_iff g
    refine ⟨fun h0 h2 => ⟨_, (exec_replantGo who e v s).trans (act_en h v (by decide) (by decide)), ?_⟩, fun h0 h2 => ?_⟩
    · have ended := bistAbortEngine_frame e.val d
      have clk : (bistAbortEngine e.val d).clk = d.clk := by
        unfold BistFrame at ended
        rw [ended]
      have isBusy : (g.life.rpPend.isSome || inXplant d e.val) = true ↔ busy := Bool.or_eq_true_iff
      have idle : ¬ busy → (g.life.rpPend.isSome || inXplant d e.val) = false := fun hn => Bool.eq_false_iff.2 fun ht => hn (isBusy.1 ht)
      rw [enWrite_replant, if_pos h0, enReplantWrite_go h0 h2, ended.engines_eq, inXplant_engines ended.engines_eq, clk]
      obtain ⟨frame, others⟩ := setEng_bist ended e
        ((g.graced v).replantAsked (g.life.rpPend.isSome || inXplant d e.val) (bit v 1) d.clk)
      obtain ⟨escalate, grace, st, bad, turnedAway, runs, stops⟩ :=
        replantAsked_fields (g.life.rpPend.isSome || inXplant d e.val) (bit v 1) d.clk (g.graced v)
      dsimp only
      rw [setEng_engine]
      refine ⟨frame, others, escalate, grace, st, fun hr hs => bad (Bool.eq_false_iff.2 fun ha => (able.1 ha).elim hr hs),
        fun ha hb => turnedAway (able.2 ha) (isBusy.2 hb), fun hr hb => runs hr (idle hb), fun hs hb => ?_⟩
      exact stops (able.2 (.inr hs)) (by rcases hs with hs | hs | hs <;> exact fun hr => by cases hs.symm.trans hr) (idle hb)
    · rw [exec_replantCancel, act_en h v (by decide) (by decide), enWrite_replant, if_neg (Bool.eq_false_iff.1 h0),
        enReplantWrite_cancel h0 h2]
      rfl
  · intro g grace escalate clocked running pending positive waited
    have out : outOfGrace s.dev.engines[e] := ⟨running, pending, positive, waited⟩
    rw [exec_graceExpired, actClk_on _ clocked]
    refine ⟨fun he => by rw [graceExpired_expires out he]; rfl, fun he => ⟨_, rfl, ?_⟩⟩
    rw [graceExpired_forces out he]
    refine ⟨rfl, rfl, fun f hf => getElem_put_other _ hf _, ?_⟩
    dsimp only
    rw [setEng_engine]
    exact ⟨rfl, rfl, rfl, rfl, rfl, rfl, rfl, rfl, rfl, rfl, rfl, rfl, rfl, rfl⟩

end Sys2Proof.Machine
end

section
/-!
PROOFS. The statements of 05_engine_life.md: transplants.
-/
namespace Sys2Proof.Machine

section
variable (who : Who) (e : Fin 32) (v : Word) (ecc : Ecc) (s : State)

theorem exec_xplantGo : exec (.xplantGo who e v) s = act (wordWrite who (enOff e 0x214) v 0xF) s := rfl
theorem exec_xplantCancel : exec (.xplantCancel who e v) s = act (wordWrite who (enOff e 0x214) v 0xF) s := rfl
theorem exec_precopyEnd : exec (.precopyEnd e ecc) s = actClk (precopyEnd e.val ecc) s := rfl
theorem exec_cutoverEnd : exec (.cutoverEnd e) s = actClk (cutoverEnd e.val) s := rfl

theorem enWrite_xplant (e : Nat) (d : Dev) : enWrite who e 0x214 v d =
    enXplantWrite e v (if bit v 8 then bistAbortEngine (fld v 0 5) (bistAbortEngine e d) else d) := rfl

end

/-! ### The request (R183, R196) -/

/-- A wake request leaves the states of the clusters. -/
theorem requestWake_st (k : Nat) (d : Dev) (c : Fin 8) : (requestWake k d).pwr.cls[c].st = d.pwr.cls[c].st := by
  unfold requestWake
  dsimp only
  rw [Fin.getElem_fin, getElem_upd?, Fin.getElem_fin]
  split_ifs <;> rfl

/-- A cluster that is not ACTIVE is asked to wake (R611). -/
theorem requestWake_asleep {k : Nat} {d : Dev} (hk : k < 8) (h : (cluster d k).st ≠ .active) :
    (cluster (requestWake k d) k).wakeReq = true := by
  have hc : cluster (requestWake k d) k = if (cluster d k).st = .active ∨ (cluster d k).wakeReq = true then cluster d k
      else { cluster d k with wakeReq := true, cause := d.clk } := (at?_upd? _ _ _ _ _).trans (if_pos ⟨rfl, hk⟩)
  rw [hc]
  split
  · rename_i asked
    exact asked.resolve_left h
  · rfl

/-- The cluster of the engine that TARGET names. -/
theorem targetCluster_lt (v : Word) : fld v 0 5 / 4 < 8 := by
  have : fld v 0 5 < 32 := Nat.mod_lt _ (by decide)
  omega

/-- An ended self-test leaves the engines, the configuration, the clk and the clusters. -/
theorem BistFrame.stands {d t : Dev} (h : BistFrame d t) :
    t.engines = d.engines ∧ t.cfg = d.cfg ∧ t.clk = d.clk ∧ t.pwr = d.pwr := by
  unfold BistFrame at h
  rw [h]
  exact ⟨rfl, rfl, rfl, rfl⟩

/-- The states in which an engine can be transplanted (R183). -/
abbrev Engine.movable (g : Engine) : Prop := g.life.st = .running ∨ g.life.st = .parked ∨ g.life.st = .frozen

/-- The engine with TARGET and NOCOPY of a write of EN_XPLANT. -/
def Engine.aimed (v : Word) (g : Engine) : Engine := { g with life := { g.life with nocopy := bit v 9, xTarget := bf v 0 5 } }

/-- Something is pending on the engine or on the target `t` (R183). -/
def xplantBusy (d : Dev) (e : Fin 32) (t : Nat) : Bool :=
  d.engines[e].life.rpPend.isSome || d.engines[e].life.parkPend || inXplant d e.val || inXplant d t ||
    (engine d t).life.rpPend.isSome || (engine d t).life.parkPend

/-- Why GO of a transplant of engine `e` onto `t` is refused, if it is (R183). -/
def xplantRefusal (d : Dev) (e : Fin 32) (t : Nat) : Option Byte :=
  if ¬ d.engines[e].movable then some 2
  else if (engine d t).life.st ≠ .spare then some 3
  else if xplantBusy d e t then some 1
  else if !isStream d e.val && d.cfg.tickClk.toNat < d.engines[e].seq.budget.toNat + 2164 then some 4
  else none

section
variable {d : Dev} {e : Fin 32} {t : Nat}

theorem xplantRefusal_badState (h : ¬ d.engines[e].movable) : xplantRefusal d e t = some 2 := if_pos h

theorem xplantRefusal_notSpare (h : d.engines[e].movable) (hs : (engine d t).life.st ≠ .spare) : xplantRefusal d e t = some 3 :=
  (if_neg (not_not.2 h)).trans (if_pos hs)

theorem xplantRefusal_none (h : d.engines[e].movable) (hs : (engine d t).life.st = .spare) (hb : xplantBusy d e t = false)
    (hf : isStream d e.val = true ∨ d.engines[e].seq.budget.toNat + 2164 ≤ d.cfg.tickClk.toNat) : xplantRefusal d e t = none := by
  have fits : ¬ (!isStream d e.val && decide (d.cfg.tickClk.toNat < d.engines[e].seq.budget.toNat + 2164)) = true := by
    rcases hf with hf | hf
    · rw [hf]
      exact Bool.false_ne_true
    · rw [decide_eq_false (Nat.not_lt.2 hf), Bool.and_false]
      exact Bool.false_ne_true
  exact (if_neg (not_not.2 h)).trans ((if_neg (not_not.2 hs)).trans ((if_neg (Bool.eq_false_iff.1 hb)).trans (if_neg fits)))

theorem xplantBusy_false (hr : d.engines[e].life.rpPend = none) (hp : d.engines[e].life.parkPend = false)
    (hx : inXplant d e.val = false) (hxt : inXplant d t = false) (hrt : (engine d t).life.rpPend = none)
    (hpt : (engine d t).life.parkPend = false) : xplantBusy d e t = false := by
  unfold xplantBusy
  rw [hr, hp, hx, hxt, hrt, hpt]
  rfl

/-- The answer is a matter of the engines and the configuration. -/
theorem xplantRefusal_engines {x : Dev} (h : x.engines = d.engines) (hc : x.cfg = d.cfg) :
    xplantRefusal x e t = xplantRefusal d e t := by
  unfold xplantRefusal xplantBusy inXplant engine isStream
  rw [h, hc]

/-- The fields of EN_XPLANT itself do not decide it. -/
theorem xplantRefusal_aimed (v : Word) : xplantRefusal (setEng e (d.engines[e].aimed v) d) e t = xplantRefusal d e t := by
  have named := inXplant_setEng (e := e) (g := d.engines[e].aimed v) (d := d) rfl
  have st := engine_setEng_keeps (π := fun g => g.life.st) (e := e) (g := d.engines[e].aimed v) (d := d) rfl t
  have rp := engine_setEng_keeps (π := fun g => g.life.rpPend) (e := e) (g := d.engines[e].aimed v) (d := d) rfl t
  have park := engine_setEng_keeps (π := fun g => g.life.parkPend) (e := e) (g := d.engines[e].aimed v) (d := d) rfl t
  unfold xplantRefusal xplantBusy
  rw [setEng_engine, named, named, st, rp, park]
  rfl

end

/-- What GO does to an engine: its refusal, or the transplant that TARGET and NOCOPY name pends (R183). -/
def Engine.xplantAsked (refusal : Option Byte) (clk : Nat) (g : Engine) : Engine :=
  match refusal with
  | some r => { g with life := { g.life with result := r } }
  | none => { g with life := { g.life with
      xpend := some { target := g.life.xTarget, nocopy := g.life.nocopy, copied := false }, xpAt := clk + 1, result := 0 } }

/-- A transplant that is not refused asks the target's cluster to wake (R183). -/
def wakesTarget (refusal : Option Byte) (t : Nat) (d : Dev) : Dev :=
  match refusal with
  | some _ => d
  | none => requestWake (t / 4) d

theorem wakesTarget_engines (r : Option Byte) (t : Nat) (d : Dev) : (wakesTarget r t d).engines = d.engines := by
  cases r <;> rfl

theorem wakesTarget_st (r : Option Byte) (t : Nat) (d : Dev) (c : Fin 8) : (wakesTarget r t d).pwr.cls[c].st = d.pwr.cls[c].st := by
  cases r with
  | none => exact requestWake_st _ d c
  | some _ => rfl

/-- Every answer leaves the fields of the write, the sequencer and the state. -/
theorem xplantAsked_fields (r : Option Byte) (clk : Nat) (g : Engine) :
    let h := g.xplantAsked r clk
    h.life.xTarget = g.life.xTarget ∧ h.life.nocopy = g.life.nocopy ∧ h.seq = g.seq ∧ h.life.st = g.life.st := by
  cases r <;> exact ⟨rfl, rfl, rfl, rfl⟩

theorem xplantGo_eq (e : Fin 32) (d : Dev) :
    let t := d.engines[e].life.xTarget.toNat
    xplantGo e.val d =
      wakesTarget (xplantRefusal d e t) t (setEng e (d.engines[e].xplantAsked (xplantRefusal d e t) d.clk) d) := by
  unfold xplantGo xplantRefusal engSt xplantBusy
  dsimp only
  rw [engine_fin]
  split
  · exact setResult_eq e 2 d
  · split
    · exact setResult_eq e 3 d
    · split
      · exact setResult_eq e 1 d
      · split
        · exact setResult_eq e 4 d
        · exact congrArg _ (setResult_updLife e 0 _ d)

section
variable {v : Word}

theorem aimed_eq (e : Fin 32) (d : Dev) :
    updLife e.val (fun l => { l with nocopy := bit v 9, xTarget := bf v 0 5 }) d = setEng e (d.engines[e].aimed v) d := updEng_put e _ d

/-- GO without CANCEL (R183). -/
theorem enXplantWrite_go (h8 : bit v 8 = true) (h10 : bit v 10 = false) (e : Fin 32) (d : Dev) :
    let r := xplantRefusal d e (fld v 0 5)
    enXplantWrite e.val v d = wakesTarget r (fld v 0 5) (setEng e ((d.engines[e].aimed v).xplantAsked r d.clk) d) := by
  have target : (d.engines[e].aimed v).life.xTarget.toNat = fld v 0 5 := BitVec.extractLsb'_toNat 0 5 v
  unfold enXplantWrite
  dsimp only
  rw [aimed_eq, if_neg (Bool.eq_false_iff.1 h10), if_pos h8, xplantGo_eq, setEng_engine, setEng_setEng, target, xplantRefusal_aimed]
  rfl

/-- CANCEL without GO (R196). -/
theorem enXplantWrite_cancel (h8 : bit v 8 = false) (h10 : bit v 10 = true) (e : Fin 32) (d : Dev) :
    enXplantWrite e.val v d = setEng e { d.engines[e] with life :=
      if d.engines[e].life.xpend.isSome = true ∧ d.engines[e].life.st ≠ .cutover then
        { d.engines[e].life with nocopy := bit v 9, xTarget := bf v 0 5, xpend := none, result := 6 }
      else { d.engines[e].life with nocopy := bit v 9, xTarget := bf v 0 5 } } d := by
  unfold enXplantWrite xplantCancel
  dsimp only
  rw [aimed_eq, if_neg (Bool.eq_false_iff.1 h8), if_pos h10, engine_fin, setEng_engine, updLife, updEng_eq_setEng, setEng_engine,
    setEng_setEng, setEng_ite]
  unfold Engine.aimed
  dsimp only
  split <;> rfl

end

/-! ### The precopy (R184) -/

/-- The life-cycle registers stand while clk pass. -/
theorem passTo_life (n : Nat) (d : Dev) (e : Fin 32) : (passTo n d).engines[e].life = d.engines[e].life := by
  rw [passTo, (pass_frame _ d).2 e]

/-- A target as the engine it names. -/
theorem target_engine (t : BitVec 5) : ∃ q : Fin 32, q.val = t.toNat := ⟨⟨t.toNat, t.isLt⟩, rfl⟩

/-- Target `q` with the banks and entries of source `g` (R184). -/
def Engine.precopied (g q : Engine) : Engine :=
  { q with
    cs0 := g.cs0, cs1 := g.cs1
    seq := { q.seq with entry0 := g.seq.entry0, entry1 := g.seq.entry1, rp0 := g.seq.rp0, rp1 := g.seq.rp1 } }

/-- The source of transplant `x` when its precopy is done in clk `clk` (R184). -/
def Engine.copied (x : Xplant) (clk : Nat) (g : Engine) : Engine :=
  { g with life := { g.life with xpend := some { x with copied := true }, xpAt := clk + 1 } }

section
variable {e q : Fin 32} {x : Xplant} {d : Dev}

/-- A precopy that is under way ends 8,192 clk after the transplant began (R184). -/
theorem precopyEnd_due (hx : d.engines[e].life.xpend = some x) (hn : x.nocopy = false) (hc : x.copied = false)
    (hs : d.engines[e].life.st ≠ .cutover) (ha : clusterAsleep d x.target.toNat = false) (hq : q.val = x.target.toNat) (ecc : Ecc) :
    let t := passTo (d.engines[e].life.xpAt + 8192) d
    precopyEnd e.val ecc d =
      if ecc = .ue then setEng e { t.engines[e] with life := { t.engines[e].life with xpend := none, result := 5 } } t
      else
        let t' := setEng q (t.engines[e].precopied t.engines[q]) t
        setEng e (t'.engines[e].copied x t.clk) t' := by
  have going : ¬ (x.nocopy = true ∨ x.copied = true ∨ engSt d e.val = .cutover ∨ clusterAsleep d x.target.toNat = true) := by
    unfold engSt
    rw [hn, hc, ha, engine_fin]
    exact fun h => h.elim Bool.false_ne_true fun h => h.elim Bool.false_ne_true fun h => h.elim hs Bool.false_ne_true
  unfold precopyEnd
  rw [engine_fin, hx]
  dsimp only
  rw [if_neg going, engine_fin, ← hq, updEng_eq_setEng, updLife, updEng_eq_setEng, updLife, updEng_eq_setEng]
  rfl

theorem setEng_other {f e : Fin 32} (h : f ≠ e) (g : Engine) (d : Dev) : (setEng e g d).engines[f] = d.engines[f] :=
  getElem_put_other _ h g

theorem setEng_setEng_frame (g h : Engine) (d : Dev) :
    setEng e g (setEng q h d) = { d with engines := (setEng e g (setEng q h d)).engines } := by
  have outer : ∀ x : Dev, setEng e g x = { x with engines := (setEng e g x).engines } := fun _ => rfl
  have inner : setEng q h d = { d with engines := (setEng q h d).engines } := rfl
  rw [inner]
  exact outer _

/-- Two engines replaced: what each of them is, and that no other one changes. -/
theorem setEng_two (hqe : q ≠ e) (g h : Engine) (d : Dev) :
    (setEng e g (setEng q h d)).engines[e] = g ∧ (setEng e g (setEng q h d)).engines[q] = h ∧
    ∀ f : Fin 32, f ≠ e → f ≠ q → (setEng e g (setEng q h d)).engines[f] = d.engines[f] :=
  ⟨setEng_engine e g _, (setEng_other hqe g _).trans (setEng_engine q h d),
    fun _ he hq => (setEng_other he g _).trans (setEng_other hq h d)⟩

/-- A precopy that is done: the source's request, the target's banks and entries, and nothing else. -/
theorem precopied_parts (hqe : q ≠ e) (x : Xplant) (d : Dev) :
    let t' := setEng q (d.engines[e].precopied d.engines[q]) d
    let t := setEng e (t'.engines[e].copied x d.clk) t'
    t = { d with engines := t.engines } ∧ t.engines[e] = d.engines[e].copied x d.clk ∧
    t.engines[q] = d.engines[e].precopied d.engines[q] ∧ ∀ f : Fin 32, f ≠ e → f ≠ q → t.engines[f] = d.engines[f] := by
  dsimp only
  rw [setEng_other hqe.symm]
  exact ⟨setEng_setEng_frame _ _ d, setEng_two hqe _ _ d⟩

/-! ### The cutover (R185 to R190) -/

/-- What the target keeps of its own and takes of source `g` in every state the source had (R185, R188). -/
def Engine.heir (source : BitVec 5) (g q : Engine) : Engine :=
  let first := g.life.cutAt + 2102
  { q with
    seq := { g.seq with
      entry0 := q.seq.entry0, entry1 := q.seq.entry1, rp0 := q.seq.rp0, rp1 := q.seq.rp1, fresh := true, waiting := false
      fixed := false, step := false, reached := first, budFrom := first, covered := first }
    dp := g.dp
    ep := { g.ep with
      cause := if g.life.cutFrom = .frozen then g.ep.cause else 0, queue := q.ep.queue, portWait := q.ep.portWait }
    scr := g.scr
    life := { q.life with st := g.life.cutFrom, partner := source } }

/-- The target after the cutover (R185, R189). -/
def Engine.takenOver (stream : Bool) (source : BitVec 5) (g q : Engine) : Engine :=
  let h := g.heir source q
  if g.life.cutFrom = .frozen then
    { h with life := { h.life with frzMulti := g.life.frzMulti, frzCause := g.life.frzCause, frzDetail := g.life.frzDetail
                                   frzPc := g.life.frzPc, frzTime := g.life.frzTime, resumeAt := g.life.resumeAt } }
  else if g.life.cutFrom = .running then
    if stream then { h with seq := { h.seq with yielded := false } }
    else { h with seq := { h.seq with yielded := false, stack := [], budcnt := 0, pc := h.tickEntry } }
  else h

/-- The source after the cutover (R185). -/
def Engine.vacating (target : BitVec 5) (g : Engine) : Engine :=
  { g with life := { g.life with st := .vacated, xpend := none, partner := target } }

/-- What the target has of its source. -/
theorem takenOver_fields (stream : Bool) (source : BitVec 5) (g q : Engine) :
    let h := g.takenOver stream source q
    h.dp = g.dp ∧ h.scr = g.scr ∧ h.life.st = g.life.cutFrom ∧ h.life.partner = source ∧
    h.seq.reached = g.life.cutAt + 2102 ∧ h.seq.fresh = true := by
  dsimp only
  unfold Engine.takenOver
  dsimp only
  split_ifs <;> exact ⟨rfl, rfl, rfl, rfl, rfl, rfl⟩

/-- A TICKED target that runs begins at TICK_ENTRY (R189). -/
theorem takenOver_ticked {g : Engine} (h : g.life.cutFrom = .running) (source : BitVec 5) (q : Engine) :
    let h := g.takenOver false source q
    h.seq.pc = h.tickEntry ∧ h.seq.stack = [] ∧ h.seq.yielded = false := by
  have restart : g.takenOver false source q =
      { g.heir source q with
        seq := { (g.heir source q).seq with yielded := false, stack := [], budcnt := 0, pc := (g.heir source q).tickEntry } } := by
    unfold Engine.takenOver
    dsimp only
    rw [if_neg (by rw [h]; decide), if_pos h]
    exact if_neg Bool.false_ne_true
  dsimp only
  rw [restart]
  exact ⟨rfl, rfl, rfl⟩

/-- The configuration and the held occurrences follow an engine that has moved from `e` to `q` (R185, R186). -/
def followed (e q : Nat) (d : Dev) : Dev := { d with cfg := moveCfg e q d.cfg, ev := addHeld e q d.ev }

/-- The device with engine `e` moved to `q`, before the lanes follow and the occurrence is raised (R185 to R190). -/
def cutOver (e q : Fin 32) (target : BitVec 5) (d : Dev) : Dev :=
  followed e.val q.val (setEng e (d.engines[e].vacating target)
    (setEng q (d.engines[e].takenOver (isStream d e.val) (BitVec.ofNat 5 e.val) d.engines[q]) (clearWaiting e.val d)))

theorem cutOver_parts (target : BitVec 5) (d : Dev) :
    (cutOver e q target d).engines = (setEng e (d.engines[e].vacating target)
      (setEng q (d.engines[e].takenOver (isStream d e.val) (BitVec.ofNat 5 e.val) d.engines[q]) (clearWaiting e.val d))).engines ∧
    (cutOver e q target d).cfg = moveCfg e.val q.val d.cfg ∧ (cutOver e q target d).clk = d.clk := by
  unfold cutOver
  rw [setEng_setEng_frame]
  exact ⟨rfl, rfl, rfl⟩

theorem cutoverEnd_eq (hx : d.engines[e].life.xpend = some x) (hs : d.engines[e].life.st = .cutover) (hq : q.val = x.target.toNat)
    (hqe : q ≠ e) :
    cutoverEnd e.val d =
      raise 0x603 (switchSets q.val (cutOver e q x.target (passTo (d.engines[e].life.cutAt + 2101) d))) := by
  have cut : engSt d e.val = .cutover := by
    unfold engSt
    rw [engine_fin, hs]
  have heir : ∀ g : Engine, (if g.life.cutFrom = .running then EngSt.running else g.life.cutFrom) = g.life.cutFrom := fun g => by
    split
    · exact Eq.symm ‹_›
    · rfl
  unfold cutoverEnd
  rw [engine_fin, hx]
  refine (if_neg (not_not.2 cut)).trans ?_
  show raise 0x603 (switchSets x.target.toNat (followed e.val x.target.toNat (updLife e.val _ (updEng x.target.toNat _
    (clearWaiting e.val (passTo (d.engines[e].life.cutAt + 2101) d)))))) = _
  rw [← hq, updLife, updEng_eq_setEng, updEng_eq_setEng, setEng_other hqe.symm]
  generalize passTo (d.engines[e].life.cutAt + 2101) d = d0
  refine congrArg (fun g => raise 0x603 (switchSets q.val (followed e.val q.val (setEng e (d0.engines[e].vacating x.target)
    (setEng q g (clearWaiting e.val d0)))))) ?_
  dsimp only
  rw [engine_fin, heir]
  rfl

/-- What an engine's act outside the engines leaves of them, of the configuration and of the clk. -/
theorem OutsideFrame.stands {d t : Dev} (h : OutsideFrame d t) : t.engines = d.engines ∧ t.cfg = d.cfg ∧ t.clk = d.clk := by
  unfold OutsideFrame at h
  rw [h]
  exact ⟨rfl, rfl, rfl⟩

/-- Once the lanes have followed and the occurrence is raised: source and target, the configuration, the clk, the occurrence. -/
theorem cutOver_moves (hqe : q ≠ e) (target : BitVec 5) (d : Dev) :
    let t := raise 0x603 (switchSets q.val (cutOver e q target d))
    t.engines[e] = d.engines[e].vacating target ∧
    t.engines[q] = d.engines[e].takenOver (isStream d e.val) (BitVec.ofNat 5 e.val) d.engines[q] ∧
    (∀ f : Fin 32, f ≠ e → f ≠ q → t.engines[f] = d.engines[f]) ∧
    t.cfg = moveCfg e.val q.val d.cfg ∧ t.clk = d.clk ∧ (d.clk, 0x603) ∈ t.ev.pulses := by
  obtain ⟨source, heir, others⟩ := setEng_two hqe (d.engines[e].vacating target)
    (d.engines[e].takenOver (isStream d e.val) (BitVec.ofNat 5 e.val) d.engines[q]) (clearWaiting e.val d)
  obtain ⟨moved, cfg, clk⟩ := cutOver_parts (e := e) (q := q) target d
  obtain ⟨engines', cfg', clk'⟩ := (switchSets_outside q.val (cutOver e q target d)).stands
  obtain ⟨engines'', cfg'', clk''⟩ := (raise_frame 0x603 (switchSets q.val (cutOver e q target d))).outside.stands
  have raised := mem_pulses_raise 0x603 (switchSets q.val (cutOver e q target d))
  rw [clk', clk] at raised
  dsimp only
  rw [engines'', engines', moved, cfg'', cfg', cfg, clk'', clk', clk]
  exact ⟨source, heir, others, rfl, rfl, raised⟩

end

/-- Settles O26: GO as `xplantRefusal` says, the precopy and the cutover on source and target. -/
theorem transplantsCopyAndMoveAnEngine : Obligations.TransplantsCopyAndMoveAnEngine := by
  unfold Obligations.TransplantsCopyAndMoveAnEngine
  refine ⟨fun who e v s d h => ?_, fun e s x => ?_, fun e s x => ?_⟩
  · intro g target live
    refine ⟨fun h8 h10 => ⟨_, (exec_xplantGo who e v s).trans (act_en h v (by decide) (by decide)), ?_⟩, fun h8 h10 => ?_⟩
    · have ended := (bistAbortEngine_frame e.val d).trans (bistAbortEngine_frame (fld v 0 5) _)
      obtain ⟨engines, cfg, clk, pwr⟩ := ended.stands
      have answer := xplantRefusal_engines (e := e) (t := fld v 0 5) engines cfg
      rw [enWrite_xplant, if_pos h8, enXplantWrite_go h8 h10, answer, clk, engines]
      generalize bistAbortEngine (fld v 0 5) (bistAbortEngine e.val d) = y at engines pwr
      rw [wakesTarget_engines]
      refine ⟨fun f hf => (setEng_other hf _ y).trans (by rw [engines]), fun k => ?_, ?_⟩
      · rw [wakesTarget_st]
        show y.pwr.cls[k].st = _
        rw [pwr]
      · dsimp only
        rw [setEng_engine]
        obtain ⟨aim, nocopy, seq, st⟩ := xplantAsked_fields (xplantRefusal d e (fld v 0 5)) d.clk (g.aimed v)
        refine ⟨aim, nocopy, seq, st, fun dead => ?_, fun alive used => ?_, fun alive spare hr hp hx hxt hrt hpt fits => ?_⟩
        · rw [xplantRefusal_badState dead]
          exact ⟨rfl, rfl⟩
        · rw [xplantRefusal_notSpare alive used]
          exact ⟨rfl, rfl⟩
        · rw [xplantRefusal_none alive spare (xplantBusy_false hr hp hx hxt hrt hpt) fits]
          refine ⟨rfl, rfl, rfl, fun asleep => requestWake_asleep (targetCluster_lt v) ?_⟩
          show (cluster y _).st ≠ _
          unfold cluster at asleep ⊢
          rwa [pwr]
    · rw [exec_xplantCancel, act_en h v (by decide) (by decide), enWrite_xplant, if_neg (Bool.eq_false_iff.1 h8),
        enXplantWrite_cancel h8 h10]
      rfl
  · intro l d g clocked pending copies under going awake
    obtain ⟨q, hq⟩ := target_engine x.target
    have ends := precopyEnd_due pending copies under going awake hq
    rw [exec_precopyEnd, exec_precopyEnd, actClk_on _ clocked, actClk_on _ clocked, ends, ends, if_pos rfl, if_neg (by decide)]
    refine ⟨rfl, fun away => ?_⟩
    have hqe : q ≠ e := fun hf => away (by rw [← hq, hf])
    obtain ⟨frame, source, copy, others⟩ := precopied_parts hqe x d
    rw [← hq]
    refine ⟨_, rfl, frame, source, ?_, fun f he hf => others f he fun hn => hf (congrArg Fin.val hn)⟩
    dsimp only
    rw [engine_fin, copy]
    exact ⟨rfl, rfl, rfl, rfl, rfl, rfl⟩
  · intro l d g clocked pending cut away
    obtain ⟨q, hq⟩ := target_engine x.target
    have hqe : q ≠ e := fun hf => away (by rw [← hq, hf])
    have ends : cutoverEnd e.val s.dev = raise 0x603 (switchSets q.val (cutOver e q x.target d)) := cutoverEnd_eq pending cut hq hqe
    have life : d.engines[e].life = l := passTo_life _ _ e
    have stream : isStream d e.val = isStream s.dev e.val := by
      unfold isStream
      rw [show d.cfg = s.dev.cfg from pass_cfg _ _]
    clear_value d
    obtain ⟨dp, scr, st, partner, due, fresh⟩ := takenOver_fields (isStream d e.val) (BitVec.ofNat 5 e.val) g d.engines[q]
    obtain ⟨source, heir, others, cfg, clk, raised⟩ := cutOver_moves hqe x.target d
    refine ⟨_, (actClk_on _ clocked).trans (next_eq s ends), ?_⟩
    rw [← hq, engine_fin, source, heir]
    refine ⟨cfg, clk, rfl, rfl, rfl, ?_, raised, fun f he hf => others f he fun hn => hf (congrArg Fin.val hn)⟩
    refine ⟨congrArg Dp.g dp, congrArg Dp.sh dp, scr, st, partner, due.trans (by rw [life]), fresh, fun running ticked => ?_⟩
    rw [stream, ticked]
    exact takenOver_ticked running _ _

end Sys2Proof.Machine
end

section
/-!
PROOFS. The statements of 06_lanes.md about outputs: the serialiser, CLKGEN lanes, pulses and read-back.
-/
namespace Sys2Proof.Machine

theorem exec_serialiserBit (n : Fin 64) (s : State) : exec (.serialiserBit n) s = actClk (serialiserBit n.val) s := rfl
theorem exec_clkgenClockEdge (n : Fin 64) (s : State) : exec (.clkgenClockEdge n) s = actClk (clkgenEdge n.val) s := rfl
theorem exec_lanePulseEnd (n : Fin 64) (s : State) : exec (.lanePulseEnd n) s = actClk (lanePulseEnd n.val) s := rfl
theorem exec_contention (n : Fin 64) (s : State) : exec (.contention n) s = actClk (contention n.val) s := rfl

/-! ### What an edge of a reference leaves of the lanes that send (R208, R216) -/

/-- What a lane sends: the bit-time under way, those that wait, the end of it, and UNDERRUN. -/
def sendView (l : Lane) : List Bool × List Bool × Nat × Bool := (l.cur, l.ser, l.bitEnd, bit l.err 2)

/-- That, and the half of the bit-time in which a CLKGEN lane is. -/
def halfView (l : Lane) : Bool × List Bool × List Bool × Nat × Bool := (l.half2, sendView l)

/-- What is kept of lanes that keep their half. -/
theorem LanesKeep.send {d t : Dev} (h : LanesKeep halfView d t) : LanesKeep sendView d t := by
  obtain ⟨frame, pulses, same⟩ := h
  exact ⟨frame, pulses, fun k => congrArg Prod.snd (same k)⟩

/-- An error other than UNDERRUN. -/
theorem laneErr_halfView (n : Nat) {i : Nat} (hi : i < 6) (h2 : i ≠ 2) (d : Dev) : LanesKeep halfView d (laneErr n i d) := by
  have other : ∀ v : BitVec 6, bit (setBit v i true) 2 = bit v 2 := fun v => (bit_setBit v hi true 2).trans (if_neg h2)
  refine LanesKeep.trans (lanesKeep_updLane (fun l => { l with err := setBit l.err i true }) (fun l => ?_) n d) (raiseNextIf_keep _ _ _)
  simp only [halfView, sendView, other]

theorem sampleLane_halfView (n : Nat) (d : Dev) : LanesKeep halfView d (sampleLane n d) := by
  refine lanesKeep_foldl (fun d m => ?_) _ d
  unfold pushBit
  split
  · exact lanesKeep_updLane (fun l => { l with fifo := l.fifo ++ [(lane d m).filt] }) (fun _ => rfl) n d
  · exact (lanesKeep_updLane (fun l => { l with fifoDrop := satInc l.fifoDrop }) (fun _ => rfl) n d).trans
      (laneErr_halfView n (by decide) (by decide) _)

theorem clockedSample_halfView (m : Nat) (d : Dev) : LanesKeep halfView d (clockedSample m d) := by
  have take : ∀ c, LanesKeep halfView d (clockedSample.take m c d) := fun c =>
    .ite ((lanesKeep_updLane (fun l => { l with lastClocked := some c }) (fun _ => rfl) m d).trans (sampleLane_halfView m _))
      (lanesKeep_updLane (fun l => { l with lastClocked := some c, due := l.due ++ [c] }) (fun _ => rfl) m d)
  unfold clockedSample
  dsimp only
  split
  · exact .ite (laneErr_halfView m (by decide) (by decide) d) (take _)
  · exact take _

/-- An edge of a reference samples and schedules; no lane sends otherwise for it. -/
theorem refEdge_halfView (n : Nat) (rising : Bool) (d : Dev) : LanesKeep halfView d (refEdge n rising d) := by
  have short : ∀ (b : Bool) (m : Nat) (d : Dev), LanesKeep halfView d (if b then laneErr m 3 d else d) := fun b m d =>
    .ite (laneErr_halfView m (by decide) (by decide) d) (.refl d)
  have bounds : ∀ (f : Lane → List Nat) (m : Nat) (d : Dev), LanesKeep halfView d (updLane m (fun l => { l with bounds := f l }) d) :=
    fun f => lanesKeep_updLane (fun l => { l with bounds := f l }) (fun _ => rfl)
  refine LanesKeep.trans (lanesKeep_foldl (fun d m => ?_) _ d)
    (lanesKeep_updLane (fun l => { l with lastEdge := some d.clk }) (fun _ => rfl) n _)
  exact .ite (.ite (((short _ m d).trans (.ite (clockedSample_halfView m _) (.refl _))).trans (bounds _ m _)) (short _ m d)) (.refl d)

/-! ### The serialiser (R209, R212, R670) -/

/-- The bit-times a lane takes from its serialiser at once. -/
def Lane.width (l : Lane) : Nat := if l.timing.gang then 4 else 1

/-- A lane that begins its next bit-time at `x`, in 1/16 clk. -/
def Lane.sendNext (x : Nat) (l : Lane) : Lane :=
  { l with
    cur := l.ser.take l.width, ser := l.ser.drop l.width, sentCont := l.sentCont || !(l.ser.take l.width).isEmpty
    bitEnd := x + l.timing.period l.setB, bounds := l.bounds.filter (x < ·) }

/-- The CLKGEN lanes with this REFLANE are in the first half of its bit-time. -/
def firstHalves (n : Nat) (d : Dev) : Dev :=
  (List.range 64).foldl (fun d m =>
    if (lane d m).timing.src = 3 ∧ (lane d m).timing.refLane.toNat = n then updLane m (fun l => { l with half2 := false }) d else d) d

/-- What follows the start of a bit-time: the first halves of generated clocks and their edges. -/
theorem firstHalves_send (n : Nat) (d : Dev) : LanesKeep sendView d (firstHalves n d) :=
  lanesKeep_foldl (fun d m => .ite (lanesKeep_updLane (fun l => { l with half2 := false }) (fun _ => rfl) m d) (.refl d)) _ d

theorem clkgenEdges_send (n : Nat) (before : Nat → Bool) (d : Dev) : LanesKeep sendView d (clkgenEdges n before d) :=
  lanesKeep_foldl (fun d m => .ite (refEdge_halfView m _ d).send (.refl d)) _ d

section
variable {n : Fin 64} {d : Dev}

/-- Without a boundary or without bits nothing is sent. -/
theorem serialiserBit_none (h : nextBit d n.val = none ∨ d.lanes[n].cur = [] ∧ d.lanes[n].ser = []) : serialiserBit n.val d = d := by
  unfold serialiserBit
  rw [lane_fin]
  rcases h with h | h
  · rw [h]
  · cases nextBit d n.val with
    | none => rfl
    | some x => exact if_pos h

/-- The next bit-time of lane `n` begins at `x`; a CONT lane that was sending and has no bit for it sets UNDERRUN (R212). -/
def bitBegun (n : Fin 64) (x : Nat) (d : Dev) : Dev :=
  let l := d.lanes[n]
  let t := updLane n.val (Lane.sendNext x) d
  if l.timing.cont ∧ l.sentCont ∧ l.cur ≠ [] ∧ l.ser.take l.width = [] then laneErr n.val 2 t else t

/-- What is sent in it. -/
theorem bitBegun_sent (x : Nat) :
    LanesKeep (fun l => (l.cur, l.ser, l.bitEnd)) (updLane n.val (Lane.sendNext x) d) (bitBegun n x d) :=
  .ite (laneErr_keep (fun _ _ => rfl) n.val 2 _) (.refl _)

theorem bitBegun_underrun (x : Nat) (hc : d.lanes[n].timing.cont = true) (hs : d.lanes[n].sentCont = true) (hb : d.lanes[n].cur ≠ [])
    (hw : d.lanes[n].ser = []) : bit (bitBegun n x d).lanes[n].err 2 = true := by
  unfold bitBegun
  dsimp only
  rw [if_pos ⟨hc, hs, hb, by rw [hw, List.take_nil]⟩, laneErr_lanes, upd?_fin, lane_put_self]
  exact (bit_setBit _ (by decide) true 2).trans (if_pos rfl)

/-- A lane with bits passes to its boundary and begins the next bit-time; generated clocks follow. -/
theorem serialiserBit_some {x : Nat} (h : nextBit d n.val = some x) (hb : ¬ (d.lanes[n].cur = [] ∧ d.lanes[n].ser = [])) :
    LanesKeep sendView (bitBegun n x (passTo (x / 16) d)) (serialiserBit n.val d) := by
  have eq : serialiserBit n.val d =
      (let y := passTo (x / 16) d
      clkgenEdges n.val (clkgenLevel y) (firstHalves n.val (bitBegun n x y))) := by
    unfold serialiserBit bitBegun
    rw [h]
    dsimp only
    rw [lane_fin, if_neg hb, lane_fin]
    rfl
  rw [eq]
  exact (firstHalves_send _ _).trans (clkgenEdges_send _ _ _)

/-- The row of the serialiser. -/
theorem serialiserBit_sends {x : Nat} (h : nextBit d n.val = some x) (hb : ¬ (d.lanes[n].cur = [] ∧ d.lanes[n].ser = [])) :
    let y := passTo (x / 16) d
    let l := y.lanes[n]
    let t := serialiserBit n.val d
    LaneErrFrame y t ∧ t.lanes[n].cur = l.ser.take l.width ∧ t.lanes[n].ser = l.ser.drop l.width ∧
      t.lanes[n].bitEnd = x + l.timing.period l.setB ∧
      (l.timing.cont = true → l.sentCont = true → l.cur ≠ [] → l.ser = [] → bit t.lanes[n].err 2 = true) := by
  have begun : LaneErrFrame (passTo (x / 16) d) (updLane n.val (Lane.sendNext x) (passTo (x / 16) d)) := rfl
  obtain ⟨frame, -, sent⟩ := bitBegun_sent (n := n) (d := passTo (x / 16) d) x
  obtain ⟨after, -, same⟩ := serialiserBit_some h hb
  obtain ⟨cur, ser, ends⟩ := by simpa only [Prod.mk.injEq] using sent n
  obtain ⟨cur', ser', ends', under⟩ := by simpa only [sendView, Prod.mk.injEq] using same n
  rw [updLane_fin, lane_put_self] at cur ser ends
  exact ⟨begun.trans (frame.trans after), cur'.trans cur, ser'.trans ser, ends'.trans ends,
    fun hc hs hn hw => under.trans (bitBegun_underrun x hc hs hn hw)⟩

/-! ### Generated clocks and pulses (R211, R214) -/

/-- The REFLANE of lane `n`. -/
theorem refLane_eq (d : Dev) (n : Fin 64) : lane d d.lanes[n].timing.refLane.toNat = d.lanes[d.lanes[n].timing.refLane.toNat]'(by omega) :=
  at?_lt _ _ _ (by omega)

/-- A CLKGEN lane enters the second half of its bit-time, and its edge acts. -/
def secondHalf (n : Nat) (d : Dev) : Dev :=
  let t := updLane n (fun l => { l with half2 := true }) d
  if clkgenLevel t n ≠ clkgenLevel d n then refEdge n (clkgenLevel t n) t else t

theorem secondHalf_lane (n : Fin 64) (d : Dev) : (secondHalf n.val d).lanes[n].half2 = true ∧ (secondHalf n.val d).clk = d.clk := by
  have turned : (updLane n.val (fun l => { l with half2 := true }) d).lanes[n].half2 = true := by
    rw [updLane_fin, lane_put_self]
  obtain ⟨frame, -, same⟩ : LanesKeep halfView (updLane n.val (fun l => { l with half2 := true }) d) (secondHalf n.val d) :=
    .ite (refEdge_halfView _ _ _) (.refl _)
  unfold LaneErrFrame at frame
  refine ⟨(congrArg Prod.fst (same n)).trans turned, ?_⟩
  rw [frame]
  rfl

section
variable {r : Lane} (hr : lane d d.lanes[n].timing.refLane.toNat = r)
include hr

/-- A CLKGEN lane in the first half of a bit-time goes on to the second, in the middle of the bit-time when its REFLANE is TIMED. -/
theorem clkgenEdge_live (h : d.lanes[n].timing.src = 3 ∧ r.cur ≠ [] ∧ d.lanes[n].half2 = false) :
    let p := r.timing.period r.setB
    clkgenEdge n.val d = secondHalf n.val (if r.timing.src = 1 then passTo ((r.bitEnd - p) / 16 + p / 16 / 2) d else d) := by
  obtain ⟨h3, hc, h2⟩ := h
  unfold clkgenEdge
  dsimp only
  rw [lane_fin, hr, if_neg (not_or.2 ⟨not_not.2 h3, not_or.2 ⟨hc, Bool.not_eq_true _ ▸ h2⟩⟩)]
  rfl

theorem clkgenEdge_idle (h : ¬ (d.lanes[n].timing.src = 3 ∧ r.cur ≠ [] ∧ d.lanes[n].half2 = false)) : clkgenEdge n.val d = d := by
  unfold clkgenEdge
  dsimp only
  rw [lane_fin, hr, if_pos]
  simpa only [not_and_or, not_not, Bool.not_eq_false] using h

end

theorem lanePulseEnd_eq (n : Fin 64) (d : Dev) : lanePulseEnd n.val d =
    (let y := passTo d.lanes[n].pulseEnd d
    if d.lanes[n].pulse = none then d else { y with lanes := put y.lanes n { y.lanes[n] with pulse := none } }) := by
  unfold lanePulseEnd
  rw [lane_fin, updLane_fin]
  simp only [Option.isNone_iff_eq_none]

/-! ### The read-back (R215) -/

/-- Lane `n` drives `b` and reads back the other level. -/
def readsWrong (d : Dev) (n : Fin 64) (b : Bool) : Prop := laneDrive d n.val = some b ∧ d.lanes[n].synced d.clk ≠ b

/-- Without a wrong level on an OUT_PP lane nothing is awaited. -/
theorem contention_none (h : d.cfg.lanes[n].mode ≠ 2 ∨ ∀ b, ¬ readsWrong d n b) : contention n.val d = d := by
  unfold contention
  cases hd : laneDrive d n.val with
  | none => rfl
  | some b =>
    dsimp only
    rw [laneCfg_fin, lane_fin, if_pos]
    exact h.imp_right fun hw => not_not.1 fun hs => hw b ⟨hd, hs⟩

/-- A wrong level is awaited until it may set CONTENTION, and does if it is still wrong and has been so for long enough. -/
theorem contention_some {b : Bool} (hm : d.cfg.lanes[n].mode = 2) (hw : readsWrong d n b) :
    let y := passTo (contentionAt d n.val b) d
    (readsWrong y n b → contentionAt y n.val b ≤ y.clk → contention n.val d = laneErr n.val 5 y) ∧
    (¬ readsWrong y n b ∨ y.clk < contentionAt y n.val b → contention n.val d = y) := by
  have eq : contention n.val d =
      (let y := passTo (contentionAt d n.val b) d
      if laneDrive y n.val = some b ∧ y.lanes[n].synced y.clk ≠ b ∧ contentionAt y n.val b ≤ y.clk then laneErr n.val 5 y else y) := by
    obtain ⟨hd, hs⟩ := hw
    unfold contention
    rw [hd]
    dsimp only
    rw [laneCfg_fin, lane_fin, if_neg (not_or.2 ⟨not_not.2 hm, hs⟩), lane_fin]
  dsimp only at eq ⊢
  rw [eq]
  exact ⟨fun ⟨hd, hs⟩ hc => if_pos ⟨hd, hs, hc⟩,
    fun h => if_neg fun ⟨hd, hs, hc⟩ => h.elim (fun hn => hn ⟨hd, hs⟩) (Nat.not_lt.2 hc)⟩

/-- An error changes its lane in that bit, and raises. -/
theorem laneErr_eq (i : Nat) : laneErr n.val i d = { d with
    ev := (laneErr n.val i d).ev, hr := { d.hr with relays := (laneErr n.val i d).hr.relays }
    lanes := put d.lanes n { d.lanes[n] with err := setBit d.lanes[n].err i true } } := by
  have frame := laneErr_frame n.val i d
  have lanes := laneErr_lanes n.val i d
  unfold LaneErrFrame at frame
  rw [upd?_fin] at lanes
  rw [← lanes]
  exact frame

end

/-- Settles O29: the serialiser's next bit-time, the second half of a generated clock, the end of a pulse, and the read-back. -/
theorem laneOutputsSendPulseAndReadBack : Obligations.LaneOutputsSendPulseAndReadBack := by
  unfold Obligations.LaneOutputsSendPulseAndReadBack
  refine ⟨fun n s hf => ?_, fun n s hf => ?_, fun n s hf => ?_, fun n s hf => ?_⟩
  · have row := (exec_serialiserBit n s).trans (actClk_on _ hf)
    refine ⟨fun h => row.trans (next_eq s (serialiserBit_none h)), fun x hx hb => ⟨_, row, ?_⟩⟩
    obtain ⟨frame, cur, ser, ends, under⟩ := serialiserBit_sends hx hb
    exact ⟨cur, ser, ends, under, frame⟩
  · have row := (exec_clkgenClockEdge n s).trans (actClk_on _ hf)
    have ref := refLane_eq s.dev n
    refine ⟨fun live => ⟨_, row, ?_⟩, fun h => row.trans (next_eq s (clkgenEdge_idle ref h))⟩
    rw [clkgenEdge_live ref live]
    exact secondHalf_lane n _
  · rw [exec_lanePulseEnd, actClk_on _ hf, lanePulseEnd_eq]
    dsimp only
    split <;> rfl
  · have row := (exec_contention n s).trans (actClk_on _ hf)
    refine ⟨fun b hm hw => ?_, fun h => row.trans (next_eq s (contention_none h))⟩
    obtain ⟨sets, passes⟩ := contention_some hm hw
    refine ⟨fun hw hc => ⟨_, row, ?_⟩, fun h => row.trans (next_eq s (passes h))⟩
    rw [sets hw hc]
    exact laneErr_eq 5

end Sys2Proof.Machine
end

section
/-!
PROOFS. The statements of 06_lanes.md about paired inputs.
-/
namespace Sys2Proof.Machine

theorem exec_pairSample (p : Fin 16) (s : State) : exec (.pairSample p) s = actClk (pairSample p.val) s := rfl
theorem exec_pairClear (who : Who) (p : Fin 16) (v : Word) (s : State) :
    exec (.pairClear who p v) s = act (wordWrite who (0x710C + 0x20 * p.val) v 0xF) s := rfl

/-! ### Samples and trips (R217 to R220) -/

theorem pass_pairs (n : Nat) (d : Dev) : (Machine.pass n d).pairs = d.pairs := by
  rw [(pass_frame n d).1]

/-- COUNT after a sample of the sides `a` and `b`. -/
def Pair.counted (a b : Bool) (x : Pair) : Half := if a = b then 0 else satInc x.count

/-- The sample trips the pair: it makes COUNT reach `n`. -/
def Pair.tripsAt (n : Half) (a b : Bool) (x : Pair) : Bool := a != b && x.counted a b == n && x.count != n

/-- The pair after a sample of the sides `a` and `b` at TB_NOW `now`, with N `n`, period `ts` and safe targets `s`. -/
def Pair.sampled (n : Half) (ts : Nat) (a b : Bool) (now : DWord) (s : SafeLatch) (x : Pair) : Pair :=
  let trip := x.tripsAt n a b
  { x with
    count := x.counted a b, a := a, b := b, next := x.next + 16 * ts
    disc := x.disc || trip
    tripTime := if trip then now else x.tripTime
    trips := if trip then satInc x.trips else x.trips
    latch := if trip && !x.disc then some s else x.latch }

theorem Pair.tripsAt_iff {n : Half} {a b : Bool} {x : Pair} :
    x.tripsAt n a b = true ↔ a ≠ b ∧ satInc x.count = n ∧ x.count ≠ n := by
  unfold Pair.tripsAt Pair.counted
  by_cases h : a = b <;> simp [h]

section
variable {n : Half} {ts : Nat} {a b : Bool} {now : DWord} {s : SafeLatch} {x : Pair}

/-- A sample that trips sets DISCREPANCY with its time, is counted, and latches the safe targets of a pair that had not tripped. -/
theorem Pair.sampled_trip (h : x.tripsAt n a b = true) :
    let y := x.sampled n ts a b now s
    y.disc = true ∧ y.tripTime = now ∧ y.trips = satInc x.trips ∧ (x.disc = false → y.latch = some s) := by
  have safe (hd : x.disc = false) : (x.tripsAt n a b && !x.disc) = true := by rw [h, hd]; rfl
  exact ⟨by rw [Pair.sampled, h, Bool.or_true], if_pos h, if_pos h, fun hd => if_pos (safe hd)⟩

/-- Any other sample leaves these. -/
theorem Pair.sampled_quiet (h : x.tripsAt n a b = false) :
    let y := x.sampled n ts a b now s
    y.disc = x.disc ∧ y.tripTime = x.tripTime ∧ y.trips = x.trips ∧ y.latch = x.latch := by
  have quiet : ¬ x.tripsAt n a b = true := by rw [h]; decide
  exact ⟨by rw [Pair.sampled, h, Bool.or_false], if_neg quiet, if_neg quiet, if_neg fun hl => quiet (Bool.and_eq_true_iff.1 hl).1⟩

/-- A pair that has tripped keeps its latch. -/
theorem Pair.sampled_latch (h : x.disc = true) : (x.sampled n ts a b now s).latch = x.latch := by
  unfold Pair.sampled
  simp [h]

end

theorem pairSample_off {p : Fin 16} {d : Dev} (h : d.pairs[p].run = false) : pairSample p.val d = d := by
  unfold pairSample
  rw [at?_fin]
  exact if_pos (by rw [h]; rfl)

/-- A running pair passes to its sample time and samples; a trip is raised in the next clk. -/
theorem pairSample_run {p : Fin 16} {d : Dev} (h : d.pairs[p].run = true) :
    let c := d.cfg.pairs[p]
    let y := passTo d.pairs[p].next d
    EvFrame { y with pairs := put y.pairs p (d.pairs[p].sampled c.n c.ts.toNat (pairSide y c.laneA (bit c.inv 0))
      (pairSide y c.laneB (bit c.inv 1)) y.tb.now (safeTargets y p.val)) } (pairSample p.val d) := by
  intro c y
  have hc : y.cfg = d.cfg := pass_cfg _ d
  have on : ¬ ((!d.pairs[p].run) = true) := by rw [h]; decide
  unfold pairSample
  dsimp only
  rw [at?_fin, if_neg on, at?_fin, put?_fin, hc]
  exact raiseNextIf_frame _ _ _

/-! ### PC_CTRL (R223, R389) -/

/-- A write of PC_CTRL of pair `p`, by offset in the LN block. -/
theorem lnWrite_pairClear (who : Who) (p : Fin 16) (v : Word) (d : Dev) :
    lnWrite who (0x110C + 0x20 * p.val) v d = pairClear who p.val v d := by
  have hp : (0x110C + 0x20 * p.val - 0x1100) / 0x20 = p.val := by omega
  unfold lnWrite
  rw [if_neg (by omega), if_neg (by omega), if_pos (by omega), hp]

/-- A command that writes PC_CTRL. -/
theorem exec_pairClear_reached {who : Who} {p : Fin 16} {s : State} {d : Dev} (h : reached who (0x710C + 0x20 * p.val) s.dev = some d)
    (v : Word) : exec (.pairClear who p v) s = .next { s with dev := pairClear who p.val v d } := by
  rw [exec_pairClear, act_wordWrite h v (by omega) (by omega), regStore_ln (by omega) (by omega),
    show 0x710C + 0x20 * p.val - 0x6000 = 0x110C + 0x20 * p.val by omega, lnWrite_pairClear]

/-- A pair whose control was written in vain. -/
def Pair.rejected (x : Pair) : Pair := { x with clrRej := satInc x.clrRej }

/-- Only a Steward with SAFE clears, and only by a 1; without SAFE it is also denied. -/
theorem pairClear_steward (c : Fin 4) (freeze safe sys : Bool) (p : Fin 16) (v : Word) (d : Dev) :
    pairClear (.steward c freeze safe sys) p.val v d =
      if safe = true ∧ bit v 0 = true then
        { d with pairs := put d.pairs p { d.pairs[p] with disc := false, count := 0, latch := none } }
      else if safe = true then { d with pairs := put d.pairs p d.pairs[p].rejected }
      else { stDeny c 3 d with pairs := put d.pairs p d.pairs[p].rejected } := by
  unfold pairClear
  dsimp only
  rw [upd?_fin]
  cases safe with
  | true => cases bit v 0 <;> rfl
  | false => rfl

/-- A write of anyone else is counted. -/
theorem pairClear_other {who : Who} (h : ∀ c freeze safe sys, who ≠ .steward c freeze safe sys) (p : Fin 16) (v : Word) (d : Dev) :
    pairClear who p.val v d = { d with pairs := put d.pairs p d.pairs[p].rejected } := by
  have counted : { d with pairs := upd? d.pairs p.val Pair.rejected } = { d with pairs := put d.pairs p d.pairs[p].rejected } := by
    rw [upd?_fin]
  cases who with
  | host => exact counted
  | ring n => exact counted
  | steward c freeze safe sys => exact absurd rfl (h c freeze safe sys)

/-- Settles O30: the samples of a pair, and the writes of its control. -/
theorem pairedInputsTripAndClear : Obligations.PairedInputsTripAndClear := by
  unfold Obligations.PairedInputsTripAndClear
  refine ⟨fun p s hf => ?_, fun who p v s d h => ?_⟩
  · have row := (exec_pairSample p s).trans (actClk_on _ hf)
    intro x c d a b
    refine ⟨fun h => row.trans (next_eq s (pairSample_off h)), fun h => ⟨_, row, ?_⟩⟩
    have frame := pairSample_run h
    generalize pairSample p.val s.dev = t at frame
    unfold EvFrame at frame
    have pairs : t.pairs = put d.pairs p (x.sampled c.n c.ts.toNat a b d.tb.now (safeTargets d p.val)) := by rw [frame]
    have sampled : t.pairs[p] = x.sampled c.n c.ts.toNat a b d.tb.now (safeTargets d p.val) := by
      rw [pairs]
      exact (getElem_put _ _ _ _ p.isLt).trans (if_pos rfl)
    refine ⟨?_, fun q hq => ?_, ?_⟩
    · rw [pairs]
      exact frame
    · have same : d.pairs = s.dev.pairs := pass_pairs _ _
      rw [pairs, same]
      exact (getElem_put _ _ _ _ q.isLt).trans (if_neg fun hn => hq (Fin.ext hn.symm))
    · rw [sampled]
      refine ⟨rfl, rfl, rfl, rfl, fun hab hn hx => Pair.sampled_trip (Pair.tripsAt_iff.2 ⟨hab, hn, hx⟩), fun hq => Pair.sampled_quiet ?_,
        Pair.sampled_latch⟩
      rw [Bool.eq_false_iff, ne_eq, Pair.tripsAt_iff]
      simpa only [not_and_or, not_not] using hq
  · refine (exec_pairClear_reached h v).trans (next_eq s ?_)
    cases who with
    | host => exact pairClear_other (by simp) p v d
    | ring n => exact pairClear_other (by simp) p v d
    | steward c freeze safe sys => exact pairClear_steward c freeze safe sys p v d

end Sys2Proof.Machine
end

section
/-!
PROOFS. What State.reset holds (R594, R599, 19_register_index.md).
-/
namespace Sys2Proof.Machine

/-- Every lane, engine, core, lockstep unit and larder begins as its record's P values say. -/
theorem reset_parts :
    (∀ n : Fin 64, State.reset.dev.cfg.lanes[n] = {}) ∧ (∀ e : Fin 32, State.reset.dev.engines[e] = {}) ∧
    (∀ c : Fin 4, State.reset.dev.cores[c] = {}) ∧ (∀ c : Fin 4, State.reset.dev.ls[c] = {}) ∧
    (∀ c : Fin 4, State.reset.dev.ev.larders[c] = {}) :=
  ⟨fun n => Vector.getElem_replicate n.isLt, fun e => Vector.getElem_replicate e.isLt, fun c => Vector.getElem_replicate c.isLt,
    fun c => Vector.getElem_replicate c.isLt, fun c => Vector.getElem_replicate c.isLt⟩

/-- The Cellar, the mailbox and the root cellar list no byte that is not 0. -/
theorem reset_reads_zero (a : Nat) :
    rd8 State.reset.dev.cl.mem a = 0 ∧ rd8 State.reset.dev.mbox a = 0 ∧ rd8 State.reset.dev.rc a = 0 := ⟨rfl, rfl, rfl⟩

/-- The test access port begins in Test-Logic-Reset with BYPASS, TDO not driven. -/
theorem reset_tap : TapInv State.reset.tap := ⟨fun h => absurd h Bool.false_ne_true, fun _ _ => rfl⟩

/-- Settles O4: the canonical memories, the parts as their records say, and the fields of the device one by one. -/
theorem resetHoldsTheSpecsValues : Obligations.ResetHoldsTheSpecsValues := by
  unfold Obligations.ResetHoldsTheSpecsValues
  obtain ⟨lanes, engines, cores, units, larders⟩ := reset_parts
  refine ⟨reset_tap, reset_memories, rfl, rfl, rfl, rfl, rfl, rfl, rfl, rfl, rfl, rfl, rfl, fun n => ?_, fun e => ?_, fun c => ?_,
    reset_reads_zero, rfl, rfl, fun c => ?_, rfl, fun c => ?_⟩
  · rw [lanes]
  · rw [engines]
    exact ⟨rfl, rfl, rfl, rfl⟩
  · rw [cores]
    exact ⟨rfl, fun k => congrArg Key.tag (Vector.getElem_replicate k.isLt)⟩
  · rw [units]
  · rw [larders]

end Sys2Proof.Machine
end

section
/-!
PROOFS. The statements of 07_sundial.md: the timebase, its registers and PPS.
-/
namespace Sys2Proof.Machine

/-- Settles O31: the clk that pass are counted, TB_INC once in each. -/
theorem timebaseAddsItsIncrement : Obligations.TimebaseAddsItsIncrement := by
  unfold Obligations.TimebaseAddsItsIncrement
  intro d n hf hc hi
  obtain ⟨-, -, hinc, hval⟩ := pass_counted n hf hc hi
  exact ⟨hval, hinc, pass_clk n d hf⟩

theorem exec_tbLoad (who : Who) (v : Word) (s : State) : exec (.tbLoad who v) s = act (wordWrite who 0x201C v 0xF) s := rfl
theorem exec_tbNowLoRead (who : Who) (be : BitVec 4) (s : State) :
    exec (.tbNowLoRead who be) s = act (wordRead who 0x2000 be) s := rfl
theorem exec_ppsEdge (dt : Nat) (s : State) : exec (.ppsEdge dt) s = actClk (ppsEdge dt) s := rfl
theorem exec_ppsLost (s : State) : exec .ppsLost s = actClk ppsLost s := rfl

/-! ### The timebase's registers (R232, R233) -/

/-- A write of TB_CTRL with LOAD set. -/
theorem tbWrite_load {v : Word} (h : bit v 0 = true) (d : Dev) : tbWrite 0x1C v d = tbLoad d := if_pos h

/-- A read of TB_NOW_LO returns the low word; with all byte enables it stores the reader's latch. -/
theorem regRead_tbNowLo (who : Who) (all : Bool) {d : Dev} (h0 : (regVal who 0x2000 d).isNone = false) :
    regRead who all all 0x2000 d = some (lo32 d.tb.now, if all then latchTb who d else d) := by
  have hpop : popsLarder who 0x2000 = false := by
    cases who with
    | host => rfl
    | ring n => rfl
    | steward c fr sf sys => exact beq_eq_false_iff_ne.2 (by omega)
  have hwake : regWake 0x2000 d = d := rfl
  have hval : regVal who 0x2000 d = some (lo32 d.tb.now) := rfl
  have hclear : ∀ t, regClear 0x2000 t = t := fun _ => rfl
  unfold regRead
  rw [h0]
  simp only [hwake, hval, hclear, Option.map_some, Bool.false_eq_true, if_false, true_and, ite_self]
  exact if_neg fun h : popsLarder who 0x2000 = true ∧ all = true => Bool.false_ne_true (hpop.symm.trans h.1)

/-- The latch of the reader takes TB_NOW[63:32]. -/
theorem latchTb_eq (who : Who) (d : Dev) : latchTb who d = { d with
    tb := match who with
      | .host => { d.tb with hostLatch := hi32 d.tb.now }
      | .ring _ => { d.tb with ringLatch := hi32 d.tb.now }
      | .steward c _ _ _ => { d.tb with stLatch := upd? d.tb.stLatch c.val fun x => put? x d.cores[c].lvl (hi32 d.tb.now) } } := by
  cases who with
  | host => rfl
  | ring n => rfl
  | steward c fr sf sys => simp only [latchTb, core_fin, updTb]

/-- TB_NOW_LO_READ that is served. -/
theorem wordRead_tbNowLo {who : Who} {be : BitVec 4} {d0 d : Dev} (h : reached who 0x2000 d0 = some d) (hbe : who ≠ .host → be = 0xF) :
    wordRead who 0x2000 be d0 = answer (leBytes 4 (lo32 d.tb.now).toNat) (if be = 0xF then latchTb who d else d) := by
  refine wordRead_served h hbe (by decide) (by decide) fun x hx hd => ?_
  obtain rfl : d = x := hd
  rw [regRead_tbNowLo who _ hx]
  simp only [beq_iff_eq]

/-! ### PPS (R235 to R237) -/

/-- The clk from the last PPS edge to now, 0 before the first. -/
def sinceEdge (d : Dev) : Nat := match d.tb.ppsEdge with | some c => d.clk - c | none => 0

/-- What every PPS edge stores, whatever it means for the reference (R235, R237). -/
def edgeStored (d : Dev) : Tb :=
  { d.tb with
    pps := d.tb.now, ppsclk := BitVec.ofNat 32 (sinceEdge d), ppsEdge := some d.clk, ppsGone := false
    ppsLost := d.tb.ppsLost || decide (1501500000 < sinceEdge d) && !d.tb.ppsGone }

/-- A PPS edge in the clk of `d` changes besides only how TB_NOW is disciplined (R236). -/
def EdgeStores (d t : Dev) : Prop :=
  t = { d with tb := { edgeStored d with
    ppsRef := t.tb.ppsRef, ppsK := t.tb.ppsK, ppsGood := t.tb.ppsGood, ppsLock := t.tb.ppsLock, ppsBad := t.tb.ppsBad
    ppserr := t.tb.ppserr, incNext := t.tb.incNext } }

/-- The error of an accepted edge against the reference `r` (R236). -/
def edgeErr (r : DWord) (d : Dev) : Int := d.tb.now.toNat - (r.toNat + (d.tb.ppsK + 1 : Nat) * 1500000000)

/-- How many edges in a row have been good, with this one. -/
def goodEdges (r : DWord) (d : Dev) : Nat := if (edgeErr r d).natAbs ≤ 15 then d.tb.ppsGood + 1 else 0

/-- An edge comes in the clk up to which time has passed. -/
theorem ppsEdge_pass (dt : Nat) (d : Dev) : ppsEdge dt d = ppsEdge 0 (Machine.pass dt d) := by
  unfold ppsEdge
  rw [pass_zero]

/-- With no reference the edge becomes it. -/
theorem ppsEdge_first {d : Dev} (h : d.tb.ppsRef = none) : ppsEdge 0 d = { d with tb := { edgeStored d with
    ppsRef := some d.tb.now, ppsK := 0, ppsGood := 0, ppsLock := false, ppsBad := d.tb.ppsBad || d.tb.ppsEdge.isSome } } := by
  unfold ppsEdge
  rw [pass_zero]
  dsimp only
  rw [h]
  rfl

section
variable {d : Dev} {r : DWord} (h : d.tb.ppsRef = some r)
include h

/-- Outside the filter's range the edge is the new reference, and lock is lost. -/
theorem ppsEdge_rejected (hn : ¬ (1498500000 ≤ sinceEdge d ∧ sinceEdge d ≤ 1501500000)) : ppsEdge 0 d = { d with tb := { edgeStored d with
    ppsRef := some d.tb.now, ppsK := 0, ppsGood := 0, ppsBad := true, ppsLock := false } } := by
  unfold ppsEdge
  rw [pass_zero]
  dsimp only
  rw [h]
  exact if_neg hn

/-- Within it a disciplined node measures the error and computes a new TB_INC. -/
theorem ppsEdge_disciplined (hn : 1498500000 ≤ sinceEdge d ∧ sinceEdge d ≤ 1501500000) (hd : disciplined d = true) :
    ppsEdge 0 d = { d with tb := { edgeStored d with
      ppsRef := some r, ppsK := d.tb.ppsK + 1, ppsGood := goodEdges r d, ppsLock := 4 ≤ goodEdges r d, ppserr := satInt32 (edgeErr r d)
      incNext := some (d.clk + 64, ppsInc r d.tb.now (d.tb.ppsK + 1) (sinceEdge d)) } } := by
  unfold ppsEdge
  rw [pass_zero]
  dsimp only
  rw [h]
  exact (if_pos hn).trans (if_pos hd)

/-- Another node counts the edge. -/
theorem ppsEdge_undisciplined (hn : 1498500000 ≤ sinceEdge d ∧ sinceEdge d ≤ 1501500000) (hd : ¬ disciplined d = true) :
    ppsEdge 0 d = { d with tb := { edgeStored d with ppsRef := some r, ppsK := d.tb.ppsK + 1 } } := by
  unfold ppsEdge
  rw [pass_zero]
  dsimp only
  rw [h]
  exact (if_pos hn).trans (if_neg hd)

end

theorem ppsEdge_stores (d : Dev) : EdgeStores d (ppsEdge 0 d) := by
  cases h : d.tb.ppsRef with
  | none =>
    rw [ppsEdge_first h]
    rfl
  | some r =>
    by_cases hn : 1498500000 ≤ sinceEdge d ∧ sinceEdge d ≤ 1501500000
    · by_cases hd : disciplined d = true
      · rw [ppsEdge_disciplined h hn hd]
        rfl
      · rw [ppsEdge_undisciplined h hn hd]
        rfl
    · rw [ppsEdge_rejected h hn]
      rfl

/-- PPS_LOST after an edge: once for its interval (R237). -/
theorem ppsLost_after {d : Dev} {c : Nat} (h : d.tb.ppsEdge = some c) :
    ppsLost d = if d.tb.ppsGone then d else
      { passTo (c + 1501500017) d with tb := { (passTo (c + 1501500017) d).tb with
        ppsLost := true, ppsLock := false, ppsGood := 0, ppsGone := true } } := by
  unfold ppsLost
  rw [h]
  rfl

/-- Settles O32: LOAD and the latch through their registers, an edge by the reference and the filter. -/
theorem timeIsLoadedReadAndSteered : Obligations.TimeIsLoadedReadAndSteered := by
  unfold Obligations.TimeIsLoadedReadAndSteered
  refine ⟨fun who v s d h hb => ?_, fun who be s d h hbe => ?_, fun dt s hf => ?_, fun s c hf h => ?_⟩
  · rw [exec_tbLoad, act_wordWrite h v (by decide) (by decide), regStore_tb (by decide) (by decide)]
    exact next_eq s (tbWrite_load hb d)
  · rw [exec_tbNowLoRead, act_eq, wordRead_tbNowLo h fun hw => hbe.resolve_right hw]
    refine next_eq s ?_
    by_cases hall : be = 0xF
    · rw [if_pos hall, latchTb_eq]
      cases who with
      | host => rw [if_pos hall]; rfl
      | ring n => rfl
      | steward c fr sf sys => rfl
    · obtain rfl := hbe.resolve_left hall
      rw [if_neg hall, if_neg hall]
      rfl
  · intro d
    have stores := ppsEdge_stores d
    unfold EdgeStores at stores
    refine ⟨(ppsEdge 0 d).tb, ?_, ?_, ?_, ?_, fun n hn => ?_⟩
    · rw [exec_ppsEdge, actClk_on _ hf, ppsEdge_pass]
      refine next_eq s ?_
      rw [stores]
    · rw [stores]; rfl
    · rw [stores]; rfl
    · rw [stores]; rfl
    · obtain rfl : n = sinceEdge d := hn
      refine ⟨by rw [stores]; rfl, by rw [stores]; rfl, fun hr => ?_, fun r hr => ⟨fun hout => ?_, fun hlo hhi hd => ?_⟩⟩
      · rw [ppsEdge_first hr]
        exact ⟨rfl, rfl, rfl⟩
      · rw [ppsEdge_rejected hr (by omega)]
        exact ⟨rfl, rfl, rfl, rfl⟩
      · rw [ppsEdge_disciplined hr ⟨hlo, hhi⟩ hd]
        exact ⟨rfl, rfl, rfl, rfl, rfl⟩
  · rw [exec_ppsLost, actClk_on _ hf, ppsLost_after h]
    cases s.dev.tb.ppsGone with
    | true => rfl
    | false => rfl

end Sys2Proof.Machine
end

section
/-!
PROOFS. The statements of 07_sundial.md: gated counters.
-/
namespace Sys2Proof.Machine

theorem exec_gcWrap (g : Fin 32) (s : State) : exec (.gcWrap g) s = actClk (gcWrap g) s := rfl
theorem exec_gcThreshold (g : Fin 32) (s : State) : exec (.gcThreshold g) s = actClk (gcThreshold g) s := rfl
theorem exec_gcLoad (who : Who) (g : Fin 32) (v : Word) (s : State) :
    exec (.gcLoad who g v) s = act (wordWrite who (0x2C1C + 0x20 * g.val) v 0xF) s := rfl
theorem exec_clrwrap (who : Who) (g : Fin 32) (v : Word) (s : State) :
    exec (.clrwrap who g v) s = act (wordWrite who (0x2C1C + 0x20 * g.val) v 0xF) s := rfl

/-! ### Increments (R251) -/

theorem gcDist_pos (o : Gc) (v : Nat) : 0 < gcDist o v := by
  have := o.count.isLt
  unfold gcDist
  split <;> omega

/-- Increments on the way to `v` bring it nearer. -/
theorem gcDist_gcAdd {m : Nat} {o : Gc} {v : Nat} (hv : v < 2 ^ 48) (h : m < gcDist o v) : gcDist (gcAdd m o) v = gcDist o v - m := by
  have := o.count.isLt
  simp only [gcDist, gcAdd, BitVec.toNat_ofNat] at h ⊢
  split_ifs at h ⊢ <;> omega

theorem gcAdd_zero (o : Gc) : gcAdd 0 o = o := by
  have hc := o.count.isLt
  have hw : (o.count.toNat + 0) / 2 ^ 48 = 0 := by omega
  have hd : ¬ gcDist o o.thr.toNat ≤ 0 := Nat.not_le.2 (gcDist_pos _ _)
  unfold gcAdd
  dsimp only
  rw [hw, satInc_zero, decide_eq_false hd, Nat.add_zero, BitVec.ofNat_toNat, BitVec.setWidth_eq]
  simp

/-- Increments add up: wraps, threshold hits and all. -/
theorem gcAdd_gcAdd (m n : Nat) (o : Gc) : gcAdd n (gcAdd m o) = gcAdd (m + n) o := by
  have hc := o.count.isLt
  have hv : (gcAdd m o).count.toNat = (o.count.toNat + m) % 2 ^ 48 := BitVec.toNat_ofNat _ _
  have count : BitVec.ofNat 48 ((gcAdd m o).count.toNat + n) = BitVec.ofNat 48 (o.count.toNat + (m + n)) := by
    apply BitVec.eq_of_toNat_eq
    rw [hv, BitVec.toNat_ofNat, BitVec.toNat_ofNat, Nat.mod_add_mod, Nat.add_assoc]
  have wraps : (o.count.toNat + m) / 2 ^ 48 + ((gcAdd m o).count.toNat + n) / 2 ^ 48 = (o.count.toNat + (m + n)) / 2 ^ 48 := by omega
  have wrapcnt : satInc (gcAdd m o).wrapcnt (((gcAdd m o).count.toNat + n) / 2 ^ 48) = satInc o.wrapcnt ((o.count.toNat + (m + n)) / 2 ^ 48) := by
    rw [← wraps]
    exact satInc_satInc _ _ _
  have pos : 0 < (o.count.toNat + m) / 2 ^ 48 ∨ 0 < ((gcAdd m o).count.toNat + n) / 2 ^ 48 ↔ 0 < (o.count.toNat + (m + n)) / 2 ^ 48 := by
    rw [← wraps, Nat.add_pos_iff_pos_or_pos]
  have ovf : ((gcAdd m o).ovf || decide (0 < ((gcAdd m o).count.toNat + n) / 2 ^ 48)) =
      (o.ovf || decide (0 < (o.count.toNat + (m + n)) / 2 ^ 48)) := by
    rw [← decide_eq_decide.2 pos, Bool.decide_or, ← Bool.or_assoc]
    rfl
  have hits : gcDist o o.thr.toNat ≤ m ∨ gcDist (gcAdd m o) o.thr.toNat ≤ n ↔ gcDist o o.thr.toNat ≤ m + n := by
    by_cases h : gcDist o o.thr.toNat ≤ m
    · exact ⟨fun _ => by omega, fun _ => .inl h⟩
    · rw [gcDist_gcAdd o.thr.isLt (Nat.not_le.1 h)]
      omega
  have thrhit : ((gcAdd m o).thrhit || (o.thrEn && decide (gcDist (gcAdd m o) o.thr.toNat ≤ n))) =
      (o.thrhit || (o.thrEn && decide (gcDist o o.thr.toNat ≤ m + n))) := by
    rw [← decide_eq_decide.2 hits, Bool.decide_or, Bool.and_or_distrib_left, ← Bool.or_assoc]
    rfl
  rw [gcAdd, gcAdd.eq_1 (m + n), Gc.mk.injEq]
  exact ⟨count, wrapcnt, rfl, rfl, rfl, rfl, rfl, rfl, rfl, thrhit, ovf, rfl, rfl, rfl⟩

/-! ### A counter with the always-open gate (R249, R250) -/

/-- Counter `o` counts in every clk from clk `c` on: enabled, its gate open and not just loaded. -/
def Gc.Free (c : Nat) (o : Gc) : Prop := o.en = true ∧ o.kind = 5 ∧ o.pol = true ∧ o.gatePrev = true ∧ o.loadClk ≤ c

/-- The increments of counter `g` in the coming `n` clk. -/
def gcIncs (n : Nat) (d : Dev) (g : Fin 32) : Nat :=
  let o := d.tb.gcs[g]
  b2n (gcCounts o o.gatePrev && o.loadClk != d.clk + 1) + (if n = 1 then 0 else
    b2n (gcCounts o (gateLevel d o o.srcPrev)) + (if gcCounts o (gateLevel d o (o.kind == 3 && srcLevel d o.index.toNat)) then n - 2 else 0))

theorem EvFrame.tb_eq {d t : Dev} (h : EvFrame d t) : t.tb = d.tb := by
  unfold EvFrame at h
  rw [h]

theorem raiseIn_tb (k s : Nat) (d : Dev) : (raiseIn k s d).tb = d.tb := (raiseIn_frame k s d).tb_eq

/-- Counter `g` after `n` clk: its increments made, the levels of gate and source as the next clk finds them. -/
def gcPassed (n : Nat) (d : Dev) (g : Fin 32) : Gc :=
  let o := d.tb.gcs[g]
  let src := o.kind == 3 && srcLevel d o.index.toNat
  { gcAdd (gcIncs n d g) o with gatePrev := if n = 1 then gateLevel d o o.srcPrev else gateLevel d o src, srcPrev := src }

theorem gcPass_tb {n : Nat} (hn : n ≠ 0) (d : Dev) (g : Fin 32) :
    (gcPass n d g).tb = { d.tb with gcs := put d.tb.gcs g (gcPassed n d g) } := by
  unfold gcPass
  dsimp only
  rw [if_neg hn]
  simp only [apply_ite Dev.tb, raiseIn_tb, ite_self]
  rfl

/-- The gate of KIND 5 is open at POL 1. -/
theorem gcCounts_free {c : Nat} {o : Gc} (h : o.Free c) (d : Dev) (src : Bool) : gateLevel d o src = true ∧ gcCounts o true = true := by
  obtain ⟨hen, hk, hpol, -, -⟩ := h
  simp [gateLevel, gcCounts, hen, hk, hpol]

/-- A clk in which a counter is free counts. -/
theorem gcNow_free {c : Nat} {o : Gc} (h : o.Free c) : (gcCounts o o.gatePrev && o.loadClk != c + 1) = true := by
  obtain ⟨hen, hk, hpol, hg, hl⟩ := h
  have hl : o.loadClk ≠ c + 1 := by omega
  simp [gcCounts, hen, hk, hpol, hg, hl]

theorem gcIncs_free {n : Nat} (hn : n ≠ 0) {d : Dev} {g : Fin 32} (h : d.tb.gcs[g].Free d.clk) : gcIncs n d g = n := by
  have gate := fun src => (gcCounts_free h d src).1
  have counts := (gcCounts_free h d false).2
  unfold gcIncs
  simp only [gcNow_free h, gate, counts, b2n, if_true]
  split <;> omega

/-- From `a` to `b` `n` clk pass: if counter `g` is free in `a`, it has counted them all. -/
def CountsAll (g : Fin 32) (n : Nat) (a b : Dev) : Prop :=
  a.tb.gcs[g].Free a.clk → b.clk = a.clk + n ∧ ∃ src, b.tb.gcs[g] = { gcAdd n a.tb.gcs[g] with srcPrev := src }

theorem Gc.Free.counted {c : Nat} {o : Gc} (h : o.Free c) (n : Nat) (src : Bool) : Gc.Free (c + n) { gcAdd n o with srcPrev := src } := by
  obtain ⟨hen, hk, hpol, hg, hl⟩ := h
  exact ⟨hen, hk, hpol, hg, Nat.le_add_right_of_le hl⟩

theorem CountsAll.trans {g : Fin 32} {m n : Nat} {a b c : Dev} (h : CountsAll g m a b) (h' : CountsAll g n b c) : CountsAll g (m + n) a c := by
  intro free
  obtain ⟨hclk, src, hg⟩ := h free
  obtain ⟨hclk', src', hg'⟩ := h' (by rw [hclk, hg]; exact free.counted m src)
  refine ⟨by rw [hclk', hclk, Nat.add_assoc], src', ?_⟩
  rw [hg', hg, ← gcAdd_gcAdd]
  rfl

theorem gcPassed_free {n : Nat} (hn : n ≠ 0) {d : Dev} {g : Fin 32} (h : d.tb.gcs[g].Free d.clk) :
    gcPassed n d g = { gcAdd n d.tb.gcs[g] with srcPrev := false } := by
  have gate := fun src => (gcCounts_free h d src).1
  obtain ⟨-, hk, -, hg, -⟩ := id h
  have src : (d.tb.gcs[g].kind == 3 && srcLevel d d.tb.gcs[g].index.toNat) = false := by
    rw [hk]
    rfl
  unfold gcPassed
  dsimp only
  rw [gcIncs_free hn h, gate, gate, ite_self, src, ← hg]
  rfl

/-! ### The parts of the passing of clk -/

/-- A fold in which one part alone changes what `π` sees, from `x` to `y`. -/
theorem foldl_once {α β : Type} {π : Dev → β} {f : Dev → α → Dev} {a : α} {x y : β} (others : ∀ d, ∀ b ≠ a, π (f d b) = π d)
    (own : ∀ d, π d = x → π (f d a) = y) {l : List α} (hn : l.Nodup) (ha : a ∈ l) {d : Dev} (hd : π d = x) : π (l.foldl f d) = y := by
  have rest : ∀ (l : List α) (d : Dev), a ∉ l → π (l.foldl f d) = π d := by
    intro l
    induction l with
    | nil => exact fun _ _ => rfl
    | cons b r ih =>
      intro d hb
      obtain ⟨hab, har⟩ := not_or.1 (mt List.mem_cons.2 hb)
      exact (ih _ har).trans (others d b (Ne.symm hab))
  induction l generalizing d with
  | nil => exact absurd ha List.not_mem_nil
  | cons b r ih =>
    obtain ⟨hb, hr⟩ := List.nodup_cons.1 hn
    by_cases hab : b = a
    · subst hab
      exact (rest r _ hb).trans (own d hd)
    · exact ih hr ((List.mem_cons.1 ha).resolve_left (Ne.symm hab)) ((others d b hab).trans hd)

theorem bgPass_tb (n : Nat) (d : Dev) (e : Fin 32) : (bgPass n d e).tb = d.tb := by
  unfold bgPass bgTakeN
  dsimp only
  split
  · split
    · rfl
    · split
      · rfl
      · split <;> rfl
  · rfl

theorem enginePort_tb (n : Nat) (d : Dev) (e : Fin 32) : (enginePort n d e).tb = d.tb := by
  unfold enginePort
  dsimp only
  split <;> rfl

theorem stewardPort_tb (n : Nat) (d : Dev) (x : Fin 4 × Fin 4) : (stewardPort n d x).tb = d.tb := by
  unfold stewardPort
  dsimp only
  split <;> rfl

theorem landingPass_tb (n : Nat) (d : Dev) : (landingPass n d).tb = d.tb := by
  unfold landingPass
  split
  · rfl
  · refine foldl_keeps (π := Dev.tb) (fun d k => ?_) _ d
    split
    · rfl
    · exact foldl_keeps (π := Dev.tb) (fun _ _ => by rfl) _ _

theorem retainPass_tb (d : Dev) : (retainPass d).tb = d.tb := by
  refine foldl_keeps (π := Dev.tb) (fun d k => ?_) _ d
  dsimp only
  split <;> rfl

theorem tbPass_keepsGcs (c n : Nat) (t : Tb) : (tbPass c n t).gcs = t.gcs := by
  have h := congrArg Tb.gcs (tbPass_gcs c n t t.gcs)
  exact h

/-- After the counters the passing of clk leaves them. -/
theorem passRaw_gcs {n : Nat} (hn : n ≠ 0) (d : Dev) : (passRaw n d).tb.gcs = (countersPassed n d).tb.gcs := by
  have rest : ∀ a t : Dev, (passRest n a t).tb.gcs = t.tb.gcs := fun a t => tbPass_keepsGcs t.clk n t.tb
  unfold passRaw
  rw [if_neg hn, retainPass_tb, rest, passParts, landingPass_tb, (raiseSoon_frame n _).tb_eq,
    foldl_keeps (π := Dev.tb) (stewardPort_tb n), foldl_keeps (π := Dev.tb) (enginePort_tb n), foldl_keeps (π := Dev.tb) (bgPass_tb n)]
  rfl

/-- Counter `g` and the clk. -/
def counterView (g : Fin 32) (d : Dev) : Gc × Nat := (d.tb.gcs[g], d.clk)

theorem gcPass_clk (n : Nat) (d : Dev) (g : Fin 32) : (gcPass n d g).clk = d.clk := by
  have h := gcPass_counter n d g
  unfold CounterFrame at h
  rw [h]

/-- A counter that is free counts the clk that pass, whatever the others do. -/
theorem countersPassed_free {n : Nat} (hn : n ≠ 0) {d : Dev} {g : Fin 32} (h : d.tb.gcs[g].Free d.clk) :
    (countersPassed n d).tb.gcs[g] = { gcAdd n d.tb.gcs[g] with srcPrev := false } := by
  obtain ⟨htb, hclk⟩ := commitEnd_tb d
  refine congrArg Prod.fst (foldl_once (π := counterView g) (a := g) (x := (d.tb.gcs[g], d.clk))
    (y := ({ gcAdd n d.tb.gcs[g] with srcPrev := false }, d.clk)) (fun a e he => ?_) (fun a ha => ?_) (List.nodup_finRange 32)
    (List.mem_finRange g) (Prod.ext (by rw [counterView, htb]) hclk))
  · unfold counterView
    rw [gcPass_tb hn, gcPass_clk]
    exact congrArg (·, a.clk) ((getElem_put _ _ _ _ g.isLt).trans (if_neg fun hx => he (Fin.ext hx)))
  · obtain ⟨hg, hc⟩ := Prod.mk.inj ha
    unfold counterView
    rw [gcPass_tb hn, gcPass_clk, hc, gcPassed_free hn (by rw [hg, hc]; exact h), hg]
    exact congrArg (·, d.clk) ((getElem_put _ _ _ _ g.isLt).trans (if_pos rfl))

theorem passRaw_countsAll (g : Fin 32) {n : Nat} (hn : n ≠ 0) (d : Dev) : CountsAll g n d (passRaw n d) := by
  intro h
  refine ⟨by rw [(passRaw_frame n d).1], false, ?_⟩
  rw [passRaw_gcs hn]
  exact countersPassed_free hn h

/-- While fclk runs a free counter counts every clk (R250). -/
theorem pass_countsAll (g : Fin 32) (n : Nat) {d : Dev} (hf : d.sys.fclkOn = true) : CountsAll g n d (Machine.pass n d) :=
  pass_cases (P := CountsAll g) (fun d _ => ⟨rfl, d.tb.gcs[g].srcPrev, by rw [gcAdd_zero]⟩) (fun _ d hn => passRaw_countsAll g hn d)
    (fun _ _ _ _ _ h h' => h.trans h') n hf

/-! ### The rows -/

/-- A free counter reaches its `k`th increment after `k` clk. -/
theorem gcRun_free {g : Fin 32} {k : Nat} (hk : 0 < k) {d : Dev} (h : d.tb.gcs[g].Free d.clk) : gcRun g k d = Machine.pass k d := by
  have gate := fun src => (gcCounts_free h d src).1
  have counts := (gcCounts_free h d false).2
  have time : gcTime true true k + 1 = k := by
    simp only [gcTime, b2n, if_true]
    split_ifs <;> omega
  unfold gcRun
  dsimp only
  rw [gcNow_free h, gate, gate, counts, time]
  exact if_pos rfl

theorem gcCounts_stopped {o : Gc} (h : o.en = false ∨ o.kind = 0) (l : Bool) : gcCounts o l = false := by
  obtain h | h := h
  · simp [gcCounts, h]
  · simp [gcCounts, h]

/-- A counter that is disabled or has no gate makes no increment. -/
theorem gcRun_stopped {g : Fin 32} {k : Nat} (hk : 0 < k) {d : Dev} (h : d.tb.gcs[g].en = false ∨ d.tb.gcs[g].kind = 0) : gcRun g k d = d := by
  have none : decide (k ≤ b2n false + b2n false) = false := decide_eq_false (Nat.not_le.2 hk)
  unfold gcRun
  simp only [gcCounts_stopped h, Bool.false_and, Bool.false_or, none]
  exact if_neg Bool.false_ne_true

/-- A free counter after the clk up to its `k`th increment. -/
theorem gcRun_counts {g : Fin 32} {k : Nat} (hk : 0 < k) {d : Dev} (hf : d.sys.fclkOn = true) (h : d.tb.gcs[g].Free d.clk) :
    (gcRun g k d).clk = d.clk + k ∧ ∃ src, (gcRun g k d).tb.gcs[g] = { gcAdd k d.tb.gcs[g] with srcPrev := src } := by
  rw [gcRun_free hk h]
  exact pass_countsAll g k hf h

/-- The way to 0 is the rest of the range. -/
theorem gcDist_wrap (o : Gc) : gcDist o 0 = 2 ^ 48 - o.count.toNat := by
  rw [gcDist, if_pos (Nat.zero_le _), Nat.zero_add]

theorem gcAdd_wrap (o : Gc) :
    (gcAdd (2 ^ 48 - o.count.toNat) o).count = 0 ∧ (gcAdd (2 ^ 48 - o.count.toNat) o).ovf = true ∧
      (gcAdd (2 ^ 48 - o.count.toNat) o).wrapcnt = satInc o.wrapcnt := by
  have hc : o.count.toNat + (2 ^ 48 - o.count.toNat) = 2 ^ 48 := Nat.add_sub_of_le o.count.isLt.le
  unfold gcAdd
  dsimp only
  rw [hc]
  exact ⟨rfl, Bool.or_true _, rfl⟩

theorem gcThreshold_eq (g : Fin 32) (d : Dev) :
    gcThreshold g d = if d.tb.gcs[g].thrEn then gcRun g (gcDist d.tb.gcs[g] d.tb.gcs[g].thr.toNat) d else d := rfl

/-- The increments up to a threshold ahead. -/
theorem gcAdd_threshold {o : Gc} (hn : o.thrEn = true) (h : o.count.toNat < o.thr.toNat) :
    gcDist o o.thr.toNat = o.thr.toNat - o.count.toNat ∧ (gcAdd (o.thr.toNat - o.count.toNat) o).count = o.thr ∧
      (gcAdd (o.thr.toNat - o.count.toNat) o).thrhit = true := by
  have hd : gcDist o o.thr.toNat = o.thr.toNat - o.count.toNat := if_neg (Nat.not_le.2 h)
  have hc : o.count.toNat + (o.thr.toNat - o.count.toNat) = o.thr.toNat := Nat.add_sub_of_le h.le
  refine ⟨hd, ?_, ?_⟩
  · unfold gcAdd
    dsimp only
    rw [hc, BitVec.ofNat_toNat, BitVec.setWidth_eq]
  · simp [gcAdd, hd, hn]

/-! ### GC_CTRL (R253) -/

/-- A write of GC_CTRL changes its counter alone. -/
theorem tbWrite_gcCtrl (g : Fin 32) (v : Word) (d : Dev) :
    tbWrite (0xC1C + 0x20 * g.val) v d = { d with tb := { d.tb with gcs := put d.tb.gcs g { d.tb.gcs[g] with
      thrhit := d.tb.gcs[g].thrhit && !bit v 9, ovf := d.tb.gcs[g].ovf && !bit v 8
      wrapcnt := if bit v 1 then 0 else d.tb.gcs[g].wrapcnt
      count := if bit v 0 then d.tb.gcs[g].set else d.tb.gcs[g].count
      loadClk := if bit v 0 then d.clk + 1 else d.tb.gcs[g].loadClk } } } := by
  have hg : (0xC1C + 0x20 * g.val - 0xC00) / 0x20 = g.val := by omega
  have hm : (0xC1C + 0x20 * g.val) % 0x20 = 0x1C := by omega
  unfold tbWrite
  split
  case h_5 =>
    simp (disch := omega) only [if_pos, if_neg, hg, hm]
    simp only [gcCtrlWrite, updGc, updTb, upd?_fin]
  all_goals omega

theorem act_gcCtrl {who : Who} {g : Fin 32} {s : State} {d : Dev} (h : reached who (0x2C1C + 0x20 * g.val) s.dev = some d) (v : Word) :
    act (wordWrite who (0x2C1C + 0x20 * g.val) v 0xF) s = .next { s with dev := tbWrite (0xC1C + 0x20 * g.val) v d } := by
  rw [act_wordWrite h v (by omega) (by omega), regStore_tb (by omega) (by omega),
    show 0x2C1C + 0x20 * g.val - 0x2000 = 0xC1C + 0x20 * g.val by omega]

/-- Settles O34: a free counter counts every clk, so the clk to a wrap or a threshold are the increments to it. -/
theorem gatedCountersCountWrapAndHit : Obligations.GatedCountersCountWrapAndHit := by
  unfold Obligations.GatedCountersCountWrapAndHit
  refine ⟨fun g s => ?_, fun who g v s d h => ?_⟩
  · intro o free
    refine ⟨fun hf h => ⟨_, (exec_gcWrap g s).trans (actClk_on _ hf), ?_⟩,
      fun hf h hn ht => ⟨_, (exec_gcThreshold g s).trans (actClk_on _ hf), ?_⟩, fun h => ⟨?_, ?_⟩⟩
    · obtain ⟨hclk, src, hg⟩ := gcRun_counts (gcDist_pos o 0) hf h
      obtain ⟨hcount, hovf, hwrap⟩ := gcAdd_wrap o
      rw [gcDist_wrap] at hclk hg
      unfold gcWrap
      rw [gcDist_wrap, hg]
      exact ⟨hclk, hcount, hovf, hwrap⟩
    · obtain ⟨hclk, src, hg⟩ := gcRun_counts (gcDist_pos o o.thr.toNat) hf h
      obtain ⟨hd, hcount, hhit⟩ := gcAdd_threshold hn ht
      rw [hd] at hclk hg
      rw [gcThreshold_eq, if_pos hn, hd, hg]
      exact ⟨hclk, hcount, hhit⟩
    · have stopped : gcWrap g s.dev = s.dev := gcRun_stopped (gcDist_pos o 0) h
      rw [exec_gcWrap, actClk_eq, stopped, ite_self]
    · have stopped : gcThreshold g s.dev = s.dev := by
        rw [gcThreshold_eq, gcRun_stopped (gcDist_pos o o.thr.toNat) h, ite_self]
      rw [exec_gcThreshold, actClk_eq, stopped, ite_self]
  · intro o r
    have written := (act_gcCtrl h v).trans (next_eq s (tbWrite_gcCtrl g v d))
    exact ⟨(exec_gcLoad who g v s).trans written, (exec_clrwrap who g v s).trans written⟩

end Sys2Proof.Machine
end

section
/-!
PROOFS. The statements of 08_events.md and 14_pcie_endpoint.md: a core pops its larder, INTx messages.
-/
namespace Sys2Proof.Machine

theorem exec_larderPop (c : Fin 4) (s : State) :
    exec (.larderPop c) s = act (wordRead (.steward c false false false) (0x4060 + 8 * c.val) 0xF) s := rfl
theorem exec_assertInta (s : State) : exec .assertInta s = .next { s with dev := assertInta s.dev } := rfl
theorem exec_deassertInta (s : State) : exec .deassertInta s = .next { s with dev := deassertInta s.dev } := rfl

/-! ### Pops (R275) -/

section
variable {c : Fin 4}

/-- The word a core pops is no reserved location. -/
theorem regVal_larderPop (who : Who) (d : Dev) : (regVal who (0x4060 + 8 * c.val) d).isNone = false := by
  have reg : regVal who (0x4060 + 8 * c.val) d = evVal who d (0x4060 + 8 * c.val - 0x4000) := by
    unfold regVal
    iterate 3 rw [if_neg (by omega)]
    rw [if_pos (by omega)]
  rw [reg, Option.isNone_eq_false_iff]
  unfold evVal
  dsimp only
  split
  case h_9 =>
    rw [if_neg (by omega), if_pos (by omega)]
    rfl
  all_goals omega

/-- A core's own read of that word with side effects pops at the core's level. -/
theorem regRead_larderPop (freeze safe sys latch : Bool) (d : Dev) :
    regRead (.steward c freeze safe sys) true latch (0x4060 + 8 * c.val) d = some (larderPop c.val d.cores[c].lvl d) := by
  have place : (0x4060 + 8 * c.val - 0x4060) / 8 = c.val := by omega
  have awake : regWake (0x4060 + 8 * c.val) d = d := if_neg (by omega)
  unfold regRead
  rw [regVal_larderPop, if_neg Bool.false_ne_true, awake, place]
  dsimp only
  rw [core_fin]
  exact if_pos ⟨beq_self_eq_true _, rfl⟩

/-- LARDER_POP with the registers live answers with what the pop gives. -/
theorem wordRead_larderPop {d : Dev} (hl : regsLive d = true) :
    wordRead (.steward c false false false) (0x4060 + 8 * c.val) 0xF d =
      answer (leBytes 4 (larderPop c.val d.cores[c].lvl d).1.toNat) (larderPop c.val d.cores[c].lvl d).2 := by
  have served : ¬ ((!regsLive d) = true ∨ (0xF : BitVec 4) ≠ 0xF) := by simp [hl]
  simp only [wordRead, if_neg served, regRead_larderPop]

variable {d : Dev} {l : Nat}

/-- The first entry that the level may take leaves the larder, and its time is kept. -/
theorem larderPop_found {x : LarderEntry} (h : d.ev.larders[c].entries.find? (qualifies l) = some x) :
    larderPop c.val l d =
      (larderWord x, setLarder c { d.ev.larders[c] with entries := d.ev.larders[c].entries.erase x, popTime := x.time } d) := by
  unfold larderPop
  simp only [at?_fin, h, updLarder_fin]

/-- Where none qualifies, 0 is read and nothing is popped. -/
theorem larderPop_none (h : d.ev.larders[c].entries.find? (qualifies l) = none) : larderPop c.val l d = (0, d) := by
  unfold larderPop
  simp only [at?_fin, h]

end

/-! ### INTx messages (R545, R547) -/

/-- The link leaves L1 for recovery, and no other state. -/
theorem leaveLowPower_eq (d : Dev) :
    leaveLowPower d = { d with pe := { d.pe with link := if d.pe.link = .l1 then .recovery else d.pe.link } } := by
  unfold leaveLowPower
  by_cases h : d.pe.link = .l1
  · rw [if_pos h, if_pos h]
    rfl
  · rw [if_neg h, if_neg h]

/-- A message that is due is sent in L0; otherwise it waits, and the link begins to leave L1. -/
theorem dueInta_eq (b : Bool) (d : Dev) : dueInta b d =
    if d.pe.link = .l0 then
      { d with out := d.out ++ [if b then .assertInta else .deassertInta], pe := { d.pe with wire := b, intaDue := none } }
    else { d with pe := { d.pe with intaDue := some b, link := if d.pe.link = .l1 then .recovery else d.pe.link } } := by
  unfold dueInta
  split
  · rfl
  · rw [leaveLowPower_eq]
    rfl

section
variable {d : Dev}

theorem assertInta_due (hc : intaCond d = true) (hw : d.pe.wire = false) : assertInta d = dueInta true d :=
  if_pos ⟨hc, by rw [hw]; rfl⟩

theorem assertInta_idle (h : intaCond d = false ∨ d.pe.wire = true) : assertInta d = d := by
  refine if_neg fun ⟨hc, hw⟩ => ?_
  rcases h with h | h
  · exact Bool.false_ne_true (h.symm.trans hc)
  · simp [h] at hw

theorem deassertInta_due (hc : intaCond d = false) (hw : d.pe.wire = true) (hu : d.pe.dlUp = true) : deassertInta d = dueInta false d :=
  if_pos ⟨by rw [hc]; rfl, hw, hu⟩

theorem deassertInta_idle (h : intaCond d = true ∨ d.pe.wire = false ∨ d.pe.dlUp = false) : deassertInta d = d := by
  refine if_neg fun ⟨hc, hw, hu⟩ => ?_
  rcases h with h | h | h
  · simp [h] at hc
  · exact Bool.false_ne_true (h.symm.trans hw)
  · exact Bool.false_ne_true (h.symm.trans hu)

end

/-- Settles O36: the core's own word read is its pop; each message by its condition, and by the link once it is due. -/
theorem larderPopsAndInterruptMessages : Obligations.LarderPopsAndInterruptMessages := by
  unfold Obligations.LarderPopsAndInterruptMessages
  refine ⟨fun c s hl => ⟨fun x h => ?_, fun h => ?_⟩, fun s => ⟨fun hc hw => ?_, fun h => ?_, fun hc hw hu => ?_, fun h => ?_⟩⟩
  · rw [exec_larderPop, act_eq, wordRead_larderPop hl, larderPop_found h]
    rfl
  · have zero : leBytes 4 (0 : Word).toNat = [0, 0, 0, 0] := by decide
    rw [exec_larderPop, act_eq, wordRead_larderPop hl, larderPop_none h, zero, answer]
    rfl
  · rw [exec_assertInta, assertInta_due hc hw, dueInta_eq]
    rfl
  · rw [exec_assertInta, assertInta_idle h]
  · rw [exec_deassertInta, deassertInta_due hc hw hu, dueInta_eq]
    rfl
  · rw [exec_deassertInta, deassertInta_idle h]

end Sys2Proof.Machine
end

section
/-!
PROOFS. The statements of 09_cellar.md: byte memories, and the end of the start-up clear.
-/
namespace Sys2Proof.Machine

/-! ### Canonical memories -/

section
variable {β : Type} [DecidableEq β] {d : β}

/-- In a canonical memory the first listed address reads other than the default. -/
theorem look_head_ne {k : Nat} {v : β} {m : List (Nat × β)} (h : canon d ((k, v) :: m) = true) : look d ((k, v) :: m) k ≠ d := by
  rw [look, if_pos rfl]
  exact (canon_cons.1 h).2.1

/-- Memories that read alike list the same first address: at a smaller one only one of them would read the default. -/
theorem head_le_of_look {k l : Nat} {v w : β} {m r : List (Nat × β)} (h : canon d ((k, v) :: m) = true)
    (hl : ∀ a, look d ((k, v) :: m) a = look d ((l, w) :: r) a) : l ≤ k := by
  by_contra hlt
  refine look_head_ne h ((hl k).trans ?_)
  rw [look, if_neg (by omega), if_pos (by omega)]

/-- A canonical memory is determined by what it reads. -/
theorem eq_of_look_eq {m m' : List (Nat × β)} (h : canon d m = true) (h' : canon d m' = true) (hl : ∀ a, look d m a = look d m' a) :
    m = m' := by
  induction m generalizing m' with
  | nil =>
    cases m' with
    | nil => rfl
    | cons y r => exact absurd (hl y.1).symm (look_head_ne h')
  | cons x m ih =>
    obtain ⟨k, v⟩ := x
    cases m' with
    | nil => exact absurd (hl k) (look_head_ne h)
    | cons y r =>
      obtain ⟨l, w⟩ := y
      have hk : k = l := Nat.le_antisymm (head_le_of_look h' fun a => (hl a).symm) (head_le_of_look h hl)
      subst hk
      have hv : v = w := by simpa [look] using hl k
      obtain ⟨low, -, hm⟩ := canon_cons.1 h
      obtain ⟨low', -, hr⟩ := canon_cons.1 h'
      have tails : ∀ a, look d m a = look d r a := fun a => by
        by_cases ha : a ≤ k
        · rw [look_below fun x hx => Nat.lt_of_le_of_lt ha (low x hx), look_below fun x hx => Nat.lt_of_le_of_lt ha (low' x hx)]
        · simpa [look, show a ≠ k by omega, show ¬ a < k by omega] using hl a
      rw [hv, ih hm hr tails]

end

/-- Settles O5: a write reads back and keeps the form, and the form is determined by what it reads. -/
theorem memoriesReadBackAndStayCanonical : Obligations.MemoriesReadBackAndStayCanonical := by
  unfold Obligations.MemoriesReadBackAndStayCanonical
  exact ⟨fun m a b v h => ⟨rd8_wr8 h a b v, wf_wr8 h a v⟩, fun m m' h h' hl => eq_of_look_eq h h' hl⟩

/-! ### Fields of a byte list that is written -/

theorem wrBytes_append (m : Bytes) (a : Nat) (l r : List Byte) : wrBytes m a (l ++ r) = wrBytes (wrBytes m a l) (a + l.length) r := by
  induction l generalizing m a with
  | nil => rfl
  | cons x l ih =>
    rw [List.cons_append, wrBytes, ih, List.length_cons, show a + 1 + l.length = a + (l.length + 1) by omega]
    rfl

@[simp] theorem length_leBytes (n v : Nat) : (leBytes n v).length = n := by
  induction n generalizing v with
  | zero => rfl
  | succ n ih => exact congrArg Nat.succ (ih _)

theorem rdLE_wrBytes_outside {m : Bytes} (h : Memory.wf m) (a : Nat) (l : List Byte) (y n : Nat) (hy : y + n ≤ a ∨ a + l.length ≤ y) :
    rdLE (wrBytes m a l) y n = rdLE m y n :=
  rdLE_congr y n fun i hi => rd8_wrBytes_outside h a l (y + i) (by omega)

theorem rdLE_wr8_outside {m : Bytes} (h : Memory.wf m) (a y n : Nat) (v : Byte) (hy : y + n ≤ a ∨ a < y) : rdLE (wr8 m a v) y n = rdLE m y n :=
  rdLE_congr y n fun i hi => by rw [rd8_wr8 h, if_neg (by omega)]

/-- A number spelled within a byte list that is written reads back. -/
theorem rdLE_wrBytes_field {m : Bytes} (h : Memory.wf m) (a : Nat) (pre post : List Byte) (n v : Nat) :
    rdLE (wrBytes m a (pre ++ (leBytes n v ++ post))) (a + pre.length) n = v % 256 ^ n := by
  have after := rdLE_wrBytes_outside (wf_wrLE (wf_wrBytes h a pre) (a + pre.length) n v) (a + pre.length + n) post (a + pre.length) n (.inl (Nat.le_refl _))
  rw [wrBytes_append, wrBytes_append, wrBytes_leBytes, length_leBytes, after, rdLE_wrLE (wf_wrBytes h a pre)]

/-! ### The start-up clear ends (R287, R447, R448, R461, R599) -/

theorem exec_memoryClearEnd (s : State) : exec .memoryClearEnd s = .next { s with dev := memoryClearEnd s.dev } := rfl

/-- The bytes of a reset-history entry. -/
def historyEntry (kind cause source : Nat) (time : DWord) : List Byte :=
  leBytes 8 time.toNat ++ (leBytes 1 kind ++ (leBytes 1 cause ++ (leBytes 2 source ++ (leBytes 3 0 ++ leBytes 1 1))))

/-- The root cellar with entry `l` in slot `i` of the history and the `n`-byte count at `off` advanced. -/
def logged (l : List Byte) (i off n : Nat) (rc : Bytes) : Bytes :=
  let r := wr8 (wrBytes rc (0x20 + 16 * i) l) 0x00D (BitVec.ofNat 8 ((i + 1) % 8))
  wrLE r off n (min (256 ^ n - 1) (rdLE r off n + 1))

theorem rcCount_history (off n kind cause source : Nat) (time : DWord) (d : Dev) :
    rcCount off n (history kind cause source time d) =
      { d with rc := logged (historyEntry kind cause source time) ((rd8 d.rc 0x00D).toNat % 8) off n d.rc } := by
  unfold rcCount history logged historyEntry
  simp only [List.append_assoc]

theorem memoryClearEnd_eq {d : Dev} (hp : d.sys.inP = false) (hf : d.sys.fclkOn = true) (hi : d.cl.initDone = false) :
    memoryClearEnd d =
      let t : Dev := { d with
        rc := logged (historyEntry 1 d.sys.pCause.toNat 0 d.sys.pTime) ((rd8 d.rc 0x00D).toNat % 8) 0 4 d.rc
        cl := { d.cl with initDone := true }, hr := { d.hr with powered := d.sys.role != 3 } }
      if d.sys.bistAtStart then bistStart 0xF 0 false t else t := by
  have ends : ¬ (d.sys.inP = true ∨ (!d.sys.fclkOn) = true ∨ d.cl.initDone = true) := by simp [hp, hf, hi]
  unfold memoryClearEnd
  rw [if_neg ends]
  simp only [rcCount_history, updHr, updCl]

section
variable {rc : Bytes} {i : Nat} (h : Memory.wf rc)
include h

/-- The count advances and saturates; the entry lies elsewhere. -/
theorem logged_count {l : List Byte} : rdLE (logged l i 0 4 rc) 0 4 = min 0xFFFFFFFF (rdLE rc 0 4 + 1) := by
  have entry := wf_wrBytes h (0x20 + 16 * i) l
  have before : rdLE (wr8 (wrBytes rc (0x20 + 16 * i) l) 0x00D (BitVec.ofNat 8 ((i + 1) % 8))) 0 4 = rdLE rc 0 4 := by
    rw [rdLE_wr8_outside entry _ _ _ _ (.inl (by omega)), rdLE_wrBytes_outside h _ _ _ _ (.inl (by omega))]
  rw [logged, rdLE_wrLE (wf_wr8 entry _ _), before]
  exact Nat.mod_eq_of_lt (by omega)

theorem logged_index {l : List Byte} : (rd8 (logged l i 0 4 rc) 0x00D).toNat = (i + 1) % 8 := by
  have entry := wf_wrBytes h (0x20 + 16 * i) l
  rw [logged, rd8_wrLE_outside (wf_wr8 entry _ _) _ _ _ _ (.inr (by omega)), rd8_wr8 entry, if_pos rfl, BitVec.toNat_ofNat]
  omega

theorem logged_outside {l : List Byte} (hl : l.length = 16) {b : Nat} (h4 : 4 ≤ b) (hD : b ≠ 0x00D)
    (hb : b < 0x20 + 16 * i ∨ 0x20 + 16 * i + 16 ≤ b) : rd8 (logged l i 0 4 rc) b = rd8 rc b := by
  have entry := wf_wrBytes h (0x20 + 16 * i) l
  rw [logged, rd8_wrLE_outside (wf_wr8 entry _ _) _ _ _ _ (.inr (by omega)), rd8_wr8 entry, if_neg hD,
    rd8_wrBytes_outside h _ _ _ (by omega)]

/-- A field of the entry, `pre` the fields before it. -/
theorem logged_field {l pre post : List Byte} {n v : Nat} (hl : l = pre ++ (leBytes n v ++ post)) :
    rdLE (logged l i 0 4 rc) (0x20 + 16 * i + pre.length) n = v % 256 ^ n := by
  have entry := wf_wrBytes h (0x20 + 16 * i) l
  have count : rdLE (logged l i 0 4 rc) (0x20 + 16 * i + pre.length) n =
      rdLE (wr8 (wrBytes rc (0x20 + 16 * i) l) 0x00D (BitVec.ofNat 8 ((i + 1) % 8))) (0x20 + 16 * i + pre.length) n :=
    rdLE_congr _ _ fun j hj => rd8_wrLE_outside (wf_wr8 entry _ _) _ _ _ _ (.inr (by omega))
  rw [count, rdLE_wr8_outside entry _ _ _ _ (.inr (by omega)), hl, rdLE_wrBytes_field h]

end

/-- Settles O8: the clear's own history entry and count, read field by field. -/
theorem startUpClearEndsWithHistoryAndCount : Obligations.StartUpClearEndsWithHistoryAndCount := by
  unfold Obligations.StartUpClearEndsWithHistoryAndCount
  intro s hp hf hi h
  refine ⟨logged (historyEntry 1 s.dev.sys.pCause.toNat 0 s.dev.sys.pTime) ((rd8 s.dev.rc 0x00D).toNat % 8) 0 4 s.dev.rc, ?_, ?_⟩
  · rw [exec_memoryClearEnd, memoryClearEnd_eq hp hf hi]
  generalize (rd8 s.dev.rc 0x00D).toNat % 8 = i
  intro j a
  generalize ht : historyEntry 1 s.dev.sys.pCause.toNat 0 s.dev.sys.pTime = l
  have length : l.length = 16 := by simp [← ht, historyEntry]
  have field : ∀ (pre post : List Byte) (n v : Nat), l = pre ++ (leBytes n v ++ post) → v < 256 ^ n →
      rdLE (logged l j 0 4 s.dev.rc) (a + pre.length) n = v := fun pre post n v hl hv => (logged_field h hl).trans (Nat.mod_eq_of_lt hv)
  refine ⟨?_, ?_, ?_, ?_, ?_, ?_, logged_index h, logged_count h, fun b h4 hD hb => logged_outside h length h4 hD hb⟩
  · exact field [] _ 8 _ ht.symm s.dev.sys.pTime.isLt
  · exact field (leBytes 8 s.dev.sys.pTime.toNat) _ 1 1 ht.symm (by omega)
  · exact field (leBytes 8 s.dev.sys.pTime.toNat ++ leBytes 1 1) _ 1 _ ht.symm s.dev.sys.pCause.isLt
  · exact field (leBytes 8 s.dev.sys.pTime.toNat ++ leBytes 1 1 ++ leBytes 1 s.dev.sys.pCause.toNat) _ 2 0 ht.symm (by omega)
  · exact field (leBytes 8 s.dev.sys.pTime.toNat ++ leBytes 1 1 ++ leBytes 1 s.dev.sys.pCause.toNat ++ leBytes 2 0) _ 3 0 ht.symm (by omega)
  · exact field (leBytes 8 s.dev.sys.pTime.toNat ++ leBytes 1 1 ++ leBytes 1 s.dev.sys.pCause.toNat ++ leBytes 2 0 ++ leBytes 3 0) [] 1 1
      ht.symm (by omega)

end Sys2Proof.Machine
end

section
/-!
PROOFS. The statements of 09_cellar.md: records time out, are released and are taken back.
-/
namespace Sys2Proof.Machine

/-! ### Elements that are replaced -/

section
variable {α : Type} {n : Nat} (v : Vector α n) {i j : Fin n} (x : α)

theorem put_self : (put v i x)[i] = x := by simp [put]

theorem put_other (h : j ≠ i) : (put v i x)[j] = v[j] :=
  (getElem_put v i x j.val j.isLt).trans (if_neg fun hv => h (Fin.ext hv.symm))

end

theorem updBin_fin (b : Fin 256) (f : Bin → Bin) (d : Dev) :
    updBin b.val f d = { d with cl := { d.cl with bins := put d.cl.bins b (f d.cl.bins[b]) } } := by
  rw [updBin, upd?_fin]

/-! ### Flags of a header (R295) -/

/-- Word 0 of a header with flags cleared, then set. -/
def reflag (set clr : Nat) (w : DWord) : DWord := (w &&& ~~~(BitVec.ofNat 64 (clr * 2 ^ 32))) ||| BitVec.ofNat 64 (set * 2 ^ 32)

/-- The Cellar with the header at byte `a` so rewritten. -/
def flagMem (a set clr : Nat) (m : Bytes) : Bytes := wrLE m a 8 (reflag set clr (BitVec.ofNat 64 (rdLE m a 8))).toNat

theorem hdrFlags_eq (a set clr : Nat) (d : Dev) :
    hdrFlags a set clr d = { d with cl := { d.cl with mem := flagMem a set clr d.cl.mem } } := by
  unfold hdrFlags wrCellar updCl
  dsimp only
  rw [wrBytes_leBytes]
  rfl

section
variable {m : Bytes} (h : Memory.wf m) (a set clr : Nat)
include h

theorem rdLE_flagMem : BitVec.ofNat 64 (rdLE (flagMem a set clr m) a 8) = reflag set clr (BitVec.ofNat 64 (rdLE m a 8)) := by
  unfold flagMem
  rw [rdLE_wrLE h]
  generalize reflag set clr (BitVec.ofNat 64 (rdLE m a 8)) = w
  rw [Nat.mod_eq_of_lt (show w.toNat < 256 ^ 8 from w.isLt), BitVec.ofNat_toNat, BitVec.setWidth_eq]

theorem rd8_flagMem_outside {y : Nat} (hy : y < a ∨ a + 8 ≤ y) : rd8 (flagMem a set clr m) y = rd8 m y := rd8_wrLE_outside h _ _ _ _ hy

end

/-! ### RES_TIMEOUT (R306, R314) -/

/-- A bin whose open reservation `r` in slot `i` has timed out. -/
def Bin.timedOutOf (i : Fin 8) (r : Rec) (x : Bin) : Bin :=
  { x with
    recs := x.recs.map fun y => if y.isOpen && y.slot == r.slot then { y with st := .ended } else y
    timeout := satInc x.timeout, timedOut := put x.timedOut i (some r.seq)
    fwd := match x.fwd with | some (q, n) => if q = r.seq then none else some (q, n) | none => none }

/-- Of the records left open none is in its slot. -/
theorem openRecs_timedOutOf (i : Fin 8) (r : Rec) (x : Bin) : ∀ y ∈ (x.timedOutOf i r).openRecs, y.slot ≠ r.slot := by
  intro y hy
  obtain ⟨hy, ho⟩ := List.mem_filter.1 hy
  obtain ⟨z, -, rfl⟩ := List.mem_map.1 hy
  split at ho
  case isTrue h => cases ho
  case isFalse h =>
    rw [if_neg h]
    rw [ho, Bool.true_and, beq_iff_eq] at h
    exact h

section
variable {b : Fin 256} {i : Fin 8} {c : BinEntry} {r : Rec} {d : Dev} (hc : binCfg? d b.val = some c)
include hc

/-- The timeout in the Cellar: the header is voided with LOST and the bin ends the reservation. -/
theorem resTimeout_due (hf : d.sys.fclkOn = true) (hr : d.cl.bins[b].openRecs.find? (fun r => r.slot == i.val) = some r)
    (ha : c.resTimeout.toNat ≤ r.age) : resTimeout b.val i.val d = { d with cl := { d.cl with
      mem := flagMem (c.base.toNat + r.off) 0x14 0x01 d.cl.mem, bins := put d.cl.bins b (d.cl.bins[b].timedOutOf i r) } } := by
  unfold resTimeout voidRec updOpen
  rw [hc, bin_fin]
  dsimp only
  rw [hr]
  dsimp only
  rw [if_neg (by rw [hf]; decide), if_neg (Nat.not_lt.2 ha), hdrFlags_eq, updRec_eq, updBin_fin, updBin_fin]
  dsimp only
  rw [put_put, put_self, put?_fin]
  rfl

/-- What follows the timeout of a record: one that a worker forwarded is acknowledged. -/
theorem recTimeout_of {m : Bytes} {y : Bin} (h : resTimeout b.val i.val d = { d with cl := { d.cl with mem := m, bins := put d.cl.bins b y } }) :
    let t := recTimeout b.val i.val d
    t.cl = { d.cl with mem := m, bins := put d.cl.bins b y } ∧ t = { d with cl := t.cl, hr := t.hr, out := t.out } ∧
    (d.cl.bins[b].fwd = none → t = { d with cl := t.cl }) ∧
    (∀ q n, d.cl.bins[b].fwd = some (q, n) → y.fwd = none → (b.val, q + 1) ∈ t.hr.recNext) := by
  intro t
  have ht : t = recTimeout b.val i.val d := rfl
  unfold recTimeout at ht
  rw [hc, bin_fin, h] at ht
  dsimp only at ht
  rw [bin_fin, put_self] at ht
  cases hx : d.cl.bins[b].fwd with
  | none =>
    rw [hx] at ht
    refine ⟨by rw [ht], by rw [ht], fun _ => by rw [ht], fun q n h => ?_⟩
    cases h
  | some x =>
    obtain ⟨q, k, w⟩ := x
    rw [hx] at ht
    dsimp only at ht
    cases hy : y.fwd with
    | some z =>
      rw [hy, Option.isSome_some, if_pos rfl] at ht
      refine ⟨by rw [ht], by rw [ht], fun h => ?_, fun q n _ h => ?_⟩ <;> cases h
    | none =>
      rw [hy, Option.isSome_none, if_neg Bool.false_ne_true] at ht
      have frame := sendCell_slot (BitVec.ofNat 5 c.owner.toNat) tRECACK (recAnswer c.remoteBin.toNat q [])
        (updHr (fun h => { h with recNext := (b.val, q + 1) :: h.recNext.filter (·.1 != b.val) })
          { d with cl := { d.cl with mem := m, bins := put d.cl.bins b y } })
      rw [← ht] at frame
      unfold SlotFrame at frame
      refine ⟨by rw [frame]; rfl, by rw [frame]; rfl, fun h => ?_, fun q' n h _ => ?_⟩
      · cases h
      · cases h
        rw [frame]
        exact List.mem_cons_self

end

/-! ### RECORD_RELEASE (R291) -/

/-- A record that has been neither released nor sealed. -/
def Rec.unreleased (r : Rec) : Bool := r.st == .opened || r.st == .closing || r.st == .ended

section
variable {b : Fin 256} {c : BinEntry} {d : Dev} {pre post : List Rec} {r : Rec}

/-- Behind records released or sealed, the oldest unreleased one is the next. -/
theorem unreleased_of_split (hx : d.cl.bins[b].recs = pre ++ r :: post) (hp : ∀ y ∈ pre, y.st = .released ∨ y.st = .sealed)
    (hr : r.unreleased = true) : unreleased b.val d = some r := by
  have past : pre.find? Rec.unreleased = none := List.find?_eq_none.2 fun y hy => by
    rcases hp y hy with h | h <;> simp [Rec.unreleased, h]
  show (bin d b.val).recs.find? Rec.unreleased = some r
  rw [bin_fin, hx, List.find?_append, past, Option.none_or, List.find?_cons_of_pos hr]

/-- A record whose COMMIT or VOID does not wait lets no clk pass. -/
theorem awaitWritten_stays (h : unreleased b.val d = some r) (hr : r.st ≠ .closing) (k : Nat) : awaitWritten b.val k d = d := by
  cases k with
  | zero => rfl
  | succ k =>
    unfold awaitWritten
    rw [h]
    exact if_neg hr

/-- One whose COMMIT or VOID waits lets clk pass until the entry is written. -/
theorem awaitWritten_waits (h : unreleased b.val d = some r) (hr : r.st = .closing) (k : Nat) :
    awaitWritten b.val (k + 1) d = awaitWritten b.val k (Machine.pass (queueWait b.val r.seq d) d) := by
  rw [awaitWritten, h]
  exact if_pos hr

/-- A change of the record with its number and state changes no other. -/
theorem map_split (f : Rec → Rec) {p : Rec → Prop} [DecidablePred p] (hr : p r) (hs : ∀ y ∈ pre ++ post, y.seq ≠ r.seq) (hp : ∀ y, p y → y.seq = r.seq) :
    (pre ++ r :: post).map (fun y => if p y then f y else y) = pre ++ f r :: post := by
  have others : ∀ l : List Rec, (∀ y ∈ l, y ∈ pre ++ post) → l.map (fun y => if p y then f y else y) = l := fun l hl =>
    (List.map_congr_left fun y hy => if_neg fun h => hs y (hl y hy) (hp y h)).trans (List.map_id l)
  rw [List.map_append, List.map_cons, if_pos hr, others pre fun y hy => List.mem_append_left _ hy,
    others post fun y hy => List.mem_append_right _ hy]

/-- The release of a written record, once no clk is awaited. -/
theorem releaseOne_ended {t : Dev} (hw : awaitWritten b.val 17 d = t) (hc : binCfg? t b.val = some c) (hx : t.cl.bins[b].recs = pre ++ r :: post)
    (hp : ∀ y ∈ pre, y.st = .released ∨ y.st = .sealed) (hs : ∀ y ∈ pre ++ post, y.seq ≠ r.seq) (hr : r.st = .ended) :
    releaseOne b.val d = { t with cl := { t.cl with
      bins := put t.cl.bins b { t.cl.bins[b] with rel := afterRec c r, relSeq := r.seq + 1, recs := pre ++ { r with st := .released } :: post }
      sealQueue := if c.sealed then t.cl.sealQueue ++ [(b.val, r.seq)] else t.cl.sealQueue } } := by
  have oldest := unreleased_of_split hx hp (by rw [Rec.unreleased, hr]; rfl)
  have released := map_split (fun y => { y with st := .released }) (p := fun y => y.seq = r.seq ∧ y.st = .ended) ⟨rfl, hr⟩ hs fun y h => h.1
  unfold releaseOne
  rw [hw]
  dsimp only
  rw [hc, oldest]
  dsimp only
  rw [if_pos hr, updBin_fin, hx, released]
  cases c.sealed <;> rfl

theorem releaseOne_opened (hx : d.cl.bins[b].recs = pre ++ r :: post) (hp : ∀ y ∈ pre, y.st = .released ∨ y.st = .sealed)
    (hc : binCfg? d b.val = some c) (hr : r.st = .opened) : releaseOne b.val d = d := by
  have oldest := unreleased_of_split hx hp (by rw [Rec.unreleased, hr]; rfl)
  unfold releaseOne
  rw [awaitWritten_stays oldest (by rw [hr]; decide)]
  dsimp only
  rw [hc, oldest]
  exact if_neg (by rw [hr]; decide)

end

section
variable {e : Fin 32} {b : Fin 256} {y : PortWr} {d : Dev} {pre post : List Rec} {r : Rec}

/-- With one entry waiting in all the ports, its record waits for it. -/
theorem queueWait_alone (hq : d.engines[e].ep.queue = [y]) (hb : y.bin = b.val) (hs : y.seq = r.seq)
    (others : ∀ f : Fin 32, f ≠ e → d.engines[f].ep.queue = []) : queueWait b.val r.seq d = d.engines[e].ep.portWait := by
  have holds : d.engines[e].ep.queue.any (fun x => x.bin == b.val && x.seq == r.seq) = true := by
    rw [hq]
    simp [hb, hs]
  have found : d.engines.toList.find? (fun g => g.ep.queue.any fun x => x.bin == b.val && x.seq == r.seq) = some d.engines[e] := by
    cases hg : d.engines.toList.find? (fun g => g.ep.queue.any fun x => x.bin == b.val && x.seq == r.seq) with
    | none => exact absurd holds (List.find?_eq_none.1 hg _ (by simp))
    | some g =>
      have mine := List.find?_some hg
      obtain ⟨k, hk, rfl⟩ := List.mem_iff_getElem.1 (List.mem_of_find?_eq_some hg)
      have hk32 : k < 32 := by simpa using hk
      by_cases hf : (⟨k, hk32⟩ : Fin 32) = e
      · subst hf
        simp
      · have empty := others _ hf
        simp only [Fin.getElem_fin] at empty
        simp [empty] at mine
  unfold queueWait
  dsimp only
  rw [found]
  rfl

/-- The Cellar once the COMMIT or VOID of a record has been written: the record is ended. -/
theorem portWrite_ends (hx : d.cl.bins[b].recs = pre ++ r :: post) (hs : ∀ z ∈ pre ++ post, z.seq ≠ r.seq) (hr : r.st = .closing)
    (hb : y.bin = b.val) (hq : y.seq = r.seq) (he : y.ends.isSome = true) : (portWrite y d.cl).sealQueue = d.cl.sealQueue ∧
      (portWrite y d.cl).bins[b].recs = pre ++ { r with written := y.written, st := .ended } :: post := by
  refine ⟨by rw [portWrite_frame y d.cl], ?_⟩
  have present : (at? d.cl.bins y.bin {}).recs.any (fun r => r.seq == y.seq) = true := by
    rw [hb, at?_fin, hx, List.any_eq_true]
    exact ⟨r, by simp, by simp [hq]⟩
  have ended := map_split (pre := pre) (post := post) (r := r) (p := fun z => z.seq = y.seq ∧ (z.st = .opened ∨ z.st = .closing))
    (fun z => { z with written := y.written, st := .ended }) ⟨hq.symm, .inr hr⟩ hs fun z h => h.1.trans hq
  unfold portWrite
  rw [present]
  dsimp only
  rw [hb, he, upd?_fin]
  simp only [Bool.not_true, Bool.false_eq_true, if_false, if_true]
  rw [put_self, hx]
  exact ended

/-- The release of a record whose COMMIT or VOID waits, alone, in the write queue of an engine. -/
theorem releaseOne_closing {c : BinEntry} (hf : d.sys.fclkOn = true) (hc : binCfg? d b.val = some c) (hx : d.cl.bins[b].recs = pre ++ r :: post)
    (hp : ∀ z ∈ pre, z.st = .released ∨ z.st = .sealed) (hs : ∀ z ∈ pre ++ post, z.seq ≠ r.seq) (hr : r.st = .closing)
    (hq : d.engines[e].ep.queue = [y]) (hb : y.bin = b.val) (hy : y.seq = r.seq) (he : y.ends.isSome = true) (hw : 0 < d.engines[e].ep.portWait)
    (others : Alone e d) :
    let t := Machine.pass d.engines[e].ep.portWait d
    releaseOne b.val d = { t with cl := { t.cl with
      bins := put t.cl.bins b { t.cl.bins[b] with
        rel := afterRec c r, relSeq := r.seq + 1, recs := pre ++ { r with written := y.written, st := .released } :: post }
      sealQueue := if c.sealed then d.cl.sealQueue ++ [(b.val, r.seq)] else d.cl.sealQueue } } := by
  intro t
  have waits : Waiting e y d.cl d.engines[e].ep.portWait d := by
    unfold Waiting
    rw [if_neg (Nat.pos_iff_ne_zero.1 hw)]
    exact ⟨Prod.ext hq rfl, rfl⟩
  obtain ⟨-, cl⟩ := pass_waiting hf others waits
  have cl : t.cl = portWrite y d.cl := cl
  obtain ⟨seals, recs⟩ := portWrite_ends hx hs hr hb hy he
  rw [← cl] at seals recs
  have hct : binCfg? t b.val = some c := by
    rw [← hc, binCfg?, binCfg?, pass_cfg]
  have written := unreleased_of_split recs hp rfl
  have await : awaitWritten b.val 17 d = t := by
    rw [awaitWritten_waits (unreleased_of_split hx hp (by rw [Rec.unreleased, hr]; rfl)) hr, queueWait_alone hq hb hy others.1]
    exact awaitWritten_stays written (by simp) 16
  rw [releaseOne_ended await hct recs hp hs rfl, seals]
  rfl

end

/-! ### CL_BACK (R292, R293) -/

theorem regStore_cl {o : Nat} (h : 0x8000 ≤ o) (h' : o < 0xA000) (who : Who) (v : Word) (d : Dev) :
    regStore who o v d = clWrite (o - 0x8000) v d := by
  simp (disch := omega) only [regStore, if_neg, if_pos]

theorem clWrite_back (b : Fin 256) (v : Word) (d : Dev) : clWrite (0x100C + 0x10 * b.val) v d = clBack b.val v d := by
  have hb : (0x100C + 0x10 * b.val - 0x1000) / 0x10 = b.val := by omega
  unfold clWrite
  split
  case h_6 => rw [if_neg (by omega), if_pos (by omega), hb]
  all_goals omega

theorem exec_clBack {who : Who} {b : Fin 256} {s : State} {d : Dev} (h : reached who (0x900C + 0x10 * b.val) s.dev = some d) (v : Word) :
    exec (.clBack who b v) s = .next { s with dev := clBack b.val v d } := by
  have off : 0x900C + 0x10 * b.val - 0x8000 = 0x100C + 0x10 * b.val := by omega
  refine (act_wordWrite h v (by omega) (by omega)).trans (next_eq s ?_)
  rw [regStore_cl (by omega) (by omega), off, clWrite_back]

section
variable {b : Fin 256} {c : BinEntry} {d : Dev}

/-- Bin `b` with `rs` as its records from TAKE on. -/
def takenTo (b : Fin 256) (rs : List Rec) (k : Nat) (d : Dev) : Dev :=
  { d with cl := { d.cl with bins := put d.cl.bins b { d.cl.bins[b] with recs := rs, take := k } } }

theorem takeFirst_cons {r : Rec} {rs : List Rec} (h : d.cl.bins[b].recs = r :: rs) : takeFirst b.val c d = takenTo b rs (afterRec c r) d := by
  rw [takeFirst, updBin_fin, h]
  rfl

/-- Records that may be taken are taken one after the other. -/
theorem takeN_takes (r : Rec) (tk rest : List Rec) (h : d.cl.bins[b].recs = r :: (tk ++ rest))
    (ht : ∀ y ∈ r :: tk, y.st = .sealed ∨ (y.st = .released ∧ c.sealed = false)) :
    takeN b.val c (tk.length + 1) d = takenTo b rest (afterRec c ((r :: tk).getLast (by simp))) d := by
  have first : ∀ (d : Dev) (r : Rec) (rs : List Rec) (n : Nat), d.cl.bins[b].recs = r :: rs → (r.st = .sealed ∨ (r.st = .released ∧ c.sealed = false)) →
      takeN b.val c (n + 1) d = takeN b.val c n (takenTo b rs (afterRec c r) d) := fun d r rs n h hr => by
    rw [takeN, bin_fin, h]
    dsimp only
    rw [if_pos (by simpa using hr), takeFirst_cons h]
  induction tk generalizing r d with
  | nil => exact first d r rest 0 h (ht r (by simp))
  | cons r' tk ih =>
    have next : (takenTo b (r' :: (tk ++ rest)) (afterRec c r) d).cl.bins[b].recs = r' :: (tk ++ rest) := by rw [takenTo, put_self]
    rw [List.length_cons, first d r (r' :: (tk ++ rest)) _ h (ht r (by simp)), ih r' next fun y hy => ht y (List.mem_cons_of_mem r hy)]
    unfold takenTo
    dsimp only
    rw [put_put, put_self]
    rfl

section
variable {v : Word} (hc : binCfg? d b.val = some c) (hm : d.sys.role ≠ 1) (hh : c.hostRing = 0xFF)
include hc hm hh

theorem clBack_eq {r : Rec} {rs : List Rec} (h : d.cl.bins[b].recs = r :: rs) : clBack b.val v d =
    if (v - r.seq).toNat ≤ ((r :: rs).filter fun y => y.st == .released || y.st == .sealed).length then takeN b.val c (v - r.seq).toNat d
    else { d with cl := { d.cl with bins := put d.cl.bins b { d.cl.bins[b] with badAck := satInc d.cl.bins[b].badAck } } } := by
  have may : ¬ (d.sys.role = 1 ∨ c.hostRing ≠ 0xFF) := fun h => h.elim hm (· hh)
  unfold clBack
  rw [hc]
  dsimp only
  rw [if_neg may, bin_fin, updBin_fin, h]

theorem clBack_takes {r : Rec} {tk rest : List Rec} (h : d.cl.bins[b].recs = r :: (tk ++ rest)) (hv : v = r.seq + BitVec.ofNat 32 (tk.length + 1))
    (hl : tk.length + 1 < 2 ^ 32) (ht : ∀ y ∈ r :: tk, y.st = .sealed ∨ (y.st = .released ∧ c.sealed = false)) :
    clBack b.val v d = takenTo b rest (afterRec c ((r :: tk).getLast (by simp))) d := by
  have count : (v - r.seq).toNat = tk.length + 1 := by
    rw [hv, add_sub_cancel_left, BitVec.toNat_ofNat, Nat.mod_eq_of_lt hl]
  have takeable : (r :: tk).filter (fun y => y.st == .released || y.st == .sealed) = r :: tk :=
    List.filter_eq_self.2 fun y hy => by rcases ht y hy with h | ⟨h, -⟩ <;> simp [h]
  have enough : (v - r.seq).toNat ≤ ((r :: (tk ++ rest)).filter fun y => y.st == .released || y.st == .sealed).length := by
    rw [count, ← List.cons_append, List.filter_append, takeable, List.length_append, List.length_cons]
    omega
  rw [clBack_eq hc hm hh h, if_pos enough, count, takeN_takes r tk rest h ht]

end

end

end Sys2Proof.Machine
end

section
/-!
PROOFS. The statements of 09_cellar.md: trigger records, seals, and the acts on records as stated.
-/
namespace Sys2Proof.Machine

/-! ### Byte lists in memory -/

theorem rdBytes_congr {m m' : Bytes} {a n : Nat} (h : ∀ i, i < n → rd8 m (a + i) = rd8 m' (a + i)) : rdBytes m a n = rdBytes m' a n :=
  List.map_congr_left fun i hi => h i (List.mem_range.1 hi)

/-- A byte list that is written reads back. -/
theorem rdBytes_wrBytes {m : Bytes} (h : Memory.wf m) (a : Nat) (l : List Byte) : rdBytes (wrBytes m a l) a l.length = l := by
  refine List.ext_getElem (by simp [rdBytes]) fun i hi hi' => ?_
  simp only [rdBytes, List.getElem_map, List.getElem_range]
  exact rd8_wrBytes_inside h a l i hi'

/-! ### TRIGGER_RECORD (R303, R316, R317) -/

theorem length_trigPayload (t : Trig) : (trigPayload t).length = 24 := by simp [trigPayload]

/-- A bin that was replaced is changed again. -/
theorem updBin_put (b : Fin 256) (f : Bin → Bin) (m : Bytes) (x : Bin) (d : Dev) :
    updBin b.val f { d with cl := { d.cl with mem := m, bins := put d.cl.bins b x } } =
      { d with cl := { d.cl with mem := m, bins := put d.cl.bins b (f x) } } := by
  rw [updBin_fin]
  dsimp only
  rw [put_put, put_self]

section
variable {b : Fin 256} {c : BinEntry} {r : Rec} {d : Dev}

/-- A commit that Breta makes: the payload not written is zero, the header committed, and the bin ends the record. -/
theorem commitRec_writes (r : Rec) (d : Dev) : ∃ x : Bin, x.trgQueue = d.cl.bins[b].trgQueue ∧ commitRec b.val c r d = { d with cl := { d.cl with
    mem := flagMem (c.base.toNat + r.off) (0x02 ||| if r.trunc then 0x08 else 0) 0x01
      (wrBytes d.cl.mem (c.base.toNat + r.off + r.cursor) (List.replicate (8 * r.len - r.cursor) 0))
    bins := put d.cl.bins b x } } := by
  refine ⟨{ d.cl.bins[b] with recs := d.cl.bins[b].recs.map fun y =>
    if y.isOpen && y.slot == r.slot then { y with st := .ended, cursor := r.cursor, written := 8 * r.len } else y }, rfl, ?_⟩
  unfold commitRec updOpen
  dsimp only
  rw [hdrFlags_eq, updRec_eq, updBin_fin]
  rfl

/-- The trigger record of a bin with none queued: its payload and its header are written, and none is open after it. -/
theorem triggerRecord_writes {t : Trig} {q : Word} (hc : binCfg? d b.val = some c) (ht : d.cl.bins[b].trgOpen = some (t, some q))
    (hq : d.cl.bins[b].trgQueue = []) (hr : d.cl.bins[b].openRecs.find? (fun r => r.seq == q) = some r) (hl : r.len = 5) :
    ∃ x : Bin, x.trgOpen = none ∧ triggerRecord b.val d = { d with cl := { d.cl with
      mem := flagMem (c.base.toNat + r.off) (0x02 ||| if r.trunc then 0x08 else 0) 0x01
        (wrBytes d.cl.mem (c.base.toNat + r.off + 16) (trigPayload t))
      bins := put d.cl.bins b x } } := by
  have full : List.replicate (8 * r.len - 40) (0 : Byte) = [] := by rw [hl]; rfl
  obtain ⟨x, queue, committed⟩ := commitRec_writes (b := b) (c := c) { r with cursor := 40 } (wrCellar (c.base.toNat + r.off + 16) (trigPayload t) d)
  dsimp only at committed
  rw [full, wrBytes] at committed
  refine ⟨{ x with trgOpen := none, trgQueue := [] }, rfl, ?_⟩
  unfold triggerRecord
  rw [hc, bin_fin]
  dsimp only
  rw [ht]
  dsimp only
  rw [hr]
  dsimp only
  rw [committed, bin_fin]
  dsimp only
  rw [put_self, queue]
  unfold wrCellar updCl
  dsimp only
  rw [hq, openQueued, updBin_put, updBin_put]

end

section
variable {m : Bytes} (h : Memory.wf m) (a f : Nat) {l : List Byte} (hl : l.length = 24)
include h

theorem rdBytes_triggered (n : Nat) (hl : l.length = n) : rdBytes (flagMem a f 0x01 (wrBytes m (a + 16) l)) (a + 16) n = l := by
  rw [rdBytes_congr fun i _ => rd8_flagMem_outside (wf_wrBytes h _ _) a f 0x01 (.inr (by omega)), ← hl, rdBytes_wrBytes h]

theorem rdLE_triggered : BitVec.ofNat 64 (rdLE (flagMem a f 0x01 (wrBytes m (a + 16) l)) a 8) = reflag f 0x01 (BitVec.ofNat 64 (rdLE m a 8)) := by
  rw [rdLE_flagMem (wf_wrBytes h _ _), rdLE_wrBytes_outside h _ _ _ _ (.inl (by omega))]

include hl in
theorem rd8_triggered {y : Nat} (hy : y < a ∨ a + 8 ≤ y) (hy' : y < a + 16 ∨ a + 40 ≤ y) :
    rd8 (flagMem a f 0x01 (wrBytes m (a + 16) l)) y = rd8 m y := by
  rw [rd8_flagMem_outside (wf_wrBytes h _ _) _ _ _ hy, rd8_wrBytes_outside h _ _ _ (by omega)]

end

/-! ### SEAL_RECORD (R318, R319, R321) -/

/-- A bin whose record `r` has been sealed, the chain value then `s`, the record a seal tag or not. -/
def Bin.sealedBy (s : List Byte) (tag : Bool) (r : Rec) (x : Bin) : Bin :=
  { x with
    chain := s, sealedSince := x.sealedSince || !tag
    recs := x.recs.map fun y => if y.seq = r.seq ∧ y.st = .released then { y with st := .sealed } else y }

/-- The delivered form of a record depends on the Cellar's memory alone. -/
theorem delivered_mem {d t : Dev} (h : t.cl.mem = d.cl.mem) (c : BinEntry) (r : Rec) : delivered c r t = delivered c r d := by
  unfold delivered hdrAt
  rw [h]

/-- Flags that are set, none cleared. -/
theorem reflag_set (set : Nat) (w : DWord) : reflag set 0 w = w ||| BitVec.ofNat 64 (set * 2 ^ 32) := by
  have all : ~~~(BitVec.ofNat 64 (0 * 2 ^ 32)) = BitVec.allOnes 64 := by decide
  rw [reflag, all, BitVec.and_allOnes]

section
variable {b : Fin 256} {c : BinEntry} {r : Rec} {d : Dev} {rest : List (Nat × Word)} (hz : d.cl.sealFrozen = false) (hf : d.sys.fclkOn = true)
  (hq : d.cl.sealQueue = (b.val, r.seq) :: rest)
include hz hf hq

/-- The seal unit on the oldest released record: SEALED is set, then the chain takes the delivered form. -/
theorem sealRecord_ok (hc : binCfg? d b.val = some c) (hr : d.cl.bins[b].recs.find? (fun y => y.seq == r.seq && y.st == .released) = some r) :
    ∃ tag : Bool, (sealRecord .ok d).cl = { d.cl with
        sealQueue := rest, mem := flagMem (c.base.toNat + r.off) 0x20 0 d.cl.mem
        bins := put d.cl.bins b (d.cl.bins[b].sealedBy
          (hmacSha256 (sealKeyOf d b.val) (d.cl.bins[b].chain ++ delivered c r (sealRecord .ok d))) tag r) } ∧
      sealRecord .ok d = { d with cl := (sealRecord .ok d).cl } := by
  have runs : ¬ (d.cl.sealFrozen = true ∨ (!d.sys.fclkOn) = true) := by simp [hz, hf]
  have seals : sealRecord .ok d = sealRec b.val c r { d with cl := { d.cl with sealQueue := rest } } := by
    unfold sealRecord
    rw [if_neg runs, hq]
    dsimp only
    rw [hc, bin_fin, hr]
    rfl
  unfold sealRec at seals
  dsimp only at seals
  rw [hdrFlags_eq, updBin_fin, bin_fin] at seals
  dsimp only at seals
  have mem : (sealRecord .ok d).cl.mem = flagMem (c.base.toNat + r.off) 0x20 0 d.cl.mem := by rw [seals]; rfl
  rw [delivered_mem (d := sealRecord .ok d) mem.symm c r] at seals
  exact ⟨_, congrArg Dev.cl seals, by rw [seals]⟩

theorem sealRecord_key : sealRecord .key d =
    freezeRecord 0x25 0x41 false false b.val r.seq.toNat { d with cl := { d.cl with sealFrozen := true } } := by
  have runs : ¬ (d.cl.sealFrozen = true ∨ (!d.sys.fclkOn) = true) := by simp [hz, hf]
  unfold sealRecord
  rw [if_neg runs, hq]
  rfl

end

/-! ### The acts on records as stated -/

theorem exec_resTimeout (b : Fin 256) (i : Fin 8) (s : State) : exec (.resTimeout b i) s = actClk (recTimeout b.val i.val) s := rfl
theorem exec_triggerRecord (b : Fin 256) (s : State) : exec (.triggerRecord b) s = actClk (triggerRecord b.val) s := rfl
theorem exec_sealRecord (ecc : SealEcc) (s : State) : exec (.sealRecord ecc) s = .next { s with dev := sealRecord ecc s.dev } := rfl

/-- Settles O40: each act by its equation, memory by what a rewritten header and a written payload read. -/
theorem recordsTimeOutReleaseAndAreTaken : Obligations.RecordsTimeOutReleaseAndAreTaken := by
  unfold Obligations.RecordsTimeOutReleaseAndAreTaken
  intro b c s d x hf hc hw
  refine ⟨fun i r hr ha => ?_, fun pre r post hx hp hs => ⟨fun hr => ?_, fun hr => ?_, ?_⟩, fun who v d1 h hc1 hm hh => ?_,
    fun tr q r ht hq hr hl => ?_, fun r rest hz hq hr => ⟨?_, ?_⟩⟩
  · obtain ⟨cl, frame, alone, told⟩ := recTimeout_of hc (resTimeout_due hc hf hr ha)
    have slot : r.slot = i.val := by simpa using List.find?_some hr
    refine ⟨_, (exec_resTimeout b i s).trans (actClk_on _ hf), frame, alone, fun n hn => told r.seq n hn ?_, ?_, fun y hy => ?_, fun f hne => ?_, ?_, ?_, ?_⟩
    · unfold Bin.timedOutOf
      dsimp only
      rw [hn]
      exact if_pos rfl
    · unfold hdrAt
      rw [cl]
      dsimp only
      exact rdLE_flagMem hw _ _ _
    · rw [cl]
      dsimp only
      exact rd8_flagMem_outside hw _ _ _ hy
    · rw [cl]
      exact put_other _ _ hne
    · rw [cl, put_self, ← slot]
      exact openRecs_timedOutOf i r _
    · rw [cl, put_self]
      rfl
    · rw [cl, put_self]
      exact put_self _ _
  · exact (actClk_on _ hf).trans (next_eq s (releaseOne_opened hx hp hc hr))
  · have oldest := unreleased_of_split hx hp (by rw [Rec.unreleased, hr]; rfl)
    exact (actClk_on _ hf).trans (next_eq s (releaseOne_ended (awaitWritten_stays oldest (by rw [hr]; decide) 17) hc hx hp hs hr))
  · intro e y hr hq hb hy he hwait engines ports
    exact (actClk_on _ hf).trans (next_eq s (releaseOne_closing hf hc hx hp hs hr hq hb hy he hwait ⟨engines, ports⟩))
  · intro z taken
    refine ⟨fun r tk rest hz hv hl ht => ?_, fun r rest hz hn => ?_⟩
    · exact (exec_clBack h v).trans (next_eq s (clBack_takes hc1 hm hh hz hv hl ht))
    · refine (exec_clBack h v).trans (next_eq s ((clBack_eq hc1 hm hh hz).trans (if_neg ?_)))
      rw [← hz]
      exact Nat.not_le.2 hn
  · obtain ⟨y, hy, writes⟩ := triggerRecord_writes hc ht hq hr hl
    refine ⟨_, (exec_triggerRecord b s).trans (actClk_on _ hf), ?_⟩
    have cl := congrArg Dev.cl writes
    dsimp only at cl
    refine ⟨by rw [writes], ?_, ?_, fun z hz hz' => ?_, ?_, fun f hne => ?_⟩
    · rw [cl]
      dsimp only
      exact rdBytes_triggered hw _ _ 24 (length_trigPayload tr)
    · unfold hdrAt
      rw [cl]
      dsimp only
      refine (rdLE_triggered hw _ _).trans ?_
      cases r.trunc <;> rfl
    · rw [cl]
      dsimp only
      exact rd8_triggered hw _ _ (length_trigPayload tr) hz hz'
    · rw [cl, put_self, hy]
    · rw [cl]
      exact put_other _ _ hne
  · obtain ⟨tag, cl, frame⟩ := sealRecord_ok hz hf hq hc hr
    refine ⟨_, exec_sealRecord .ok s, frame, by rw [cl], ?_, fun y hy => ?_, ?_, ?_⟩
    · unfold hdrAt
      rw [cl]
      dsimp only
      exact (rdLE_flagMem hw _ _ _).trans (reflag_set _ _)
    · rw [cl]
      dsimp only
      exact rd8_flagMem_outside hw _ _ _ hy
    · rw [cl, put_self]
      rfl
    · rw [cl, put_self]
      rfl
  · exact (exec_sealRecord .key s).trans (next_eq s (sealRecord_key hz hf hq))

end Sys2Proof.Machine
end

section
/-!
PROOFS. The statements of 09_cellar.md: row repairs.
-/
namespace Sys2Proof.Machine

/-! ### Self-tests that end beside the Cellar (R456) -/

theorem relayCount_cl (x : Word) (s : Nat) (l : Cl) (d : Dev) : relayCount x s { d with cl := l } = { relayCount x s d with cl := l } := by
  unfold relayCount
  dsimp only
  split <;> rfl

theorem raiseAt_cl (x : Nat) (y : Word) (s : Nat) (l : Cl) (d : Dev) : raiseAt x y s { d with cl := l } = { raiseAt x y s d with cl := l } := by
  unfold raiseAt
  rw [relayCount_cl]
  generalize relayCount y s d = t
  show (if (!d.committed) = true then _ else _) = _
  by_cases hc : (!d.committed) = true
  · rw [if_pos hc, if_pos hc]
  · rw [if_neg hc, if_neg hc]
    show (if (routeOf t s).rate ≠ 0 ∧ look 0 t.ev.holdoff s ≠ 0 then _ else _) = _
    dsimp only
    by_cases hr : (routeOf t s).rate ≠ 0 ∧ look 0 t.ev.holdoff s ≠ 0
    · rw [if_pos hr, if_pos hr]
    · rw [if_neg hr, if_neg hr]
      rfl

/-- The device with an occurrence of this clk recorded. -/
def noted (s : Nat) (d : Dev) : Dev := updEv (fun v => { v with pulses := (d.clk, s) :: v.pulses.filter fun x => d.clk ≤ x.1 }) d

theorem raise_eq (s : Nat) (d : Dev) :
    raise s d = if d.ev.pulses.contains (d.clk, s) then d else raiseAt d.clk (lo32 d.tb.now) s (noted s d) := rfl

/-- Raising an occurrence neither reads nor changes the Cellar. -/
theorem raise_cl (s : Nat) (l : Cl) (d : Dev) : raise s { d with cl := l } = { raise s d with cl := l } := by
  have recorded : noted s { d with cl := l } = { noted s d with cl := l } := rfl
  rw [raise_eq, raise_eq, recorded, raiseAt_cl]
  dsimp only
  split <;> rfl

theorem raiseIf_cl (b : Bool) (s : Nat) (l : Cl) (d : Dev) : raiseIf b s { d with cl := l } = { raiseIf b s d with cl := l } := by
  cases b with
  | false => rfl
  | true => exact raise_cl s l d

/-- Nor does the end of a self-test. -/
theorem bistAbort_cl (p : Nat → Nat → Bool) (l : Cl) (d : Dev) : bistAbort p { d with cl := l } = { bistAbort p d with cl := l } := by
  unfold bistAbort
  dsimp only
  cases d.bist.run with
  | none => rfl
  | some r =>
    dsimp only
    split
    · exact raiseIf_cl _ 0x618 l (updBist (fun b => { b with run := none, result := 4 }) d)
    · rfl

/-! ### Requests (R326 to R328) -/

theorem updBank_fin (k : Fin 16) (f : Bank → Bank) (d : Dev) :
    updBank k.val f d = { d with cl := { d.cl with banks := put d.cl.banks k (f d.cl.banks[k]) } } := by
  rw [updBank_eq, updCl, upd?_fin]

/-- A bank of which a repair of `row` is requested. -/
def Bank.asked (row : BitVec 9) (b : Bank) : Bank :=
  if b.sparesUsed = 32 then { b with nospare := true }
  else if b.repairing.isSome then { b with repairQueue := b.repairQueue ++ [row] }
  else { b with repairing := some row, repRow := row }

/-- The device once a request has ended the self-test of its bank; without a spare it needs no bank. -/
def bankFreed (k : Fin 16) (d : Dev) : Dev := if d.cl.banks[k].sparesUsed = 32 then d else bistAbortCellar k.val d

theorem bankFreed_cl (k : Fin 16) (d : Dev) : (bankFreed k d).cl = d.cl := by
  unfold bankFreed
  split
  · rfl
  · rw [bistAbortCellar, bistAbort_frame]

section
variable {k : Fin 16} {row : BitVec 9} {d : Dev}

theorem repairRequest_eq : repairRequest k.val row d =
    { d with cl := { d.cl with banks := put d.cl.banks k (d.cl.banks[k].asked row) } } := by
  rw [repairRequest, updBank_fin, Bank.asked]
  cases d.cl.banks[k].repairing <;> rfl

theorem repairBegin_eq : repairBegin k.val row d =
    { bankFreed k d with cl := { (bankFreed k d).cl with banks := put (bankFreed k d).cl.banks k (d.cl.banks[k].asked row) } } := by
  have freed : repairBegin k.val row d = repairRequest k.val row (bankFreed k d) := by
    unfold repairBegin bankFreed
    rw [at?_fin]
  rw [freed, repairRequest_eq, bankFreed_cl]

/-- A request of a row that is tracked no more. -/
theorem repairBegin_tracked (f : Bank → Bank) (hf : ∀ b, (f b).sparesUsed = b.sparesUsed) : repairBegin k.val row (updBank k.val f d) =
    { bankFreed k d with cl := { (bankFreed k d).cl with banks := put (bankFreed k d).cl.banks k ((f d.cl.banks[k]).asked row) } } := by
  have freed : bankFreed k { d with cl := { d.cl with banks := put d.cl.banks k (f d.cl.banks[k]) } } =
      { bankFreed k d with cl := { d.cl with banks := put d.cl.banks k (f d.cl.banks[k]) } } := by
    unfold bankFreed bistAbortCellar
    dsimp only
    rw [put_self, hf, bistAbort_cl]
    split <;> rfl
  rw [updBank_fin, repairBegin_eq, freed]
  dsimp only
  rw [put_put, put_self, bankFreed_cl]

theorem clWrite_repair (v : Word) (hk : fld v 16 4 = k.val) : clWrite 0x014 v d = if bit v 31 then repairBegin k.val (bf v 0 9) d else d := by
  rw [← hk]
  rfl

/-- A row is due for repair: its count has reached THR. -/
theorem track_due (thr : Byte) (t : List (BitVec 9 × Byte)) : (t.any fun x => x.1 == row && decide (thr.toNat ≤ x.2.toNat)) = true ↔
    ∃ x ∈ t, x.1 = row ∧ thr.toNat ≤ x.2.toNat := by
  simp only [List.any_eq_true, Bool.and_eq_true, beq_iff_eq, decide_eq_true_eq]

theorem repairStart_eq (hf : d.sys.fclkOn = true) : repairStart k.val row d =
    if d.cl.repairThr ≠ 0 ∧ ∃ x ∈ d.cl.banks[k].track, x.1 = row ∧ d.cl.repairThr.toNat ≤ x.2.toNat then
      repairBegin k.val row (updBank k.val (fun b => { b with track := b.track.filter (·.1 ≠ row) }) d)
    else d := by
  unfold repairStart
  dsimp only
  rw [at?_fin]
  by_cases h : d.cl.repairThr ≠ 0 ∧ ∃ x ∈ d.cl.banks[k].track, x.1 = row ∧ d.cl.repairThr.toNat ≤ x.2.toNat
  · rw [if_pos h, if_pos ⟨hf, h.imp_right (track_due _ _).2⟩]
  · rw [if_neg h, if_neg fun due => h (due.2.imp_right (track_due _ _).1)]

end

/-! ### The errors that the copy meets (R324, R325) -/

/-- What a repair of a bank turns on. -/
def Bank.repairs (b : Bank) : Option (BitVec 9) × List (BitVec 9) × BitVec 6 := (b.repairing, b.repairQueue, b.sparesUsed)

/-- Reads that meet `n` corrected errors count them; memory and repairs stay, and what was raised in this clk. -/
def MeetsErrors (n : Nat) (d t : Dev) : Prop :=
  CellarActs d t ∧ t.cl.mem = d.cl.mem ∧ (∀ k : Fin 16, t.cl.banks[k].repairs = d.cl.banks[k].repairs) ∧ t.cl.ce = satInc d.cl.ce n ∧
    (d.cl.ue = true → t.cl.ue = true) ∧ ∀ x, (d.clk, x) ∈ d.ev.pulses → (d.clk, x) ∈ t.ev.pulses

theorem CellarActs.clk_eq {d t : Dev} (h : CellarActs d t) : t.clk = d.clk := by
  unfold CellarActs at h
  rw [h]

theorem MeetsErrors.refl (d : Dev) : MeetsErrors 0 d d := ⟨rfl, rfl, fun _ => rfl, (satInc_zero _).symm, id, fun _ h => h⟩

theorem MeetsErrors.trans {m n : Nat} {a b c : Dev} (h : MeetsErrors m a b) (h' : MeetsErrors n b c) : MeetsErrors (m + n) a c := by
  obtain ⟨acts, mem, banks, ce, ue, pulses⟩ := h
  obtain ⟨acts', mem', banks', ce', ue', pulses'⟩ := h'
  refine ⟨acts.trans acts', mem'.trans mem, fun k => (banks' k).trans (banks k), ?_, ue' ∘ ue, fun x hx => ?_⟩
  · rw [ce', ce, satInc_satInc]
  · rw [acts.clk_eq] at pulses'
    exact pulses' x (pulses x hx)

/-- Raising adds to what has been raised in this clk. -/
theorem meetsErrors_raiseIn (k s : Nat) (d : Dev) : MeetsErrors 0 d (raiseIn k s d) := by
  have frame := raiseIn_frame k s d
  refine ⟨frame.cellarActs, by rw [frame.cl_eq], fun _ => by rw [frame.cl_eq], by rw [frame.cl_eq, satInc_zero], by rw [frame.cl_eq]; exact id,
    fun x hx => pulses_raiseIn_mono hx (Nat.le_refl _)⟩

theorem meetsErrors_ceIn (n a : Nat) (d : Dev) : MeetsErrors 1 d (cellarCeIn n a d) := by
  unfold cellarCeIn
  refine MeetsErrors.trans (n := 0) ?_ (meetsErrors_raiseIn _ _ _)
  rw [updBank_eq]
  refine ⟨rfl, rfl, fun k => ?_, rfl, id, fun _ h => h⟩
  unfold updCl
  dsimp only
  rw [Fin.getElem_fin, getElem_upd?]
  split <;> rfl

theorem meetsErrors_ueIn (n a : Nat) (d : Dev) : MeetsErrors 0 d (cellarUeIn n a d) := by
  unfold cellarUeIn
  refine MeetsErrors.trans (n := 0) (b := updCl _ _) ⟨rfl, rfl, fun _ => rfl, (satInc_zero _).symm, fun _ => rfl, fun _ h => h⟩
    (meetsErrors_raiseIn _ _ _)

/-- The corrected errors of a command, then its uncorrectable ones. -/
def ceEach (l : List (Nat × Nat)) (d : Dev) : Dev := l.foldl (fun d x => cellarCeIn x.2 x.1 d) d
def ueEach (l : List (Nat × Nat)) (d : Dev) : Dev := l.foldl (fun d x => cellarUeIn x.2 x.1 d) d

theorem cellarErrors_eq (ce ue : List Nat) (d : Dev) : cellarErrors ce ue d = ueEach ue.zipIdx (ceEach ce.zipIdx d) := rfl

theorem meetsErrors_ceEach (l : List (Nat × Nat)) (d : Dev) : MeetsErrors l.length d (ceEach l d) := by
  induction l generalizing d with
  | nil => exact .refl d
  | cons x l ih =>
    rw [List.length_cons, Nat.add_comm]
    exact (meetsErrors_ceIn x.2 x.1 d).trans (ih _)

theorem meetsErrors_ueEach (l : List (Nat × Nat)) (d : Dev) : MeetsErrors 0 d (ueEach l d) := by
  induction l generalizing d with
  | nil => exact .refl d
  | cons x l ih => exact (meetsErrors_ueIn x.2 x.1 d).trans (ih _)

theorem meetsErrors_cellarErrors (ce ue : List Nat) (d : Dev) : MeetsErrors ce.length d (cellarErrors ce ue d) := by
  have both := (meetsErrors_ceEach ce.zipIdx d).trans (meetsErrors_ueEach ue.zipIdx _)
  rwa [List.length_zipIdx, ← cellarErrors_eq] at both

theorem cellarErrors_ce {ce : List Nat} (h : ce ≠ []) (ue : List Nat) (d : Dev) : (d.clk, 0x608) ∈ (cellarErrors ce ue d).ev.pulses := by
  obtain ⟨a, l, rfl⟩ := List.exists_cons_of_ne_nil h
  have first : (d.clk, 0x608) ∈ (cellarCeIn 0 a d).ev.pulses := mem_pulses_raiseIn 0 0x608 _
  obtain ⟨-, -, -, -, -, stays⟩ := (meetsErrors_ceEach (l.zipIdx 1) (cellarCeIn 0 a d)).trans (meetsErrors_ueEach ue.zipIdx _)
  rw [(meetsErrors_ceIn 0 a d).1.clk_eq] at stays
  exact stays _ first

theorem cellarErrors_ue (ce : List Nat) {ue : List Nat} (h : ue ≠ []) (d : Dev) :
    (cellarErrors ce ue d).cl.ue = true ∧ (d.clk, 0x609) ∈ (cellarErrors ce ue d).ev.pulses := by
  obtain ⟨a, l, rfl⟩ := List.exists_cons_of_ne_nil h
  have before := (meetsErrors_ceEach ce.zipIdx d).1.clk_eq
  have first : (d.clk, 0x609) ∈ (cellarUeIn 0 a (ceEach ce.zipIdx d)).ev.pulses := before ▸ mem_pulses_raiseIn 0 0x609 _
  have set : (cellarUeIn 0 a (ceEach ce.zipIdx d)).cl.ue = true := by
    rw [cellarUeIn, (raiseIn_frame _ _ _).cl_eq]
    rfl
  obtain ⟨-, -, -, -, ue, stays⟩ := meetsErrors_ueEach (l.zipIdx 1) (cellarUeIn 0 a (ceEach ce.zipIdx d))
  rw [(meetsErrors_ueIn 0 a _).1.clk_eq, before] at stays
  exact ⟨ue set, stays _ first⟩

/-! ### The switch to the spare (R327) -/

/-- A bank whose running repair is over: the next one runs, if a spare is left. -/
def Bank.switched (b : Bank) : Bank :=
  let b1 : Bank := { b with repairing := none, sparesUsed := if b.sparesUsed.toNat < 32 then b.sparesUsed + 1 else b.sparesUsed }
  match b.repairQueue with
  | [] => b1
  | r :: q => if b1.sparesUsed = 32 then { b1 with repairQueue := [], nospare := true }
    else { b1 with repairQueue := q, repairing := some r, repRow := r }

theorem switched_congr {b b' : Bank} (h : b'.repairs = b.repairs) :
    b'.switched.sparesUsed = b.switched.sparesUsed ∧ b'.switched.repairing = b.switched.repairing := by
  obtain ⟨-, queue, spares⟩ : b'.repairing = b.repairing ∧ b'.repairQueue = b.repairQueue ∧ b'.sparesUsed = b.sparesUsed := by
    simpa [Bank.repairs] using h
  unfold Bank.switched
  rw [queue, spares]
  cases b.repairQueue with
  | nil => exact ⟨rfl, rfl⟩
  | cons r q =>
    dsimp only
    generalize (if b.sparesUsed.toNat < 32 then b.sparesUsed + 1 else b.sparesUsed) = n
    by_cases hn : n = 32
    · simp only [if_pos hn, and_self]
    · simp only [if_neg hn, and_self]

section
variable {k : Fin 16} {d : Dev}

theorem repairSwitch_none (h : d.cl.banks[k].repairing = none) (ce ue : List (BitVec 7)) : repairSwitch k.val ce ue d = d := by
  unfold repairSwitch
  rw [at?_fin, h]
  exact ite_self d

theorem repairSwitch_runs (hf : d.sys.fclkOn = true) (h : d.cl.banks[k].repairing.isSome = true) (ce ue : List (BitVec 7)) :
    ∃ at' : BitVec 7 → Nat, repairSwitch k.val ce ue d =
      raise 0x60A (updBank k.val Bank.switched (cellarErrors (ce.map at') (ue.map at') d)) := by
  obtain ⟨row, h⟩ := Option.isSome_iff_exists.1 h
  refine ⟨fun w => k.val * 2 ^ 19 + row.toNat * 1024 + 8 * w.toNat, ?_⟩
  unfold repairSwitch
  rw [at?_fin, h, hf]
  rfl

/-- The switch with what the reads of its copy met. -/
theorem switch_meets (ce ue : List Nat) (d : Dev) :
    let t := raise 0x60A (updBank k.val Bank.switched (cellarErrors ce ue d))
    CellarActs d t ∧ t.cl.mem = d.cl.mem ∧ t.cl.banks[k].sparesUsed = d.cl.banks[k].switched.sparesUsed ∧
      t.cl.banks[k].repairing = d.cl.banks[k].switched.repairing ∧ t.cl.ce = satInc d.cl.ce ce.length ∧
      (ce ≠ [] → (d.clk, 0x608) ∈ t.ev.pulses) ∧ (ue ≠ [] → t.cl.ue = true ∧ (d.clk, 0x609) ∈ t.ev.pulses) := by
  intro t
  obtain ⟨acts, mem, banks, counted, -, -⟩ := meetsErrors_cellarErrors ce ue d
  have corrected := fun h => cellarErrors_ce (ce := ce) h ue d
  have worse := fun h => cellarErrors_ue ce (ue := ue) h d
  have raised := raise_frame 0x60A (updBank k.val Bank.switched (cellarErrors ce ue d))
  have acted : CellarActs (cellarErrors ce ue d) (updBank k.val Bank.switched (cellarErrors ce ue d)) := rfl
  have cl : t.cl = _ := raised.cl_eq
  have stays : ∀ x, (d.clk, x) ∈ (cellarErrors ce ue d).ev.pulses → (d.clk, x) ∈ t.ev.pulses := fun x hx =>
    pulses_raiseIn_mono (k := 0) (d := updBank k.val Bank.switched (cellarErrors ce ue d)) hx (le_of_eq acts.clk_eq)
  rw [updBank_fin] at cl
  obtain ⟨spares, repairing⟩ := switched_congr (banks k)
  refine ⟨(acts.trans acted).trans raised.cellarActs, by rw [cl]; exact mem, ?_, ?_, by rw [cl]; exact counted,
    fun h => stays _ (corrected h), fun h => ⟨by rw [cl]; exact (worse h).1, stays _ (worse h).2⟩⟩
  · rw [cl]
    dsimp only
    rw [put_self, spares]
  · rw [cl]
    dsimp only
    rw [put_self, repairing]

end

theorem exec_repairGo (who : Who) (v : Word) (s : State) : exec (.repairGo who v) s = act (wordWrite who 0x8014 v 0xF) s := rfl
theorem exec_repairStart (k : Fin 16) (row : BitVec 9) (s : State) : exec (.repairStart k row) s = actClk (repairStart k.val row) s := rfl
theorem exec_repairSwitch (k : Fin 16) (ce ue : List (BitVec 7)) (s : State) :
    exec (.repairSwitch ⟨k, ce, ue⟩) s = .next { s with dev := repairSwitch k.val ce ue s.dev } := rfl

end Sys2Proof.Machine
end

section
/-!
PROOFS. The statements of 09_cellar.md and 17_electrical.md: dormant clusters, the TAP, and row repairs with them as stated.
-/
namespace Sys2Proof.Machine

/-! ### Time and the power block -/

theorem passTo_clk {d : Dev} (hf : d.sys.fclkOn = true) (n : Nat) : (passTo n d).clk = max d.clk n := by
  rw [passTo, pass_clk _ _ hf]
  omega

theorem passTo_pwr (n : Nat) (d : Dev) : (passTo n d).pwr = d.pwr := by
  rw [passTo, (pass_frame _ d).1]

theorem cluster_passTo (n : Nat) (d : Dev) (k : Fin 8) : cluster (passTo n d) k.val = d.pwr.cls[k] := by
  rw [cluster_fin, passTo_pwr]

theorem updCluster_fin (k : Fin 8) (f : Cluster → Cluster) (d : Dev) :
    updCluster k.val f d = { d with pwr := { d.pwr with cls := put d.pwr.cls k (f d.pwr.cls[k]) } } := by
  rw [updCluster, upd?_fin]

/-! ### The fence (R607, R608) -/

section
variable {k : Fin 8} {d : Dev}

/-- The clk after the last check of the clusters. -/
def afterCheck (d : Dev) : Dev := passTo ((if d.committed then d.hr.tickClk else d.pwr.lastCheck) + 1) d

theorem fenceStart_none (h : ¬ (d.pwr.cls[k].st = .active ∧ d.pwr.dormDly.toNat ≤ d.pwr.cls[k].checks ∧ d.pwr.cls[k].checks ≠ 0 ∧
    dormancyOk (afterCheck d) k.val = true)) : fenceStart k.val d = d := by
  unfold fenceStart
  dsimp only
  rw [cluster_fin, passTo_pwr]
  exact if_neg h

theorem fenceStart_fences (h : d.pwr.cls[k].st = .active ∧ d.pwr.dormDly.toNat ≤ d.pwr.cls[k].checks ∧ d.pwr.cls[k].checks ≠ 0 ∧
    dormancyOk (afterCheck d) k.val = true) : fenceStart k.val d = retainLevels k.val { afterCheck d with pwr := { (afterCheck d).pwr with
      cls := put (afterCheck d).pwr.cls k { d.pwr.cls[k] with st := .fencing, fence := (afterCheck d).clk, checks := 0, wakeReq := false } } } := by
  have pwr : (afterCheck d).pwr = d.pwr := passTo_pwr _ d
  have fences : fenceStart k.val d = retainLevels k.val (updCluster k.val
      (fun c => { c with st := .fencing, fence := (afterCheck d).clk, checks := 0, wakeReq := false }) (afterCheck d)) := by
    unfold fenceStart
    dsimp only
    rw [cluster_fin]
    exact if_pos (by rw [passTo_pwr]; exact h)
  rw [fences, updCluster_fin, pwr]

/-! ### Dormant and awake (R608, R609, R611, R612) -/

theorem clusterDormant_other (h : d.pwr.cls[k].st ≠ .fencing) : clusterDormant k.val d = d := by
  unfold clusterDormant
  rw [cluster_fin]
  exact if_pos h

theorem clusterDormant_late (h : d.pwr.cls[k].st = .fencing) (hc : d.pwr.cls[k].fence + 2 < d.clk) :
    clusterDormant k.val d = { passTo (d.pwr.cls[k].fence + 64) d with pwr := { (passTo (d.pwr.cls[k].fence + 64) d).pwr with
      cls := put (passTo (d.pwr.cls[k].fence + 64) d).pwr.cls k { d.pwr.cls[k] with st := .dormant } } } := by
  unfold clusterDormant
  dsimp only
  rw [cluster_fin, if_neg (not_not.2 h), if_neg (Nat.not_le.2 hc), cluster_fin, if_neg (not_not.2 h), updCluster_fin, passTo_pwr]

/-- An active cluster's engines, levels and waiting transplants aside, is active and asked for nothing. -/
theorem clusterActive_eq (d : Dev) : (clusterActive k.val d).clk = d.clk ∧ (clusterActive k.val d).pwr = { d.pwr with
    cls := put d.pwr.cls k { d.pwr.cls[k] with st := .active, wakeReq := false, checks := 0 } } := by
  unfold clusterActive levelsWake
  rw [updCluster_fin]
  exact ⟨rfl, rfl⟩

/-- Up to two clk after the fence the cluster still checks whether it is eligible (R609). -/
theorem clusterDormant_early (hf : d.sys.fclkOn = true) (h : d.pwr.cls[k].st = .fencing) (hc : d.clk ≤ d.pwr.cls[k].fence + 2) :
    (clusterDormant k.val d).pwr.cls[k].st =
      if dormancyOk (passTo (d.pwr.cls[k].fence + 2) d) k.val then .dormant else .active := by
  have fenced : cluster (passTo (d.pwr.cls[k].fence + 2) d) k.val = d.pwr.cls[k] := cluster_passTo _ d k
  have clk : (passTo (d.pwr.cls[k].fence + 2) d).clk = d.pwr.cls[k].fence + 2 := by rw [passTo_clk hf, Nat.max_eq_right hc]
  unfold clusterDormant
  dsimp only
  rw [cluster_fin, if_neg (not_not.2 h), if_pos hc]
  generalize passTo (d.pwr.cls[k].fence + 2) d = t at fenced clk ⊢
  have kept : ∀ x : Dev, (retainLevels k.val x).pwr = x.pwr := fun _ => rfl
  have checked : fenceCheck t k.val = if dormancyOk t k.val then t else clusterActive k.val t := by
    unfold fenceCheck
    dsimp only
    rw [fenced, clk]
    cases dormancyOk t k.val with
    | true => exact if_neg fun x => x.2.2 rfl
    | false => exact if_pos ⟨h, Nat.le_refl _, Bool.false_ne_true⟩
  rw [checked, cluster_fin, kept]
  rw [cluster_fin] at fenced
  by_cases ok : dormancyOk t k.val = true
  · rw [if_pos ok, if_pos ok, fenced, if_neg (not_not.2 h), updCluster_fin]
    dsimp only
    rw [put_self]
  · obtain ⟨-, active⟩ := clusterActive_eq (k := k) t
    rw [if_neg ok, if_neg ok, active]
    dsimp only
    rw [put_self, if_pos (by simp), kept, active]
    dsimp only
    rw [put_self]

theorem clusterWake_none (h : ¬ (d.pwr.cls[k].st = .dormant ∧ d.pwr.cls[k].wakeReq = true)) : clusterWake k.val d = d := by
  unfold clusterWake
  rw [cluster_fin]
  exact if_neg h

theorem clusterWake_starts (h : d.pwr.cls[k].st = .dormant) (hw : d.pwr.cls[k].wakeReq = true) :
    clusterWake k.val d = bistAbortCluster k.val { d with pwr := { d.pwr with
      cls := put d.pwr.cls k { d.pwr.cls[k] with st := .waking, wakes := satInc d.pwr.cls[k].wakes } } } := by
  unfold clusterWake startWake
  dsimp only
  rw [cluster_fin, if_pos ⟨h, hw⟩, updCluster_fin]

theorem clusterAwake_other (h : d.pwr.cls[k].st ≠ .waking) : clusterAwake k.val d = d := by
  unfold clusterAwake
  rw [cluster_fin]
  exact if_pos h

/-- The cluster awakes `n` clk after the cause of its wake, or now. -/
theorem clusterAwake_wakes (hf : d.sys.fclkOn = true) (h : d.pwr.cls[k].st = .waking) : ∃ n, n ≤ max 3000 (d.clk - d.pwr.cls[k].cause) ∧
    (clusterAwake k.val d).clk = (passTo (d.pwr.cls[k].cause + n) d).clk ∧ (clusterAwake k.val d).pwr = { d.pwr with
      cls := put d.pwr.cls k { d.pwr.cls[k] with st := .active, wakeReq := false, checks := 0, lastWake := BitVec.ofNat 16 n } } := by
  refine ⟨max (d.clk - d.pwr.cls[k].cause) ((Config.freeValue d.freeCtr).toNat % 3001), by omega, ?_⟩
  unfold clusterAwake takeFree
  dsimp only
  rw [cluster_fin, if_neg (not_not.2 h), updCluster_fin]
  generalize max (d.clk - d.pwr.cls[k].cause) ((Config.freeValue d.freeCtr).toNat % 3001) = n
  have clk : (passTo (d.pwr.cls[k].cause + n) { d with freeCtr := d.freeCtr + 1 }).clk = (passTo (d.pwr.cls[k].cause + n) d).clk :=
    (passTo_clk (d := { d with freeCtr := d.freeCtr + 1 }) hf _).trans (passTo_clk hf _).symm
  have pwr : (passTo (d.pwr.cls[k].cause + n) { d with freeCtr := d.freeCtr + 1 }).pwr = d.pwr := passTo_pwr _ _
  generalize passTo (d.pwr.cls[k].cause + n) { d with freeCtr := d.freeCtr + 1 } = t at clk pwr ⊢
  obtain ⟨same, active⟩ := clusterActive_eq (k := k)
    { t with pwr := { t.pwr with cls := put t.pwr.cls k { t.pwr.cls[k] with lastWake := BitVec.ofNat 16 n } } }
  refine ⟨same.trans clk, active.trans ?_⟩
  dsimp only
  rw [put_put, put_self, pwr]

end

/-! ### ELIGIBILITY_CHECK (R607) -/

/-- Each of a list of elements changed once. -/
theorem getElem_foldl_upd? {α : Type} {n : Nat} (g : Nat → α → α) {l : List Nat} (hl : l.Nodup) (v : Vector α n) (j : Nat) (hj : j < n) :
    (l.foldl (fun v k => upd? v k (g k)) v)[j] = if j ∈ l then g j v[j] else v[j] := by
  induction l generalizing v with
  | nil => rfl
  | cons k l ih =>
    obtain ⟨hk, hl⟩ := List.nodup_cons.1 hl
    rw [List.foldl_cons, ih hl, getElem_upd?]
    by_cases h : k = j
    · subst h
      simp [hk]
    · simp [h, Ne.symm h]

/-- One check of cluster `k` on device `d`. -/
def Cluster.checked (d : Dev) (k : Nat) (c : Cluster) : Cluster :=
  if c.st = .active then { c with checks := if dormancyOk d k then c.checks + 1 else 0 } else c

/-- Whether a cluster is eligible does not depend on the other clusters' states. -/
theorem checkClusters_fold (l : List Nat) (d : Dev) (v : Vector Cluster 8) (hl : ∀ k ∈ l, k < 8) :
    l.foldl (fun d k => if (cluster d k).st = .active then updCluster k (fun c => { c with checks := if dormancyOk d k then c.checks + 1 else 0 }) d
      else d) { d with pwr := { d.pwr with cls := v } } =
    { d with pwr := { d.pwr with cls := l.foldl (fun v k => upd? v k (Cluster.checked d k)) v } } := by
  induction l generalizing v with
  | nil => rfl
  | cons k l ih =>
    obtain ⟨i, rfl⟩ : ∃ i : Fin 8, i.val = k := ⟨⟨k, hl k List.mem_cons_self⟩, rfl⟩
    rw [List.foldl_cons, List.foldl_cons, ← ih _ fun k hk => hl k (List.mem_cons_of_mem _ hk)]
    congr 1
    rw [cluster_fin, upd?_fin]
    unfold Cluster.checked
    dsimp only
    split
    · exact updCluster_fin i _ _
    · simp [put]

theorem checkClusters_eq (d : Dev) : checkClusters d = { d with pwr := { d.pwr with
    cls := Vector.ofFn fun k : Fin 8 => Cluster.checked d k.val d.pwr.cls[k] } } := by
  have checks : checkClusters d = { d with pwr := { d.pwr with
      cls := (List.range 8).foldl (fun v k => upd? v k (Cluster.checked d k)) d.pwr.cls } } :=
    checkClusters_fold (List.range 8) d d.pwr.cls fun k hk => List.mem_range.1 hk
  have each : (List.range 8).foldl (fun v k => upd? v k (Cluster.checked d k)) d.pwr.cls =
      Vector.ofFn fun k : Fin 8 => Cluster.checked d k.val d.pwr.cls[k] := by
    refine Vector.ext fun j hj => ?_
    rw [getElem_foldl_upd? _ List.nodup_range, if_pos (List.mem_range.2 hj), Vector.getElem_ofFn]
    rfl
  rw [checks, each]

theorem eligibilityCheck_none {d : Dev} (h : d.committed = true ∨ d.sys.fclkOn = false) : eligibilityCheck d = d := if_pos (by simpa using h)

/-! ### The TAP (R646) -/

theorem exec_tckEdge (rising tms tdi trst : Bool) (s : State) :
    exec (.tckEdge rising tms tdi trst) s = .next { s with tap := tckEdge rising tms tdi trst s.dev s.tap } := rfl

section
variable {d : Dev} {t : Tap} {tms tdi : Bool}

theorem tckEdge_held (rising : Bool) :
    tckEdge rising tms tdi false d t = { t with tck := rising, st := .reset, instr := .bypass, tdo := none } := rfl

theorem tckEdge_same : tckEdge t.tck tms tdi true d t = t := by
  unfold tckEdge
  simp

theorem tckEdge_rises (h : t.tck = false) : tckEdge true tms tdi true d t =
    { tapAct d tdi { t with tck := true } with st := tapNext t.st tms } := by
  unfold tckEdge
  rw [h]
  rfl

theorem tckEdge_falls (h : t.tck = true) : tckEdge false tms tdi true d t = tapFall { t with tck := false } := by
  unfold tckEdge
  rw [h]
  rfl

/-- A state in which neither a shift nor a capture is due. -/
theorem tapAct_other (h1 : t.st ≠ .shDr) (h2 : t.st ≠ .shIr) (h3 : t.st ≠ .capDr) (h4 : t.st ≠ .capIr) : tapAct d tdi t = t := by
  unfold tapAct
  split
  case h_5 => rfl
  all_goals contradiction

/-- BYPASS, CLAMP and HIGHZ capture a zero. -/
theorem tapAct_capture (h : t.st = .capDr) (hi : t.instr = .bypass ∨ t.instr = .clamp ∨ t.instr = .highz) :
    tapAct d tdi t = { t with shift := [false] } := by
  unfold tapAct
  rw [h]
  rcases hi with hi | hi | hi <;> rw [hi] <;> rfl

theorem tapFall_shDr (h : t.st = .shDr) : tapFall t = { t with tdo := t.shift.head? } := by
  cases t
  cases h
  rfl

theorem tapFall_shIr (h : t.st = .shIr) : tapFall t = { t with tdo := t.irShift.head? } := by
  cases t
  cases h
  rfl

theorem tapFall_reset (h : t.st = .reset) : tapFall t = { t with instr := .bypass, tdo := none } := by
  cases t
  cases h
  rfl

/-- A code of ones selects BYPASS. -/
theorem tapFall_ones (h : t.st = .updIr) (hb : ∀ b ∈ t.irShift, b = true) : tapFall t = { t with instr := .bypass, tdo := none } := by
  have bypass : tapInstrOf t.irShift = .bypass := if_pos (List.all_eq_true.2 hb)
  unfold tapFall
  rw [h]
  dsimp only
  rw [bypass]

theorem tapFall_latches (h : t.st = .updDr) (hi : t.instr = .preload ∨ t.instr = .extest) :
    tapFall t = { t with latch := t.shift, tdo := none } := by
  unfold tapFall
  rw [h]
  rcases hi with hi | hi <;> rw [hi] <;> rfl

end

/-- Five ones lead to Test-Logic-Reset. -/
theorem tapNext_ones (st : TapSt) : tapNext (tapNext (tapNext (tapNext (tapNext st true) true) true) true) true = .reset := by
  cases st <;> rfl

/-- A TCK edge of the TAP by its state. -/
theorem tckEdge_gives {rising tms tdi trst : Bool} {s : State} {u : Tap} (h : tckEdge rising tms tdi trst s.dev s.tap = u) :
    exec (.tckEdge rising tms tdi trst) s = .next { s with tap := u } := by
  rw [exec_tckEdge, h]

/-! ### As stated -/

theorem exec_fenceStart (k : Fin 8) (s : State) : exec (.fenceStart k) s = actClk (fenceStart k.val) s := rfl
theorem exec_clusterDormant (k : Fin 8) (s : State) : exec (.clusterDormant k) s = actClk (clusterDormant k.val) s := rfl
theorem exec_clusterWake (k : Fin 8) (s : State) : exec (.clusterWake k) s = actClk (clusterWake k.val) s := rfl
theorem exec_clusterAwake (k : Fin 8) (s : State) : exec (.clusterAwake k) s = actClk (clusterAwake k.val) s := rfl
theorem exec_eligibilityCheck (s : State) : exec .eligibilityCheck s = actClk eligibilityCheck s := rfl

/-- Settles O42: the repair's requests and switch, each act of a cluster by its condition, the TAP by its edge and state. -/
theorem rowRepairsDormantClustersAndTheTap : Obligations.RowRepairsDormantClustersAndTheTap := by
  unfold Obligations.RowRepairsDormantClustersAndTheTap
  refine ⟨fun k s => ⟨fun who v d h hk => ⟨fun hg => ?_, fun hg => ?_⟩, fun row hf => ⟨fun due => ?_, fun due => ?_⟩,
    fun ce ue h => ?_, fun hf h => ⟨?_, fun ce ue => ?_⟩⟩, fun k s hf => ⟨fun h => ?_, fun h => ?_, fun h => ?_, fun h hc => ?_, fun h hc => ?_,
    fun h => ?_, fun h hw => ?_, fun h => ?_, fun h => ?_⟩, fun s => ⟨fun h => ?_, fun hc hf => ?_⟩, fun tms tdi trst s => ?_⟩
  · refine (exec_repairGo who v s).trans ((act_wordWrite h v (by decide) (by decide)).trans (next_eq s ?_))
    rw [regStore_cl (by decide) (by decide), clWrite_repair v hk, if_pos hg]
    exact repairBegin_eq
  · refine (exec_repairGo who v s).trans ((act_wordWrite h v (by decide) (by decide)).trans (next_eq s ?_))
    rw [regStore_cl (by decide) (by decide), clWrite_repair v hk, if_neg (by rw [hg]; exact Bool.false_ne_true)]
  · refine (exec_repairStart k row s).trans ((actClk_on _ hf).trans (next_eq s ?_))
    rw [repairStart_eq hf]
    exact (if_pos due).trans (repairBegin_tracked _ fun _ => rfl)
  · refine (exec_repairStart k row s).trans ((actClk_on _ hf).trans (next_eq s ?_))
    rw [repairStart_eq hf]
    exact if_neg due
  · exact (exec_repairSwitch k ce ue s).trans (next_eq s (repairSwitch_none h ce ue))
  · obtain ⟨at', runs⟩ := repairSwitch_runs hf h [] []
    refine (exec_repairSwitch k [] [] s).trans (next_eq s (runs.trans ?_))
    rw [updBank_fin]
    rfl
  · obtain ⟨at', runs⟩ := repairSwitch_runs hf h ce ue
    obtain ⟨acts, mem, spares, repairing, counted, corrected, worse⟩ := switch_meets (k := k) (ce.map at') (ue.map at') s.dev
    rw [← runs] at acts mem spares repairing counted corrected worse
    rw [List.length_map] at counted
    exact ⟨_, exec_repairSwitch k ce ue s, acts, mem, spares, repairing, counted, fun hn => corrected (by simpa using hn),
      fun hn => worse (by simpa using hn)⟩
  · exact (exec_fenceStart k s).trans ((actClk_on _ hf).trans (next_eq s (fenceStart_none h)))
  · exact ⟨_, (exec_fenceStart k s).trans ((actClk_on _ hf).trans (next_eq s (fenceStart_fences h))), rfl⟩
  · exact (exec_clusterDormant k s).trans ((actClk_on _ hf).trans (next_eq s (clusterDormant_other h)))
  · exact (exec_clusterDormant k s).trans ((actClk_on _ hf).trans (next_eq s (clusterDormant_late h hc)))
  · exact ⟨_, (exec_clusterDormant k s).trans (actClk_on _ hf), clusterDormant_early hf h hc⟩
  · exact (exec_clusterWake k s).trans ((actClk_on _ hf).trans (next_eq s (clusterWake_none h)))
  · exact (exec_clusterWake k s).trans ((actClk_on _ hf).trans (next_eq s (clusterWake_starts h hw)))
  · exact (exec_clusterAwake k s).trans ((actClk_on _ hf).trans (next_eq s (clusterAwake_other h)))
  · obtain ⟨n, hn, clk, pwr⟩ := clusterAwake_wakes hf h
    refine ⟨_, n, (exec_clusterAwake k s).trans (actClk_on _ hf), hn, clk, ?_⟩
    rw [pwr]
    dsimp only
    rw [put_self]
    exact ⟨rfl, rfl, rfl, rfl, fun j hj => put_other _ _ hj⟩
  · rw [exec_eligibilityCheck, actClk_eq, eligibilityCheck_none h, ite_self]
  · refine (exec_eligibilityCheck s).trans ((actClk_on _ hf).trans (next_eq s ?_))
    have checks : eligibilityCheck s.dev = _ := if_neg (by simp [hc, hf])
    exact checks.trans (checkClusters_eq _)
  · refine ⟨fun ht rising => ?_, fun ht => ?_, fun ht hk => ⟨fun h => ?_, fun h => ?_, fun h1 h2 h3 h4 => ?_, fun h hi => ?_⟩,
      fun ht hk => ⟨fun h => ?_, fun h => ?_, fun h => ?_, fun h hb => ?_, fun h hi => ?_⟩, tapNext_ones⟩ <;> subst ht
    · exact tckEdge_gives (tckEdge_held rising)
    · exact tckEdge_gives tckEdge_same
    · refine tckEdge_gives ((tckEdge_rises hk).trans ?_)
      unfold tapAct
      dsimp only
      rw [h]
      rfl
    · refine tckEdge_gives ((tckEdge_rises hk).trans ?_)
      unfold tapAct
      dsimp only
      rw [h]
      rfl
    · refine tckEdge_gives ((tckEdge_rises hk).trans ?_)
      rw [tapAct_other (t := { s.tap with tck := true }) h1 h2 h3 h4]
    · refine tckEdge_gives ((tckEdge_rises hk).trans ?_)
      rw [tapAct_capture (t := { s.tap with tck := true }) h hi]
    · exact tckEdge_gives ((tckEdge_falls hk).trans (tapFall_shDr (t := { s.tap with tck := false }) h))
    · exact tckEdge_gives ((tckEdge_falls hk).trans (tapFall_shIr (t := { s.tap with tck := false }) h))
    · exact tckEdge_gives ((tckEdge_falls hk).trans (tapFall_reset (t := { s.tap with tck := false }) h))
    · exact tckEdge_gives ((tckEdge_falls hk).trans (tapFall_ones (t := { s.tap with tck := false }) h hb))
    · exact tckEdge_gives ((tckEdge_falls hk).trans (tapFall_latches (t := { s.tap with tck := false }) h hi))

end Sys2Proof.Machine
end

section
/-!
PROOFS. The statements of 13_hedgerow.md on records and relays: a cell reads as it was spelled, and how a port sends one.
-/
namespace Sys2Proof.Machine

/-! ### Numbers in a byte list -/

theorem leNat_leBytes (n v : Nat) : leNat (leBytes n v) = v % 256 ^ n := by
  induction n generalizing v with
  | zero => simp [leBytes, leNat, Nat.mod_one]
  | succ n ih =>
    have low : (BitVec.ofNat 8 v).toNat = v % 256 := BitVec.toNat_ofNat v 8
    rw [leBytes, leNat, ih, low, Nat.pow_succ', Nat.mod_mul]

/-- The first number of a list. -/
theorem leAt_here (n v : Nat) (r : List Byte) : leAt (leBytes n v ++ r) 0 n = v % 256 ^ n := by
  rw [leAt, List.drop_zero, List.take_left' (length_leBytes n v), leNat_leBytes]

/-- A number behind the first one. -/
theorem leAt_behind {k o : Nat} (h : k ≤ o) (v n : Nat) (r : List Byte) : leAt (leBytes k v ++ r) o n = leAt r (o - k) n := by
  unfold leAt
  rw [List.drop_append, length_leBytes, List.drop_of_length_le ((length_leBytes k v).trans_le h), List.nil_append]

/-! ### Checksums -/

theorem crc16Bits_lt (k c : Nat) : crc16Bits (k + 1) c < 65536 := by
  induction k generalizing c with
  | zero => exact Nat.mod_lt _ (by decide)
  | succ k ih => exact ih _

theorem crc16_lt (l : List Byte) : crc16 l < 65536 := by
  unfold crc16
  cases l using List.reverseRecOn with
  | nil => decide
  | append_singleton l b =>
    rw [List.foldl_append]
    exact crc16Bits_lt 7 _

theorem crcStepsR_lt {rpoly : Nat} (hr : rpoly < 2 ^ 32) (k : Nat) {c : Nat} (hc : c < 2 ^ 32) : crcStepsR rpoly k c < 2 ^ 32 := by
  induction k generalizing c with
  | zero => exact hc
  | succ k ih =>
    have half : c / 2 < 2 ^ 32 := by omega
    refine ih ?_
    unfold crcBitR
    split
    · exact Nat.xor_lt_two_pow half hr
    · exact half

theorem crcBytesR_lt {rpoly : Nat} (hr : rpoly < 2 ^ 32) (l : List Byte) {c : Nat} (hc : c < 2 ^ 32) : crcBytesR rpoly c l < 2 ^ 32 := by
  induction l generalizing c with
  | nil => exact hc
  | cons b l ih => exact ih (crcStepsR_lt hr 8 (Nat.xor_lt_two_pow hc (Nat.lt_trans b.isLt (by decide))))

theorem crc32c_lt (l : List Byte) : crc32c l < 2 ^ 32 :=
  Nat.xor_lt_two_pow (crcBytesR_lt (by decide) l (by decide)) (by decide)

/-! ### A cell reads as it was spelled (R475 to R479) -/

/-- Header bytes 8 and 9: SEQ and the flags of the hop. -/
def Cell.hopWord (c : Cell) : Nat := c.seq.toNat + 4096 * b2n c.ring + 8192 * b2n c.wrap + 16384 * b2n c.ackv

theorem head_fields (c : Cell) : c.head = leBytes 1 (c.dst.toNat + 32 * c.pri.toNat) ++ (leBytes 1 c.src.toNat ++ (leBytes 1 c.typ.toNat ++
    (leBytes 2 c.payload.length ++ (leBytes 2 c.tick.toNat ++ leBytes 1 0)))) := by
  have typ : leBytes 1 c.typ.toNat = [c.typ] := by simp [leBytes]
  unfold Cell.head
  rw [typ]
  simp only [List.append_assoc]
  rfl

theorem hop_fields (c : Cell) : c.hop = leBytes 2 c.hopWord ++ (leBytes 2 c.ack.toNat ++ (leBytes 1 c.ttl.toNat ++ leBytes 1 0)) := by
  unfold Cell.hop
  simp only [List.append_assoc]
  rfl

section
variable (c : Cell)

theorem length_head : c.head.length = 8 := by simp [head_fields]
theorem length_hop : c.hop.length = 6 := by simp [hop_fields]

theorem bytes_eq : c.bytes =
    c.head ++ (c.hop ++ (leBytes 2 (crc16 (c.head ++ c.hop)) ++ (c.payload ++ leBytes 4 (crc32c (c.head ++ c.payload))))) := by
  simp only [Cell.bytes, List.append_assoc]

theorem drop_bytes : c.bytes.drop 16 = c.payload ++ leBytes 4 (crc32c (c.head ++ c.payload)) := by
  have front : (c.head ++ c.hop ++ leBytes 2 (crc16 (c.head ++ c.hop))).length = 16 := by simp [length_head, length_hop]
  exact (congrArg (List.drop 16) (List.append_assoc _ _ _)).trans (List.drop_left' front)

theorem hcrcOk_bytes : hcrcOk c.bytes = true := by
  have front : (c.head ++ c.hop).length = 14 := by simp [length_head, length_hop]
  have check : leAt c.bytes 14 2 = crc16 (c.head ++ c.hop) := by
    rw [bytes_eq, ← List.append_assoc, leAt, List.drop_left' front, List.take_left' (length_leBytes _ _), leNat_leBytes]
    exact Nat.mod_eq_of_lt (crc16_lt _)
  have covered : c.bytes.take 14 = c.head ++ c.hop := by rw [bytes_eq, ← List.append_assoc, List.take_left' front]
  unfold hcrcOk
  rw [check, covered, bytes_eq]
  simp [length_head, length_hop]
  omega

variable {c} (h : c.payload.length ≤ 256)
include h

/-- The fields of the header, in order. -/
theorem leAt_bytes : leAt c.bytes 0 1 = c.dst.toNat + 32 * c.pri.toNat ∧ leAt c.bytes 1 1 = c.src.toNat ∧ leAt c.bytes 2 1 = c.typ.toNat ∧
    leAt c.bytes 3 2 = c.payload.length ∧ leAt c.bytes 5 2 = c.tick.toNat ∧ leAt c.bytes 7 1 = 0 ∧ leAt c.bytes 8 2 = c.hopWord ∧
    leAt c.bytes 10 2 = c.ack.toNat ∧ leAt c.bytes 12 1 = c.ttl.toNat ∧ leAt c.bytes 13 1 = 0 := by
  have flag : ∀ b, b2n b ≤ 1 := fun b => by cases b <;> decide
  have word : c.hopWord < 65536 := by
    have := flag c.ring
    have := flag c.wrap
    have := flag c.ackv
    unfold Cell.hopWord
    omega
  rw [bytes_eq, head_fields, hop_fields]
  simp (disch := decide) only [List.append_assoc, leAt_behind, leAt_here, Nat.reduceSub]
  omega

theorem parseCell_bytes : parseCell c.bytes = c := by
  obtain ⟨dst, src, typ, len, tick, -, hop, ack, ttl, -⟩ := leAt_bytes h
  have body : (c.bytes.drop 16).take c.payload.length = c.payload := by rw [drop_bytes, List.take_left]
  have hdst : BitVec.ofNat 5 (c.dst.toNat + 32 * c.pri.toNat) = c.dst := BitVec.eq_of_toNat_eq (by rw [BitVec.toNat_ofNat]; omega)
  have hpri : BitVec.ofNat 2 ((c.dst.toNat + 32 * c.pri.toNat) / 32) = c.pri := BitVec.eq_of_toNat_eq (by rw [BitVec.toNat_ofNat]; omega)
  have hseq : BitVec.ofNat 12 c.hopWord = c.seq := BitVec.eq_of_toNat_eq (by rw [BitVec.toNat_ofNat, Cell.hopWord]; omega)
  have flags : (c.hopWord / 4096 % 2 == 1) = c.ring ∧ (c.hopWord / 8192 % 2 == 1) = c.wrap ∧ (c.hopWord / 16384 % 2 == 1) = c.ackv := by
    have low : c.seq.toNat < 4096 := c.seq.isLt
    unfold Cell.hopWord
    cases c.ring <;> cases c.wrap <;> cases c.ackv <;> simp only [b2n, beq_iff_eq, Bool.false_eq_true, if_true, if_false, beq_eq_false_iff_ne] <;> omega
  obtain ⟨ring, wrap, ackv⟩ := flags
  unfold parseCell
  rw [dst, src, typ, len, tick, hop, ack, ttl, Nat.mod_eq_of_lt (by omega), body, hdst, hpri, hseq, ring, wrap, ackv]
  simp only [BitVec.ofNat_toNat, BitVec.setWidth_eq]

theorem headerOk_bytes : headerOk c.bytes = true := by
  obtain ⟨dst, src, typ, len, tick, zero, hop, ack, ttl, zero'⟩ := leAt_bytes h
  have flag : ∀ b, b2n b ≤ 1 := fun b => by cases b <;> decide
  have word : c.hopWord < 32768 := by
    have := flag c.ring
    have := flag c.wrap
    have := flag c.ackv
    unfold Cell.hopWord
    omega
  unfold headerOk
  rw [dst, src, len, zero, hop, ack, ttl, zero']
  simp only [Bool.and_eq_true, decide_eq_true_eq, beq_self_eq_true, and_true]
  omega

theorem ccrcOk_bytes : ccrcOk c.bytes = true := by
  obtain ⟨-, -, -, len, -⟩ := leAt_bytes h
  have length : c.bytes.length = 20 + c.payload.length := by
    rw [bytes_eq]
    simp only [List.length_append, length_head, length_hop, length_leBytes]
    omega
  have check : leAt c.bytes (16 + c.payload.length) 4 = crc32c (c.head ++ c.payload) := by
    rw [leAt, ← List.drop_drop, drop_bytes, List.drop_left, List.take_of_length_le (length_leBytes _ _).le, leNat_leBytes]
    exact Nat.mod_eq_of_lt (crc32c_lt _)
  have head : c.bytes.take 8 = c.head := by rw [bytes_eq, List.take_left' (length_head c)]
  unfold ccrcOk
  dsimp only
  rw [len, length, check, head, drop_bytes, List.take_left]
  simp

theorem spells_bytes : Spells c.bytes c := ⟨parseCell_bytes h, hcrcOk_bytes c, headerOk_bytes h, ccrcOk_bytes h⟩

end

end Sys2Proof.Machine
end

section
/-!
PROOFS. The statements of 13_hedgerow.md on records and relays: how a cell leaves, at once or in its window.
-/
namespace Sys2Proof.Machine

/-! ### Rows of the ring -/

theorem ringRow_on (f : Dev → Dev) {s : State} (h : s.dev.sys.fclkOn = true) : ringRow f s = .next (onward s (f s.dev)) := actClk_on _ h

theorem startCell_eq (p : Fin 2) (c : Cell) (d : Dev) : startCell p c d = emits p c d := by
  unfold startCell emits onHop
  dsimp only
  simp only [List.isEmpty_iff]

theorem flushAck_eq {c : Cell} (h : c.typ ≠ tLINK) (p : Fin 2) (d : Dev) : flushAck p c d = settles p d := by
  unfold flushAck settles sendLink acks linkCell
  rw [startCell_eq]
  cases (rport d p).ackDue <;> cases (rport d p).link <;> simp [h]

/-- A cell of this node that its port takes next is acted on. -/
theorem cellRow_next {s : State} {p : Fin 2} {c : Cell} {t : Byte} (h : InOrder s.dev p c) (ht : c.typ = t) (hm : mine s.dev c = true)
    (hk : knownType t = true) (hl : t ≠ tLINK) {f : Cell → Dev → Dev} :
    ringRow (onCell t p c.bytes .clean f) s = .next (onward s (settles p (f c (accepted p c s.dev)))) := by
  have ⟨⟨hf, _, _, _, len, _⟩, _⟩ := h
  rw [ringRow_on _ hf, onCell_next (spells_bytes len) h ht hm hk f, flushAck_eq (ht ▸ hl)]

/-! ### A cell that goes at once (R481, R484) -/

theorem idle_room {q : RingPort} (h : Idle q) {n : Nat} (hn : n ≤ 256) : replayRoom q n = true := by
  obtain ⟨-, -, -, -, count, bytes⟩ := h
  unfold replayRoom
  simp only [Bool.and_eq_true, decide_eq_true_eq]
  omega

theorem outPort_idle {d : Dev} {p : Fin 2} (h : Idle (rport d p)) : outPort d p = (p, false) := by
  obtain ⟨-, wrap, -⟩ := h
  unfold outPort
  rw [wrap]
  exact if_neg fun x => Bool.false_ne_true x.1

theorem updRport_fin (p : Fin 2) (f : RingPort → RingPort) (d : Dev) :
    updRport p.val f d = { d with hr := { d.hr with ports := put d.hr.ports p (f d.hr.ports[p]) } } := by
  rw [updRport_eq, updHr]
  dsimp only
  rw [upd?_fin]

theorem updRport_updRport (p : Fin 2) (f g : RingPort → RingPort) (d : Dev) :
    updRport p.val g (updRport p.val f d) = updRport p.val (fun q => g (f q)) d := by
  rw [updRport_fin, updRport_fin, updRport_fin]
  dsimp only
  rw [put_put, put_self]

theorem updRport_same {p : Fin 2} {f : RingPort → RingPort} {d : Dev} (h : f (rport d p) = rport d p) : updRport p.val f d = d := by
  rw [rport_fin] at h
  rw [updRport_fin, h]
  simp [put]

/-- A cell that waits alone at a port with room goes. -/
theorem pumpPort_one {d : Dev} {p : Fin 2} {c : Cell} (hl : (rport d p).link = true) (ht : (rport d p).transit = []) (ho : (rport d p).own = [c])
    (hr : replayRoom (rport d p) c.payload.length = true) : pumpPort p d = emits p c (updRport p (fun q => { q with own := [] }) d) := by
  unfold pumpPort
  rw [ht, ho]
  show pump p 1 d = _
  unfold pump
  dsimp only
  rw [hl, ht, ho]
  dsimp only
  rw [hr, pump, startCell_eq]
  rfl

/-- Queued at an idle port, a cell goes at once. -/
theorem queueOwn_idle {d : Dev} {p : Fin 2} (h : Idle (rport d p)) {c : Cell} (hc : c.payload.length ≤ 256) :
    queueOwn p c d = emits p c d := by
  have room := idle_room h hc
  have cell : { c with wrap := c.wrap || false } = c := by rw [Bool.or_false]
  unfold queueOwn
  rw [outPort_idle h]
  obtain ⟨link, -, transit, own, -⟩ := h
  dsimp only
  rw [cell]
  have queue : rport (updRport p (fun q => { q with own := insertPri c q.own }) d) p = { rport d p with own := [c] } := by
    rw [rport_updRport_self, own]
    rfl
  have empty : { rport d p with own := [] } = rport d p := by rw [← own]
  rw [pumpPort_one (c := c) (by rw [queue]; exact link) (by rw [queue]; exact transit) (by rw [queue]) (by rw [queue]; exact room),
    updRport_updRport, updRport_same empty]

/-- A scheduled cell of this node goes at once, or waits for its window. -/
theorem sendCell_sends {d : Dev} {dst : BitVec 5} {t : Byte} {l : List Byte} (h : CanSend d dst) (ht : isSched t = true) (hl : l.length ≤ 256) :
    sendCell dst t l d = sends dst t l d := by
  obtain ⟨active, closed, idle⟩ := h
  have may : ¬ (passive d ∧ t ≠ tHELLO) := fun x => by
    rw [passive, active] at x
    exact Bool.false_ne_true x.1
  unfold sendCell sends ownCell
  rw [if_neg may]
  dsimp only
  rw [ht]
  cases hc : d.committed with
  | true =>
    obtain ⟨a, b⟩ := closed hc
    exact pumpSlots_closed a b
  | false => exact queueOwn_idle (idle hc) hl

end Sys2Proof.Machine
end

section
/-!
PROOFS. The statements of 13_hedgerow.md on records and relays: a window starts what fits.
-/
namespace Sys2Proof.Machine

/-! ### A cell in its window (R500) -/

/-- The port of ring `r`. -/
def slotPort (r : Bool) : Fin 2 := if r then 1 else 0

/-- The device with the window on ring `r` open. -/
def windowOn (r : Bool) (d : Dev) : Dev := { d with hr := { d.hr with slotA := !r || d.hr.slotA, slotB := r || d.hr.slotB } }

/-- The wire bytes sent on ring `r` in this tick, and those that may be. -/
def spent (r : Bool) (d : Dev) : Nat := if r then d.hr.txB else d.hr.txA
def NodeEntry.most (r : Bool) (e : NodeEntry) : Nat := if r then e.bytesB.toNat else e.bytesA.toNat

/-- The device with the one waiting cell charged `n` wire bytes on ring `r`. -/
def charged (r : Bool) (n : Nat) (d : Dev) : Dev :=
  { d with hr := { d.hr with sched := [], txA := if r then d.hr.txA else d.hr.txA + n, txB := if r then d.hr.txB + n else d.hr.txB } }

theorem windowOn_eq (r : Bool) (d : Dev) :
    updHr (fun h => if r then { h with slotB := true } else { h with slotA := true }) d = windowOn r d := by
  cases r <;> rfl

theorem charged_eq (r : Bool) (n : Nat) (d : Dev) :
    updHr (fun h => if r then { h with sched := [], txB := h.txB + n } else { h with sched := [], txA := h.txA + n }) d = charged r n d := by
  cases r <;> rfl

/-- A scheduled cell may start on ring `r`: its window is open, the node not passive, the port idle, a table installed. -/
def Starts (r : Bool) (e : NodeEntry) (d : Dev) : Prop :=
  (if r then d.hr.slotB else d.hr.slotA) = true ∧ d.hr.foreign = false ∧ Idle (rport d (slotPort r)) ∧ tableEntry d d.sys.nodeId = some e

theorem startRing_of_way {d : Dev} {r : Bool} {dst : BitVec 5} (hi : Idle (rport d (slotPort r))) (hw : wayTo d dst = slotPort r) :
    startRing d dst = r ∧ shorterB d dst = r := by
  have way : (if shorterB d dst then (1 : Fin 2) else 0) = slotPort r := hw
  refine ⟨?_, ?_⟩
  · unfold startRing
    rw [way, outPort_idle hi]
    cases r <;> rfl
  · cases r <;> cases hs : shorterB d dst <;> simp [hs, slotPort] at way ⊢

/-- With no cell for a ring, none starts there. -/
theorem pumpSched_none {r : Bool} {d : Dev} (h : ∀ c ∈ d.hr.sched, startRing d c.dst ≠ r) (n : Nat) : pumpSched r n d = d := by
  have none : d.hr.sched.find? (fun c => startRing d c.dst == r) = none := List.find?_eq_none.2 fun c hc => by simpa using h c hc
  cases n with
  | zero => rfl
  | succ n =>
    unfold pumpSched
    rw [none]
    dsimp only
    cases tableEntry d d.sys.nodeId <;> exact ite_self d

theorem pumpSlots_empty {d : Dev} (h : d.hr.sched = []) : pumpSlots d = d := by
  have none : ∀ r n, pumpSched r n d = d := fun r => pumpSched_none (by simp [h])
  rw [pumpSlots, none, none]

theorem emits_sched (p : Fin 2) (c : Cell) (d : Dev) : (emits p c d).hr.sched = d.hr.sched := rfl

theorem marked_sched (c : Cell) (d : Dev) : (marked c d).hr.sched = d.hr.sched := by
  unfold marked
  split <;> rfl

section
variable {r : Bool} {e : NodeEntry} {d : Dev} {c : Cell} (hd : Starts r e d) (hs : d.hr.sched = [c]) (hw : wayTo d c.dst = slotPort r)
  (hl : c.payload.length ≤ 256)
include hd hs hw hl

/-- The one waiting cell on its ring: it starts if the allowance covers it. -/
theorem pumpSched_one : pumpSched r 1 d = if e.most r < spent r d + wireBytes c.payload.length then d else
    emits (slotPort r) { c with tick := bf d.tb.tick 0 16 } (marked c (charged r (wireBytes c.payload.length) d)) := by
  obtain ⟨opened, active, idle, table⟩ := hd
  obtain ⟨ring, shorter⟩ := startRing_of_way idle hw
  have room := idle_room idle hl
  obtain ⟨link, -, transit, own, -, -⟩ := idle
  have found : d.hr.sched.find? (fun c => startRing d c.dst == r) = some c := by rw [hs]; simp [ring]
  have way : (c.wrap || shorterB d c.dst != r) = c.wrap := by simp [shorter]
  have taken : d.hr.sched.erase c = [] := by rw [hs]; simp
  have ready : ¬ ((!(if r then d.hr.slotB else d.hr.slotA)) = true ∨ passive d = true ∨ (!(rport d (slotPort r)).link) = true ∨
      (!(rport d (slotPort r)).transit.isEmpty) = true ∨ (!(rport d (slotPort r)).own.isEmpty) = true) := by
    simp [-rport_fin, opened, passive, active, link, transit, own]
  have port : (if r = true then (1 : Fin 2) else 0) = slotPort r := rfl
  unfold pumpSched
  rw [found, table]
  dsimp only
  rw [way]
  rw [port, if_neg ready, room]
  have charge : updHr (fun h => { h with
      sched := h.sched.erase c, txA := if r then h.txA else h.txA + wireBytes c.payload.length
      txB := if r then h.txB + wireBytes c.payload.length else h.txB }) d = charged r (wireBytes c.payload.length) d := by
    unfold updHr charged
    dsimp only
    rw [taken]
  rw [charge, pumpSched, startCell_eq]
  simp only [Bool.not_true, Bool.false_eq_true, or_false]
  rfl

/-- It is the only cell that either window starts. -/
theorem pumpSlots_one : pumpSlots d = if e.most r < spent r d + wireBytes c.payload.length then d else
    emits (slotPort r) { c with tick := bf d.tb.tick 0 16 } (marked c (charged r (wireBytes c.payload.length) d)) := by
  have own := pumpSched_one hd hs hw hl
  have ring := (startRing_of_way hd.2.2.1 hw).1
  have other : ∀ n, pumpSched (!r) n d = d := pumpSched_none (by simp [hs, ring])
  have after : ∀ n, pumpSched (!r) n (emits (slotPort r) { c with tick := bf d.tb.tick 0 16 } (marked c (charged r (wireBytes c.payload.length) d))) =
      emits (slotPort r) { c with tick := bf d.tb.tick 0 16 } (marked c (charged r (wireBytes c.payload.length) d)) :=
    pumpSched_none (by rw [emits_sched, marked_sched, charged]; simp)
  unfold pumpSlots
  rw [hs, List.length_singleton]
  cases r with
  | true => exact (congrArg (pumpSched true 1) (other 1)).trans own
  | false =>
    rw [own]
    split
    · exact other 1
    · exact after 1

end

/-- The device with `c` as its one waiting cell. -/
def queued (c : Cell) (d : Dev) : Dev := { d with hr := { d.hr with sched := [c] } }

theorem charged_queued (r : Bool) (n : Nat) (c : Cell) (d : Dev) : charged r n (queued c d) = charged r n d := rfl

/-- A scheduled cell that is sent in its window starts if the allowance covers it, and waits if not. -/
theorem sendCell_starts {r : Bool} {e : NodeEntry} {d : Dev} {dst : BitVec 5} {t : Byte} {l : List Byte} (hd : Starts r e d) (hc : d.committed = true)
    (hs : d.hr.sched = []) (ht : isSched t = true) (hw : wayTo d dst = slotPort r) (hl : l.length ≤ 256) :
    sendCell dst t l d = if e.most r < spent r d + wireBytes l.length then queued (ownCell d dst t l) d
      else emits (slotPort r) (ownCell d dst t l) (marked (ownCell d dst t l) (charged r (wireBytes l.length) d)) := by
  have may : ¬ (passive d ∧ t ≠ tHELLO) := fun x => by
    rw [passive, hd.2.1] at x
    exact Bool.false_ne_true x.1
  have queue : updHr (fun h => { h with sched := insertPri (ownCell d dst t l) h.sched }) d = queued (ownCell d dst t l) d := by
    unfold updHr queued
    dsimp only
    rw [hs]
    rfl
  have starts := pumpSlots_one (d := queued (ownCell d dst t l) d) hd rfl hw hl
  unfold sendCell
  rw [if_neg may, ht, hc]
  dsimp only
  rw [if_pos ⟨rfl, rfl⟩]
  refine (congrArg pumpSlots queue).trans (starts.trans ?_)
  rw [charged_queued]
  rfl

/-! ### SLOT_OPEN (R500) -/

section
variable {r : Bool} {ce : List (BitVec 23)} {ue : Option (Byte × Word)} {d : Dev}

theorem slotOpen_none (h : d.committed = false ∨ tableEntry d d.sys.nodeId = none) : slotOpen r ce ue d = d := by
  unfold slotOpen
  rcases h with h | h
  · rw [h]
    rfl
  · rw [h]
    exact ite_self d

theorem slotOpen_eq {e : NodeEntry} (hc : d.committed = true) (he : tableEntry d d.sys.nodeId = some e) : slotOpen r ce ue d =
    let t := windowOn r (passTo (d.hr.tickClk + e.slotOffset.toNat) d)
    pumpSlots (if t.sys.role = 1 then workerDrain ce ue (sendRelays t) else t) := by
  unfold slotOpen
  rw [hc, he]
  dsimp only
  rw [windowOn_eq]
  rfl

/-- Nothing that concerns the window changes while clk pass to it. -/
theorem passTo_window (n : Nat) (d : Dev) : (passTo n d).committed = d.committed ∧ (passTo n d).sys = d.sys ∧ (passTo n d).hr.table = d.hr.table := by
  rw [passTo, (pass_frame _ d).1]
  exact ⟨rfl, rfl, rfl⟩

/-- The drain passes nothing when it is frozen or has no bin. -/
theorem workerDrain_none (h : d.cfg.bins = [] ∨ d.dr.frozen = true) : workerDrain ce ue d = d := by
  unfold workerDrain
  refine if_pos ?_
  rcases h with h | h
  · rw [h]
    exact .inr rfl
  · exact .inl h

/-! ### Relays (R498) -/

/-- Relay `i` has nothing to tell. -/
def Relay.still (x : Relay) : Prop := x.en = false ∨ x.prev = 0

/-- The payload of a relay's EVREL. -/
def Relay.cell (x : Relay) : List Byte :=
  leBytes 2 x.chan.toNat ++ leBytes 2 x.src.toNat ++ leBytes 2 x.prev.toNat ++ leBytes 2 0 ++ leBytes 4 x.prevTime.toNat

/-- What a window does with relay `i`. -/
def relayOut (d : Dev) (i : Fin 64) : Dev :=
  if d.hr.relays[i].en && d.hr.relays[i].prev != 0 then
    updHr (fun h => { h with relays := upd h.relays i fun x => { x with prev := 0 } })
      (sendCell (masterNode d) tEVREL d.hr.relays[i].cell d)
  else d

theorem sendRelays_eq (d : Dev) : sendRelays d = (List.finRange 64).foldl relayOut d := rfl

theorem relayOut_still {i : Fin 64} (h : d.hr.relays[i].still) : relayOut d i = d := by
  unfold relayOut
  refine if_neg ?_
  rcases h with h | h <;> simp [-Fin.getElem_fin, h]

theorem sendRelays_still (h : ∀ i : Fin 64, d.hr.relays[i].still) : sendRelays d = d :=
  (sendRelays_eq d).trans (List.foldl_fixed' (fun i => relayOut_still (h i)) _)

/-- One relay that tells is the only one that acts. -/
theorem sendRelays_one {i : Fin 64} (h : ∀ j : Fin 64, j ≠ i → d.hr.relays[j].still) : sendRelays d = relayOut d i := by
  have keeps : ∀ d : Dev, (∀ j : Fin 64, j ≠ i → d.hr.relays[j].still) → ∀ j : Fin 64, j ≠ i → (relayOut d i).hr.relays[j].still := by
    intro d h j hj
    unfold relayOut
    split
    · have frame := sendCell_slot (masterNode d) tEVREL d.hr.relays[i].cell d
      generalize sendCell (masterNode d) tEVREL d.hr.relays[i].cell d = t at frame
      have relays : t.hr.relays = d.hr.relays := congrArg (fun d => d.hr.relays) frame
      show Relay.still (upd t.hr.relays i _)[j]
      rw [relays]
      exact (put_other d.hr.relays _ hj) ▸ h j hj
    · exact h j hj
  exact (sendRelays_eq d).trans (foldl_alone (f := relayOut) (fun d h j hj => relayOut_still (h j hj)) keeps (List.nodup_finRange 64) (List.mem_finRange i) h)

end

end Sys2Proof.Machine
end

section
/-!
PROOFS. The statements of 13_hedgerow.md on records and relays: a worker's drain passes its records to the ring.
-/
namespace Sys2Proof.Machine

/-! ### A record in one fragment (R494) -/

theorem leBytes_add (m n v : Nat) : leBytes (m + n) v = leBytes m v ++ leBytes n (v / 256 ^ m) := by
  induction m generalizing v with
  | zero => simp [leBytes]
  | succ m ih =>
    rw [show m + 1 + n = m + n + 1 by omega, leBytes, ih, leBytes, Nat.div_div_eq_div_mul, Nat.pow_succ']
    rfl

/-- The one fragment of a record whose delivered form is `l`. -/
def wholeRec (b : Nat) (q : Word) (l : List Byte) : List Byte := leBytes 8 (b + 0x300 + q.toNat * 2 ^ 32) ++ l

theorem fragments_whole {b : Nat} {q : Word} {l : List Byte} (h : l.length ≤ 248) (k : Nat) : fragments b q l (k + 1) 0 = [wholeRec b q l] := by
  unfold fragments wholeRec
  simp only [List.drop_zero, List.take_of_length_le h, Nat.zero_add, h, decide_true, if_true, beq_self_eq_true, b2n, Nat.zero_div, Nat.zero_mul,
    Nat.add_zero, Nat.mul_one, Nat.add_assoc, Nat.reduceAdd]

theorem leAt_wholeRec (b : Fin 256) (q : Word) (l : List Byte) :
    leAt (wholeRec b.val q l) 0 1 = b.val ∧ BitVec.ofNat 32 (leAt (wholeRec b.val q l) 4 4) = q := by
  have low := q.isLt
  have head : leBytes 8 (b.val + 0x300 + q.toNat * 2 ^ 32) = leBytes 1 (b.val + 0x300 + q.toNat * 2 ^ 32) ++
      (leBytes 3 ((b.val + 0x300 + q.toNat * 2 ^ 32) / 256) ++ leBytes 4 q.toNat) := by
    rw [show 8 = 1 + (3 + 4) by decide, leBytes_add, leBytes_add, Nat.div_div_eq_div_mul,
      show (b.val + 0x300 + q.toNat * 2 ^ 32) / (256 ^ 1 * 256 ^ 3) = q.toNat by omega]
    rfl
  unfold wholeRec
  rw [head]
  simp (disch := decide) only [List.append_assoc, leAt_behind, leAt_here, Nat.reduceSub]
  refine ⟨by omega, BitVec.eq_of_toNat_eq ?_⟩
  rw [BitVec.toNat_ofNat]
  omega

theorem length_wholeRec (b : Nat) (q : Word) (l : List Byte) : (wholeRec b q l).length = 8 + l.length := by simp [wholeRec]

/-! ### The drain's notes of a record (R495, R497) -/

/-- The record is not the one that `y` notes. -/
def SentRec.others (b : Nat) (q : Word) (y : SentRec) : Bool := !(y.bin == b && y.seq == q)

/-- The one record `x` of bin `b` is noted as sent in this tick. -/
def sentOff (b : Fin 256) (x : Rec) (t : Dev) : Dev := { t with
  cl := { t.cl with bins := put t.cl.bins b { t.cl.bins[b] with recs := [{ x with busy := true }] } }
  hr := { t.hr with sent := t.hr.sent.filter (SentRec.others b.val x.seq) ++ [{ bin := b.val, seq := x.seq, tick := t.tb.tick }] } }

/-- A note of a record that goes is replaced. -/
theorem others_retick (b : Nat) (q : Word) (tick : Word) (l : List SentRec) :
    (l.map fun y => if (y.bin == b && y.seq == q) = true then { y with tick := tick } else y).filter (SentRec.others b q) = l.filter (SentRec.others b q) := by
  have same : SentRec.others b q ∘ (fun y => if (y.bin == b && y.seq == q) = true then { y with tick := tick } else y) = SentRec.others b q := by
    funext y
    simp only [Function.comp]
    split <;> rfl
  rw [List.filter_map, same]
  refine (List.map_congr_left fun y hy => if_neg ?_).trans (List.map_id _)
  have other := (List.mem_filter.1 hy).2
  unfold SentRec.others at other
  rw [Bool.not_eq_true'] at other
  exact Bool.eq_false_iff.1 other

theorem sentOff_marked {b : Fin 256} {x : Rec} {c : Cell} (ht : c.typ = tREC) (hb : leAt c.payload 0 1 = b.val)
    (hq : BitVec.ofNat 32 (leAt c.payload 4 4) = x.seq) (t : Dev) : sentOff b x (marked c t) = sentOff b x t := by
  unfold marked
  rw [if_neg (not_not.2 ht)]
  dsimp only
  rw [hb, hq]
  unfold sentOff updHr
  dsimp only
  rw [others_retick]

section
variable {b : Fin 256} {k : BinEntry} {x : Rec} {d : Dev} (hx : d.cl.bins[b].recs = [x]) (hb : x.busy = false)
  (hs : x.st = if k.sealed then .sealed else .released)
include hx hb hs

theorem unsent_one : unsent d b.val k = [x] := by
  unfold unsent
  rw [bin_fin, hx]
  cases hk : k.sealed <;> simp [hb, hs, hk]

variable (hf : d.dr.frozen = false)
include hf

/-- The drain sends the one record of the bin. -/
theorem sendRecords_one (hl : (delivered k x d).length ≤ 248) :
    sendRecords none b.val k d = sentOff b x (sendCell (masterNode d) tREC (wholeRec b.val x.seq (delivered k x d)) d) := by
  have frame := sendCell_slot (masterNode d) tREC (wholeRec b.val x.seq (delivered k x d)) d
  have ended : (x.seq == x.seq && x.st != .opened && x.st != .ended) = true := by
    rw [hs]
    cases k.sealed <;> simp
  unfold sendRecords
  rw [unsent_one hx hb hs]
  dsimp only [List.foldl_cons, List.foldl_nil]
  rw [hf, fragments_whole hl]
  dsimp only [List.foldl_cons, List.foldl_nil]
  generalize sendCell (masterNode d) tREC (wholeRec b.val x.seq (delivered k x d)) d = t at frame ⊢
  have cl : t.cl = d.cl := congrArg (fun t => t.cl) frame
  have tb : t.tb = d.tb := congrArg (fun t => t.tb) frame
  rw [if_neg Bool.false_ne_true, if_neg (by simp), updRec_eq, updBin_fin]
  unfold sentOff updHr
  dsimp only
  rw [tb, cl, hx, List.map_singleton, if_pos ended]
  rfl

/-- The drain meets a record that it cannot read. -/
theorem sendRecords_unread : sendRecords (some (b.val, x.seq)) b.val k d = freezeDrain b.val x.seq d := by
  unfold sendRecords
  rw [unsent_one hx hb hs]
  dsimp only [List.foldl_cons, List.foldl_nil]
  rw [hf, if_neg Bool.false_ne_true, if_pos rfl]

/-- With one bin, the drain's turn is that bin's. -/
theorem workerDrain_one (hd : d.cfg.bins = [(b.val, k)]) (ue : Option (Byte × Word)) :
    workerDrain [] ue d = sendRecords (ue.map fun y => (y.1.toNat, y.2)) b.val k d := by
  have some : ¬ (d.dr.frozen = true ∨ d.cfg.bins.all (fun x => (unsent d x.1 x.2).isEmpty) = true) := by
    rw [hf, hd]
    simp [unsent_one hx hb hs]
  unfold workerDrain
  rw [if_neg some, hd]
  rfl

end

/-- A frozen drain names the record that it met. -/
theorem freezeDrain_names (b : Nat) (q : Word) (d : Dev) : let t := freezeDrain b q d
    t.dr.frozen = true ∧ t.dr.frzBin = BitVec.ofNat 8 b ∧ t.dr.frzSeq = q ∧ t.cl.ue = true ∧ t.cl.bins = d.cl.bins ∧ t.hr.sched = d.hr.sched := by
  obtain ⟨a, ht⟩ : ∃ a, freezeDrain b q d = freezeRecord 0x24 0x40 false false b q.toNat
      (updDr (fun x => { x with frozen := true, frzBin := BitVec.ofNat 8 b, frzSeq := q, bad := some (b, q), pass := none, again := none })
        (cellarUe a (takeFree d).2)) := ⟨_, rfl⟩
  have met : EvFrame (updCl (fun l => { l with ue := true, ueAddr := BitVec.ofNat 20 (a / 8) }) (takeFree d).2) (cellarUe a (takeFree d).2) :=
    raiseIn_frame 0 0x609 _
  have cl := met.cl_eq
  have sched : (cellarUe a (takeFree d).2).hr.sched = d.hr.sched := congrArg (fun t => t.hr.sched) met
  generalize cellarUe a (takeFree d).2 = u at ht cl sched
  have frame := freezeRecord_frame 0x24 0x40 false false b q.toNat
    (updDr (fun x => { x with frozen := true, frzBin := BitVec.ofNat 8 b, frzSeq := q, bad := some (b, q), pass := none, again := none }) u)
  rw [← ht] at frame
  have dr := congrArg (fun t => t.dr) frame
  have cl' : (freezeDrain b q d).cl = u.cl := congrArg (fun t => t.cl) frame
  have sched' : (freezeDrain b q d).hr.sched = u.hr.sched := congrArg (fun t => t.hr.sched) frame
  intro t
  exact ⟨congrArg Dr.frozen dr, congrArg Dr.frzBin dr, congrArg Dr.frzSeq dr, by rw [cl', cl]; rfl, by rw [cl', cl]; rfl, sched'.trans sched⟩

end Sys2Proof.Machine
end

section
/-!
PROOFS. The statements of 13_hedgerow.md on records and relays: what a window that opens starts.
-/
namespace Sys2Proof.Machine

theorem onward_eq (s : State) {a b : Dev} (h : a = b) :
    (Host.Outcome.next (onward s a) : Host.Outcome State Fault Refusal) = .next (onward s b) := by rw [h]

/-- In an open window a worker queues its relays and its records, and cells start. -/
def inWindow (ce : List (BitVec 23)) (ue : Option (Byte × Word)) (w : Dev) : Dev :=
  pumpSlots (if w.sys.role = 1 then workerDrain ce ue (sendRelays w) else w)

section
variable {r : Bool} {ce : List (BitVec 23)} {ue : Option (Byte × Word)} {e : NodeEntry} {w : Dev}

theorem exec_slotOpen {s : State} (hf : s.dev.sys.fclkOn = true) (hc : s.dev.committed = true) (he : tableEntry s.dev s.dev.sys.nodeId = some e) :
    exec (.slotOpen ⟨r, ce, ue⟩) s =
      .next (onward s (inWindow ce ue (windowOn r (passTo (s.dev.hr.tickClk + e.slotOffset.toNat) s.dev)))) :=
  (ringRow_on _ hf).trans (onward_eq s (slotOpen_eq hc he))

/-- No relay has anything to tell, and the drain passes nothing. -/
theorem inWindow_quiet (h : w.sys.role ≠ 1 ∨ ((∀ i : Fin 64, w.hr.relays[i].still) ∧ (w.cfg.bins = [] ∨ w.dr.frozen = true))) :
    inWindow ce ue w = pumpSlots w := by
  unfold inWindow
  rcases h with h | ⟨still, drain⟩
  · rw [if_neg h]
  · rw [sendRelays_still still, workerDrain_none drain, ite_self]

/-- Relay `i` starts anew. -/
def relayTold (i : Fin 64) (d : Dev) : Dev := updHr (fun h => { h with relays := put h.relays i { h.relays[i] with prev := 0 } }) d

theorem relayOut_tells {i : Fin 64} (hen : w.hr.relays[i].en = true) (hp : w.hr.relays[i].prev ≠ 0) :
    relayOut w i = relayTold i (sendCell (masterNode w) tEVREL w.hr.relays[i].cell w) := by
  have tells : (w.hr.relays[i].en && w.hr.relays[i].prev != 0) = true := by rw [hen, bne_iff_ne.2 hp]; rfl
  exact if_pos tells

/-- After the relays, with no bin to drain and no cell that waits. -/
theorem inWindow_drained {u : Dev} (hr : w.sys.role = 1) (h : sendRelays w = u) (hb : u.cfg.bins = []) (hs : u.hr.sched = []) :
    inWindow ce ue w = u := by
  unfold inWindow
  rw [if_pos hr, h, workerDrain_none (.inl hb), pumpSlots_empty hs]

variable (hd : Starts r e w) (hs : w.hr.sched = [])
include hd hs

/-- One relay with occurrences in the tick before: its EVREL goes, and it starts anew. -/
theorem inWindow_relay {i : Fin 64} (hc : w.committed = true) (hr : w.sys.role = 1) (hb : w.cfg.bins = []) (hen : w.hr.relays[i].en = true)
    (hp : w.hr.relays[i].prev ≠ 0) (others : ∀ j : Fin 64, j ≠ i → w.hr.relays[j].still) (hw : wayTo w (masterNode w) = slotPort r)
    (fits : spent r w + 40 ≤ e.most r) : inWindow ce ue w =
      emits (slotPort r) (ownCell w (masterNode w) tEVREL w.hr.relays[i].cell) (relayTold i (charged r 40 w)) := by
  have length : w.hr.relays[i].cell.length = 12 := by simp [Relay.cell]
  have starts := sendCell_starts (t := tEVREL) (l := w.hr.relays[i].cell) hd hc hs rfl hw (by omega)
  rw [length] at starts
  have relay : sendRelays w = relayTold i (emits (slotPort r) (ownCell w (masterNode w) tEVREL w.hr.relays[i].cell)
      (marked (ownCell w (masterNode w) tEVREL w.hr.relays[i].cell) (charged r 40 w))) :=
    (sendRelays_one others).trans ((relayOut_tells hen hp).trans (congrArg (relayTold i) (starts.trans (if_neg (Nat.not_lt.2 fits)))))
  have unmarked : marked (ownCell w (masterNode w) tEVREL w.hr.relays[i].cell) (charged r 40 w) = charged r 40 w := rfl
  rw [unmarked] at relay
  exact inWindow_drained hr relay hb rfl

end

/-! ### A record of a worker in its window (R495, R500) -/

theorem sentOff_emits (b : Fin 256) (x : Rec) (p : Fin 2) (c : Cell) (d : Dev) : sentOff b x (emits p c d) = emits p c (sentOff b x d) := rfl
theorem sentOff_queued (b : Fin 256) (x : Rec) (c : Cell) (d : Dev) : sentOff b x (queued c d) = queued c (sentOff b x d) := rfl

section
variable {r : Bool} {e : NodeEntry} {w : Dev} {b : Fin 256} {k : BinEntry} {x : Rec} (hs : w.hr.sched = [])
  (hr : w.sys.role = 1) (still : ∀ i : Fin 64, w.hr.relays[i].still) (hb : w.cfg.bins = [(b.val, k)]) (hx : w.cl.bins[b].recs = [x])
  (busy : x.busy = false) (hst : x.st = if k.sealed then .sealed else .released) (hf : w.dr.frozen = false)
include hs hr still hb hx busy hst hf

/-- A window that meets a record that cannot be read sends nothing. -/
theorem inWindow_unread : inWindow [] (some (BitVec.ofNat 8 b.val, x.seq)) w = freezeDrain b.val x.seq w := by
  have bin : (BitVec.ofNat 8 b.val).toNat = b.val := by simp
  obtain ⟨-, -, -, -, -, sched⟩ := freezeDrain_names b.val x.seq w
  unfold inWindow
  rw [if_pos hr, sendRelays_still still, workerDrain_one hx busy hst hf hb, Option.map_some, bin, sendRecords_unread hx busy hst hf]
  exact pumpSlots_empty (sched.trans hs)

variable (hd : Starts r e w)
include hd

/-- The record's one fragment is charged and goes in the window that pays for it; else it waits. -/
theorem inWindow_record (hc : w.committed = true) (hw : wayTo w (masterNode w) = slotPort r) (hl : (delivered k x w).length ≤ 248) :
    let c := ownCell w (masterNode w) tREC (wholeRec b.val x.seq (delivered k x w))
    let n := wireBytes (8 + (delivered k x w).length)
    inWindow [] none w = if e.most r < spent r w + n then queued c (sentOff b x w) else emits (slotPort r) c (sentOff b x (charged r n w)) := by
  intro c n
  have length : c.payload.length = 8 + (delivered k x w).length := length_wholeRec b.val x.seq (delivered k x w)
  obtain ⟨first, last⟩ := leAt_wholeRec b x.seq (delivered k x w)
  have drains : workerDrain [] none w = sentOff b x (sendCell (masterNode w) tREC c.payload w) := by
    rw [workerDrain_one hx busy hst hf hb, Option.map_none, sendRecords_one hx busy hst hf hl]
    rfl
  have starts : sendCell (masterNode w) tREC c.payload w = if e.most r < spent r w + n then queued c w else
      emits (slotPort r) c (marked c (charged r n w)) := by
    rw [sendCell_starts hd hc hs rfl hw (by omega), length]
    rfl
  have sent : sentOff b x (emits (slotPort r) c (marked c (charged r n w))) = emits (slotPort r) c (sentOff b x (charged r n w)) := by
    rw [sentOff_emits, sentOff_marked (c := c) rfl first last]
  unfold inWindow
  rw [if_pos hr, sendRelays_still still, drains, starts]
  by_cases fits : e.most r < spent r w + n
  · have again := pumpSlots_one (d := queued c (sentOff b x w)) (c := c) hd rfl hw (by omega)
    rw [length] at again
    rw [if_pos fits, if_pos fits, sentOff_queued]
    exact again.trans (if_pos fits)
  · rw [if_neg fits, if_neg fits, sent]
    exact pumpSlots_empty rfl

end

/-! ### What a window that has just opened starts -/

section
variable (r : Bool) (d : Dev)

theorem windowOn_role : (windowOn r d).sys.role = d.sys.role := rfl
theorem windowOn_relays : (windowOn r d).hr.relays = d.hr.relays := rfl
theorem windowOn_bins : (windowOn r d).cfg.bins = d.cfg.bins := rfl
theorem windowOn_frozen : (windowOn r d).dr.frozen = d.dr.frozen := rfl
theorem windowOn_tick : (windowOn r d).tb.tick = d.tb.tick := rfl
theorem windowOn_cl : (windowOn r d).cl = d.cl := rfl
theorem windowOn_wayTo : wayTo (windowOn r d) = wayTo d := rfl
theorem windowOn_masterNode : masterNode (windowOn r d) = masterNode d := rfl
theorem windowOn_ownCell : ownCell (windowOn r d) = ownCell d := rfl
theorem windowOn_spent (q : Bool) : spent q (windowOn r d) = spent q d := rfl

theorem windowOn_delivered (k : BinEntry) (x : Rec) : delivered k x (windowOn r d) = delivered k x d := delivered_mem rfl k x

end

section
variable {r : Bool} {ce : List (BitVec 23)} {ue : Option (Byte × Word)} {e : NodeEntry} {d : Dev}

theorem opened_quiet (h : d.sys.role ≠ 1 ∨ ((∀ i : Fin 64, d.hr.relays[i].still) ∧ (d.cfg.bins = [] ∨ d.dr.frozen = true))) :
    inWindow ce ue (windowOn r d) = pumpSlots (windowOn r d) :=
  inWindow_quiet (by rw [windowOn_role, windowOn_relays, windowOn_bins, windowOn_frozen]; exact h)

theorem opened_one {c : Cell} (hd : Starts r e (windowOn r d)) (hs : d.hr.sched = [c]) (hw : wayTo d c.dst = slotPort r) (hl : c.payload.length ≤ 256) :
    pumpSlots (windowOn r d) = if e.most r < spent r d + wireBytes c.payload.length then windowOn r d else
      emits (slotPort r) { c with tick := bf d.tb.tick 0 16 } (marked c (charged r (wireBytes c.payload.length) (windowOn r d))) := by
  rw [← windowOn_wayTo r d] at hw
  rw [pumpSlots_one hd hs hw hl, windowOn_spent, windowOn_tick]

theorem opened_relay {i : Fin 64} (hd : Starts r e (windowOn r d)) (hs : d.hr.sched = []) (hc : d.committed = true) (hr : d.sys.role = 1)
    (hb : d.cfg.bins = []) (hen : d.hr.relays[i].en = true) (hp : d.hr.relays[i].prev ≠ 0) (others : ∀ j : Fin 64, j ≠ i → d.hr.relays[j].still)
    (hw : wayTo d (masterNode d) = slotPort r) (fits : spent r d + 40 ≤ e.most r) : inWindow ce ue (windowOn r d) =
      emits (slotPort r) (ownCell d (masterNode d) tEVREL d.hr.relays[i].cell) (relayTold i (charged r 40 (windowOn r d))) := by
  rw [← windowOn_wayTo r d, ← windowOn_masterNode r d] at hw
  rw [inWindow_relay hd hs hc hr hb (i := i) hen hp others hw fits, windowOn_masterNode, windowOn_ownCell, windowOn_relays]

section
variable {b : Fin 256} {k : BinEntry} {x : Rec} (hs : d.hr.sched = [])
  (hr : d.sys.role = 1) (still : ∀ i : Fin 64, d.hr.relays[i].still) (hb : d.cfg.bins = [(b.val, k)]) (hx : d.cl.bins[b].recs = [x])
  (busy : x.busy = false) (hst : x.st = if k.sealed then .sealed else .released) (hf : d.dr.frozen = false)
include hs hr still hb hx busy hst hf

theorem opened_unread : ∃ t : Dev, inWindow [] (some (BitVec.ofNat 8 b.val, x.seq)) (windowOn r d) = t ∧ t.dr.frozen = true ∧
    t.dr.frzBin = BitVec.ofNat 8 b.val ∧ t.dr.frzSeq = x.seq ∧ t.cl.ue = true ∧ t.cl.bins = d.cl.bins ∧ t.hr.sched = [] := by
  obtain ⟨frozen, bin, seq, ue, bins, sched⟩ := freezeDrain_names b.val x.seq (windowOn r d)
  rw [windowOn_cl] at bins
  exact ⟨_, inWindow_unread (w := windowOn r d) hs hr still hb hx busy hst hf, frozen, bin, seq, ue, bins, sched.trans hs⟩

theorem opened_record (hd : Starts r e (windowOn r d)) (hc : d.committed = true) (hw : wayTo d (masterNode d) = slotPort r)
    (hl : (delivered k x d).length ≤ 248) :
    let c := ownCell d (masterNode d) tREC (wholeRec b.val x.seq (delivered k x d))
    let n := wireBytes (8 + (delivered k x d).length)
    inWindow [] none (windowOn r d) = if e.most r < spent r d + n then queued c (sentOff b x (windowOn r d))
      else emits (slotPort r) c (sentOff b x (charged r n (windowOn r d))) := by
  rw [← windowOn_wayTo r d, ← windowOn_masterNode r d] at hw
  rw [← windowOn_delivered r d] at hl
  intro c n
  have goes := inWindow_record (w := windowOn r d) hs hr still hb hx busy hst hf hd hc hw hl
  rw [windowOn_masterNode, windowOn_ownCell, windowOn_spent, windowOn_delivered] at goes
  exact goes

end

end

end Sys2Proof.Machine
end

section
/-!
PROOFS. The statements of 13_hedgerow.md on records and relays: a record of a worker at the master.
-/
namespace Sys2Proof.Machine

/-! ### What a REC comes to (R496) -/

/-- The record that a REC, RECACK or RECNAK names. -/
def Cell.recSeq (c : Cell) : Word := BitVec.ofNat 32 (leAt c.payload 4 4)

/-- The pair of the record's bin. -/
def recPair (c : Cell) (d : Dev) : Option (Nat × BinEntry) :=
  d.cfg.bins.find? fun x => x.2.ownerKind == 2 && x.2.owner.toNat == c.src.toNat && x.2.remoteBin.toNat == leAt c.payload 0 1

/-- The record that bin `b` takes next, once it has taken one. -/
def nextRec (b : Nat) (d : Dev) : Option Word := (d.hr.recNext.find? (·.1 == b)).map (·.2)

/-- Bin `b` has already had record `q`. -/
def hadRec (b : Nat) (q : Word) (d : Dev) : Bool := (nextRec b d).any fun w => w != q && decide ((w - 1 - q).toNat < 2 ^ 31)

theorem hadRec_iff (b : Nat) (q : Word) (d : Dev) :
    hadRec b q d = true ↔ ∃ w, nextRec b d = some w ∧ w ≠ q ∧ (w - 1 - q).toNat < 2 ^ 31 := by
  simp only [hadRec, Option.any_eq_true, Bool.and_eq_true, bne_iff_ne, decide_eq_true_eq]

/-- Bin `b` takes record `q` next. -/
def dueRec (b : Nat) (q : Word) (d : Dev) : Bool := (nextRec b d).isNone || nextRec b d == some q

theorem dueRec_iff (b : Nat) (q : Word) (d : Dev) : dueRec b q d = true ↔ nextRec b d = none ∨ nextRec b d = some q := by
  simp only [dueRec, Bool.or_eq_true, Option.isNone_iff_eq_none, beq_iff_eq]

/-- FIRST and LAST of a fragment. -/
theorem recFlag_eq (l : List Byte) : (leAt l 1 1 % 2 == 1) = bit (l.getD 1 0) 0 ∧ (leAt l 1 1 / 2 % 2 == 1) = bit (l.getD 1 0) 1 := by
  have byte : leAt l 1 1 = (l.getD 1 0).toNat := by
    match l with
    | [] => rfl
    | [_] => rfl
    | _ :: x :: _ => simp [leAt, leNat]
  rw [byte]
  generalize l.getD 1 0 = v
  revert v
  decide

/-- A record out of order is counted. -/
def outOfOrder (d : Dev) : Dev := updHr (fun h => { h with recOrder := satInc h.recOrder }) d

/-- A fragment is placed in its open record, which ends with the last one. -/
def placeRec (b : Nat) (k : BinEntry) (c : Cell) (d : Dev) : Dev :=
  let off := 8 * leAt c.payload 2 2
  let body := c.payload.drop 8
  match (bin d b).openRecs.find? fun r => r.seq == c.recSeq, (bin d b).fwd with
  | some r, some (q, n, w) =>
    let fits := body.take (8 * r.len - off)
    let w0 : DWord := if off = 0 then BitVec.ofNat 64 (leAt body 0 8) else w
    let skip := if off = 0 then 8 else 0
    let grown (z : Rec) : Rec :=
      if z.isOpen && z.slot == r.slot then { z with cursor := max z.cursor (off + fits.length), written := max z.written (off + fits.length) } else z
    let d1 := updBin b (fun y => { y with fwd := some (q, max n (off + fits.length), w0), recs := y.recs.map grown })
      (wrCellar (k.base.toNat + r.off + off + skip) (fits.drop skip) d)
    if leAt c.payload 1 1 / 2 % 2 == 1 then
      sendCell c.src tRECACK (recAnswer (leAt c.payload 0 1) c.recSeq [])
        (updHr (fun h => { h with recNext := (b, c.recSeq + 1) :: h.recNext.filter (·.1 != b) })
          (updBin b (fun y => { y with fwd := none, recs := y.recs.map fun z => if z.isOpen && z.slot == r.slot then { z with st := .ended } else z })
            (wrCellar (k.base.toNat + r.off) (leBytes 8 w0.toNat) d1)))
    else d1
  | _, _ => d

/-- The record's place is granted, as the worker's header says. -/
def openRec (b : Nat) (k : BinEntry) (c : Cell) (d : Dev) : Dev :=
  let body := c.payload.drop 8
  updBin b (fun y => { y with fwd := some (c.recSeq, 0, 0) })
    (grant b k (leAt body 6 2) (leAt body 5 1) (leAt body 4 1 / 8 * 8) (BitVec.ofNat 64 (leAt body 8 8)) c.recSeq d)

section
variable {c : Cell} {d : Dev}

theorem onRec_worker (h : d.hr.master = false) : onRec c d = d := by
  unfold onRec
  rw [h]
  rfl

theorem onRec_nopair (hm : d.hr.master = true) (hp : recPair c d = none) :
    onRec c d = updHr (fun h => { h with recNopair := satInc h.recNopair }) d := by
  unfold recPair at hp
  unfold onRec
  rw [hm]
  dsimp only
  rw [hp]
  rfl

variable {b : Fin 256} {k : BinEntry} (hm : d.hr.master = true) (hp : recPair c d = some (b.val, k))
include hm hp

/-- A first fragment of a paired bin. -/
theorem onRec_first (hf : bit (c.payload.getD 1 0) 0 = true) (hx : ∀ q, d.cl.bins[b].fwd = some q → q.1 ≠ c.recSeq) : onRec c d =
    if hadRec b.val c.recSeq d then sendCell c.src tRECACK (recAnswer (leAt c.payload 0 1) c.recSeq []) d
    else if d.cl.bins[b].fwd.isSome then outOfOrder d
    else if dueRec b.val c.recSeq d then
      if hasRoom k d.cl.bins[b] (leAt (c.payload.drop 8) 6 2) then placeRec b.val k c (openRec b.val k c d)
      else sendCell c.src tRECNAK (recAnswer (leAt c.payload 0 1) c.recSeq [1]) d
    else outOfOrder d := by
  unfold recPair at hp
  unfold onRec
  rw [hm]
  dsimp only
  rw [hp]
  dsimp only
  rw [bin_fin, (recFlag_eq _).1, hf]
  have next : (d.hr.recNext.find? (·.1 == b.val)).map (·.2) = nextRec b.val d := rfl
  rw [next]
  unfold hadRec dueRec
  cases hq : d.cl.bins[b].fwd with
  | none => cases nextRec b.val d <;> rfl
  | some q =>
    refine (if_neg Bool.false_ne_true).trans ((if_pos rfl).trans ((if_neg fun same => hx q hq (beq_iff_eq.1 same)).trans ?_))
    cases nextRec b.val d <;> rfl

/-- A later fragment counts only while another record is on its way. -/
theorem onRec_later (hf : bit (c.payload.getD 1 0) 0 = false) (hx : ∀ q, d.cl.bins[b].fwd = some q → q.1 ≠ c.recSeq) :
    onRec c d = if d.cl.bins[b].fwd.isSome then outOfOrder d else d := by
  unfold recPair at hp
  unfold onRec
  rw [hm]
  dsimp only
  rw [hp]
  dsimp only
  rw [bin_fin, (recFlag_eq _).1, hf]
  cases hq : d.cl.bins[b].fwd with
  | none => rfl
  | some q => exact (if_neg Bool.false_ne_true).trans ((if_neg Bool.false_ne_true).trans (if_neg fun same => hx q hq same))

end

end Sys2Proof.Machine
end

section
/-!
PROOFS. The statements of 13_hedgerow.md on records and relays: a whole record is placed.
-/
namespace Sys2Proof.Machine

/-! ### The place of a record (R290, R300) -/

/-- With fewer than eight reservations open, the slot that a new one takes is free. -/
theorem freeSlot_free {x : Bin} (h : x.openRecs.length < 8) : ∀ y ∈ x.openRecs, y.slot ≠ x.freeSlot := by
  unfold Bin.freeSlot
  cases hs : (List.range 8).find? fun s => x.openRecs.all fun r => r.slot ≠ s with
  | some s => simpa using List.find?_some hs
  | none =>
    have used : List.range 8 ⊆ x.openRecs.map Rec.slot := fun s hs' => by
      have := List.find?_eq_none.1 hs s hs'
      simpa using this
    have := (List.nodup_range.subperm used).length_le
    simp only [List.length_range, List.length_map] at this
    omega

theorem find_granted {x : Bin} {q : Word} (hx : ∀ y ∈ x.openRecs, y.seq ≠ q) (k : BinEntry) (L : Nat) :
    (x.granted k L q).openRecs.find? (fun r => r.seq == q) = some (x.opening k L q) := by
  have old : x.openRecs.find? (fun r => r.seq == q) = none := List.find?_eq_none.2 fun y hy => by simpa using hx y hy
  unfold Bin.openRecs Bin.granted at *
  dsimp only
  rw [List.filter_append, List.find?_append, old, Option.none_or, List.filter_cons_of_pos rfl, List.find?_cons_of_pos]
  exact beq_self_eq_true q

section
variable {b : Fin 256} {k : BinEntry} {L typ flags : Nat} {time : DWord} {q : Word} {d : Dev}

theorem wrCellar_mem (a : Nat) (l : List Byte) (d : Dev) : (wrCellar a l d).cl.mem = wrBytes d.cl.mem a l := rfl
theorem updBin_mem (n : Nat) (f : Bin → Bin) (d : Dev) : (updBin n f d).cl.mem = d.cl.mem := rfl

theorem wf_grant (h : Memory.wf d.cl.mem) : Memory.wf (grant b.val k L typ flags time q d).cl.mem := by
  unfold grant
  dsimp only
  rw [(raiseNextIf_frame _ _ _).cl_eq, updBin_mem, wrCellar_mem]
  refine wf_wrBytes ?_ _ _
  split
  · exact h
  · rw [wrCellar_mem]
    exact wf_wrBytes h _ _

theorem grant_bins : (grant b.val k L typ flags time q d).cl.bins = put d.cl.bins b (d.cl.bins[b].granted k L q) := by
  obtain ⟨m, h⟩ := grant_cl (b := b.val) (c := k) (L := L) (typ := typ) (flags := flags) (time := time) (seq := q) d
  rw [h]
  dsimp only
  rw [upd?_fin, bin_fin]
  rfl

end

/-! ### A record that is placed (R303, R313) -/

/-- A record of which `n` bytes have been written, ended. -/
def Rec.filled (n : Nat) (z : Rec) : Rec := { z with cursor := max z.cursor n, written := max z.written n, st := .ended }

/-- The device with `m` as the Cellar's bytes and `x` as bin `b`. -/
def cellarAs (b : Fin 256) (m : Bytes) (x : Bin) (d : Dev) : Dev := { d with cl := { d.cl with mem := m, bins := put d.cl.bins b x } }

theorem wrCellar_as (b : Fin 256) (a : Nat) (l : List Byte) (m : Bytes) (x : Bin) (d : Dev) :
    wrCellar a l (cellarAs b m x d) = cellarAs b (wrBytes m a l) x d := rfl

theorem updBin_as (b : Fin 256) (f : Bin → Bin) (m : Bytes) (x : Bin) (d : Dev) : updBin b.val f (cellarAs b m x d) = cellarAs b m (f x) d :=
  updBin_put b f m x d

theorem updBin_wrCellar (b : Fin 256) (f : Bin → Bin) (a : Nat) (l : List Byte) (d : Dev) :
    updBin b.val f (wrCellar a l d) = cellarAs b (wrBytes d.cl.mem a l) (f d.cl.bins[b]) d := updBin_fin b f _

/-- The bin without a record on its way, record `r` ended with `n` bytes written. -/
def Bin.filled (r : Rec) (n : Nat) (x : Bin) : Bin :=
  { x with fwd := none, recs := x.recs.map fun z => if z.isOpen && z.slot == r.slot then z.filled n else z }

/-- The device with the bytes `l` of record `r` placed, the record ended, and the one after `q` expected. -/
def filledRec (b : Fin 256) (k : BinEntry) (r : Rec) (q : Word) (l : List Byte) (t : Dev) : Dev :=
  updHr (fun h => { h with recNext := (b.val, q + 1) :: h.recNext.filter (·.1 != b.val) })
    (cellarAs b (wrBytes (wrBytes t.cl.mem (k.base.toNat + r.off + 8) (l.drop 8)) (k.base.toNat + r.off) (l.take 8)) (t.cl.bins[b].filled r l.length) t)

/-- Elements that are changed twice. -/
theorem map_twice {α : Type} (p : α → Bool) (f g : α → α) (h : ∀ z, p z = true → p (f z) = true) (l : List α) :
    (l.map fun z => if p z then f z else z).map (fun z => if p z then g z else z) = l.map fun z => if p z then g (f z) else z := by
  rw [List.map_map]
  refine List.map_congr_left fun z _ => ?_
  by_cases hz : p z = true <;> simp [hz, h]

theorem leNat_lt (l : List Byte) : leNat l < 256 ^ l.length := by
  induction l with
  | nil => decide
  | cons b l ih =>
    have low := b.isLt
    rw [leNat, List.length_cons, Nat.pow_succ]
    omega

theorem leBytes_leNat (l : List Byte) : leBytes l.length (leNat l) = l := by
  induction l with
  | nil => rfl
  | cons b l ih =>
    have low := b.isLt
    rw [List.length_cons, leBytes, leNat, show (b.toNat + 256 * leNat l) / 256 = leNat l by omega, ih]
    congr 1
    exact BitVec.eq_of_toNat_eq (by rw [BitVec.toNat_ofNat]; omega)

/-- The first word of a record, as the worker wrote it. -/
theorem firstWord {l : List Byte} (h : 8 ≤ l.length) : leBytes 8 (BitVec.ofNat 64 (leAt l 0 8)).toNat = l.take 8 := by
  have length : (l.take 8).length = 8 := by simp [h]
  have word := leBytes_leNat (l.take 8)
  have small : leNat (l.take 8) < 2 ^ 64 := (leNat_lt _).trans_eq (by rw [length]; rfl)
  rw [length] at word
  rw [leAt, List.drop_zero, BitVec.toNat_ofNat, Nat.mod_eq_of_lt small, word]

section
variable {b : Fin 256} {k : BinEntry} {c : Cell} {r : Rec} {t : Dev}

/-- One fragment holds the whole record. -/
theorem placeRec_whole {x : Word × Nat × DWord} (hr : t.cl.bins[b].openRecs.find? (fun z => z.seq == c.recSeq) = some r)
    (hx : t.cl.bins[b].fwd = some x) (hl : bit (c.payload.getD 1 0) 1 = true) (ho : leAt c.payload 2 2 = 0) (h2 : 2 ≤ r.len)
    (hb : (c.payload.drop 8).length = 8 * r.len) : placeRec b.val k c t =
      sendCell c.src tRECACK (recAnswer (leAt c.payload 0 1) c.recSeq []) (filledRec b k r c.recSeq (c.payload.drop 8) t) := by
  have whole : (c.payload.drop 8).take (8 * r.len) = c.payload.drop 8 := List.take_of_length_le hb.le
  have word := firstWord (l := c.payload.drop 8) (by omega)
  obtain ⟨q, n, w⟩ := x
  unfold placeRec
  rw [bin_fin, hr, hx, ho, (recFlag_eq _).2, hl]
  dsimp only
  rw [if_pos rfl, Nat.mul_zero, if_pos rfl, if_pos rfl, Nat.sub_zero, whole, word, Nat.zero_add, Nat.add_zero]
  rw [updBin_wrCellar b _ (k.base.toNat + r.off + 8) _ t, wrCellar_as, updBin_as]
  unfold filledRec Bin.filled
  dsimp only
  congr 4
  refine map_twice (fun z : Rec => z.isOpen && z.slot == r.slot) _ _ ?_ _
  exact fun _ h => h

end

/-! ### The bytes and the bin of a record that is placed -/

theorem rdBytes_add (m : Bytes) (a i j : Nat) : rdBytes m a (i + j) = rdBytes m a i ++ rdBytes m (a + i) j := by
  unfold rdBytes
  rw [List.range_add, List.map_append, List.map_map]
  congr 1
  exact List.map_congr_left fun n _ => congrArg (rd8 m) (Nat.add_assoc a i n).symm

/-- A list that is written in two parts, the second one first. -/
theorem rdBytes_parts {m : Bytes} (h : Memory.wf m) (a : Nat) (l : List Byte) (hl : 8 ≤ l.length) :
    rdBytes (wrBytes (wrBytes m (a + 8) (l.drop 8)) a (l.take 8)) a l.length = l := by
  have w := wf_wrBytes h (a + 8) (l.drop 8)
  have front : (l.take 8).length = 8 := by simp [hl]
  have back : (l.drop 8).length = l.length - 8 := List.length_drop
  have first := rdBytes_wrBytes w a (l.take 8)
  have second := rdBytes_wrBytes h (a + 8) (l.drop 8)
  rw [front] at first
  rw [back] at second
  have kept : rdBytes (wrBytes (wrBytes m (a + 8) (l.drop 8)) a (l.take 8)) (a + 8) (l.length - 8) =
      rdBytes (wrBytes m (a + 8) (l.drop 8)) (a + 8) (l.length - 8) :=
    rdBytes_congr fun i _ => rd8_wrBytes_outside w a _ _ (.inr (by omega))
  calc rdBytes (wrBytes (wrBytes m (a + 8) (l.drop 8)) a (l.take 8)) a l.length
      = rdBytes (wrBytes (wrBytes m (a + 8) (l.drop 8)) a (l.take 8)) a (8 + (l.length - 8)) := by rw [Nat.add_sub_cancel' hl]
    _ = l.take 8 ++ l.drop 8 := by rw [rdBytes_add, first, kept, second]
    _ = l := List.take_append_drop 8 l

section
variable {b : Fin 256} {k : BinEntry} {c : Cell} {d : Dev}

/-- The bin with the record's place open and the record on its way. -/
def Bin.arriving (k : BinEntry) (L : Nat) (q : Word) (x : Bin) : Bin := { x.granted k L q with fwd := some (q, 0, 0) }

theorem openRec_acts : CellarActs d (openRec b.val k c d) := (grant_acts _).trans (cellarActs_updBin _ _ _)

theorem openRec_bins : (openRec b.val k c d).cl.bins =
    put d.cl.bins b (d.cl.bins[b].arriving k (leAt (c.payload.drop 8) 6 2) c.recSeq) := by
  unfold openRec
  dsimp only
  rw [updBin_fin, grant_bins, put_put, put_self]
  rfl

theorem wf_openRec (h : Memory.wf d.cl.mem) : Memory.wf (openRec b.val k c d).cl.mem := by
  unfold openRec
  rw [updBin_mem]
  exact wf_grant h

end

section
variable {x : Bin} {k : BinEntry} {L : Nat} {q : Word} (hx : x.openRecs.length < 8)
include hx

/-- The new record alone is in its slot. -/
theorem filled_arriving : ((x.arriving k L q).filled (x.opening k L q) (8 * L)).recs = x.recs ++ [(x.opening k L q).filled (8 * L)] := by
  have free := freeSlot_free hx
  have others : x.recs.map (fun z => if z.isOpen && z.slot == x.freeSlot then z.filled (8 * L) else z) = x.recs := by
    refine (List.map_congr_left fun z hz => if_neg fun h => ?_).trans (List.map_id _)
    rw [Bool.and_eq_true, beq_iff_eq] at h
    exact free z (List.mem_filter.2 ⟨hz, h.1⟩) h.2
  have own : (if (x.opening k L q).isOpen && (x.opening k L q).slot == x.freeSlot then (x.opening k L q).filled (8 * L) else x.opening k L q) =
      (x.opening k L q).filled (8 * L) := if_pos (by simp [Rec.isOpen, Bin.opening])
  show (x.recs ++ [x.opening k L q]).map (fun z => if z.isOpen && z.slot == x.freeSlot then z.filled (8 * L) else z) = _
  rw [List.map_append, others, List.map_singleton, own]

end

section
variable {b : Fin 256} {k : BinEntry} {c : Cell} {d : Dev} (hl : bit (c.payload.getD 1 0) 1 = true) (ho : leAt c.payload 2 2 = 0)
  (h2 : 2 ≤ leAt (c.payload.drop 8) 6 2) (hb : (c.payload.drop 8).length = 8 * leAt (c.payload.drop 8) 6 2)
  (hs : ∀ y ∈ d.cl.bins[b].openRecs, y.seq ≠ c.recSeq)
include hl ho h2 hb hs

/-- The record's bytes are placed in the place that was granted, and it ends. -/
theorem placeRec_opened : placeRec b.val k c (openRec b.val k c d) = sendCell c.src tRECACK (recAnswer (leAt c.payload 0 1) c.recSeq [])
    (filledRec b k (d.cl.bins[b].opening k (leAt (c.payload.drop 8) 6 2) c.recSeq) c.recSeq (c.payload.drop 8) (openRec b.val k c d)) := by
  have bin : (openRec b.val k c d).cl.bins[b] = d.cl.bins[b].arriving k (leAt (c.payload.drop 8) 6 2) c.recSeq := by
    rw [openRec_bins, put_self]
  exact placeRec_whole (by rw [bin]; exact find_granted hs k _) (by rw [bin]; rfl) hl ho h2 hb

end

end Sys2Proof.Machine
end

section
/-!
PROOFS. The statements of 13_hedgerow.md on records and relays: answers to a worker, and records and relays as stated.
-/
namespace Sys2Proof.Machine

/-! ### RECACK, RECNAK and REC_RESEND (R497) -/

/-- The device with all records of bin `b` to be sent again. -/
def resent (b : Fin 256) (d : Dev) : Dev := { d with
  cl := { d.cl with bins := put d.cl.bins b { d.cl.bins[b] with recs := d.cl.bins[b].recs.map fun r => { r with busy := false } } }
  hr := { d.hr with
    sent := d.hr.sent.filter (·.bin != b.val)
    sched := d.hr.sched.filter fun y => !(y.typ == tREC && leAt y.payload 0 1 == b.val) } }

/-- A record noted as sent is due to be sent again. -/
def SentRec.late (b : Fin 256) (d : Dev) (y : SentRec) : Prop :=
  y.bin = b.val ∧ 3 ≤ (d.tb.tick - y.tick).toNat ∧ fragmentWaits d b.val y.seq = false

section
variable {b : Fin 256} {c : Cell} {d : Dev} (hb : leAt c.payload 0 1 = b.val)

include hb in
theorem onRecack_none (h : binCfg? d b.val = none ∨ d.cl.bins[b].recs = [] ∨
    ∃ r rest, d.cl.bins[b].recs = r :: rest ∧ (r.seq ≠ c.recSeq ∨ r.busy = false)) : onRecack c d = d := by
  unfold onRecack
  dsimp only
  rw [hb]
  cases hc : binCfg? d b.val with
  | none => rfl
  | some k =>
    rcases h with h | h | ⟨r, rest, h, hr⟩
    · rw [h] at hc
      cases hc
    · rw [bin_fin, h]
    · rw [bin_fin, h]
      exact if_neg fun x => hr.elim (· x.1) fun busy => Bool.false_ne_true (busy ▸ x.2)

include hb in
/-- The record that was sent is taken. -/
theorem onRecack_takes {k : BinEntry} {r : Rec} {rest : List Rec} (hc : binCfg? d b.val = some k) (hx : d.cl.bins[b].recs = r :: rest)
    (hq : r.seq = c.recSeq) (hr : r.busy = true) : onRecack c d =
      takenTo b rest (afterRec k r) (updHr (fun h => { h with sent := h.sent.filter fun y => !(y.bin == b.val && y.seq == c.recSeq) }) d) := by
  unfold onRecack
  dsimp only
  rw [hb, hc, bin_fin, hx]
  exact (if_pos ⟨hq, hr⟩).trans (takeFirst_cons hx)

theorem resendBin_none (h : ∀ y ∈ d.hr.sent, y.bin ≠ b.val) : resendBin b.val d = d :=
  if_neg (by simpa using h)

theorem resendBin_sent (h : ∃ y ∈ d.hr.sent, y.bin = b.val) : resendBin b.val d = resent b d := by
  have sent : d.hr.sent.any (·.bin == b.val) = true := by simpa using h
  unfold resendBin
  rw [if_pos sent, updRec_eq, updBin_fin]
  rfl

theorem late_iff : (d.hr.sent.any fun x => x.bin == b.val && decide (3 ≤ (d.tb.tick - x.tick).toNat) && !fragmentWaits d b.val x.seq) = true ↔
    ∃ y ∈ d.hr.sent, y.late b d := by
  simp only [SentRec.late, List.any_eq_true, Bool.and_eq_true, beq_iff_eq, decide_eq_true_eq, Bool.not_eq_true', and_assoc]

theorem recResend_late (h : ∃ y ∈ d.hr.sent, y.late b d) : recResend b.val d = resent b d :=
  (if_pos (late_iff.2 h)).trans (resendBin_sent (h.imp fun _ hy => ⟨hy.1, hy.2.1⟩))

theorem recResend_none (h : ∀ y ∈ d.hr.sent, ¬ y.late b d) : recResend b.val d = d :=
  if_neg fun x => let ⟨y, hy, late⟩ := late_iff.1 x; h y hy late

end

/-! ### EVREL (R498) -/

theorem onEvrel_worker {c : Cell} {d : Dev} (h : d.hr.master = false) : onEvrel c d = d := by
  unfold onEvrel
  rw [h]
  rfl

theorem onEvrel_counts {c : Cell} {d : Dev} {ch : Fin 64} (hm : d.hr.master = true) (hc : leAt c.payload 0 2 = ch.val) : onEvrel c d =
    raise (0x5C0 + ch.val) (updHr (fun h => { h with
      relayCnt := put h.relayCnt ch (satInc h.relayCnt[ch] (leAt c.payload 4 2)), relayNode := put h.relayNode ch c.src }) d) := by
  unfold onEvrel
  rw [hm, hc, Nat.mod_eq_of_lt ch.isLt]
  dsimp only
  unfold updHr
  dsimp only
  rw [upd?_fin, put?_fin]
  rfl

/-! ### The answers of a paired bin (R496) -/

section
variable {c : Cell} {d : Dev} {b : Fin 256} {k : BinEntry} (hm : d.hr.master = true) (hp : recPair c d = some (b.val, k))

/-- Another record is on its way to the bin. -/
def onItsWay (b : Fin 256) (q : Word) (d : Dev) : Prop := ∃ x, d.cl.bins[b].fwd = some x ∧ x.1 ≠ q

theorem others_of {q : Word} (h : d.cl.bins[b].fwd = none ∨ onItsWay b q d) : ∀ x, d.cl.bins[b].fwd = some x → x.1 ≠ q := by
  intro x hx
  rcases h with h | ⟨y, h, hy⟩
  · rw [h] at hx
    cases hx
  · rw [h] at hx
    exact Option.some.inj hx ▸ hy

theorem isSome_of {q : Word} (h : onItsWay b q d) : d.cl.bins[b].fwd.isSome = true := by
  obtain ⟨y, h, -⟩ := h
  rw [h]
  rfl

include hm hp

theorem onRec_laterOther (hf : bit (c.payload.getD 1 0) 0 = false) (h : onItsWay b c.recSeq d) : onRec c d = outOfOrder d :=
  (onRec_later hm hp hf (others_of (.inr h))).trans (if_pos (isSome_of h))

theorem onRec_laterNone (hf : bit (c.payload.getD 1 0) 0 = false) (h : d.cl.bins[b].fwd = none) : onRec c d = d :=
  (onRec_later hm hp hf (others_of (.inl h))).trans (if_neg (by rw [h]; exact Bool.false_ne_true))

variable (hf : bit (c.payload.getD 1 0) 0 = true)
include hf

theorem onRec_had (h : d.cl.bins[b].fwd = none ∨ onItsWay b c.recSeq d)
    (had : ∃ w, nextRec b.val d = some w ∧ w ≠ c.recSeq ∧ (w - 1 - c.recSeq).toNat < 2 ^ 31) :
    onRec c d = sendCell c.src tRECACK (recAnswer (leAt c.payload 0 1) c.recSeq []) d :=
  (onRec_first hm hp hf (others_of h)).trans (if_pos ((hadRec_iff _ _ _).2 had))

theorem onRec_other (h : onItsWay b c.recSeq d)
    (had : ¬ ∃ w, nextRec b.val d = some w ∧ w ≠ c.recSeq ∧ (w - 1 - c.recSeq).toNat < 2 ^ 31) : onRec c d = outOfOrder d := by
  rw [onRec_first hm hp hf (others_of (.inr h)), if_neg fun x => had ((hadRec_iff _ _ _).1 x), if_pos (isSome_of h)]

/-- With none on its way, a record that is next is placed, or answered that there is no room. -/
theorem onRec_due (h : d.cl.bins[b].fwd = none) (due : nextRec b.val d = none ∨ nextRec b.val d = some c.recSeq) : onRec c d =
    if hasRoom k d.cl.bins[b] (leAt (c.payload.drop 8) 6 2) then placeRec b.val k c (openRec b.val k c d)
    else sendCell c.src tRECNAK (recAnswer (leAt c.payload 0 1) c.recSeq [1]) d := by
  have had : ¬ hadRec b.val c.recSeq d = true := fun x => by
    obtain ⟨w, hw, ne, -⟩ := (hadRec_iff _ _ _).1 x
    rcases due with none | own
    · rw [none] at hw
      cases hw
    · rw [own] at hw
      exact ne (Option.some.inj hw).symm
  rw [onRec_first hm hp hf (others_of (.inl h)), if_neg had, h, Option.isSome_none, if_neg Bool.false_ne_true, if_pos ((dueRec_iff _ _ _).2 due)]

theorem onRec_full (h : d.cl.bins[b].fwd = none) (due : nextRec b.val d = none ∨ nextRec b.val d = some c.recSeq)
    (room : hasRoom k d.cl.bins[b] (leAt (c.payload.drop 8) 6 2) = false) :
    onRec c d = sendCell c.src tRECNAK (recAnswer (leAt c.payload 0 1) c.recSeq [1]) d :=
  (onRec_due hm hp hf h due).trans (if_neg (by rw [room]; exact Bool.false_ne_true))

theorem onRec_ahead (h : d.cl.bins[b].fwd = none) {w : Word} (hn : nextRec b.val d = some w) (hw : w ≠ c.recSeq)
    (far : 2 ^ 31 ≤ (w - 1 - c.recSeq).toNat) : onRec c d = outOfOrder d := by
  have had : ¬ hadRec b.val c.recSeq d = true := fun x => by
    obtain ⟨v, hv, -, near⟩ := (hadRec_iff _ _ _).1 x
    rw [hn] at hv
    cases hv
    omega
  have due : ¬ dueRec b.val c.recSeq d = true := fun x => by
    rcases (dueRec_iff _ _ _).1 x with none | own
    · rw [hn] at none
      cases none
    · rw [hn] at own
      exact hw (Option.some.inj own)
  rw [onRec_first hm hp hf (others_of (.inl h)), if_neg had, h, Option.isSome_none, if_neg Bool.false_ne_true, if_neg due]

end

/-! ### A whole record as stated (R313, R496) -/

/-- An answer to the worker that sent `c`. -/
def recReply (c : Cell) (t : Byte) (reason : List Byte) (d : Dev) : Dev :=
  sends c.src t (leBytes 4 (leAt c.payload 0 1) ++ leBytes 4 c.recSeq.toNat ++ reason) d

theorem sendCell_reply {c : Cell} {d : Dev} (h : CanSend d c.src) {t : Byte} (ht : isSched t = true) {l : List Byte} (hl : l.length ≤ 1) :
    sendCell c.src t (recAnswer (leAt c.payload 0 1) c.recSeq l) d = recReply c t l d := by
  refine sendCell_sends h ht ?_
  simp only [recAnswer, List.length_append, length_leBytes]
  omega

/-- What a record that is placed may change. -/
def RecFrame (d t : Dev) : Prop := t = { d with cl := t.cl, ev := t.ev, hr := { d.hr with recNext := t.hr.recNext, relays := t.hr.relays } }

theorem filledRec_frame {d u : Dev} (h : CellarActs d u) (b : Fin 256) (k : BinEntry) (r : Rec) (q : Word) (l : List Byte) :
    RecFrame d (filledRec b k r q l u) := by
  unfold CellarActs at h
  unfold RecFrame
  rw [h]
  rfl

theorem filledRec_bins {b : Fin 256} {k : BinEntry} {u : Dev} (r : Rec) (q : Word) (l : List Byte) :
    (filledRec b k r q l u).cl.bins = put u.cl.bins b (u.cl.bins[b].filled r l.length) := rfl

theorem RecFrame.canSend {d t : Dev} (h : RecFrame d t) {n : BitVec 5} (hd : CanSend d n) : CanSend t n := by
  unfold RecFrame at h
  rw [h]
  exact hd

section
variable {b : Fin 256} {k : BinEntry} {c : Cell} {d : Dev}

theorem onRec_whole (hm : d.hr.master = true) (hp : recPair c d = some (b.val, k)) (hd : CanSend d c.src) (hf : bit (c.payload.getD 1 0) 0 = true)
    (hl : bit (c.payload.getD 1 0) 1 = true) (hx : d.cl.bins[b].fwd = none) (due : nextRec b.val d = none ∨ nextRec b.val d = some c.recSeq)
    (room : hasRoom k d.cl.bins[b] (leAt (c.payload.drop 8) 6 2) = true) (ho : leAt c.payload 2 2 = 0) (h2 : 2 ≤ leAt (c.payload.drop 8) 6 2)
    (hb : (c.payload.drop 8).length = 8 * leAt (c.payload.drop 8) 6 2) (hs : ∀ y ∈ d.cl.bins[b].openRecs, y.seq ≠ c.recSeq) :
    let L := leAt (c.payload.drop 8) 6 2
    ∃ (t : Dev) (r : Rec), onRec c d = recReply c tRECACK [] t ∧ RecFrame d t ∧ t.cl.bins[b].recs = d.cl.bins[b].recs ++ [r] ∧ r.seq = c.recSeq ∧
      r.len = L ∧ r.written = 8 * L ∧ r.st = .ended ∧ t.cl.bins[b].fwd = none ∧
      (Memory.wf d.cl.mem → rdBytes t.cl.mem (k.base.toNat + r.off) (8 * L) = c.payload.drop 8) ∧
      t.hr.recNext.find? (·.1 == b.val) = some (b.val, c.recSeq + 1) ∧ ∀ f : Fin 256, f ≠ b → t.cl.bins[f] = d.cl.bins[f] := by
  intro L
  have frame := filledRec_frame (openRec_acts (b := b) (k := k) (c := c) (d := d)) b k (d.cl.bins[b].opening k L c.recSeq) c.recSeq (c.payload.drop 8)
  have bins := filledRec_bins (b := b) (k := k) (u := openRec b.val k c d) (d.cl.bins[b].opening k L c.recSeq) c.recSeq (c.payload.drop 8)
  have few : d.cl.bins[b].openRecs.length < 8 := by
    unfold hasRoom at room
    simpa using (Bool.and_eq_true_iff.1 room).2
  rw [openRec_bins, put_put, put_self, hb] at bins
  refine ⟨filledRec b k (d.cl.bins[b].opening k L c.recSeq) c.recSeq (c.payload.drop 8) (openRec b.val k c d),
    (d.cl.bins[b].opening k L c.recSeq).filled (8 * L), ?_, frame, ?_, rfl, rfl, ?_, rfl, ?_, fun wf => ?_, ?_, fun f hne => ?_⟩
  · rw [onRec_due hm hp hf hx due, if_pos room, placeRec_opened hl ho h2 hb hs]
    exact sendCell_reply (frame.canSend hd) rfl (by simp)
  · rw [bins, put_self]
    exact filled_arriving few
  · show max 16 (8 * L) = 8 * L
    omega
  · rw [bins, put_self]
    rfl
  · have bytes := rdBytes_parts (wf_openRec (b := b) (k := k) (c := c) wf)
      (k.base.toNat + (d.cl.bins[b].opening k L c.recSeq).off) (c.payload.drop 8) (by omega)
    rw [hb] at bytes
    exact bytes
  · exact List.find?_cons_of_pos (beq_self_eq_true b.val)
  · rw [bins]
    exact put_other _ _ hne

end

/-! ### As stated -/

theorem passTo_ready {d : Dev} {e : NodeEntry} (n : Nat) (hc : d.committed = true) (he : tableEntry d d.sys.nodeId = some e) :
    (passTo n d).committed = true ∧ tableEntry (passTo n d) (passTo n d).sys.nodeId = some e := by
  obtain ⟨committed, sys, table⟩ := passTo_window n d
  refine ⟨committed.trans hc, ?_⟩
  unfold tableEntry at *
  rw [sys, table]
  exact he

theorem starts_windowOn {r : Bool} {e : NodeEntry} {d : Dev} (hf : d.hr.foreign = false) (hi : Idle (rport d (slotPort r)))
    (ht : tableEntry d d.sys.nodeId = some e) : Starts r e (windowOn r d) :=
  ⟨by cases r <;> rfl, hf, hi, ht⟩

theorem exec_recCell {s : State} {p : Fin 2} {c : Cell} (h : InOrder s.dev p c) (ht : c.typ = tREC) (hm : mine s.dev c = true) {t : Dev}
    (ho : onRec c (accepted p c s.dev) = t) : exec (.recCell p c.bytes .clean) s = .next (onward s (settles p t)) :=
  ho ▸ cellRow_next h ht hm rfl (by decide)

theorem exec_recack {s : State} {p : Fin 2} {c : Cell} (h : InOrder s.dev p c) (ht : c.typ = tRECACK) (hm : mine s.dev c = true) {t : Dev}
    (ho : onRecack c (accepted p c s.dev) = t) : exec (.recack p c.bytes .clean) s = .next (onward s (settles p t)) :=
  ho ▸ cellRow_next h ht hm rfl (by decide)

theorem exec_recnak {s : State} {p : Fin 2} {c : Cell} (h : InOrder s.dev p c) (ht : c.typ = tRECNAK) (hm : mine s.dev c = true) {t : Dev}
    (ho : onRecnak c (accepted p c s.dev) = t) : exec (.recnak p c.bytes .clean) s = .next (onward s (settles p t)) :=
  ho ▸ cellRow_next h ht hm rfl (by decide)

theorem exec_evrel {s : State} {p : Fin 2} {c : Cell} (h : InOrder s.dev p c) (ht : c.typ = tEVREL) (hm : mine s.dev c = true) {t : Dev}
    (ho : onEvrel c (accepted p c s.dev) = t) : exec (.evrel p c.bytes .clean) s = .next (onward s (settles p t)) :=
  ho ▸ cellRow_next h ht hm rfl (by decide)

theorem exec_recResend {s : State} {b : Fin 256} (hf : s.dev.sys.fclkOn = true) {t : Dev} (h : recResend b.val s.dev = t) :
    exec (.recResend b) s = .next (onward s t) :=
  h ▸ ringRow_on _ hf

/-- Settles O58: a window by what waits in it, a record by what its bin expects, answers and relays by their equations. -/
theorem recordsAndRelaysOverTheRing : Obligations.RecordsAndRelaysOverTheRing := by
  unfold Obligations.RecordsAndRelaysOverTheRing
  refine ⟨fun r ce ue s hf h => ?_, fun r ce ue s e hf hc he => ?_, fun p c s h ht hm => ?_, fun p c b s h hm hb => ?_, fun b s => ?_,
    fun p c s h ht hm => ⟨fun hw => ?_, fun ch hmaster hch => ?_⟩⟩
  · exact (ringRow_on _ hf).trans (onward_eq s (slotOpen_none h))
  · intro p d d1 used most paid wire still quiet ready
    have row : ∀ ce ue, exec (.slotOpen ⟨r, ce, ue⟩) s = .next (onward s (inWindow ce ue (windowOn r d))) := fun ce ue => exec_slotOpen hf hc he
    obtain ⟨hcommitted, htable⟩ : d.committed = true ∧ tableEntry d d.sys.nodeId = some e := passTo_ready _ hc he
    have starts : ready → Starts r e (windowOn r d) := fun h => starts_windowOn h.1 h.2 htable
    have hd1 : d1 = windowOn r d := windowOn_eq r d
    have hpaid : paid = charged r := funext fun n => funext fun t => charged_eq r n t
    have hport : p = slotPort r := rfl
    have hused : used = spent r d := rfl
    have hmost : most = e.most r := rfl
    have hwire : wire = wireBytes := rfl
    clear_value p d used most wire d1 paid
    subst hport hused hmost hwire hd1 hpaid
    refine ⟨fun hq hs => ?_, fun c hq hs hw hl hr => ?_, fun i hrole hb hs hr hen hp others hw fits => ?_,
      fun b k x hrole hstill hb hs hr hx busy hst hfz hw hl => ?_⟩
    · exact (row ce ue).trans (onward_eq s ((opened_quiet hq).trans (pumpSlots_empty hs)))
    · have goes := (opened_quiet (r := r) (ce := ce) (ue := ue) hq).trans (opened_one (starts hr) hs hw hl)
      exact ⟨fun fits => (row ce ue).trans (onward_eq s (goes.trans (if_neg (Nat.not_lt.2 fits)))),
        fun short => (row ce ue).trans (onward_eq s (goes.trans (if_pos short)))⟩
    · exact (row ce ue).trans (onward_eq s (opened_relay (starts hr) hs hcommitted hrole hb hen hp others hw fits))
    · have goes := opened_record hs hrole hstill hb hx busy hst hfz (starts hr) hcommitted hw hl
      obtain ⟨t, met, told⟩ := opened_unread (r := r) hs hrole hstill hb hx busy hst hfz
      exact ⟨fun fits => (row [] none).trans (onward_eq s (goes.trans (if_neg (Nat.not_lt.2 fits)))),
        fun short => (row [] none).trans (onward_eq s (goes.trans (if_pos short))), t, (row [] _).trans (onward_eq s met), told⟩
  · intro e wb seq body isFirst isLast pair gives answer order
    refine ⟨fun hw => ?_, fun hmaster hp => ?_, fun b k hmaster hp hs => ?_⟩
    · exact exec_recCell h ht hm (onRec_worker hw)
    · exact exec_recCell h ht hm (onRec_nopair hmaster hp)
    · intro x next due len passed other
      refine ⟨fun hf hx had => ?_, fun hf ho hn => ?_, fun hf ho => ?_, fun hf hx => ?_, fun w hf hx hn hw hlt => ?_, fun hf hx hd room => ?_,
        fun hf hl hx hd room ho h2 hbody wf hopen => ?_⟩
      · exact exec_recCell h ht hm ((onRec_had hmaster hp hf hx had).trans (sendCell_reply hs rfl (by simp)))
      · exact exec_recCell h ht hm (onRec_other hmaster hp hf ho hn)
      · exact exec_recCell h ht hm (onRec_laterOther hmaster hp hf ho)
      · exact exec_recCell h ht hm (onRec_laterNone hmaster hp hf hx)
      · exact exec_recCell h ht hm (onRec_ahead hmaster hp hf hx hn hw hlt)
      · exact exec_recCell h ht hm ((onRec_full hmaster hp hf hx hd room).trans (sendCell_reply hs rfl (by simp)))
      · obtain ⟨t, r, row, frame, recs, hq, hlen, hw, hst, hfwd, bytes, hnext, others⟩ :=
          onRec_whole hmaster hp hs hf hl hx hd room ho h2 hbody hopen
        exact ⟨t, r, exec_recCell h ht hm row, frame, recs, hq, hlen, hw, hst, hfwd, bytes wf, hnext, others⟩
  · intro e seq x
    refine ⟨fun ht hx => ?_, fun k r rest ht hc hx hq hr => ?_, fun ht hn => ?_⟩
    · exact exec_recack h ht hm (onRecack_none hb hx)
    · exact exec_recack h ht hm (onRecack_takes hb hc hx hq hr)
    · refine exec_recnak h ht hm ?_
      unfold onRecnak
      rw [hb]
      exact resendBin_none hn
  · intro again late
    refine ⟨fun hf => ⟨fun hl => ?_, fun hl => ?_⟩, fun p c h hm ht hb hsent => ?_⟩
    · exact exec_recResend hf (recResend_late hl)
    · exact exec_recResend hf (recResend_none hl)
    · refine exec_recnak h ht hm ?_
      unfold onRecnak
      rw [hb]
      exact resendBin_sent hsent
  · exact exec_evrel h ht hm (onEvrel_worker hw)
  · exact exec_evrel h ht hm (onEvrel_counts hmaster hch)

end Sys2Proof.Machine
end

section
/-!
PROOFS. The statements of 10_steward_isa.md: one core replaced, STATUS, slots, and the rows of instructions.
-/
namespace Sys2Proof.Machine

/-! ### One core replaced -/

/-- The device with core `c` as `k`. -/
def setCore (c : Fin 4) (k : Core) (d : Dev) : Dev := { d with cores := put d.cores c k }

section
variable (c : Fin 4) (k h : Core) (d : Dev)

theorem updCore_eq_setCore (f : Core → Core) : updCore c.val f d = setCore c (f d.cores[c]) d := updCore_fin c f d

@[simp] theorem setCore_core : (setCore c k d).cores[c] = k := put_self _ _

@[simp] theorem core_setCore : core (setCore c k d) c.val = k := (core_fin _ _).trans (setCore_core c k d)

@[simp] theorem setCore_setCore : setCore c h (setCore c k d) = setCore c h d := by simp [setCore]

@[simp] theorem setCore_self : setCore c d.cores[c] d = d := by simp [setCore, put]

@[simp] theorem updCore_setCore (f : Core → Core) : updCore c.val f (setCore c k d) = setCore c (f k) d := by
  rw [updCore_eq_setCore, setCore_core, setCore_setCore]

theorem setCore_ite (p : Prop) [Decidable p] : (if p then setCore c k d else setCore c h d) = setCore c (if p then k else h) d :=
  (apply_ite (setCore c · d) p k h).symm

@[simp] theorem completed_setCore (i : Ins) : completed (setCore c k d) c i h = completed d c i h := by
  simp [completed, jumped, setCore]

@[simp] theorem jumped_setCore : jumped (setCore c k d) c h = jumped d c h := by
  simp [jumped, setCore]

theorem lastSlot_setCore (n : Nat) : lastSlot d c n = setCore c (slots (n - 1) (pruneBlocks d.cores[c])) d := rfl

@[simp] theorem lastSlot_core (n : Nat) : (lastSlot d c n).cores[c] = slots (n - 1) (pruneBlocks d.cores[c]) := setCore_core c _ d

end

/-! ### STATUS (R332) -/

theorem bit_setFlag {i : Nat} (hi : i < 15) (b : Bool) (k : Core) (j : Nat) :
    bit (k.setFlag i b).status j = if i = j then b else bit k.status j := bit_setBit _ hi b j

theorem flag_setFlag {i : Nat} (hi : i < 15) (b : Bool) (k : Core) (j : Nat) :
    (k.setFlag i b).flag j = if i = j then b else k.flag j := bit_setBit _ hi b j

@[simp] theorem setFlag_a (i : Nat) (b : Bool) (k : Core) : (k.setFlag i b).a = k.a := rfl

theorem onlyA_refl (k : Core) (l : List Nat) : OnlyA k k l := ⟨rfl, fun _ _ => rfl⟩

section
variable {k k' : Core} {l : List Nat} (h : OnlyA k k' l)
include h

/-- Another of the listed flags is written. -/
theorem OnlyA.setFlag {i : Nat} (hi : i ∈ l) (h15 : i < 15) (b : Bool) : OnlyA k (k'.setFlag i b) l := by
  obtain ⟨rest, bits⟩ := h
  refine ⟨?_, fun j hj => ?_⟩
  · rw [rest]
    rfl
  · rw [bit_setFlag h15, if_neg fun e : i = j => hj (e ▸ hi)]
    exact bits j hj

theorem OnlyA.writeA (v : BitVec 40) : OnlyA k { k' with a := v } l := by
  obtain ⟨rest, bits⟩ := h
  refine ⟨?_, bits⟩
  rw [rest]

theorem OnlyA.flagsNZ {n : Nat} (r : BitVec n) (hN : stN ∈ l) (hZ : stZ ∈ l) : OnlyA k (k'.flagsNZ r) l :=
  (h.setFlag hN (by decide) _).setFlag hZ (by decide) _

end

section
variable {n : Nat} (r : BitVec n) (k : Core)

@[simp] theorem flagsNZ_n : (k.flagsNZ r).flag stN = r.msb := by
  rw [Core.flagsNZ, flag_setFlag (by decide), if_neg (by decide), flag_setFlag (by decide), if_pos rfl]

@[simp] theorem flagsNZ_z : (k.flagsNZ r).flag stZ = (r == 0) := by
  rw [Core.flagsNZ, flag_setFlag (by decide), if_pos rfl]

theorem flagsNZ_other {j : Nat} (hN : stN ≠ j) (hZ : stZ ≠ j) : (k.flagsNZ r).flag j = k.flag j := by
  rw [Core.flagsNZ, flag_setFlag (by decide), if_neg hZ, flag_setFlag (by decide), if_neg hN]

@[simp] theorem flagsNZ_a : (k.flagsNZ r).a = k.a := by simp only [Core.flagsNZ, setFlag_a]

end

/-! ### Slots (R351, R360, R397, R420) -/

/-- What the passing of slots may change of a core: the accumulator, multiplies in flight, S, counts and the reservation. -/
def SlotTime (k k' : Core) : Prop :=
  k' = { k with
    mpg := k'.mpg, mph := k'.mph, mpl := k'.mpl, muls := k'.muls, status := k'.status, perfCyc := k'.perfCyc, resv := k'.resv
    gates := k'.gates, tbudcnt := k'.tbudcnt } ∧
  ∀ j, j ≠ stS → bit k'.status j = bit k.status j

theorem SlotTime.trans {a b c : Core} (h : SlotTime a b) (h' : SlotTime b c) : SlotTime a c := by
  obtain ⟨h, hb⟩ := h
  obtain ⟨h', hc⟩ := h'
  refine ⟨?_, fun j hj => (hc j hj).trans (hb j hj)⟩
  rw [h] at h'
  exact h'

theorem land_time (k : Core) (m : Mult) : SlotTime k (land k m) := by
  have acc : ∀ v, SlotTime k (k.setAcc72 v) := fun v => ⟨rfl, fun _ _ => rfl⟩
  have limited : ∀ v, SlotTime k ((k.setAcc72 v).setFlag stS true) := fun v =>
    ⟨rfl, fun j hj => by rw [bit_setFlag (by decide), if_neg hj.symm]; rfl⟩
  unfold land
  split
  · exact acc _
  · exact acc _
  · exact acc _
  · exact acc _
  · exact acc _
  · dsimp only
    split
    · exact limited _
    · split
      · exact limited _
      · exact acc _

theorem foldl_land_time (l : List Mult) (k : Core) : SlotTime k (l.foldl land k) := by
  induction l generalizing k with
  | nil => exact ⟨rfl, fun _ _ => rfl⟩
  | cons m l ih => exact (land_time k m).trans (ih _)

theorem slots_time (n : Nat) (k : Core) : SlotTime k (slots n k) :=
  (foldl_land_time (k.muls.takeWhile fun m => m.left ≤ n) k).trans ⟨rfl, fun _ _ => rfl⟩

section
variable (n : Nat) (k : Core)

@[simp] theorem slots_a : (slots n k).a = k.a := by rw [(slots_time n k).1]
@[simp] theorem slots_x : (slots n k).x = k.x := by rw [(slots_time n k).1]
@[simp] theorem slots_y : (slots n k).y = k.y := by rw [(slots_time n k).1]
@[simp] theorem slots_cnt : (slots n k).cnt = k.cnt := by rw [(slots_time n k).1]
@[simp] theorem slots_k : (slots n k).k = k.k := by rw [(slots_time n k).1]
@[simp] theorem slots_pck : (slots n k).pck = k.pck := by rw [(slots_time n k).1]
@[simp] theorem slots_vkey : (slots n k).vkey = k.vkey := by rw [(slots_time n k).1]
@[simp] theorem slots_sets : (slots n k).sets = k.sets := by rw [(slots_time n k).1]
@[simp] theorem slots_pc : (slots n k).pc = k.pc := by rw [(slots_time n k).1]
@[simp] theorem slots_comp : (slots n k).comp = k.comp := by rw [(slots_time n k).1]
@[simp] theorem slots_sbuf : (slots n k).sbuf = k.sbuf := by rw [(slots_time n k).1]
@[simp] theorem slots_mem : (slots n k).mem = k.mem := by rw [(slots_time n k).1]
@[simp] theorem slots_tags : (slots n k).tags = k.tags := by rw [(slots_time n k).1]
@[simp] theorem slots_pre : (slots n k).pre = k.pre := by rw [(slots_time n k).1]
@[simp] theorem slots_perfIns : (slots n k).perfIns = k.perfIns := by rw [(slots_time n k).1]
@[simp] theorem slots_abort : (slots n k).abort = k.abort := by rw [(slots_time n k).1]

@[simp] theorem slots_key (j : Nat) : (slots n k).key j = k.key j := by
  simp only [Core.key, slots_k, slots_pck, slots_vkey, slots_sets]

theorem slots_bit {j : Nat} (hj : j ≠ stS) : bit (slots n k).status j = bit k.status j := (slots_time n k).2 j hj

theorem slots_flag {j : Nat} (hj : j ≠ stS) : (slots n k).flag j = k.flag j := slots_bit n k hj

end

/-! ### The row of an instruction -/

/-- The frame of a ready instruction reaches its body. -/
theorem withIns_ready {d : Dev} {c : Fin 4} {o : StOp} {i : Ins} (h : Ready d c o i) (f : Ins → Dev → Dev) :
    withIns c.val o f d = f i (setCore c (pruneBlocks d.cores[c]) d) := by
  obtain ⟨may, fetch, ins, op, legal⟩ := h
  simp only [withIns, core_fin, may, fetch, ins, op, legal, updCore_eq_setCore]
  simp

section
variable {s : State} {c : Fin 4} {o : StOp} {i : Ins} (sl : Ins → Core → Nat) {body : Ins → Dev → StRes Dev}

theorem row_completes (h : Ready s.dev c o i) {t : Dev} {k : Core}
    (hb : body i (lastSlot s.dev c (sl i (pruneBlocks s.dev.cores[c]))) = .ok (setCore c k t)) :
    act (stRow c.val o sl body) s = .next { s with dev := completed t c i k } :=
  next_eq s (by rw [stRow_completes h sl body hb, completed_setCore, setCore_core])

theorem row_fails (h : Ready s.dev c o i) {f : StFault}
    (hb : body i (lastSlot s.dev c (sl i (pruneBlocks s.dev.cores[c]))) = .error f) :
    act (stRow c.val o sl body) s = .next { s with
      dev := raiseIns c.val f i.pc (failing s.dev c (sl i (pruneBlocks s.dev.cores[c]))) } :=
  next_eq s (stRow_fails h sl body hb)

/-- An instruction that says itself where it goes on. -/
theorem jump_completes (h : Ready s.dev c o i) {t : Dev} {k : Core}
    (hb : body i (lastSlot s.dev c (sl i (pruneBlocks s.dev.cores[c]))) = .ok (setCore c k t)) :
    act (jumpRow c.val o sl body) s = .next { s with dev := jumped t c k } := by
  refine next_eq s ?_
  have slot : updCore c.val (slots (sl i (pruneBlocks s.dev.cores[c]) - 1)) (setCore c (pruneBlocks s.dev.cores[c]) s.dev) =
      lastSlot s.dev c (sl i (pruneBlocks s.dev.cores[c])) := updCore_setCore ..
  rw [jumpRow, withIns_ready h, runJump, core_setCore, slot, hb]
  exact updCore_setCore ..

theorem jump_fails (h : Ready s.dev c o i) {f : StFault}
    (hb : body i (lastSlot s.dev c (sl i (pruneBlocks s.dev.cores[c]))) = .error f) :
    act (jumpRow c.val o sl body) s = .next { s with
      dev := raiseIns c.val f i.pc (failing s.dev c (sl i (pruneBlocks s.dev.cores[c]))) } := by
  refine next_eq s ?_
  have slot : updCore c.val (slots (sl i (pruneBlocks s.dev.cores[c]) - 1)) (setCore c (pruneBlocks s.dev.cores[c]) s.dev) =
      lastSlot s.dev c (sl i (pruneBlocks s.dev.cores[c])) := updCore_setCore ..
  have last : updCore c.val (slots 1) (lastSlot s.dev c (sl i (pruneBlocks s.dev.cores[c]))) =
      failing s.dev c (sl i (pruneBlocks s.dev.cores[c])) := updCore_setCore ..
  rw [jumpRow, withIns_ready h, runJump, core_setCore, slot, hb]
  exact congrArg (raiseIns c.val f i.pc) last

/-- An instruction without an operand that changes its core by `f`. -/
theorem plain_completes (h : Ready s.dev c o i) (f : Core → Core) :
    act (plainRow c.val o f) s = .next { s with dev := completed (lastSlot s.dev c 1) c i (f (lastSlot s.dev c 1).cores[c]) } :=
  row_completes (fun _ _ => 1) h (congrArg Except.ok (updCore_eq_setCore ..))

/-- An instruction that changes its core by what it reads. -/
theorem reads_completes {sx : Ins → Bool} {ecc : Ecc} {b : Word} {d2 : Dev}
    (h : Reads s.dev c o (sl i (pruneBlocks s.dev.cores[c])) i (sx i) ecc b d2) (f : Ins → Word → Core → Core) :
    act (stRow c.val o sl fun i d => do
      let (b, d1) ← readOp c.val i (sx i) ecc d
      .ok (updCore c.val (f i b) d1)) s = .next { s with dev := completed d2 c i (f i b d2.cores[c]) } := by
  refine row_completes sl h.1 ?_
  rw [h.2]
  exact congrArg Except.ok (updCore_eq_setCore ..)

end

end Sys2Proof.Machine
end

section
/-!
PROOFS. The statements of 10_steward_isa.md: integer, logic, shift and 40-bit instructions.
-/
namespace Sys2Proof.Machine

/-! ### Fields of a word -/

section
variable {n : Nat} (v : BitVec n) (w : Nat)

theorem toNat_bf (lo len : Nat) : (bf v lo len).toNat = fld v lo len := BitVec.extractLsb'_toNat ..

theorem ofNat_fld (lo : Nat) : BitVec.ofNat w (fld v lo w) = bf v lo w := by
  rw [← toNat_bf, BitVec.ofNat_toNat, BitVec.setWidth_eq]

theorem bf_low : BitVec.ofNat w (fld v 0 w) = bf v 0 w := ofNat_fld v w 0

theorem fld_low (lo len : Nat) (h : lo = 0) : fld v lo len = v.toNat % 2 ^ len := by
  rw [h, fld, Nat.shiftRight_zero]

theorem bit_bf (lo len j : Nat) : bit (bf v lo len) j = (decide (j < len) && bit v (lo + j)) := BitVec.getLsbD_extractLsb' ..

theorem bit_signExtend (j : Nat) : bit (v.signExtend w) j = (decide (j < w) && if j < n then bit v j else v.msb) :=
  BitVec.getLsbD_signExtend ..

theorem bit_mergeBits (m o r : BitVec n) {j : Nat} (hj : j < n) : bit (mergeBits m o r) j = if bit m j then bit r j else bit o j := by
  have e : bit (mergeBits m o r) j = (bit o j && !bit m j || bit r j && bit m j) := by simp [bit, mergeBits, hj]
  rw [e]
  cases bit m j <;> simp

end

/-- The mask of the low `w` bits. -/
theorem bit_lowMask (n w : Nat) {j : Nat} (hj : j < n) : bit (BitVec.ofNat n (2 ^ w - 1)) j = decide (j < w) := by
  rw [bit, BitVec.getLsbD_ofNat, Nat.testBit_two_pow_sub_one]
  simp [hj]

/-! ### A with a narrow result (R333, R344) -/

section
variable {w : Nat} (r : BitVec w) (k : Core)

/-- The low word of A after a result of width `w`. -/
theorem bit_narrow {j : Nat} (hj : j < 32) :
    bit (mergeBits (BitVec.ofNat 32 (2 ^ w - 1)) k.a32 (r.zeroExtend 32)) j = if j < w then bit r j else bit k.a j := by
  rw [bit_mergeBits _ _ _ hj, bit_lowMask 32 w hj]
  have low : bit (r.zeroExtend 32) j = bit r j := by
    rw [bit, BitVec.zeroExtend_eq_setWidth, BitVec.getLsbD_setWidth]
    simp [hj, bit]
  have kept : bit k.a32 j = bit k.a j := by
    rw [Core.a32, bit_bf, Nat.zero_add]
    simp [hj]
  rw [low, kept]
  simp

theorem bit_setAW {j : Nat} (hj : j < 32) : bit (k.setAW r).a j = if j < w then bit r j else bit k.a j := by
  show bit (BitVec.signExtend 40 _) j = _
  rw [bit_signExtend, if_pos hj, bit_narrow r k hj]
  simp [show j < 40 by omega]

/-- AG is the sign of bit 31. -/
theorem bit_setAW_ag {j : Nat} (h32 : 32 ≤ j) (h40 : j < 40) : bit (k.setAW r).a j = bit (k.setAW r).a 31 := by
  have sign : ∀ v : Word, bit (v.signExtend 40) j = bit (v.signExtend 40) 31 := fun v => by
    rw [bit_signExtend, bit_signExtend, if_neg (by omega), if_pos (by decide), BitVec.msb_eq_getLsbD_last]
    simp [h40, bit]
  exact sign _

theorem fld_setAW (hw : w ≤ 32) : fld (k.setAW r).a 0 w = r.toNat := by
  rw [← toNat_bf]
  congr 1
  refine eq_of_bit fun j hj => ?_
  rw [bit_bf, Nat.zero_add, bit_setAW r k (by omega), if_pos hj]
  simp [hj]

end

/-! ### Sums and differences of width `w` (R344, R345) -/

/-- The sum, or the difference, with `ci` carried or borrowed in. -/
def arithW {w : Nat} (sub : Bool) (a b : BitVec w) (ci : Bool) : Arith w := if sub then subW a b ci else addW a b ci

/-- The exact value of the signed sum or difference. -/
def exactW {w : Nat} (sub : Bool) (a b : BitVec w) (ci : Bool) : Int :=
  if sub then a.toInt - b.toInt - b2n ci else a.toInt + b.toInt + b2n ci

theorem b2n_le (b : Bool) : b2n b ≤ 1 := by cases b <;> decide

section
variable {w : Nat} (sub : Bool) (a b : BitVec w) (ci : Bool)

theorem arithW_r (hw : 0 < w) : (arithW sub a b ci).r.toNat =
    if sub then (a.toNat + 2 ^ w - (b.toNat + b2n ci)) % 2 ^ w else (a.toNat + b.toNat + b2n ci) % 2 ^ w := by
  have two : 2 ≤ 2 ^ w := Nat.le_self_pow hw.ne' 2
  have hc := b2n_le ci
  have hb := b.isLt
  have one : b2n ci % 2 ^ w = b2n ci := Nat.mod_eq_of_lt (by omega)
  cases sub with
  | false => simp [arithW, addW, BitVec.toNat_add, Nat.add_mod]
  | true =>
    simp only [arithW, if_true, subW, BitVec.toNat_sub, BitVec.toNat_ofNat, one, Nat.add_mod_mod]
    rw [show 2 ^ w - b2n ci + (2 ^ w - b.toNat + a.toNat) = a.toNat + 2 ^ w - (b.toNat + b2n ci) + 2 ^ w by omega, Nat.add_mod_right]

theorem arithW_c : (arithW sub a b ci).c =
    if sub then decide (b.toNat + b2n ci ≤ a.toNat) else decide (2 ^ w ≤ a.toNat + b.toNat + b2n ci) := by cases sub <;> rfl

theorem arithW_h : (arithW sub a b ci).h =
    if sub then decide (b.toNat % 16 + b2n ci ≤ a.toNat % 16) else decide (16 ≤ a.toNat % 16 + b.toNat % 16 + b2n ci) := by
  cases sub <;> rfl

/-- The signed result is the exact one modulo 2^w. -/
theorem arithW_toInt : (arithW sub a b ci).r.toInt = (exactW sub a b ci).bmod (2 ^ w) := by
  have carry : (BitVec.ofNat w (b2n ci)).toInt = (b2n ci : Int).bmod (2 ^ w) := BitVec.toInt_ofNat' ..
  cases sub with
  | false => simp [arithW, addW, exactW, BitVec.toInt_add, carry]
  | true => simp [arithW, subW, exactW, BitVec.toInt_sub, carry]

end

/-- A value reduced to a symmetric range: kept within it, moved once by the modulus just outside. -/
theorem bmod_twice {m : Nat} {x : Int} (lo : -(2 * m : Int) ≤ x) (hi : x < 2 * m) :
    (x < -m → x.bmod (2 * m) = x + 2 * m) ∧ ((m : Int) ≤ x → x.bmod (2 * m) = x - 2 * m) ∧ (-m ≤ x → x < m → x.bmod (2 * m) = x) := by
  have stays : ∀ y : Int, -m ≤ y → y < m → y.bmod (2 * m) = y := fun y h1 h2 => by
    refine Int.bmod_eq_of_le ?_ ?_ <;> omega
  refine ⟨fun h => ?_, fun h => ?_, stays x⟩
  · rw [← stays (x + 2 * m) (by omega) (by omega), show (2 * m : Int) = ((2 * m : Nat) : Int) by simp, Int.add_bmod_right]
  · rw [← stays (x - 2 * m) (by omega) (by omega), show (2 * m : Int) = ((2 * m : Nat) : Int) by simp, Int.sub_bmod_right]

/-- V: the exact signed result lies outside the range of width `w`. -/
theorem arithW_v {w : Nat} (hw : 0 < w) (sub : Bool) (a b : BitVec w) (ci : Bool) : (arithW sub a b ci).v =
    decide (exactW sub a b ci < -2 ^ (w - 1) ∨ 2 ^ (w - 1) ≤ exactW sub a b ci) := by
  obtain ⟨m, hm⟩ : ∃ m : Nat, 2 ^ (w - 1) = m := ⟨_, rfl⟩
  have hm' : (2 : Int) ^ (w - 1) = m := by rw [← hm]; push_cast; rfl
  have h2 : 2 ^ w = 2 * m := by rw [← hm, ← Nat.pow_succ']; congr 1; omega
  have range : ∀ v : BitVec w, -(m : Int) ≤ v.toInt ∧ v.toInt < m := fun v => by
    rw [← hm']
    exact ⟨BitVec.le_toInt v, BitVec.toInt_lt⟩
  obtain ⟨a1, a2⟩ := range a
  obtain ⟨b1, b2⟩ := range b
  have hc := b2n_le ci
  have reduced := arithW_toInt sub a b ci
  have signs : (arithW sub a b ci).v = ((a.msb == (b.msb != sub)) && ((arithW sub a b ci).r.msb != a.msb)) := by
    cases sub <;> cases hx : a.msb <;> cases hy : b.msb <;> simp [arithW, addW, subW, hx, hy]
  have bounds : -(2 * m : Int) ≤ exactW sub a b ci ∧ exactW sub a b ci < 2 * m := by
    unfold exactW
    split <;> omega
  obtain ⟨below, above, within⟩ := bmod_twice bounds.1 bounds.2
  rw [← h2, ← reduced] at below above within
  rw [signs, BitVec.msb_eq_toInt, BitVec.msb_eq_toInt, BitVec.msb_eq_toInt, hm']
  generalize (arithW sub a b ci).r.toInt = r at below above within
  cases sub with
  | false =>
    simp only [exactW, Bool.false_eq_true, if_false] at below above within ⊢
    rw [Bool.eq_iff_iff]
    simp only [Bool.and_eq_true, beq_iff_eq, bne_iff_ne, ne_eq, Bool.bne_false, decide_eq_decide, decide_eq_true_eq]
    omega
  | true =>
    simp only [exactW, if_true] at below above within ⊢
    rw [Bool.eq_iff_iff]
    simp only [Bool.and_eq_true, beq_iff_eq, bne_iff_ne, ne_eq, Bool.bne_true, ← decide_not, decide_eq_decide, decide_eq_true_eq]
    omega

/-- The result and flags of a sum or difference of width `w`, in the fields of A and of the operand. -/
theorem arithW_fields {w : Nat} (hw : 0 < w) (a : BitVec 40) (b : Word) (sub ci : Bool) :
    let A := fld a 0 w
    let B := b.toNat % 2 ^ w
    let x : Int := if sub then (BitVec.ofNat w A).toInt - (BitVec.ofNat w B).toInt - b2n ci
      else (BitVec.ofNat w A).toInt + (BitVec.ofNat w B).toInt + b2n ci
    let y := arithW sub (bf a 0 w) (bf b 0 w) ci
    y.r.toNat = (if sub then (A + 2 ^ w - (B + b2n ci)) % 2 ^ w else (A + B + b2n ci) % 2 ^ w) ∧
      y.v = decide (x < -2 ^ (w - 1) ∨ 2 ^ (w - 1) ≤ x) ∧
      y.c = (if sub then decide (B + b2n ci ≤ A) else decide (2 ^ w ≤ A + B + b2n ci)) ∧
      y.h = (if sub then decide (B % 16 + b2n ci ≤ A % 16) else decide (16 ≤ A % 16 + B % 16 + b2n ci)) := by
  intro A B x y
  have toA : (bf a 0 w).toNat = A := toNat_bf ..
  have toB : (bf b 0 w).toNat = B := (toNat_bf ..).trans (fld_low _ _ _ rfl)
  have hB : BitVec.ofNat w B = bf b 0 w := by rw [← toB, BitVec.ofNat_toNat, BitVec.setWidth_eq]
  have hx : x = exactW sub (bf a 0 w) (bf b 0 w) ci := by
    simp only [x, exactW, A, bf_low, hB]
  refine ⟨?_, (arithW_v hw ..).trans (by rw [hx]), ?_, ?_⟩
  · rw [arithW_r _ _ _ _ hw, toA, toB]
  · rw [arithW_c, toA, toB]
  · rw [arithW_h, toA, toB]

/-! ### ADD, ADC, SUB, SBC and CMP -/

/-- An operand whose size matters has a size of 1, 2 or 4 bytes. -/
theorem sz_of_ready {d : Dev} {c : Fin 4} {o : StOp} {i : Ins} (h : Ready d c o i)
    (ho : o ∈ [StOp.ld, .st, .ldr, .str, .addr, .cmpr, .add, .adc, .sub, .sbc, .cmp, .tas, .movs, .fils, .cmps, .scns, .crcs]) : i.sz ≠ 3 := by
  obtain ⟨-, -, -, -, legal⟩ := h
  simp only [List.mem_cons, List.not_mem_nil, or_false] at ho
  intro h3
  rcases ho with rfl | rfl | rfl | rfl | rfl | rfl | rfl | rfl | rfl | rfl | rfl | rfl | rfl | rfl | rfl | rfl | rfl <;>
    simp [illegalForm, h3] at legal

/-- The width of a legal operand. -/
theorem legal_width {i : Ins} (h : i.sz ≠ 3) : 0 < 8 * i.size ∧ 8 * i.size ≤ 32 := by
  have hs : i.sz < 4 := Nat.mod_lt _ (by decide)
  obtain hs | hs | hs : i.sz = 0 ∨ i.sz = 1 ∨ i.sz = 2 := by omega
  all_goals
    unfold Ins.size
    rw [hs]
    decide

/-- A width-`w` result and its flags. -/
def Core.withArith {w : Nat} (wr : Bool) (x : Arith w) (k : Core) : Core := (if wr then k.setAW x.r else k).flagsArith x

section
variable {w : Nat} (wr : Bool) (x : Arith w) (k : Core)

theorem OnlyA.flagsArith {k k' : Core} (h : OnlyA k k' [stN, stZ, stC, stV, stH]) (x : Arith w) :
    OnlyA k (k'.flagsArith x) [stN, stZ, stC, stV, stH] :=
  (((h.flagsNZ x.r (by decide) (by decide)).setFlag (by decide) (by decide) _).setFlag (by decide) (by decide) _).setFlag
    (by decide) (by decide) _

theorem withArith_onlyA : OnlyA k (k.withArith wr x) [stN, stZ, stC, stV, stH] := by
  have start : OnlyA k (if wr then k.setAW x.r else k) [stN, stZ, stC, stV, stH] := by
    cases wr
    · exact onlyA_refl k _
    · exact (onlyA_refl k _).writeA _
  exact start.flagsArith x

theorem flagsArith_a : (k.flagsArith x).a = k.a := by simp only [Core.flagsArith, setFlag_a, flagsNZ_a]

theorem withArith_a : (k.withArith wr x).a = if wr then (k.setAW x.r).a else k.a := by
  rw [Core.withArith, flagsArith_a, apply_ite Core.a]

theorem flagsArith_flags : (k.flagsArith x).flag stN = x.r.msb ∧ (k.flagsArith x).flag stZ = (x.r == 0) ∧
    (k.flagsArith x).flag stC = x.c ∧ (k.flagsArith x).flag stV = x.v ∧ (k.flagsArith x).flag stH = x.h := by
  unfold Core.flagsArith
  refine ⟨?_, ?_, ?_, ?_, ?_⟩ <;> simp [flag_setFlag, Core.flagsNZ, stN, stZ, stC, stV, stH]

end

section
variable {s : State} {c : Fin 4} {ecc : Ecc} {i : Ins} {o : StOp} {b : Word} {d2 : Dev}
  (h : Reads s.dev c o (opSlots c.val s.dev.cores[c] i) i false ecc b d2) {wr ov : Bool}
    {f : {w : Nat} → Core → BitVec w → BitVec w → Arith w}
  {x : Arith (8 * i.size)} (hx : f d2.cores[c] (bf d2.cores[c].a 0 (8 * i.size)) (bf b 0 (8 * i.size)) = x)
include h hx

theorem arithRow_completes (hv : (ov && x.v && d2.cores[c].flag stOVEN) = false) :
    act (arithRow c.val o ecc wr ov f) s = .next { s with dev := completed d2 c i (d2.cores[c].withArith wr x) } := by
  refine row_completes _ h.1 (t := d2) ?_
  rw [opSlots_prune]
  simp only [h.2, bind, Except.bind, core_fin, hx, hv, Bool.false_eq_true, if_false]
  exact congrArg Except.ok (updCore_eq_setCore ..)

theorem arithRow_overflows (hv : (ov && x.v && d2.cores[c].flag stOVEN) = true) :
    act (arithRow c.val o ecc wr ov f) s = .next { s with
      dev := raiseFault c.val 0x09 0 0 (d2.cores[c].pck.base + i.pc.toNat) i.pc (failing s.dev c (opSlots c.val s.dev.cores[c] i)) } := by
  refine row_fails _ h.1 (f := { code := 0x09, addr := some (d2.cores[c].pck.base + i.pc.toNat) }) ?_
  rw [opSlots_prune]
  simp only [h.2, bind, Except.bind, core_fin, hx, hv, if_true]

end

/-- ADD, ADC, SUB, SBC and CMP as the statement lists them: the command, whether it subtracts, and what is carried in. -/
theorem arithmetic_rows {c : Fin 4} {ecc : Ecc} {o : StOp} {I : Instr} {sub : Bool}
    (hI : (o, I, sub) ∈ [(StOp.add, Instr.add c ecc, false), (.adc, .adc c ecc, false), (.sub, .sub c ecc, true), (.sbc, .sbc c ecc, true),
      (.cmp, .cmp c ecc, true)]) (k : Core) :
    ∃ (ci : Bool) (f : {w : Nat} → Core → BitVec w → BitVec w → Arith w),
      (∀ s, exec I s = act (arithRow c.val o ecc (decide (o ≠ .cmp)) (decide (o ≠ .cmp)) f) s) ∧
      (∀ {w : Nat} (x y : BitVec w), f k x y = arithW sub x y ci) ∧
      (if o = .adc then b2n (k.flag stC) else if o = .sbc then 1 - b2n (k.flag stC) else 0) = b2n ci := by
  simp only [List.mem_cons, Prod.mk.injEq, List.not_mem_nil, or_false] at hI
  rcases hI with ⟨rfl, rfl, rfl⟩ | ⟨rfl, rfl, rfl⟩ | ⟨rfl, rfl, rfl⟩ | ⟨rfl, rfl, rfl⟩ | ⟨rfl, rfl, rfl⟩
  · exact ⟨false, fun _ a b => addW a b false, fun _ => rfl, fun _ _ => rfl, rfl⟩
  · exact ⟨k.flag stC, fun k a b => addW a b (k.flag stC), fun _ => rfl, fun _ _ => rfl, rfl⟩
  · exact ⟨false, fun _ a b => subW a b false, fun _ => rfl, fun _ _ => rfl, rfl⟩
  · exact ⟨!k.flag stC, fun k a b => subW a b (!k.flag stC), fun _ => rfl, fun _ _ => rfl, by cases k.flag stC <;> rfl⟩
  · exact ⟨false, fun _ a b => subW a b false, fun _ => rfl, fun _ _ => rfl, rfl⟩


/-! ### Logic, NEG and the instructions without an operand -/

/-- A logic result and its flags. -/
def Core.withLogic (wr : Bool) (r : Word) (k : Core) : Core := (if wr then k.setA r else k).flagsLogic r

section
variable (wr : Bool) (r : Word) (k : Core)

theorem setA_onlyA (l : List Nat) : OnlyA k (k.setA r) l := (onlyA_refl k l).writeA _

theorem withLogic_onlyA : OnlyA k (k.withLogic wr r) [stN, stZ, stV] := by
  have start : OnlyA k (if wr then k.setA r else k) [stN, stZ, stV] := by
    cases wr
    · exact onlyA_refl k _
    · exact setA_onlyA r k _
  exact (start.flagsNZ r (by decide) (by decide)).setFlag (by decide) (by decide) _

theorem withLogic_a : (k.withLogic wr r).a = if wr then r.signExtend 40 else k.a := by
  rw [Core.withLogic, Core.flagsLogic, setFlag_a, flagsNZ_a, apply_ite Core.a]
  rfl

theorem withLogic_flags : (k.withLogic wr r).flag stN = r.msb ∧ (k.withLogic wr r).flag stZ = (r == 0) ∧ (k.withLogic wr r).flag stV = false := by
  unfold Core.withLogic Core.flagsLogic
  refine ⟨?_, ?_, ?_⟩ <;> simp [flag_setFlag, Core.flagsNZ, stN, stZ, stV]

end

theorem logicRow_completes {s : State} {c : Fin 4} {ecc : Ecc} {i : Ins} {o : StOp} {b : Word} {d2 : Dev}
    (h : Reads s.dev c o (opSlots c.val s.dev.cores[c] i) i false ecc b d2) (wr : Bool) (f : Word → Word → Word) :
    act (logicRow c.val o ecc wr f) s = .next { s with dev := completed d2 c i (d2.cores[c].withLogic wr (f d2.cores[c].a32 b)) } := by
  refine row_completes _ h.1 (t := d2) ?_
  rw [opSlots_prune]
  simp only [h.2, bind, Except.bind, core_fin]
  exact congrArg Except.ok (updCore_eq_setCore ..)

/-- An integer result with N and Z, whatever wrote it. -/
theorem setA_flagsNZ (r : Word) (k : Core) {l : List Nat} (hN : stN ∈ l) (hZ : stZ ∈ l) :
    OnlyA k ((k.setA r).flagsNZ r) l ∧ holds ((k.setA r).flagsNZ r).a r ∧ ((k.setA r).flagsNZ r).flag stN = r.msb ∧
      ((k.setA r).flagsNZ r).flag stZ = decide (r = 0) :=
  ⟨(setA_onlyA r k l).flagsNZ r hN hZ, flagsNZ_a r _, flagsNZ_n r _, flagsNZ_z r _⟩

/-- V of 0 − `a`: only the most negative word has no negative. -/
theorem neg_overflow (a : Word) : (subW 0 a false).v = decide (a = 0x80000000) := by
  have v := arithW_v (by decide : 0 < 32) true 0 a false
  have small : (a = 0x80000000) ↔ a.toInt = -2 ^ 31 := by rw [← BitVec.toInt_inj]; rfl
  have range := BitVec.le_toInt a
  have range' := BitVec.toInt_lt (x := a)
  refine v.trans (decide_eq_decide.2 ?_)
  have zero : (0 : Word).toInt = 0 := rfl
  have none : ((b2n false : Nat) : Int) = 0 := rfl
  rw [small, exactW, if_pos rfl, zero, none]
  omega

theorem neg_result (a : Word) : (subW 0 a false).r = -a := by simp [subW, b2n]

/-! ### SHIFT (R347) -/

/-- A shift result: A, N and Z of the result, C where a bit has been shifted out, V cleared. -/
def Core.withShift {w : Nat} (a : BitVec 40) (r : BitVec w) (co : Option Bool) (k : Core) : Core :=
  let k1 := ({ k with a := a } : Core).flagsNZ r
  (co.elim k1 (k1.setFlag stC ·)).setFlag stV false

section
variable {w : Nat} (a : BitVec 40) (r : BitVec w) (co : Option Bool) (k : Core)

theorem withShift_onlyA : OnlyA k (k.withShift a r co) [stN, stZ, stC, stV] := by
  have start : OnlyA k (({ k with a := a } : Core).flagsNZ r) [stN, stZ, stC, stV] :=
    ((onlyA_refl k _).writeA a).flagsNZ r (by decide) (by decide)
  cases co with
  | none => exact start.setFlag (by decide) (by decide) _
  | some b => exact (start.setFlag (by decide) (by decide) b).setFlag (by decide) (by decide) _

theorem withShift_a : (k.withShift a r co).a = a := by
  unfold Core.withShift
  cases co <;> simp only [Option.elim, setFlag_a, flagsNZ_a]

theorem withShift_flags : (k.withShift a r co).flag stN = r.msb ∧ (k.withShift a r co).flag stZ = (r == 0) ∧
    (k.withShift a r co).flag stC = co.getD (k.flag stC) ∧ (k.withShift a r co).flag stV = false := by
  have kept : ({ k with a := a } : Core).flag stC = k.flag stC := rfl
  unfold Core.withShift
  cases co <;> refine ⟨?_, ?_, ?_, ?_⟩ <;> simp [flag_setFlag, Core.flagsNZ, stN, stZ, stC, stV] at kept ⊢
  exact kept

end

section
variable {w : Nat} {kind n : Nat} (a : BitVec w)

theorem shiftW_result (hk : kind < 4) : (shiftW kind n a).1 =
    if kind = 0 then a <<< n else if kind = 1 then a >>> n else if kind = 2 then a.sshiftRight n else a.rotateLeft (n % w) := by
  obtain rfl | rfl | rfl | rfl : kind = 0 ∨ kind = 1 ∨ kind = 2 ∨ kind = 3 := by omega
  all_goals rfl

theorem shiftW_none (hk : kind < 4) : (shiftW kind 0 a).2 = none := by
  obtain rfl | rfl | rfl | rfl : kind = 0 ∨ kind = 1 ∨ kind = 2 ∨ kind = 3 := by omega
  all_goals simp [shiftW]

/-- The last bit that a shift of one place or more moves out. -/
theorem shiftW_out (hn : n ≠ 0) (hk : kind < 3) : (shiftW kind n a).2 = some
    (if kind = 0 then decide (n ≤ w) && bit a (w - n) else if kind = 1 then bit a (n - 1) else bit a (min (n - 1) (w - 1))) := by
  obtain rfl | rfl | rfl : kind = 0 ∨ kind = 1 ∨ kind = 2 := by omega
  all_goals exact if_neg hn

/-- A shift leaves all but A and the flags it computes. -/
theorem withShift_shiftW (hk : kind < 4) (v : BitVec 40) (k : Core) :
    let k' := k.withShift v (shiftW kind n a).1 (shiftW kind n a).2
    OnlyA k k' [stN, stZ, stC, stV] ∧ k'.flag stV = false ∧ (n = 0 → k'.flag stC = k.flag stC) ∧ k'.a = v ∧
      k'.flag stN = (shiftW kind n a).1.msb ∧ k'.flag stZ = decide ((shiftW kind n a).1 = 0) ∧
      (n ≠ 0 → kind < 3 → k'.flag stC =
        if kind = 0 then decide (n ≤ w) && bit a (w - n) else if kind = 1 then bit a (n - 1) else bit a (min (n - 1) (w - 1))) ∧
      k'.flag stC = (shiftW kind n a).2.getD (k.flag stC) := by
  intro k'
  obtain ⟨fN, fZ, fC, fV⟩ := withShift_flags v (shiftW kind n a).1 (shiftW kind n a).2 k
  refine ⟨withShift_onlyA .., fV, fun h0 => ?_, withShift_a .., fN, fZ, fun hn h3 => ?_, fC⟩
  · subst h0
    exact fC.trans (by rw [shiftW_none a hk]; rfl)
  · exact fC.trans (by rw [shiftW_out a hn h3]; rfl)

/-- A rotation's carry is bit 0 of its result. -/
theorem shiftW_rotated (a : Word) : (shiftW 3 n a).2 = if n % 32 = 0 then none else some (bit (a.rotateLeft (n % 32)) 0) := by
  have h : (shiftW 3 n a).2 = if n % 32 = 0 then none else some (a.getLsbD (32 - n % 32)) := rfl
  rw [h]
  by_cases h0 : n % 32 = 0
  · rw [if_pos h0, if_pos h0]
  · rw [if_neg h0, if_neg h0, bit, BitVec.getLsbD_rotateLeft]
    have pos : 0 < n % 32 := Nat.pos_of_ne_zero h0
    simp [pos]

end

theorem a32_signExtend (r : Word) : bf (r.signExtend 40) 0 32 = r := by
  refine eq_of_bit fun j hj => ?_
  rw [bit_bf, Nat.zero_add, bit_signExtend, if_pos hj]
  simp [hj, show j < 40 by omega]

theorem exec_shift {s : State} {c : Fin 4} {i : Ins} (h : Ready s.dev c .shift i) :
    let d2 := lastSlot s.dev c 1
    let k := d2.cores[c]
    let n := if bit i.w 6 then fld k.x 0 6 else fld i.w 0 6
    exec (.shift c) s = .next { s with
      dev := completed d2 c i
        (if bit i.w 7 then (let x := shiftW (fld i.w 8 2) n k.a; k.withShift x.1 x.1 x.2)
        else (let x := shiftW (fld i.w 8 2) n k.a32; k.withShift (x.1.signExtend 40) x.1 x.2)) } := by
  intro d2 k n
  refine row_completes (fun _ _ => 1) h ?_
  dsimp only
  rw [core_fin]
  cases bit i.w 7
  · simp only [Bool.false_eq_true, if_false]
    obtain ⟨⟨r, co⟩, hx⟩ : ∃ x, shiftW (fld i.w 8 2) n k.a32 = x := ⟨_, rfl⟩
    simp only [n, k, d2] at hx ⊢
    rw [hx]
    cases co <;> exact congrArg Except.ok (updCore_eq_setCore ..)
  · simp only [if_true]
    obtain ⟨⟨r, co⟩, hx⟩ : ∃ x, shiftW (fld i.w 8 2) n k.a = x := ⟨_, rfl⟩
    simp only [n, k, d2] at hx ⊢
    rw [hx]
    cases co <;> exact congrArg Except.ok (updCore_eq_setCore ..)

/-! ### Fixed point (R348) -/

section
variable {lo hi : Int} (hlo : -2 ^ 39 ≤ lo) (hle : lo ≤ hi) (hhi : hi < 2 ^ 39) (x : Int) (k : Core)

theorem setSat_onlyA (lo hi : Int) : OnlyA k (k.setSat lo hi x) [stN, stZ, stV, stS] := by
  have start : ∀ (r : BitVec 40) (b : Bool), OnlyA k ((({ k with a := r } : Core).flagsNZ r).setFlag stV b) [stN, stZ, stV, stS] := fun r b =>
    (((onlyA_refl k _).writeA r).flagsNZ r (by decide) (by decide)).setFlag (by decide) (by decide) b
  unfold Core.setSat
  dsimp only
  split
  · exact (start _ _).setFlag (by decide) (by decide) _
  · exact start _ _

theorem setSat_a (lo hi : Int) : (k.setSat lo hi x).a = BitVec.ofInt 40 (if x < lo then lo else if hi < x then hi else x) := by
  unfold Core.setSat
  dsimp only
  split <;> simp only [setFlag_a, flagsNZ_a]

theorem setSat_flags (lo hi : Int) : (k.setSat lo hi x).flag stN = (k.setSat lo hi x).a.msb ∧
    (k.setSat lo hi x).flag stZ = ((k.setSat lo hi x).a == 0) ∧ (k.setSat lo hi x).flag stV = decide (x < lo ∨ hi < x) ∧
    (k.setSat lo hi x).flag stS = (k.flag stS || decide (x < lo ∨ hi < x)) := by
  have kept : ∀ r : BitVec 40, ({ k with a := r } : Core).flag stS = k.flag stS := fun _ => rfl
  rw [setSat_a]
  unfold Core.setSat
  dsimp only
  rw [← Bool.decide_or]
  generalize (if x < lo then lo else if hi < x then hi else x) = y
  by_cases hx : x < lo ∨ hi < x
  · simp [hx, flag_setFlag, Core.flagsNZ, stN, stZ, stV, stS]
  · simp [hx, flag_setFlag, Core.flagsNZ, stN, stZ, stV, stS] at kept ⊢
    exact kept _

include hlo hle hhi

theorem setSat_toInt : (k.setSat lo hi x).a.toInt = max lo (min hi x) := by
  have value : (if x < lo then lo else if hi < x then hi else x) = max lo (min hi x) := by
    split
    · omega
    · split <;> omega
  rw [setSat_a, value, BitVec.toInt_ofInt]
  refine Int.bmod_eq_of_le ?_ ?_ <;> omega

end

/-- A result limited to the range from `lo` to `hi`, with N, Z, V and S. -/
theorem setSat_limits {lo hi : Int} (hlo : -2 ^ 39 ≤ lo) (hle : lo ≤ hi) (hhi : hi < 2 ^ 39) (x : Int) (k : Core) :
    OnlyA k (k.setSat lo hi x) [stN, stZ, stV, stS] ∧ (k.setSat lo hi x).a.toInt = max lo (min hi x) ∧
      (k.setSat lo hi x).flag stN = decide ((k.setSat lo hi x).a.toInt < 0) ∧
      (k.setSat lo hi x).flag stZ = decide ((k.setSat lo hi x).a = 0) ∧
      (k.setSat lo hi x).flag stV = decide (x < lo ∨ hi < x) ∧
      (k.setSat lo hi x).flag stS = (k.flag stS || decide (x < lo ∨ hi < x)) := by
  obtain ⟨fN, fZ, fV, fS⟩ := setSat_flags x k lo hi
  exact ⟨setSat_onlyA x k lo hi, setSat_toInt hlo hle hhi x k, fN.trans (BitVec.msb_eq_toInt ..), fZ, fV, fS⟩

/-! ### CMPR -/

/-- The flags of a comparison that writes nothing else. -/
def Core.compared (x : Arith 32) (k : Core) : Core := ((k.flagsNZ x.r).setFlag stV x.v).setFlag stC x.c

theorem compared_onlyA (x : Arith 32) (k : Core) : OnlyA k (k.compared x) [stN, stZ, stC, stV] :=
  (((onlyA_refl k _).flagsNZ x.r (by decide) (by decide)).setFlag (by decide) (by decide) _).setFlag (by decide) (by decide) _

theorem compared_a (x : Arith 32) (k : Core) : (k.compared x).a = k.a := by simp only [Core.compared, setFlag_a, flagsNZ_a]

theorem compared_flags (x : Arith 32) (k : Core) : (k.compared x).flag stN = x.r.msb ∧ (k.compared x).flag stZ = (x.r == 0) ∧
    (k.compared x).flag stC = x.c ∧ (k.compared x).flag stV = x.v := by
  unfold Core.compared
  refine ⟨?_, ?_, ?_, ?_⟩ <;> simp [flag_setFlag, Core.flagsNZ, stN, stZ, stC, stV]

/-! ### Registers of the operand modes (R335) -/

/-- An instruction that selects a register by F names X, Y or CNT. -/
theorem select_of_ready {d : Dev} {c : Fin 4} {o : StOp} {i : Ins} (h : Ready d c o i) (ho : o ∈ [StOp.ldr, .addr, .cmpr, .str]) : i.f < 3 := by
  obtain ⟨-, -, -, -, legal⟩ := h
  have h4 : i.f < 4 := Nat.mod_lt _ (by decide)
  have h3 : i.f ≠ 3 := fun h3 => by
    simp only [List.mem_cons, List.not_mem_nil, or_false] at ho
    rcases ho with rfl | rfl | rfl | rfl <;> simp [illegalForm, h3] at legal
  omega

/-- A register of the three that instructions select. -/
theorem setReg_low {f : Nat} (hf : f < 3) (v : Word) (k : Core) :
    k.setReg f v = { k with x := (k.setReg f v).x, y := (k.setReg f v).y, cnt := (k.setReg f v).cnt } ∧
      ∀ g, g < 3 → (k.setReg f v).reg g = if g = f then v else k.reg g := by
  obtain rfl | rfl | rfl : f = 0 ∨ f = 1 ∨ f = 2 := by omega
  all_goals
    refine ⟨rfl, fun g hg => ?_⟩
    obtain rfl | rfl | rfl : g = 0 ∨ g = 1 ∨ g = 2 := by omega
    all_goals rfl


/-- Settles O47: the row of each instruction, with what its result and flags are. -/
theorem stewardIntegersAndLogic : Obligations.StewardIntegersAndLogic := by
  unfold Obligations.StewardIntegersAndLogic
  refine ⟨fun c ecc s i o I sub b d2 => ?_, fun c ecc s i o I b d2 r => ?_, fun c s i o I r flags => ?_, fun c s i => ?_, fun c s i => ?_,
    fun c ecc s i b d2 => ?_⟩
  · intro n k w A B ci r x v hI h
    obtain ⟨cb, f, row, hf, hci⟩ := arithmetic_rows hI k
    have hsz : i.sz ≠ 3 := sz_of_ready h.1 (by
      simp only [List.mem_cons, Prod.mk.injEq, List.not_mem_nil, or_false] at hI
      rcases hI with ⟨rfl, -⟩ | ⟨rfl, -⟩ | ⟨rfl, -⟩ | ⟨rfl, -⟩ | ⟨rfl, -⟩ <;> decide)
    obtain ⟨hw, hle⟩ := legal_width hsz
    have hci : ci = b2n cb := hci
    obtain ⟨hr, hv, hC, hH⟩ := arithW_fields hw k.a b sub cb
    have computes := hf (bf k.a 0 w) (bf b 0 w)
    obtain ⟨y, hy⟩ : ∃ y, arithW sub (bf k.a 0 w) (bf b 0 w) cb = y := ⟨_, rfl⟩
    rw [← hci, hy] at hr hv hC hH
    rw [hy] at computes
    rw [show r = y.r.toNat from hr.symm, show v = y.v from hv.symm, row]
    refine ⟨fun ho hyv hov => arithRow_overflows h computes ?_, fun hn => ⟨_, arithRow_completes h computes ?_, ?_⟩⟩
    · rw [decide_eq_true ho, hyv]
      exact hov
    · rcases hn with rfl | hn | hn
      · rfl
      · rw [hn, Bool.and_false, Bool.false_and]
      · exact (Bool.and_eq_false_iff).2 (.inr hn)
    · obtain ⟨fN, fZ, fC, fV, fH⟩ := flagsArith_flags y (if decide (o ≠ .cmp) then k.setAW y.r else k)
      refine ⟨withArith_onlyA _ y k, fun ho => ?_, fun ho => ?_, ?_, ?_, fV, fC.trans hC, fH.trans hH⟩
      · rw [withArith_a, decide_eq_false (not_not.2 ho)]
        rfl
      · rw [withArith_a, decide_eq_true ho, if_pos rfl]
        exact ⟨fld_setAW y.r k hle, fun j h1 h2 => (bit_setAW y.r k h2).trans (if_neg (Nat.not_lt.2 h1)), fun j => bit_setAW_ag y.r k⟩
      · exact fN.trans (by rw [BitVec.ofNat_toNat, BitVec.setWidth_eq])
      · refine fZ.trans (Bool.eq_iff_iff.2 ?_)
        simp [BitVec.toNat_eq]
  · intro k hI h
    have logic : ∀ f : Word → Word → Word, f k.a32 b = r → (∀ s, exec I s = act (logicRow c.val o ecc (decide (o ≠ .tst)) f) s) →
        ∃ k' : Core, exec I s = .next { s with dev := completed d2 c i k' } ∧
          OnlyA k k' [stN, stZ, stV] ∧ (o = .tst → k'.a = k.a) ∧ (o ≠ .tst → holds k'.a r) ∧
          k'.flag stN = r.msb ∧ k'.flag stZ = decide (r = 0) ∧ k'.flag stV = false := fun f hr row => by
      obtain ⟨fN, fZ, fV⟩ := withLogic_flags (decide (o ≠ .tst)) r k
      refine ⟨_, (row s).trans (logicRow_completes h _ f), ?_⟩
      rw [show f d2.cores[c].a32 b = r from hr]
      refine ⟨withLogic_onlyA _ r k, fun ho => ?_, fun ho => ?_, fN, fZ, fV⟩
      · rw [withLogic_a, decide_eq_false (not_not.2 ho)]
        rfl
      · rw [withLogic_a, decide_eq_true ho]
        rfl
    simp only [List.mem_cons, Prod.mk.injEq, List.not_mem_nil, or_false] at hI
    rcases hI with ⟨rfl, rfl, rfl⟩ | ⟨rfl, rfl, rfl⟩ | ⟨rfl, rfl, rfl⟩ | ⟨rfl, rfl, rfl⟩ <;> exact logic _ rfl fun _ => rfl
  · intro d2 k hI h
    simp only [List.mem_cons, Prod.mk.injEq, List.not_mem_nil, or_false] at hI
    rcases hI with ⟨rfl, rfl, rfl, rfl⟩ | ⟨rfl, rfl, rfl, rfl⟩ | ⟨rfl, rfl, rfl, rfl⟩ | ⟨rfl, rfl, rfl, rfl⟩
    · obtain ⟨fN, fZ, fV⟩ := withLogic_flags true (~~~k.a32) k
      exact ⟨_, plain_completes h _, withLogic_onlyA true _ k, withLogic_a true _ k, fN, fZ, fun _ => fV⟩
    · refine ⟨_, plain_completes h _, ?_, rfl, ?_, ?_, fun ho => absurd ho (by decide)⟩
      · exact (((onlyA_refl k _).writeA 0).setFlag (by decide) (by decide) true).setFlag (by decide) (by decide) false
      · exact (flag_setFlag (by decide) ..).trans (if_pos rfl)
      · exact ((flag_setFlag (by decide) ..).trans (if_neg (by decide))).trans ((flag_setFlag (by decide) ..).trans (if_pos rfl))
    · obtain ⟨only, a, fN, fZ⟩ := setA_flagsNZ ((bf k.a 0 8).signExtend 32) k (l := [stN, stZ]) (by decide) (by decide)
      exact ⟨_, plain_completes h _, only, a, fN, fZ, fun ho => absurd ho (by decide)⟩
    · obtain ⟨only, a, fN, fZ⟩ := setA_flagsNZ ((bf k.a 0 16).signExtend 32) k (l := [stN, stZ]) (by decide) (by decide)
      exact ⟨_, plain_completes h _, only, a, fN, fZ, fun ho => absurd ho (by decide)⟩
  · intro d2 k h
    have hv := neg_overflow k.a32
    have hr := neg_result k.a32
    refine ⟨fun ha hov => ?_, fun ha => ⟨_, row_completes (fun _ _ => 1) h (t := d2)
      (k := (k.setA (subW 0 k.a32 false).r).flagsArith (subW 0 k.a32 false)) ?_, ?_⟩⟩
    · refine row_fails (fun _ _ => 1) h (f := { code := 0x09, addr := some (k.pck.base + i.pc.toNat) }) ?_
      dsimp only
      rw [core_fin]
      exact if_pos (by rw [hv, decide_eq_true ha]; exact hov)
    · dsimp only
      rw [core_fin]
      refine (if_neg ?_).trans (congrArg Except.ok (updCore_eq_setCore ..))
      rw [Bool.and_eq_true]
      rintro ⟨h1, h2⟩
      rcases ha with ha | ha
      · exact ha (of_decide_eq_true (hv.symm.trans h1))
      · exact absurd (ha.symm.trans h2) (by decide)
    · obtain ⟨fN, fZ, fC, fV, fH⟩ := flagsArith_flags (subW 0 k.a32 false) (k.setA (subW 0 k.a32 false).r)
      refine ⟨(setA_onlyA _ k _).flagsArith _, ?_, ?_, ?_, ?_, fV.trans hv, ?_⟩
      · rw [flagsArith_a, hr]
        rfl
      · rw [fN, hr]
      · rw [fZ, hr, Bool.eq_iff_iff]
        simp
      · exact fC.trans (decide_eq_decide.2 (Nat.le_zero.trans (BitVec.toNat_eq (y := 0)).symm))
      · exact fH.trans (decide_eq_decide.2 Nat.le_zero)
  · intro d2 k n kind h
    have hk : kind < 4 := Nat.mod_lt _ (by decide)
    have illegal : ¬ (kind = 3 ∧ bit i.w 7 = true) := fun ⟨h3, h7⟩ => by
      have legal := h.2.2.2.2
      rw [illegalForm, h7, show fld i.w 8 2 = 3 from h3] at legal
      exact absurd legal (by decide)
    refine ⟨_, exec_shift h, ?_⟩
    cases h7 : bit i.w 7
    · simp only [Bool.false_eq_true, if_false, false_implies, true_and, true_implies]
      obtain ⟨only, fV, f0, a, fN, fZ, fC, co⟩ := withShift_shiftW k.a32 (n := n) hk ((shiftW kind n k.a32).1.signExtend 40) k
      have low := (congrArg (fun v : BitVec 40 => bf v 0 32) a).trans (a32_signExtend _)
      refine ⟨only, fV, f0, ?_, fN.trans (congrArg BitVec.msb low).symm, fZ.trans ?_, fun hn h3 => fC hn (by omega), fun h3 => ?_⟩
      · exact a.trans (congrArg (BitVec.signExtend 40) (shiftW_result k.a32 hk))
      · exact (congrArg (fun v : Word => decide (v = 0)) low).symm
      · have bit0 : bit ((shiftW kind n k.a32).1.signExtend 40) 0 = bit (k.a32.rotateLeft (n % 32)) 0 := by
          rw [bit_signExtend, shiftW_result k.a32 hk, h3]
          rfl
        refine co.trans ?_
        rw [a, bit0, h3, shiftW_rotated k.a32]
        split <;> rfl
    · simp only [Bool.true_eq_false, if_true, false_implies, and_true, true_implies]
      obtain ⟨only, fV, f0, a, fN, fZ, fC, -⟩ := withShift_shiftW k.a (n := n) hk (shiftW kind n k.a).1 k
      have h3 : kind ≠ 3 := fun h3 => illegal ⟨h3, h7⟩
      refine ⟨only, fV, f0, h3, a.trans ?_, fN.trans (congrArg BitVec.msb a).symm, fZ.trans ?_, fun hn => fC hn (by omega)⟩
      · rw [shiftW_result k.a hk]
        split
        · rfl
        · split
          · rfl
          · exact if_pos (by omega)
      · exact (congrArg (fun v : BitVec 40 => decide (v = 0)) a).symm
  · intro k n sat
    have limited : ∀ x, sat (-2 ^ 39) (2 ^ 39 - 1) x (k.sat40 x) := fun x => setSat_limits (by decide) (by decide) (by decide) x k
    refine ⟨fun h => ?_, fun h => ?_, fun h2 h => ?_, fun h => ?_, fun h => ?_⟩
    · exact ⟨_, reads_completes (fun i k => opSlots c k i) (sx := fun _ => false) h fun _ b k => k.sat40 (k.a.toInt + b.toInt), limited _⟩
    · exact ⟨_, reads_completes (fun i k => opSlots c k i) (sx := fun _ => false) h fun _ b k => k.sat40 (k.a.toInt - b.toInt), limited _⟩
    · subst h2
      exact ⟨_, plain_completes h _, setSat_limits (by decide) (by decide) (by decide) _ _⟩
    · have hf := select_of_ready h.1 (by decide)
      obtain ⟨rest, regs⟩ := setReg_low hf (k.reg i.f + b) k
      refine ⟨_, reads_completes (fun i k => opSlots c k i) (sx := fun _ => false) h
        fun i b k => (k.setReg i.f (k.reg i.f + b)).setFlag stZ (k.reg i.f + b == 0), ?_, ?_, fun f h3 hne => ?_⟩
      · exact (regs _ hf).trans (if_pos rfl)
      · exact congrArg (Core.setFlag stZ (k.reg i.f + b == 0)) rest
      · exact (regs f h3).trans (if_neg hne)
    · obtain ⟨fN, fZ, fC, fV⟩ := compared_flags (subW (k.reg i.f) b false) k
      have hr : (subW (k.reg i.f) b false).r = k.reg i.f - b := by simp [subW, b2n]
      refine ⟨_, reads_completes (fun i k => opSlots c k i) (sx := fun _ => false) h fun i b k => k.compared (subW (k.reg i.f) b false), ?_⟩
      refine ⟨compared_onlyA _ k, compared_a _ k, fN.trans (congrArg BitVec.msb hr), fZ.trans ?_, fC, fV.trans ?_⟩
      · rw [hr, Bool.eq_iff_iff]
        simp [BitVec.sub_eq_iff_eq_add]
      · refine (arithW_v (by decide : 0 < 32) true (k.reg i.f) b false).trans ?_
        rw [exactW, if_pos rfl]
        simp [b2n]

end Sys2Proof.Machine
end

section
/-!
PROOFS. The statements of 10_steward_isa.md: numbers spelled digit by digit, and the decimal instructions.
-/
namespace Sys2Proof.Machine

/-! ### Digits -/

/-- The number whose `n` digits to base `q` are those of `f`. -/
def spelled (q : Nat) (f : Nat → Nat) (n : Nat) : Nat := (List.range n).foldl (fun t j => t + f j * q ^ j) 0

section
variable {q : Nat} {f g : Nat → Nat} {n : Nat}

theorem spelled_succ (q : Nat) (f : Nat → Nat) (n : Nat) : spelled q f (n + 1) = spelled q f n + f n * q ^ n := by
  simp [spelled, List.range_succ, List.foldl_append]

theorem spelled_congr (h : ∀ j < n, f j = g j) : spelled q f n = spelled q g n := by
  induction n with
  | zero => rfl
  | succ n ih => rw [spelled_succ, spelled_succ, ih fun j hj => h j (by omega), h n (by omega)]

/-- The lowest digit apart. -/
theorem spelled_low (q : Nat) (f : Nat → Nat) (n : Nat) : spelled q f (n + 1) = f 0 + q * spelled q (fun j => f (j + 1)) n := by
  induction n with
  | zero => simp [spelled]
  | succ n ih =>
    rw [spelled_succ, ih, spelled_succ, Nat.mul_add, pow_succ]
    ring

theorem spelled_lt (h : ∀ j < n, f j < q) : spelled q f n < q ^ n := by
  induction n with
  | zero => exact Nat.one_pos
  | succ n ih =>
    have low := ih fun j hj => h j (by omega)
    have top := Nat.mul_le_mul_right (q ^ n) (h n (by omega))
    rw [spelled_succ, pow_succ, Nat.mul_comm (q ^ n) q]
    rw [Nat.succ_mul] at top
    omega

/-- A digit above `n` lower ones. -/
theorem digit_above {v s : Nat} (hv : v < q ^ n) (hs : s < q) : (v + s * q ^ n) / q ^ n % q = s := by
  rw [Nat.add_mul_div_right _ _ (Nat.lt_of_le_of_lt (Nat.zero_le v) hv), Nat.div_eq_of_lt hv, Nat.zero_add, Nat.mod_eq_of_lt hs]

theorem digit_below {j : Nat} (hj : j < n) (v s : Nat) : (v + s * q ^ n) / q ^ j % q = v / q ^ j % q := by
  rcases Nat.eq_zero_or_pos q with rfl | hq
  · simp [Nat.ne_zero_of_lt hj]
  obtain ⟨m, rfl⟩ : ∃ m, n = j + 1 + m := ⟨n - (j + 1), by omega⟩
  rw [show s * q ^ (j + 1 + m) = s * q ^ m * q * q ^ j by ring, Nat.add_mul_div_right _ _ (Nat.pow_pos hq), Nat.add_mul_mod_self_right]

theorem digit_spelled (h : ∀ j < n, f j < q) {j : Nat} (hj : j < n) : spelled q f n / q ^ j % q = f j := by
  induction n with
  | zero => exact absurd hj (Nat.not_lt_zero j)
  | succ n ih =>
    rw [spelled_succ]
    rcases Nat.lt_succ_iff_lt_or_eq.1 hj with hlt | rfl
    · rw [digit_below hlt, ih (fun j hj => h j (by omega)) hlt]
    · exact digit_above (spelled_lt fun i hi => h i (by omega)) (h j (by omega))

/-- A number by its own digits. -/
theorem spelled_self (q v n : Nat) : spelled q (fun j => v / q ^ j % q) n = v % q ^ n := by
  induction n with
  | zero => simp [spelled, Nat.mod_one]
  | succ n ih => rw [spelled_succ, ih, pow_succ, Nat.mod_mul, Nat.mul_comm (q ^ n)]

end

/-! ### Decimal sums and differences (R354) -/

/-- One digit of a decimal sum, and of a difference. -/
def addDigit (a b : Nat) (x : Nat × Bool × Bool) (i : Nat) : Nat × Bool × Bool :=
  let s := digit a i + digit b i + b2n x.2.1
  (x.1 + (if 9 < s then (s - 10) % 16 else s) * 16 ^ i, decide (9 < s), if i = 0 then decide (9 < s) else x.2.2)

def subDigit (a b : Nat) (x : Nat × Bool × Bool) (i : Nat) : Nat × Bool × Bool :=
  let s : Int := digit a i - digit b i - b2n x.2.1
  (x.1 + (if s < 0 then ((s + 10) % 16).toNat else s.toNat) * 16 ^ i, decide (s < 0), if i = 0 then !decide (s < 0) else x.2.2)

theorem bcdAdd_eq (a b : Nat) (ci : Bool) : bcdAdd a b ci = (List.range 8).foldl (addDigit a b) (0, ci, false) := by
  unfold bcdAdd
  congr 1
  funext x i
  simp only [addDigit, decide_eq_true_eq]

theorem bcdSub_eq (a b : Nat) (bi : Bool) : bcdSub a b bi = (List.range 8).foldl (subDigit a b) (0, bi, false) := by
  unfold bcdSub
  congr 1
  funext x i
  simp only [subDigit, decide_eq_true_eq]

/-- The decimal value of the low `n` digits of a packed number, and that they are decimal digits. -/
def decimal (n v : Nat) : Nat := spelled 10 (digit v) n
def decimalDigits (n v : Nat) : Prop := ∀ j < n, digit v j ≤ 9

theorem digit_lt (v j : Nat) : digit v j < 16 := Nat.mod_lt _ (by decide)

theorem decimal_lt {n v : Nat} (h : decimalDigits n v) : decimal n v < 10 ^ n := spelled_lt fun j hj => Nat.lt_succ_of_le (h j hj)

/-- Another digit `s` in front of `n` digits. -/
theorem decimal_above {n v s : Nat} (hv : v < 16 ^ n) (hs : s < 16) :
    v + s * 16 ^ n < 16 ^ (n + 1) ∧ decimal (n + 1) (v + s * 16 ^ n) = decimal n v + s * 10 ^ n ∧
      (decimalDigits n v → s ≤ 9 → decimalDigits (n + 1) (v + s * 16 ^ n)) := by
  have top : digit (v + s * 16 ^ n) n = s := digit_above hv hs
  have low : ∀ j < n, digit (v + s * 16 ^ n) j = digit v j := fun j hj => digit_below hj v s
  refine ⟨?_, ?_, fun hd h9 j hj => ?_⟩
  · have := Nat.mul_le_mul_right (16 ^ n) hs
    rw [Nat.succ_mul] at this
    rw [pow_succ, Nat.mul_comm (16 ^ n)]
    omega
  · rw [decimal, spelled_succ, top, spelled_congr low]
    rfl
  · rcases Nat.lt_succ_iff_lt_or_eq.1 hj with hlt | rfl
    · exact (low j hlt).le.trans (hd j hlt)
    · exact top.le.trans h9

/-- After `n` digits a sum has `n` digits, and of decimal digits it is the decimal sum, with what is carried. -/
theorem addDigits_spec (a b : Nat) (ci : Bool) (n : Nat) :
    let x := (List.range n).foldl (addDigit a b) (0, ci, false)
    x.1 < 16 ^ n ∧ (decimalDigits n a → decimalDigits n b → decimalDigits n x.1 ∧
      decimal n x.1 + 10 ^ n * b2n x.2.1 = decimal n a + decimal n b + b2n ci) := by
  induction n with
  | zero => exact ⟨Nat.one_pos, fun _ _ => ⟨fun j hj => absurd hj (Nat.not_lt_zero j), by simp [decimal, spelled]⟩⟩
  | succ n ih =>
    intro x
    obtain ⟨y, hy⟩ : ∃ y, (List.range n).foldl (addDigit a b) (0, ci, false) = y := ⟨_, rfl⟩
    have hx : x = addDigit a b y n := by simp only [x, List.range_succ, List.foldl_append, List.foldl_cons, List.foldl_nil, hy]
    rw [hy] at ih
    obtain ⟨lt, exact_n⟩ := ih
    have ha := digit_lt a n
    have hb := digit_lt b n
    have hc := b2n_le y.2.1
    obtain ⟨s, hs⟩ : ∃ s, digit a n + digit b n + b2n y.2.1 = s := ⟨_, rfl⟩
    obtain ⟨t, ht⟩ : ∃ t, (if 9 < s then (s - 10) % 16 else s) = t := ⟨_, rfl⟩
    have h16 : t < 16 := by rw [← ht]; split <;> omega
    have e : x = (y.1 + t * 16 ^ n, decide (9 < s), if n = 0 then decide (9 < s) else y.2.2) := by
      rw [hx, addDigit, hs, ht]
    obtain ⟨lt', dec, digits⟩ := decimal_above lt h16
    rw [e]
    refine ⟨lt', fun da db => ?_⟩
    have da' : digit a n ≤ 9 := da n (by omega)
    have db' : digit b n ≤ 9 := db n (by omega)
    obtain ⟨dy, sum⟩ := exact_n (fun j hj => da j (by omega)) fun j hj => db j (by omega)
    have t9 : t + 10 * b2n (decide (9 < s)) = s ∧ t ≤ 9 := by
      rw [← ht]
      by_cases h9 : 9 < s
      · have carried : b2n (decide (9 < s)) = 1 := by rw [decide_eq_true h9]; rfl
        rw [if_pos h9, carried]
        omega
      · have kept : b2n (decide (9 < s)) = 0 := by rw [decide_eq_false h9]; rfl
        rw [if_neg h9, kept]
        omega
    refine ⟨digits dy t9.2, ?_⟩
    have expand : ∀ v, decimal (n + 1) v = decimal n v + digit v n * 10 ^ n := fun v => spelled_succ ..
    show decimal (n + 1) (y.1 + t * 16 ^ n) + 10 ^ (n + 1) * b2n (decide (9 < s)) = _
    calc decimal (n + 1) (y.1 + t * 16 ^ n) + 10 ^ (n + 1) * b2n (decide (9 < s))
        = decimal n y.1 + (t + 10 * b2n (decide (9 < s))) * 10 ^ n := by rw [dec]; ring
      _ = decimal n y.1 + 10 ^ n * b2n y.2.1 + (digit a n + digit b n) * 10 ^ n := by rw [t9.1, ← hs]; ring
      _ = decimal (n + 1) a + decimal (n + 1) b + b2n ci := by rw [sum, expand a, expand b]; ring

/-- So for a difference, with what is borrowed. -/
theorem subDigits_spec (a b : Nat) (bi : Bool) (n : Nat) :
    let x := (List.range n).foldl (subDigit a b) (0, bi, false)
    x.1 < 16 ^ n ∧ (decimalDigits n a → decimalDigits n b → decimalDigits n x.1 ∧
      decimal n x.1 + decimal n b + b2n bi = decimal n a + 10 ^ n * b2n x.2.1) := by
  induction n with
  | zero => exact ⟨Nat.one_pos, fun _ _ => ⟨fun j hj => absurd hj (Nat.not_lt_zero j), by simp [decimal, spelled]⟩⟩
  | succ n ih =>
    intro x
    obtain ⟨y, hy⟩ : ∃ y, (List.range n).foldl (subDigit a b) (0, bi, false) = y := ⟨_, rfl⟩
    have hx : x = subDigit a b y n := by simp only [x, List.range_succ, List.foldl_append, List.foldl_cons, List.foldl_nil, hy]
    rw [hy] at ih
    obtain ⟨lt, exact_n⟩ := ih
    have ha := digit_lt a n
    have hb := digit_lt b n
    have hc := b2n_le y.2.1
    obtain ⟨s, hs⟩ : ∃ s : Int, (digit a n - digit b n - b2n y.2.1 : Int) = s := ⟨_, rfl⟩
    obtain ⟨t, ht⟩ : ∃ t, (if s < 0 then ((s + 10) % 16).toNat else s.toNat) = t := ⟨_, rfl⟩
    have h16 : t < 16 := by rw [← ht]; split <;> omega
    have e : x = (y.1 + t * 16 ^ n, decide (s < 0), if n = 0 then !decide (s < 0) else y.2.2) := by
      rw [hx, subDigit, hs, ht]
    obtain ⟨lt', dec, digits⟩ := decimal_above lt h16
    rw [e]
    refine ⟨lt', fun da db => ?_⟩
    have da' : digit a n ≤ 9 := da n (by omega)
    have db' : digit b n ≤ 9 := db n (by omega)
    obtain ⟨dy, difference⟩ := exact_n (fun j hj => da j (by omega)) fun j hj => db j (by omega)
    have t9 : t + digit b n + b2n y.2.1 = digit a n + 10 * b2n (decide (s < 0)) ∧ t ≤ 9 := by
      rw [← ht]
      by_cases h0 : s < 0
      · have borrowed : b2n (decide (s < 0)) = 1 := by rw [decide_eq_true h0]; rfl
        rw [if_pos h0, borrowed]
        omega
      · have kept : b2n (decide (s < 0)) = 0 := by rw [decide_eq_false h0]; rfl
        rw [if_neg h0, kept]
        omega
    refine ⟨digits dy t9.2, ?_⟩
    have expand : ∀ v, decimal (n + 1) v = decimal n v + digit v n * 10 ^ n := fun v => spelled_succ ..
    show decimal (n + 1) (y.1 + t * 16 ^ n) + decimal (n + 1) b + b2n bi = _ + 10 ^ (n + 1) * b2n (decide (s < 0))
    have whole := congrArg (· * 10 ^ n) t9.1
    simp only [Nat.add_mul] at whole
    rw [dec, expand a, expand b, show 10 ^ (n + 1) * b2n (decide (s < 0)) = 10 * b2n (decide (s < 0)) * 10 ^ n by ring]
    rw [Nat.mul_comm (10 ^ n)] at difference
    omega

end Sys2Proof.Machine
end

section
/-!
PROOFS. The statements of 10_steward_isa.md: multiplies, divisions and the decimal instructions.
-/
namespace Sys2Proof.Machine

/-! ### Multiplies in flight (R350 to R352) -/

theorem acc72_setAcc72 (v : BitVec 72) (k : Core) : (k.setAcc72 v).acc72 = v := by
  have field : ∀ (x : BitVec 8) (y z : Word), (∀ j < 72, bit v j =
      if j < 32 then bit z j else if j < 64 then bit y (j - 32) else bit x (j - 64)) →
      (x ++ y) ++ z = v := fun x y z h => by
    refine eq_of_bit fun j hj => ?_
    rw [h j hj]
    simp only [bit, BitVec.getLsbD_append]
    split
    · rfl
    · have hlt : (j - 32 < 32) ↔ j < 64 := by omega
      simp only [hlt]
      split
      · rfl
      · rw [Nat.sub_sub]
  refine field (bf v 64 8) (bf v 32 32) (bf v 0 32) fun j hj => ?_
  simp only [bit_bf]
  split
  · simp [*]
  · split
    · simp [show j - 32 < 32 by omega, show 32 + (j - 32) = j by omega]
    · simp [show j - 64 < 8 by omega, show 64 + (j - 64) = j by omega]

/-- The accumulator after a multiply lands. -/
theorem land_acc (k : Core) (m : Mult) :
    (m.kind = .mul ∨ m.kind = .mulf → (land k m).acc72 = m.p.signExtend 72) ∧ (m.kind = .mulu → (land k m).acc72 = m.p.zeroExtend 72) ∧
      (m.kind = .mac → (land k m).acc72 = k.acc72 + m.p.signExtend 72) ∧ (m.kind = .macu → (land k m).acc72 = k.acc72 + m.p.zeroExtend 72) := by
  refine ⟨?_, fun h => ?_, fun h => ?_, fun h => ?_⟩
  · rintro (h | h) <;> simp only [land, h, acc72_setAcc72]
  all_goals simp only [land, h, acc72_setAcc72]

/-- MACF limits the sum to 72 bits and sets S then. -/
theorem land_macf {k : Core} {m : Mult} (h : m.kind = .macf) :
    let e := k.acc72.toInt + m.p.toInt
    (land k m).acc72.toInt = max (-2 ^ 71) (min (2 ^ 71 - 1) e) ∧
      (land k m).flag stS = (k.flag stS || decide (e < -2 ^ 71 ∨ 2 ^ 71 ≤ e)) := by
  intro e
  have inRange : ∀ x : Int, -2 ^ 71 ≤ x → x < 2 ^ 71 → (BitVec.ofInt 72 x).toInt = x := fun x h1 h2 => by
    rw [BitVec.toInt_ofInt]
    refine Int.bmod_eq_of_le ?_ ?_ <;> omega
  have acc : ∀ (v : BitVec 72) (b : Bool), ((k.setAcc72 v).setFlag stS b).acc72 = v := fun v b => acc72_setAcc72 v k
  have flag : ∀ v : BitVec 72, ((k.setAcc72 v).setFlag stS true).flag stS = true := fun v => by
    rw [flag_setFlag (by decide), if_pos rfl]
  have land_eq : land k m = if e < -2 ^ 71 then (k.setAcc72 (BitVec.ofInt 72 (-2 ^ 71))).setFlag stS true
      else if 2 ^ 71 ≤ e then (k.setAcc72 (BitVec.ofInt 72 (2 ^ 71 - 1))).setFlag stS true else k.setAcc72 (BitVec.ofInt 72 e) := by
    simp only [land, h]
    rfl
  rw [land_eq]
  by_cases h1 : e < -2 ^ 71
  · rw [if_pos h1, acc, flag, inRange _ (by decide) (by decide), decide_eq_true (.inl h1), Bool.or_true]
    exact ⟨by omega, rfl⟩
  · by_cases h2 : 2 ^ 71 ≤ e
    · rw [if_neg h1, if_pos h2, acc, flag, inRange _ (by decide) (by decide), decide_eq_true (.inr h2), Bool.or_true]
      exact ⟨by omega, rfl⟩
    · rw [if_neg h1, if_neg h2, acc72_setAcc72, inRange _ (by omega) (by omega), decide_eq_false (not_or.2 ⟨h1, h2⟩), Bool.or_false]
      exact ⟨by omega, rfl⟩

/-- The slots after which the oldest multiply, and no other, has landed. -/
theorem slots_oldest {k : Core} {m : Mult} {r : List Mult} (hm : k.muls = m :: r) (hr : ∀ x ∈ r, m.left < x.left) :
    (slots m.left k).muls = r.map (fun x => { x with left := x.left - m.left }) ∧ (slots m.left k).acc72 = (land k m).acc72 ∧
      (slots m.left k).flag stS = (land k m).flag stS := by
  have others : r.takeWhile (fun x => decide (x.left ≤ m.left)) = [] := by
    cases r with
    | nil => rfl
    | cons x r => exact List.takeWhile_cons_of_neg (by simpa using hr x List.mem_cons_self)
  have now : k.muls.takeWhile (fun x => decide (x.left ≤ m.left)) = [m] := by
    rw [hm, List.takeWhile_cons_of_pos (by simp), others]
  unfold slots
  simp only [now]
  refine ⟨?_, rfl, rfl⟩
  rw [hm]
  rfl

section
variable {c : Fin 4} {d : Dev} (n : Nat)

/-- Slots of a core that issues pass by themselves. -/
theorem stallSlots_running (hf : d.sys.fclkOn = true) (hz : d.cores[c].frozen = false) (hst : d.cores[c].st = .running) :
    stallSlots c.val n d = setCore c (slots n d.cores[c]) d := by
  unfold stallSlots
  dsimp only
  rw [core_fin, hf, hz, hst]
  exact updCore_eq_setCore ..

/-- Slots of a core in a WAIT are clk of the device (R363). -/
theorem stallSlots_waiting (hz : d.cores[c].frozen = false) (hst : d.cores[c].st = .waiting) : stallSlots c.val n d = pass n d := by
  unfold stallSlots
  dsimp only
  rw [core_fin, hz, hst]
  cases hf : d.sys.fclkOn
  · exact (pass_off n d hf).symm
  · rfl

theorem stallSlots_frozen (hz : d.cores[c].frozen = true) : stallSlots c.val n d = d := by
  unfold stallSlots
  dsimp only
  rw [core_fin, hz, Bool.or_true]
  exact if_pos rfl

end

theorem multiplyLanding_cons {c : Fin 4} {d : Dev} {m : Mult} {r : List Mult} (h : d.cores[c].muls = m :: r) :
    multiplyLanding c.val d = stallSlots c.val m.left d := by
  unfold multiplyLanding
  rw [core_fin, h]

theorem multiplyLanding_nil {c : Fin 4} {d : Dev} (h : d.cores[c].muls = []) : multiplyLanding c.val d = d := by
  unfold multiplyLanding
  rw [core_fin, h]

/-- A multiply is issued with its product. -/
theorem mulRow_issues {s : State} {c : Fin 4} {ecc : Ecc} {i : Ins} {o : StOp} {b : Word} {d2 : Dev}
    (h : Reads s.dev c o (opSlots c.val s.dev.cores[c] i) i false ecc b d2) {m : MulKind} {p : DWord} {lim : Bool}
    (hp : product m d2.cores[c].a32 b = (p, lim)) :
    act (mulRow c.val o m ecc) s = .next { s with
      dev := completed d2 c i { d2.cores[c] with
        muls := d2.cores[c].muls ++ [{ kind := m, p := p, left := 4 }]
        status := if lim then setBit d2.cores[c].status stS true else d2.cores[c].status } } := by
  refine row_completes _ h.1 (t := d2) ?_
  rw [opSlots_prune, h.2]
  refine congrArg Except.ok ((updCore_eq_setCore ..).trans (congrArg (setCore c · d2) ?_))
  dsimp only
  rw [hp]
  cases lim <;> rfl

/-! ### DIV and DIVU (R353) -/

theorem divide_zero_fault {signed dzen oven : Bool} {a b : Word} (hb : b = 0) (hz : dzen = true) :
    divide signed dzen oven a b = .error 0x08 := by rw [hb, hz]; rfl

/-- The quotient of DIV by 0 has the sign of the dividend. -/
theorem divide_zero_signed (a : Word) : divide true false false a 0 = .ok (if 0 ≤ a.toInt then 0x7FFFFFFF else 0x80000000, a, true) := by
  have sign := BitVec.msb_eq_toInt (x := a)
  have unfolded : divide true false false a 0 = .ok (if a.msb then 0x80000000 else 0x7FFFFFFF, a, true) := rfl
  rw [unfolded, sign]
  by_cases h : a.toInt < 0
  · rw [decide_eq_true h, if_pos rfl, if_neg (by omega)]
  · rw [decide_eq_false h, if_neg (by decide), if_pos (by omega)]

theorem divide_signed {dzen oven : Bool} {a b : Word} (hb : b ≠ 0) (he : ¬ (a = 0x80000000 ∧ b = 0xFFFFFFFF)) :
    divide true dzen oven a b = .ok (BitVec.ofInt 32 (a.toInt.tdiv b.toInt), BitVec.ofInt 32 (a.toInt.tmod b.toInt), false) := by
  rw [divide, if_neg hb, if_pos rfl, if_neg he]

theorem divide_unsigned {dzen oven : Bool} {a b : Word} (hb : b ≠ 0) :
    divide false dzen oven a b = .ok (BitVec.ofNat 32 (a.toNat / b.toNat), BitVec.ofNat 32 (a.toNat % b.toNat), false) := by
  rw [divide, if_neg hb, if_neg (by decide), BitVec.udiv_def, BitVec.umod_def]

/-- A quotient, a remainder and their flags. -/
def Core.divided (q r : Word) (v : Bool) (k : Core) : Core :=
  (((({ k with y := r } : Core).setA q).flagsNZ q).setFlag stC false).setFlag stV v

theorem divided_spec (q r : Word) (v : Bool) (k : Core) :
    let k' := k.divided q r v
    k' = { k with a := q.signExtend 40, y := r, status := k'.status } ∧ k'.flag stC = false ∧ k'.flag stV = v ∧ k'.flag stN = q.msb ∧
      k'.flag stZ = decide (q = 0) ∧ ∀ j, j ∉ [stN, stZ, stC, stV] → bit k'.status j = bit k.status j := by
  have start := ((setA_onlyA q ({ k with y := r } : Core) [stN, stZ, stC, stV]).flagsNZ q (by decide) (by decide)).setFlag
    (by decide : stC ∈ _) (by decide) false
  obtain ⟨-, bits⟩ := start.setFlag (by decide : stV ∈ _) (by decide) v
  have zero : (k.divided q r v).flag stZ = (q == 0) := by
    rw [Core.divided, flag_setFlag (by decide), if_neg (by decide), flag_setFlag (by decide), if_neg (by decide), flagsNZ_z]
  refine ⟨rfl, ?_, ?_, ?_, zero, bits⟩ <;> simp [Core.divided, flag_setFlag, Core.flagsNZ, stN, stZ, stC, stV]

section
variable {s : State} {c : Fin 4} {ecc : Ecc} {i : Ins} {o : StOp} {b : Word} {d2 : Dev}
  (h : Reads s.dev c o (33 + opSlots c.val s.dev.cores[c] i) i false ecc b d2) {signed : Bool}
include h

theorem divRow_completes {q r : Word} {v : Bool}
    (hd : divide signed (d2.cores[c].flag stDZEN) (d2.cores[c].flag stOVEN) d2.cores[c].a32 b = .ok (q, r, v)) :
    act (divRow c.val o signed ecc) s = .next { s with dev := completed d2 c i (d2.cores[c].divided q r v) } := by
  refine row_completes _ h.1 (t := d2) ?_
  rw [opSlots_prune, h.2]
  simp only [bind, Except.bind, core_fin, hd]
  exact congrArg Except.ok (updCore_eq_setCore ..)

theorem divRow_fails {code : Nat} (hd : divide signed (d2.cores[c].flag stDZEN) (d2.cores[c].flag stOVEN) d2.cores[c].a32 b = .error code) :
    act (divRow c.val o signed ecc) s = .next { s with
      dev := raiseFault c.val code 0 0 (d2.cores[c].pck.base + i.pc.toNat) i.pc
        (failing s.dev c (33 + opSlots c.val s.dev.cores[c] i)) } := by
  refine row_fails _ h.1 (f := { code := code, addr := some (d2.cores[c].pck.base + i.pc.toNat) }) ?_
  rw [opSlots_prune, h.2]
  simp only [bind, Except.bind, core_fin, hd]

end

/-- The increment of RND. -/
theorem roundInc_eq (rm : Nat) (v : Int) (f : Nat) : rm < 4 → roundInc rm v f =
    b2n (match rm with
      | 0 => false
      | 1 => decide (2 ^ 31 ≤ f)
      | 2 => decide (2 ^ 31 < f ∨ (f = 2 ^ 31 ∧ v % 2 = 1))
      | _ => decide (v < 0 ∧ f ≠ 0)) := by
  intro hm
  obtain rfl | rfl | rfl | rfl : rm = 0 ∨ rm = 1 ∨ rm = 2 ∨ rm = 3 := by omega
  · rfl
  all_goals simp only [roundInc, b2n, decide_eq_true_eq, Nat.cast_ite, Nat.cast_one, Nat.cast_zero]
  all_goals rfl

/-! ### ADDD and SUBD -/

/-- A packed decimal result and its flags. -/
def Core.withDecimal (r : Nat) (co h v : Bool) (k : Core) : Core :=
  ((((({ k with a := BitVec.ofNat 40 r } : Core).setFlag stH h).setFlag stC co).setFlag stZ (r == 0)).setFlag stN false).setFlag stV v

theorem withDecimal_spec {r : Nat} (hr : r < 2 ^ 32) (co h v : Bool) (k : Core) :
    let k' := k.withDecimal r co h v
    OnlyA k k' [stC, stZ, stN, stV, stH] ∧ k'.a.toNat = r ∧ k'.flag stZ = decide (k'.a = 0) ∧ k'.flag stN = false ∧ k'.flag stV = v ∧
      k'.flag stC = co := by
  intro k'
  have a : k'.a = BitVec.ofNat 40 r := by simp only [k', Core.withDecimal, setFlag_a]
  have value : k'.a.toNat = r := by rw [a, BitVec.toNat_ofNat, Nat.mod_eq_of_lt (by omega)]
  have zero : k'.flag stZ = (r == 0) := by simp [k', Core.withDecimal, flag_setFlag, stN, stZ, stV]
  refine ⟨?_, value, zero.trans ?_, ?_, ?_, ?_⟩
  · exact ((((((onlyA_refl k _).writeA _).setFlag (by decide) (by decide) _).setFlag (by decide) (by decide) _).setFlag
      (by decide) (by decide) _).setFlag (by decide) (by decide) _).setFlag (by decide) (by decide) _
  · rw [Bool.eq_iff_iff, ← value]
    simp [BitVec.toNat_eq]
  all_goals simp [k', Core.withDecimal, flag_setFlag, stN, stZ, stV, stC]

theorem bcdRow_completes {s : State} {c : Fin 4} {ecc : Ecc} {i : Ins} {o : StOp} {b : Word} {d2 : Dev}
    (h : Reads s.dev c o (opSlots c.val s.dev.cores[c] i) i false ecc b d2) (sub : Bool) :
    let k := d2.cores[c]
    let x := if sub then bcdSub k.a32.toNat b.toNat (bit i.w 0 && !k.flag stC) else bcdAdd k.a32.toNat b.toNat (bit i.w 0 && k.flag stC)
    act (bcdRow c.val o sub ecc) s = .next { s with
      dev := completed d2 c i (k.withDecimal x.1 (sub != x.2.1) x.2.2 (badDigits k.a32.toNat || badDigits b.toNat)) } := by
  intro k x
  refine row_completes _ h.1 (t := d2) ?_
  rw [opSlots_prune, h.2]
  refine congrArg Except.ok ((updCore_eq_setCore ..).trans (congrArg (setCore c · d2) ?_))
  cases sub
  · simp only [Bool.false_bne]
    rfl
  · simp only [Bool.true_bne]
    rfl

theorem badDigits_false (v : Nat) : badDigits v = false ↔ decimalDigits 8 v := by simp [badDigits, decimalDigits]

/-- An eight-digit sum with its carry. -/
theorem sum_decimal {r e : Nat} {co : Bool} (hr : r < 10 ^ 8) (h : r + 10 ^ 8 * b2n co = e) : r = e % 10 ^ 8 ∧ co = decide (10 ^ 8 ≤ e) := by
  rw [← h]
  cases co with
  | false =>
    simp only [b2n, Bool.false_eq_true, if_false]
    exact ⟨by omega, (decide_eq_false (by omega)).symm⟩
  | true =>
    simp only [b2n, if_true]
    exact ⟨by omega, (decide_eq_true (by omega)).symm⟩

/-- An eight-digit difference with its borrow. -/
theorem difference_decimal {r a b : Nat} {bi w : Bool} (hr : r < 10 ^ 8)
    (h : r + b + b2n bi = a + 10 ^ 8 * b2n w) : r = (a + 10 ^ 8 - (b + b2n bi)) % 10 ^ 8 ∧ (!w) = decide (b + b2n bi ≤ a) := by
  have hi := b2n_le bi
  cases w with
  | false =>
    simp only [b2n, Bool.false_eq_true, if_false] at h ⊢
    exact ⟨by omega, (decide_eq_true (by omega)).symm⟩
  | true =>
    simp only [b2n, if_true] at h ⊢
    exact ⟨by omega, (decide_eq_false (by omega)).symm⟩

/-! ### DAA and DAS (R355) -/

theorem decAdjust_add (a : Nat) (cf hf : Bool) : decAdjust false a cf hf =
    ((a + (if 9 < a % 16 ∨ hf = true then 0x06 else 0) + (if 0x99 < a ∨ cf = true then 0x60 else 0)) % 256, decide (0x99 < a ∨ cf = true)) := by
  cases cf <;> cases hf <;> simp [decAdjust, Nat.add_assoc]

theorem decAdjust_sub (a : Nat) (cf hf : Bool) : decAdjust true a cf hf =
    ((a + 256 - (if 9 < a % 16 ∨ hf = false then 0x06 else 0) - (if 0x99 < a ∨ cf = false then 0x60 else 0)) % 256,
      decide (¬ (0x99 < a ∨ cf = false))) := by
  have carry : decide (a ≤ 0x99) = !decide (0x99 < a) := by rw [← decide_not, decide_eq_decide]; exact Nat.not_lt.symm
  cases cf <;> cases hf <;> simp [decAdjust, Nat.sub_add_eq, carry]

theorem adjust_spec {sub : Bool} {k : Core} {x : Nat} {cf : Bool} (h : decAdjust sub (fld k.a 0 8) (k.flag stC) (k.flag stH) = (x % 256, cf)) :
    let k' := k.adjust sub
    OnlyA k k' [stC, stZ, stN] ∧ k'.a.toNat = fld k.a 8 24 * 256 + x % 256 ∧ k'.flag stC = cf ∧ k'.flag stZ = decide (x % 256 = 0) ∧
      k'.flag stN = decide (128 ≤ x % 256) := by
  have hx : x % 256 < 256 := Nat.mod_lt _ (by decide)
  have ha : fld k.a 8 24 < 2 ^ 24 := Nat.mod_lt _ (by decide)
  generalize x % 256 = r at h hx
  have e : k.adjust sub = (({ k with a := BitVec.ofNat 40 (fld k.a 8 24 * 256 + r) } : Core).flagsNZ (BitVec.ofNat 8 r)).setFlag stC cf := by
    rw [Core.adjust, h]
  intro k'
  rw [show k' = _ from e]
  refine ⟨?_, ?_, ?_, ?_, ?_⟩
  · exact (((onlyA_refl k _).writeA _).flagsNZ _ (by decide) (by decide)).setFlag (by decide) (by decide) _
  · rw [setFlag_a, flagsNZ_a, BitVec.toNat_ofNat, Nat.mod_eq_of_lt (by omega)]
  · simp [flag_setFlag, stC]
  · rw [flag_setFlag (by decide), if_neg (by decide), flagsNZ_z, Bool.eq_iff_iff]
    simp [BitVec.toNat_eq, Nat.mod_eq_of_lt hx]
  · rw [flag_setFlag (by decide), if_neg (by decide), flagsNZ_n, BitVec.msb_eq_decide, BitVec.toNat_ofNat, Nat.mod_eq_of_lt hx]

/-! ### CVBD (R356) -/

/-- The decimal digits of `v`, one to four bits. -/
def packed (v : Nat) : Nat := spelled 16 (fun j => v / 10 ^ j % 10) 10

/-- A digit before a doubling. -/
def adjusted (g : Nat) : Nat := if 5 ≤ g then (g + 3) % 16 else g

theorem packed_lt (v : Nat) : packed v < 2 ^ 40 :=
  spelled_lt (q := 16) (n := 10) fun j _ => Nat.lt_of_lt_of_le (Nat.mod_lt _ (by decide)) (by decide : 10 ≤ 16)

theorem digit_packed (v : Nat) {j : Nat} (hj : j < 10) : digit (packed v) j = v / 10 ^ j % 10 :=
  digit_spelled (fun _ _ => Nat.lt_of_lt_of_le (Nat.mod_lt _ (by decide)) (by decide : 10 ≤ 16)) hj

theorem packed_eq_zero {v : Nat} (hv : v < 10 ^ 10) : packed v = 0 ↔ v = 0 := by
  constructor
  · intro h
    have zero : ∀ j < 10, v / 10 ^ j % 10 = 0 := fun j hj => by
      rw [← digit_packed v hj, h]
      simp [digit]
    have self := spelled_self 10 v 10
    rw [spelled_congr (g := fun _ => 0) zero, Nat.mod_eq_of_lt hv] at self
    exact self.symm.trans (by decide)
  · rintro rfl
    decide

/-- Doubling the adjusted digits of `v` gives the digits of 2 `v`, plus what comes in. -/
theorem spelled_double (n v : Nat) {b : Nat} (hb : b ≤ 1) (h : 2 * v + b < 10 ^ n) :
    2 * spelled 16 (fun j => adjusted (v / 10 ^ j % 10)) n + b = spelled 16 (fun j => (2 * v + b) / 10 ^ j % 10) n := by
  induction n generalizing v b with
  | zero =>
    have : b = 0 := by simp at h; omega
    simp [spelled, this]
  | succ n ih =>
    have tens : (2 * v + b) / 10 = 2 * (v / 10) + (if 5 ≤ v % 10 then 1 else 0) := by split <;> omega
    have ones : 2 * adjusted (v % 10) + b = (2 * v + b) % 10 + 16 * (if 5 ≤ v % 10 then 1 else 0) := by
      unfold adjusted
      split <;> omega
    have rest := ih (v / 10) (b := if 5 ≤ v % 10 then 1 else 0) (by split <;> omega) (by rw [← tens, Nat.div_lt_iff_lt_mul (by decide)]; exact h)
    rw [← tens] at rest
    have shift : ∀ w j : Nat, w / 10 ^ (j + 1) % 10 = w / 10 / 10 ^ j % 10 := fun w j => by
      rw [pow_succ', Nat.div_div_eq_div_mul]
    simp only [spelled_low, shift, pow_zero, Nat.div_one]
    omega

/-- CVBD after `j` steps from `x`: the high `j` bits are converted, the others left. -/
def Converting (k : Core) (j : Nat) (t : Core) : Prop :=
  t.a.toNat = packed (k.x.toNat / 2 ^ (32 - j)) ∧ t.x = k.x <<< j ∧ t.cnt = BitVec.ofNat 32 (32 - j) ∧
    t.y = k.y ∧ t.mem = k.mem ∧ t.k = k.k ∧ t.pc = k.pc ∧ t.perfIns = k.perfIns

/-- One step takes the next bit of X. -/
theorem cvbdStep_converts {k t : Core} {j : Nat} (hj : j < 32) (h : Converting k j t) : Converting k (j + 1) (slots 1 (cvbdStep t)) := by
  obtain ⟨a, x, cnt, y, mem, keys, pc, ins⟩ := h
  have hx := k.x.isLt
  obtain ⟨v, hv⟩ : ∃ v, k.x.toNat / 2 ^ (32 - j) = v := ⟨_, rfl⟩
  have out : k.x.toNat / 2 ^ (32 - (j + 1)) = 2 * v + b2n (bit (k.x <<< j) 31) := by
    have high : bit (k.x <<< j) 31 = (k.x.toNat / 2 ^ (31 - j)).testBit 0 := by
      rw [bit, BitVec.getLsbD_shiftLeft, BitVec.getLsbD, Nat.testBit_div_two_pow]
      simp [show ¬ 31 < j by omega]
    have low : b2n (bit (k.x <<< j) 31) = k.x.toNat / 2 ^ (31 - j) % 2 := by
      rw [high, Nat.testBit_zero, b2n]
      rcases Nat.mod_two_eq_zero_or_one (k.x.toNat / 2 ^ (31 - j)) with h0 | h1 <;> simp [*]
    have half : v = k.x.toNat / 2 ^ (31 - j) / 2 := by
      rw [← hv, Nat.div_div_eq_div_mul, ← Nat.pow_succ]
      congr 2
      omega
    rw [low, half, show 32 - (j + 1) = 31 - j by omega]
    omega
  have bound : 2 * v + b2n (bit (k.x <<< j) 31) < 10 ^ 10 := by
    rw [← out]
    exact Nat.lt_of_le_of_lt (Nat.div_le_self ..) (Nat.lt_of_lt_of_le hx (by decide))
  have sum : (List.range 10).foldl (fun v i =>
      let g := digit t.a.toNat i
      v + (if 5 ≤ g then (g + 3) % 16 else g) * 16 ^ i) 0 = spelled 16 (fun i => adjusted (v / 10 ^ i % 10)) 10 := by
    refine spelled_congr (f := fun i => adjusted (digit t.a.toNat i)) fun i hi => ?_
    rw [a, hv, digit_packed v hi]
  refine ⟨?_, ?_, ?_, ?_, ?_, ?_, ?_, ?_⟩
  · rw [slots_a, cvbdStep, sum, x, spelled_double 10 v (b2n_le _) bound, ← out, BitVec.toNat_ofNat]
    exact Nat.mod_eq_of_lt (packed_lt _)
  · rw [slots_x, cvbdStep, x, BitVec.shiftLeft_add]
  · rw [slots_cnt, cvbdStep, cnt]
    refine BitVec.eq_of_toNat_eq ?_
    simp [BitVec.toNat_sub]
    omega
  all_goals simpa [cvbdStep]

theorem cvbdSteps_converts {k t : Core} {j : Nat} (hj : j ≤ 32) (h : Converting k j t) (n : Nat) :
    Converting k (min 32 (j + n)) (cvbdSteps n t) := by
  induction n generalizing j t with
  | zero => rwa [Nat.add_zero, Nat.min_eq_right hj]
  | succ n ih =>
    obtain ⟨-, -, cnt, -⟩ := id h
    rcases Nat.lt_or_eq_of_le hj with hlt | rfl
    · have more : t.cnt ≠ 0 := fun h0 => by
        have := congrArg BitVec.toNat (cnt.symm.trans h0)
        simp at this
        omega
      rw [cvbdSteps, if_neg more, show j + (n + 1) = j + 1 + n by omega]
      exact ih hlt (cvbdStep_converts hlt h)
    · rw [cvbdSteps, if_pos (by rw [cnt]; rfl), Nat.min_eq_left (by omega)]
      exact h

/-- The end of a conversion. -/
def converted (i : Ins) (t : Core) : Core :=
  { completeIns (((t.setFlag stZ (t.a == 0)).setFlag stN false).setFlag stC false) with pc := i.next, x := 0 }

theorem converted_spec (i : Ins) (t : Core) :
    converted i t = { t with status := (converted i t).status, pc := i.next, x := 0, perfIns := t.perfIns + 1 } ∧
      (converted i t).flag stZ = (t.a == 0) ∧ (converted i t).flag stN = false ∧ (converted i t).flag stC = false ∧
      (converted i t).flag stRP = false := by
  have flag : ∀ j, (converted i t).flag j =
      ((((t.setFlag stZ (t.a == 0)).setFlag stN false).setFlag stC false).setFlag stRP false).flag j := fun _ => rfl
  refine ⟨by simp only [converted, completeIns, Core.setFlag], ?_, ?_, ?_, ?_⟩ <;> rw [flag] <;> simp [flag_setFlag, stN, stZ, stC, stRP]

/-- A whole conversion, or the steps that there have been time for. -/
theorem cvbdRun_converts {k : Core} (hr : k.flag stRP = false) (n : Nat) (i : Ins) :
    (32 ≤ n → ∃ t, Converting k 32 t ∧
      cvbdRun n i k = converted i t) ∧
    (n < 32 → ∃ t, Converting k n t ∧ cvbdRun n i k = t.setFlag stRP true) := by
  have begun : Converting k 0 (slots 1 { k with a := 0, cnt := 32 }) := by
    have none : k.x.toNat / 2 ^ 32 = 0 := Nat.div_eq_of_lt k.x.isLt
    refine ⟨?_, ?_, ?_, ?_, ?_, ?_, ?_, ?_⟩
    · rw [slots_a, none]
      rfl
    · rw [slots_x, BitVec.shiftLeft_zero]
    all_goals simp
  have run := cvbdSteps_converts (Nat.zero_le 32) begun n
  have unfolded : cvbdRun n i k = (let t := cvbdSteps n (slots 1 { k with a := 0, cnt := 32 });
      if t.cnt = 0 then converted i t else t.setFlag stRP true) := by
    unfold cvbdRun
    rw [hr]
    rfl
  rw [Nat.zero_add] at run
  refine ⟨fun hn => ⟨_, ?_, unfolded.trans (if_pos ?_)⟩, fun hn => ⟨_, ?_, unfolded.trans (if_neg ?_)⟩⟩
  · rwa [Nat.min_eq_left hn] at run
  · rw [Nat.min_eq_left hn] at run
    exact run.2.2.1
  · rwa [Nat.min_eq_right hn.le] at run
  · rw [Nat.min_eq_right hn.le] at run
    intro h0
    have := congrArg BitVec.toNat (run.2.2.1.symm.trans h0)
    simp at this
    omega

/-- Settles O48: products, landings and quotients by their equations, decimal sums and conversions digit by digit. -/
theorem stewardMultipliesDividesAndCountsInDecimal : Obligations.StewardMultipliesDividesAndCountsInDecimal := by
  unfold Obligations.StewardMultipliesDividesAndCountsInDecimal
  refine ⟨fun c ecc s i o I m p lim b d2 => ?_, fun c s m r => ?_, fun c s => ⟨fun h => ?_, fun m r hm hz hst => ?_⟩, fun c s i => ?_,
    fun c ecc s i o I b d2 => ?_, fun c ecc s i b d2 => ?_, fun c s i o I x cf => ?_, fun c n s i => ?_⟩
  · intro k sp top fp hI h
    have limited : (if k.a32 = 0x80000000 ∧ b = 0x80000000 then ((0x7FFFFFFFFFFFFFFF : DWord), true)
        else (BitVec.ofInt 64 (2 * sp), false)) = (fp, top) := by
      have ht : top = true ↔ k.a32 = 0x80000000 ∧ b = 0x80000000 := by simp [top]
      by_cases hb : k.a32 = 0x80000000 ∧ b = 0x80000000
      · rw [if_pos hb, show fp = _ from if_pos (ht.2 hb), ht.2 hb]
      · rw [if_neg hb, show fp = _ from if_neg fun h => hb (ht.1 h), Bool.eq_false_iff.2 fun h => hb (ht.1 h)]
    simp only [List.mem_cons, Prod.mk.injEq, List.not_mem_nil, or_false] at hI
    rcases hI with ⟨rfl, rfl, rfl, rfl, rfl⟩ | ⟨rfl, rfl, rfl, rfl, rfl⟩ | ⟨rfl, rfl, rfl, rfl, rfl⟩ | ⟨rfl, rfl, rfl, rfl, rfl⟩ |
      ⟨rfl, rfl, rfl, rfl, rfl⟩ | ⟨rfl, rfl, rfl, rfl, rfl⟩
    · exact mulRow_issues h rfl
    · exact mulRow_issues h rfl
    · exact mulRow_issues h limited
    · exact mulRow_issues h rfl
    · exact mulRow_issues h rfl
    · exact mulRow_issues h limited
  · intro k hm hf hz hst hr
    obtain ⟨muls, acc, flag⟩ := slots_oldest hm hr
    obtain ⟨signed, unsigned, mac, macu⟩ := land_acc k m
    refine ⟨slots m.left k, next_eq s ((multiplyLanding_cons hm).trans (stallSlots_running _ hf hz hst)), muls, slots_a _ _, slots_x _ _,
      slots_pc _ _, slots_mem _ _, fun h => acc.trans (signed h), fun h => acc.trans (unsigned h), fun h => acc.trans (mac h),
      fun h => acc.trans (macu h), fun h => ?_⟩
    obtain ⟨sum, sat⟩ := land_macf (k := k) h
    exact ⟨(congrArg BitVec.toInt acc).trans sum, flag.trans sat⟩
  · refine next_eq s (b := s.dev) ?_
    cases hm : s.dev.cores[c].muls with
    | nil => exact multiplyLanding_nil hm
    | cons m r => exact (multiplyLanding_cons hm).trans (stallSlots_frozen _ (h.resolve_left (by rw [hm]; exact List.cons_ne_nil m r)))
  · exact next_eq s ((multiplyLanding_cons hm).trans (stallSlots_waiting _ hz hst))
  · intro d2 k
    refine ⟨fun h => plain_completes h _, fun h => ?_⟩
    let v : Int := (k.mpg ++ k.mph).toInt
    let f := k.mpl.toNat
    let up : Bool := match k.rm with
      | 0 => false
      | 1 => decide (2 ^ 31 ≤ f)
      | 2 => decide (2 ^ 31 < f ∨ (f = 2 ^ 31 ∧ v % 2 = 1))
      | _ => decide (v < 0 ∧ f ≠ 0)
    let x := v + b2n up
    have inc : v + roundInc k.rm v f = x := congrArg (v + ·) (roundInc_eq k.rm v f (Nat.mod_lt _ (by decide)))
    have low : -2 ^ 39 ≤ v := BitVec.le_toInt _
    have hx : v ≤ x := Int.le_add_of_nonneg_right (Int.natCast_nonneg _)
    obtain ⟨only, value, fN, fZ, fV, fS⟩ := setSat_limits (lo := -2 ^ 39) (hi := 2 ^ 39 - 1) (by decide) (by decide) (by decide) x k
    have upper : (x < -2 ^ 39 ∨ 2 ^ 39 - 1 < x) ↔ 2 ^ 39 ≤ x := by omega
    rw [decide_eq_decide.2 upper] at fV fS
    exact ⟨k.sat40 x, (plain_completes h _).trans (next_eq s (congrArg (fun y => completed d2 c i (k.sat40 y)) inc)),
      only, value.trans (max_eq_right (le_min (by decide) (low.trans hx))), fN, fZ, fV, fS⟩
  · intro n k a edge fault gives hI h
    have op : ((o = .div ∧ ∀ s, exec I s = act (divRow c.val o true ecc) s) ∨
        (o = .divu ∧ ∀ s, exec I s = act (divRow c.val o false ecc) s)) := by
      simp only [List.mem_cons, Prod.mk.injEq, List.not_mem_nil, or_false] at hI
      rcases hI with ⟨rfl, rfl⟩ | ⟨rfl, rfl⟩
      · exact .inl ⟨rfl, fun _ => rfl⟩
      · exact .inr ⟨rfl, fun _ => rfl⟩
    have fails : ∀ signed, (∀ s, exec I s = act (divRow c.val o signed ecc) s) → ∀ code,
        divide signed (k.flag stDZEN) (k.flag stOVEN) a b = .error code → exec I s = .next (fault code) :=
      fun signed row code hd => (row s).trans (divRow_fails h hd)
    have works : ∀ signed, (∀ s, exec I s = act (divRow c.val o signed ecc) s) → ∀ q r v,
        divide signed (k.flag stDZEN) (k.flag stOVEN) a b = .ok (q, r, v) → gives q r v :=
      fun signed row q r v hd => ⟨_, (row s).trans (divRow_completes h hd), divided_spec q r v k⟩
    clear_value gives fault
    rcases op with ⟨ho, row⟩ | ⟨ho, row⟩
    · have u : o ≠ .divu := by rw [ho]; decide
      refine ⟨fun hb hz => fails true row _ (divide_zero_fault hb hz), fun hb hz _ hv => fails true row _ (by rw [hz, hv, hb]; rfl),
        fun hb hz hv => works true row _ _ _ ?_, fun ⟨_, ha, hb⟩ hv => fails true row _ (by rw [ha, hb, hv]; rfl),
        fun ⟨_, ha, hb⟩ hv => works true row _ _ _ (by rw [ha, hb, hv]; rfl), fun hb he _ => works true row _ _ _ ?_, fun _ hu => absurd hu u⟩
      · rw [hz, hv.resolve_left u, hb, if_neg u, divide_zero_signed]
      · exact divide_signed hb fun hab => he ⟨ho, hab⟩
    · have v : o ≠ .div := by rw [ho]; decide
      refine ⟨fun hb hz => fails false row _ (divide_zero_fault hb hz), fun _ _ hd => absurd hd v, fun hb hz _ => works false row _ _ _ ?_,
        fun he => absurd he.1 v, fun he => absurd he.1 v, fun _ _ hd => absurd hd v, fun hb _ => works false row _ _ _ (divide_unsigned hb)⟩
      rw [hz, hb, if_pos ho]
      rfl
  · intro n k dec good A B
    refine ⟨fun h => ?_, fun h => ?_⟩
    · obtain ⟨lt, sum⟩ := addDigits_spec A B (bit i.w 0 && k.flag stC) 8
      have row := bcdRow_completes h false
      rw [← bcdAdd_eq] at lt sum
      obtain ⟨only, value, fZ, fN, fV, fC⟩ := withDecimal_spec lt (false != (bcdAdd A B (bit i.w 0 && k.flag stC)).2.1)
        (bcdAdd A B (bit i.w 0 && k.flag stC)).2.2 (badDigits A || badDigits B) k
      refine ⟨k.withDecimal (bcdAdd A B (bit i.w 0 && k.flag stC)).1 (false != (bcdAdd A B (bit i.w 0 && k.flag stC)).2.1)
        (bcdAdd A B (bit i.w 0 && k.flag stC)).2.2 (badDigits A || badDigits B),
        row, only, lt_of_eq_of_lt value lt, fZ, fN, ?_, fun ga gb => ?_⟩
      · rw [fV, Bool.or_eq_false_iff, badDigits_false, badDigits_false]
        rfl
      · obtain ⟨digits, total⟩ := sum ga gb
        obtain ⟨low, carry⟩ := sum_decimal (decimal_lt digits) total
        rw [value, fC, Bool.false_bne]
        exact ⟨digits, low, carry⟩
    · obtain ⟨lt, difference⟩ := subDigits_spec A B (bit i.w 0 && !k.flag stC) 8
      have row := bcdRow_completes h true
      rw [← bcdSub_eq] at lt difference
      obtain ⟨only, value, fZ, fN, fV, fC⟩ := withDecimal_spec lt (true != (bcdSub A B (bit i.w 0 && !k.flag stC)).2.1)
        (bcdSub A B (bit i.w 0 && !k.flag stC)).2.2 (badDigits A || badDigits B) k
      refine ⟨k.withDecimal (bcdSub A B (bit i.w 0 && !k.flag stC)).1 (true != (bcdSub A B (bit i.w 0 && !k.flag stC)).2.1)
        (bcdSub A B (bit i.w 0 && !k.flag stC)).2.2 (badDigits A || badDigits B),
        row, only, lt_of_eq_of_lt value lt, fZ, fN, ?_, fun ga gb => ?_⟩
      · rw [fV, Bool.or_eq_false_iff, badDigits_false, badDigits_false]
        rfl
      · obtain ⟨digits, total⟩ := difference ga gb
        obtain ⟨low, borrow⟩ := difference_decimal (decimal_lt digits) total
        rw [value, fC, Bool.true_bne]
        exact ⟨digits, low, borrow⟩
  · intro d2 k a C H hI h
    simp only [List.mem_cons, Prod.mk.injEq, List.not_mem_nil, or_false] at hI
    rcases hI with ⟨rfl, rfl, rfl, rfl⟩ | ⟨rfl, rfl, rfl, rfl⟩
    · exact ⟨_, plain_completes h _, adjust_spec (decAdjust_add a C H)⟩
    · exact ⟨_, plain_completes h _, adjust_spec (decAdjust_sub a C H)⟩
  · intro k h hr
    have row : exec (.cvbd c n) s = .next { s with dev := setCore c (cvbdRun n i (pruneBlocks k)) s.dev } :=
      next_eq s ((withIns_ready h _).trans (updCore_setCore ..))
    obtain ⟨whole, part⟩ := cvbdRun_converts (k := pruneBlocks k) hr n i
    rcases Nat.lt_or_ge n 32 with hn | hn
    · obtain ⟨t, ⟨-, x, cnt, y, mem, keys, pc, ins⟩, ht⟩ := part hn
      rw [ht] at row
      refine ⟨_, row, y, mem, keys, fun h => absurd hn (Nat.not_lt.2 h), fun _ => ⟨?_, cnt, x, pc, ins⟩⟩
      rw [flag_setFlag (by decide), if_pos rfl]
    · obtain ⟨t, ⟨a, x, cnt, y, mem, keys, pc, ins⟩, ht⟩ := whole hn
      obtain ⟨same, fZ, fN, fC, fR⟩ := converted_spec i t
      rw [ht] at row
      generalize converted i t = k' at row same fZ fN fC fR
      have value : t.a.toNat = packed k.x.toNat := a.trans (congrArg packed (Nat.div_one _))
      have zero : k'.flag stZ = decide (k.x = 0) := by
        rw [fZ, Bool.eq_iff_iff, beq_iff_eq, decide_eq_true_eq, BitVec.toNat_eq, BitVec.toNat_eq, value]
        exact packed_eq_zero (Nat.lt_of_lt_of_le k.x.isLt (by decide))
      rw [same] at row zero fN fC fR
      exact ⟨_, row, y, mem, keys, fun _ => ⟨value, rfl, cnt, zero, fN, fC, fR, rfl, congrArg (· + 1) ins⟩,
        fun h => absurd h (Nat.not_lt.2 hn)⟩

end Sys2Proof.Machine
end

section
/-!
PROOFS. Local memory of a Steward core (R375), its store buffer (R339), and the operands that reach them through a key (R335 to R338).
-/
namespace Sys2Proof.Machine

section
variable {c : Fin 4} {d : Dev} {a n : Nat}

/-! ### Addresses -/

theorem inLocal_iff : inLocal a = true ↔ a < 0x40000 := by rw [inLocal, decide_eq_true_eq]

theorem inMbox_iff : inMbox a = true ↔ 0x30000000 ≤ a ∧ a < 0x30010000 := by
  rw [inMbox, Bool.and_eq_true, decide_eq_true_eq, decide_eq_true_eq]
  rfl

theorem inCellar_iff : inCellar a = true ↔ 0x10000000 ≤ a ∧ a < 0x10800000 := by
  rw [inCellar, Bool.and_eq_true, decide_eq_true_eq, decide_eq_true_eq]
  rfl

theorem inRegs_iff : inRegs a = true ↔ 0x20000000 ≤ a ∧ a < 0x20100000 := by
  rw [inRegs, Bool.and_eq_true, decide_eq_true_eq, decide_eq_true_eq]
  rfl

theorem not_inMbox (h : a < 0x40000) : inMbox a = false := by
  rw [← Bool.not_eq_true, inMbox_iff]
  omega

theorem not_inTagged (hl : inLocal a = false) (hm : inMbox a = false) : inTagged a n = false := by
  simp [inTagged, hl, hm]

theorem inLocal_span (hn : 1 ≤ n) (h : a + n ≤ 0x40000) : (inLocal a && inLocal (a + n - 1)) = true := by
  simp only [inLocal, Bool.and_eq_true, decide_eq_true_eq]
  omega

theorem inTagged_local (hn : 1 ≤ n) (h : a + n ≤ 0x40000) : inTagged a n = true := by
  rw [inTagged, inLocal_span hn h, Bool.true_or]

theorem inCellar_elsewhere (h : inCellar a = true) : inTagged a n = false := by
  rw [inCellar_iff] at h
  refine not_inTagged ?_ ?_
  · rw [← Bool.not_eq_true, inLocal_iff]
    omega
  · rw [← Bool.not_eq_true, inMbox_iff]
    omega

theorem inRegs_elsewhere (h : inRegs a = true) : inTagged a n = false ∧ inCellar a = false := by
  rw [inRegs_iff] at h
  refine ⟨not_inTagged ?_ ?_, ?_⟩
  · rw [← Bool.not_eq_true, inLocal_iff]
    omega
  · rw [← Bool.not_eq_true, inMbox_iff]
    omega
  · rw [← Bool.not_eq_true, inCellar_iff]
    omega

theorem mem_granules (hn : 1 ≤ n) {g : Nat} : g ∈ granules a n ↔ a / 16 ≤ g ∧ g ≤ (a + n - 1) / 16 := by
  rw [granules, if_neg (by omega)]
  simp only [List.mem_map, List.mem_range]
  constructor
  · rintro ⟨x, hx, rfl⟩
    omega
  · rintro ⟨lo, hi⟩
    exact ⟨g - a / 16, by omega, by omega⟩

/-! ### Writes (R360, R375) -/

/-- Tags with those of the granules `gs` clear. -/
def clearTags (gs : List Nat) (t : List (Nat × Bool)) : List (Nat × Bool) := gs.foldl (fun t g => store false t g false) t

theorem canon_clearTags (gs : List Nat) {t : List (Nat × Bool)} (h : canon false t = true) : canon false (clearTags gs t) = true := by
  induction gs generalizing t with
  | nil => exact h
  | cons g gs ih => exact ih (canon_store h g false)

theorem look_clearTags (gs : List Nat) {t : List (Nat × Bool)} (h : canon false t = true) (g : Nat) :
    look false (clearTags gs t) g = if g ∈ gs then false else look false t g := by
  induction gs generalizing t with
  | nil => rfl
  | cons x gs ih =>
    rw [clearTags, List.foldl_cons, ← clearTags, ih (canon_store h x false), look_store h]
    by_cases hg : g ∈ gs <;> by_cases hx : g = x <;> simp [hg, hx]

/-- A core after a store of `n` bytes of `v` at `a` in its local memory. -/
def Core.stored (k : Core) (a n v : Nat) : Core :=
  { k with mem := wrLE k.mem a n v, tags := clearTags (granules a n) k.tags, resv := k.resv.filter fun r => !(granules a n).contains r.1 }

theorem setTags_local {gs : List Nat} (h : ∀ g ∈ gs, 16 * g < 0x40000) (k : Core) :
    gs.foldl (fun d g => setTag c.val (16 * g) false d) (setCore c k d) = setCore c { k with tags := clearTags gs k.tags } d := by
  induction gs generalizing k with
  | nil => rfl
  | cons g gs ih =>
    have one : setTag c.val (16 * g) false (setCore c k d) = setCore c { k with tags := store false k.tags g false } d := by
      rw [setTag, not_inMbox (h g (by simp)), if_neg Bool.false_ne_true, updCore_setCore, Nat.mul_div_cancel_left _ (by decide)]
    rw [List.foldl_cons, one, ih fun g hg => h g (by simp [hg])]
    rfl

theorem loseResv_local (h : a < 0x40000) : loseResv c.val a n d =
    setCore c { d.cores[c] with resv := d.cores[c].resv.filter fun r => !(granules a n).contains r.1 } d := by
  simp only [loseResv, not_inMbox h, updCore_eq_setCore, Bool.false_eq_true, if_false]
  generalize d.cores[c] = k
  congr 1
  obtain hr | ⟨⟨g, l⟩, hr⟩ := Option.eq_none_or_eq_some k.resv
  · simp only [hr, Option.filter_none]
    rw [← hr]
  · by_cases hg : g ∈ granules a n
    · simp [hr, hg, Option.filter]
    · simp only [hr, if_neg hg, Option.filter, List.contains_eq_mem, decide_eq_false hg, Bool.not_false, if_true]
      rw [← hr]

/-- A store in local memory changes its core alone. -/
theorem memWrite_local (hn : 1 ≤ n) (h : a + n ≤ 0x40000) (v : Nat) :
    memWrite c.val a n v d = setCore c (d.cores[c].stored a n v) d := by
  have gs : ∀ g ∈ granules a n, 16 * g < 0x40000 := fun g hg => by
    have := (mem_granules hn).1 hg
    omega
  simp only [memWrite, loseResv_local (n := n) (show a < 0x40000 by omega), setTags_local gs, not_inMbox (show a < 0x40000 by omega),
    updCore_setCore, Bool.false_eq_true, if_false]
  rfl

theorem memRead_local (h : a < 0x40000) : memRead d c.val a n = rdLE d.cores[c].mem a n := by
  rw [memRead, not_inMbox h, if_neg Bool.false_ne_true, core_fin]

/-! ### Loads (R337 to R339) -/

theorem loadOnce_local (hn : 1 ≤ n) (h : a + n ≤ 0x40000) (p : Key) (ecc : Ecc) :
    loadOnce c.val p a n ecc d = .ok (loadLocal c.val a n d) := by
  rw [loadOnce, inLocal_span hn h, if_pos rfl]

/-- No buffered store overlaps: memory is read. -/
theorem loadLocal_memory (h : a < 0x40000) (hq : ∀ e ∈ d.cores[c].sbuf, e.meets a n = false) :
    loadLocal c.val a n d = (rdLE d.cores[c].mem a n, d) := by
  have found : d.cores[c].sbuf.reverse.find? (·.meets a n) = none :=
    List.find?_eq_none.2 fun e he => by simp [hq e (List.mem_reverse.1 he)]
  simp only [loadLocal, core_fin, found, memRead_local h]

/-- The last store that overlaps has the same bytes: it serves the load. -/
theorem loadLocal_buffered {q r : List StoreEnt} {e : StoreEnt} (hq : d.cores[c].sbuf = q ++ e :: r)
    (hr : ∀ x ∈ r, x.meets a n = false) (he : e.addr.toNat = a) (hs : e.size = n) (hn : 1 ≤ n) :
    loadLocal c.val a n d = (e.val.toNat, d) := by
  have rest : r.reverse.find? (·.meets a n) = none :=
    List.find?_eq_none.2 fun x hx => by simp [hr x (List.mem_reverse.1 hx)]
  have meets : e.meets a n = true := by
    simp only [StoreEnt.meets, Bool.and_eq_true, decide_eq_true_eq]
    omega
  have found : d.cores[c].sbuf.reverse.find? (·.meets a n) = some e := by
    rw [hq, List.reverse_append, List.reverse_cons, List.append_assoc, List.find?_append, rest, Option.none_or]
    exact List.find?_cons_of_pos meets
  simp only [loadLocal, core_fin, found, he, hs, and_self, if_true]

theorem loadBytes_whole (h : n ≠ 2 ∨ a % 2 = 0) (p : Key) (ecc : Ecc) : loadBytes c.val p a n ecc d = loadOnce c.val p a n ecc d := by
  rw [loadBytes, if_neg (by omega)]

/-- A half-word at an odd address: two byte loads. -/
theorem loadBytes_split (h : a % 2 = 1) (p : Key) (ecc : Ecc) {lo hi : Nat} {d1 d2 : Dev} (hl : loadOnce c.val p a 1 ecc d = .ok (lo, d1))
    (hh : ∀ ecc, loadOnce c.val p (a + 1) 1 ecc d1 = .ok (hi, d2)) : loadBytes c.val p a 2 ecc d = .ok (lo + 256 * hi, d2) := by
  rw [loadBytes, if_pos ⟨rfl, h⟩, hl]
  simp only [hh]

theorem rdLE_two (m : Bytes) (a : Nat) : rdLE m a 2 = rdLE m a 1 + 256 * rdLE m (a + 1) 1 := by
  simp only [rdLE, Nat.mul_zero, Nat.add_zero]

/-- A load that no buffered store overlaps reads memory. -/
theorem loadBytes_memory (hn : 1 ≤ n) (h : a + n ≤ 0x40000) (p : Key) (ecc : Ecc) (hq : ∀ e ∈ d.cores[c].sbuf, e.meets a n = false) :
    loadBytes c.val p a n ecc d = .ok (rdLE d.cores[c].mem a n, d) := by
  by_cases odd : n = 2 ∧ a % 2 = 1
  · obtain ⟨rfl, ho⟩ := odd
    have byte : ∀ b, a ≤ b → b ≤ a + 1 → ∀ ecc, loadOnce c.val p b 1 ecc d = .ok (rdLE d.cores[c].mem b 1, d) := by
      intro b lo hi ecc
      rw [loadOnce_local (le_refl 1) (by omega), loadLocal_memory (by omega)]
      intro e he
      have := hq e he
      simp only [StoreEnt.meets, Bool.and_eq_false_iff, decide_eq_false_iff_not] at this ⊢
      omega
    rw [rdLE_two]
    exact loadBytes_split ho p ecc (byte a (by omega) (by omega) ecc) (byte (a + 1) (by omega) (by omega))
  · rw [loadBytes_whole (by omega), loadOnce_local hn h, loadLocal_memory (by omega) hq]

/-! ### Key operands (R335, R336) -/

theorem loadKey_passes {j o : Nat} {stack : Bool} (ecc : Ecc) (hf : accessFault d c.val j (d.cores[c].key j) o n .load stack = none) :
    loadKey c.val j o n stack ecc d = loadBytes c.val (d.cores[c].key j) (((d.cores[c].key j).base + o) % 2 ^ 32) n ecc d := by
  simp only [loadKey, core_fin, hf]

theorem storeKey_passes {j o : Nat} {stack : Bool} (v : Nat) (hf : accessFault d c.val j (d.cores[c].key j) o n .store stack = none) :
    storeKey c.val j o n v stack d = .ok (storeBytes c.val (d.cores[c].key j) (((d.cores[c].key j).base + o) % 2 ^ 32) n v d) := by
  simp only [storeKey, core_fin, hf]

theorem advance_eq (j : Nat) : advance c.val j n d = setCore c (stepped d.cores[c] j n true) d := updCore_eq_setCore ..

theorem advance_ite (post : Bool) (j : Nat) :
    (if post then advance c.val j n d else d) = setCore c (stepped d.cores[c] j n post) d := by
  cases post with
  | false => exact (setCore_self c d).symm
  | true => rw [if_pos rfl, advance_eq]

/-! ### Stores (R337, R339) -/

/-- A buffer with room takes a store as it is. -/
theorem bufferStore_room (p : Key) (v : Nat) (h : d.cores[c].sbuf.length < 4) :
    bufferStore c.val p a n v d = setCore c { d.cores[c] with sbuf := d.cores[c].sbuf ++ [{
      addr := BitVec.ofNat 32 a, size := n, val := BitVec.ofNat 32 v, perm := p.perm, sys := d.cores[c].pck.may permSYS
      comp := d.cores[c].comp, sealed := sealedComp d c.val d.cores[c].comp, lvl := d.cores[c].lvl }] } d := by
  simp only [bufferStore, core_fin, if_neg (Nat.not_le.2 h), updCore_eq_setCore, inSealed]

theorem storeBytes_room (j v : Nat) (h : d.cores[c].sbuf.length + (bufferEntries d c j a n v).length ≤ 4) :
    storeBytes c.val (d.cores[c].key j) a n v d =
      setCore c { d.cores[c] with sbuf := d.cores[c].sbuf ++ bufferEntries d c j a n v } d := by
  unfold storeBytes bufferEntries at *
  simp only [inSealed, core_fin] at h ⊢
  by_cases odd : n = 2 ∧ a % 2 = 1
  · simp only [if_pos odd, List.length_cons, List.length_nil] at h ⊢
    have first := bufferStore_room (a := a) (n := 1) (d.cores[c].key j) (v % 256) (show d.cores[c].sbuf.length < 4 by omega)
    rw [first, bufferStore_room _ _ (by rw [setCore_core, List.length_append, List.length_singleton]; omega), setCore_setCore, setCore_core]
    simp only [List.append_assoc, List.singleton_append]
    rfl
  · simp only [if_neg odd, List.length_cons, List.length_nil] at h ⊢
    exact bufferStore_room _ _ (by omega)

/-! ### The buffer drains -/

theorem drainOne_empty (h : d.cores[c].sbuf = []) : drainOne c.val d = d := by
  simp only [drainOne, core_fin, h]

theorem drainOne_tagged {e : StoreEnt} {r : List StoreEnt} (hq : d.cores[c].sbuf = e :: r) (ht : inTagged e.addr.toNat e.size = true) :
    drainOne c.val d = memWrite c.val e.addr.toNat e.size e.val.toNat (setCore c { d.cores[c] with sbuf := r } d) := by
  rw [drainOne, core_fin, hq, ← updCore_eq_setCore c d fun k => { k with sbuf := r }]
  exact if_pos ht

/-- The oldest store reaches local memory. -/
theorem drainOne_local {e : StoreEnt} {r : List StoreEnt} (hq : d.cores[c].sbuf = e :: r) (hn : 1 ≤ e.size)
    (h : e.addr.toNat + e.size ≤ 0x40000) :
    drainOne c.val d = setCore c ({ d.cores[c] with sbuf := r }.stored e.addr.toNat e.size e.val.toNat) d := by
  rw [drainOne_tagged hq (inTagged_local hn h), memWrite_local hn h, setCore_core, setCore_setCore]

theorem drainAll_empty (h : d.cores[c].sbuf = []) : drainAll c.val d = d := by
  rw [drainAll, core_fin, h]
  rfl

/-- The core while it waits for local stores to drain. -/
def drained : List StoreEnt → Core → Core
  | [], k => k
  | e :: r, k => drained r (slots 1 ({ k with sbuf := r }.stored e.addr.toNat e.size e.val.toNat))

/-- Local stores drain one by one. -/
theorem drainAll_local (h : ∀ e ∈ d.cores[c].sbuf, e.addr.toNat + e.size ≤ 0x40000 ∧ 1 ≤ e.size) :
    drainAll c.val d = setCore c (drained d.cores[c].sbuf d.cores[c]) d := by
  rw [drainAll, core_fin]
  generalize hq : d.cores[c].sbuf = q at h ⊢
  induction q generalizing d with
  | nil => exact (setCore_self c d).symm
  | cons e r ih =>
    obtain ⟨hs, hn⟩ := h e (by simp)
    rw [List.length_cons, drainN, drainOne_local hq hn hs, updCore_setCore, drained]
    refine (ih ?_ fun x hx => h x (by simp [hx])).trans ?_
    · rw [setCore_core, slots_sbuf]
      rfl
    · rw [setCore_core, setCore_setCore]

/-- What is left of a core whose stores have drained. -/
theorem drained_keeps (q : List StoreEnt) {k : Core} (hq : k.sbuf = q) : (drained q k).sbuf = [] ∧ (drained q k).a = k.a := by
  induction q generalizing k with
  | nil => exact ⟨hq, rfl⟩
  | cons e r ih =>
    obtain ⟨empty, same⟩ := ih (k := slots 1 ({ k with sbuf := r }.stored e.addr.toNat e.size e.val.toNat)) (slots_sbuf ..)
    exact ⟨empty, same.trans (slots_a ..)⟩

end

end Sys2Proof.Machine
end

section
/-!
PROOFS. Key registers of a Steward core (R373, R374): what writing one and stepping its cursor leave unchanged, and what reaching
memory through it asks for (R336, R386).
-/
namespace Sys2Proof.Machine

section
variable (k : Core) (j n : Nat) (v : Key)

/-- Writing a key register changes key registers alone. -/
theorem setKey_frame : k.setKey j v =
    { k with k := (k.setKey j v).k, pck := (k.setKey j v).pck, vkey := (k.setKey j v).vkey, sets := (k.setKey j v).sets } := by
  unfold Core.setKey
  split
  · rfl
  · split
    · rfl
    · split
      · rfl
      · split <;> rfl

/-- Stepping a cursor changes key registers alone. -/
theorem stepped_frame (post : Bool) : stepped k j n post = { k with
    k := (stepped k j n post).k, pck := (stepped k j n post).pck, vkey := (stepped k j n post).vkey
    sets := (stepped k j n post).sets } := by
  cases post with
  | false => rfl
  | true => exact setKey_frame k j _

variable {k j} in
/-- A general key register keeps its own contents. -/
theorem stepped_congr {k' : Core} (hj : j < 8) (h : k.k = k'.k) :
    stepped k j n true = { k with k := (stepped k' j n true).k } := by
  have key : k.key j = k'.key j := by simp only [Core.key, if_pos hj, h]
  have steps : ∀ k : Core, stepped k j n true = { k with k := put? k.k j ((k.key j).withCursor ((k.key j).cursor + n)) } := fun k => by
    rw [stepped, if_pos rfl, Core.setKey, if_pos hj]
  rw [steps k, steps k', key, h]

/-- The cursors of the key registers `js` step. -/
def steppedAll (js : List Nat) (n : Nat) (k : Core) : Core := js.foldl (fun k j => stepped k j n true) k

variable {k} in
theorem steppedAll_congr {js : List Nat} (hj : ∀ j ∈ js, j < 8) {k' : Core} (h : k.k = k'.k) :
    steppedAll js n k = { k with k := (steppedAll js n k').k } := by
  induction js generalizing k k' with
  | nil =>
    rw [steppedAll, steppedAll, List.foldl_nil, List.foldl_nil, ← h]
  | cons j js ih =>
    have step := stepped_congr n (hj j (by simp)) h
    have next : (stepped k j n true).k = (stepped k' j n true).k := by rw [step]
    refine (ih (fun j hx => hj j (by simp [hx])) next).trans ?_
    rw [step]
    rfl

end

section
variable {c : Fin 4} {d : Dev} {k : Core} {j o n : Nat} {acc : Acc} {stack : Bool} {p : Key}

/-- The checks of an access see the compartment alone of a core. -/
theorem accessFault_setCore (h : k.comp = d.cores[c].comp) :
    accessFault (setCore c k d) c.val j p o n acc stack = accessFault d c.val j p o n acc stack := by
  have region : ∀ a, regionOk (setCore c k d) c.val (core (setCore c k d) c.val).comp a n = regionOk d c.val (core d c.val).comp a n :=
    fun a => by
      rw [core_setCore, core_fin, h]
      rfl
  simp only [accessFault, region]

theorem passed_check {α : Type} {q : Prop} [Decidable q] {f : α} {x : Option α} (h : (if q then some f else x) = none) : ¬ q ∧ x = none := by
  by_cases hq : q
  · rw [if_pos hq] at h
    cases h
  · rw [if_neg hq] at h
    exact ⟨hq, h⟩

/-- An access that passes its checks goes through a tagged, unsealed key and is aligned. -/
theorem of_accessFault (h : accessFault d c.val j p o n acc stack = none) :
    p.tag = true ∧ p.sealed = false ∧ o + n ≤ p.len ∧ (4 ≤ n → (p.base + o) % 2 ^ 32 % n = 0) := by
  obtain ⟨tag, h⟩ := passed_check h
  obtain ⟨unsealed, h⟩ := passed_check h
  obtain ⟨-, h⟩ := passed_check h
  obtain ⟨inside, h⟩ := passed_check h
  obtain ⟨aligned, -⟩ := passed_check h
  exact ⟨by simpa using tag, by simpa using unsealed, Nat.not_lt.1 inside, by simpa using aligned⟩

end

end Sys2Proof.Machine
end

section
/-!
PROOFS. The obligation on loads, stores, the stack, the buffer and the prefetcher (R335 to R340, R343, R369, R371, R375).
-/
namespace Sys2Proof.Machine

/-! ### Operands in memory -/

theorem Ins.size_pos (i : Ins) : 1 ≤ i.size := Nat.one_le_two_pow

/-- The word that an operand of `i` reads as, when its bytes are `raw`. -/
def Ins.word (i : Ins) (sext : Bool) (raw : Nat) : Word :=
  if sext = false ∨ i.size = 4 then BitVec.ofNat 32 raw
  else if i.size = 1 then (BitVec.ofNat 8 raw).signExtend 32 else (BitVec.ofNat 16 raw).signExtend 32

section
variable {c : Fin 4} {d : Dev} {i : Ins} {p a : Nat} {post : Bool}

theorem readOp_mem {raw : Nat} {sext : Bool} {ecc : Ecc} (h : MemOp d c i .load p a post)
    (hl : loadBytes c.val (d.cores[c].key p) a i.size ecc d = .ok (raw, d)) :
    readOp c.val i sext ecc d = .ok (i.word sext raw, setCore c (stepped d.cores[c] p i.size post) d) := by
  obtain ⟨o, ho, hf, rfl⟩ := h
  have load := (loadKey_passes ecc hf).trans hl
  simp only [readOp, core_fin, ho, load, advance_ite]
  rw [Ins.word]
  simp only [or_comm, Bool.not_eq_true']

theorem readOp_local {sext : Bool} {ecc : Ecc} (h : MemOp d c i .load p a post) (ha : a + i.size ≤ 0x40000)
    (hq : ∀ e ∈ d.cores[c].sbuf, e.meets a i.size = false) :
    readOp c.val i sext ecc d = .ok (i.word sext (rdLE d.cores[c].mem a i.size), setCore c (stepped d.cores[c] p i.size post) d) :=
  readOp_mem h (loadBytes_memory i.size_pos ha _ ecc hq)

/-- A buffered store of the same bytes serves the operand. -/
theorem readOp_buffered {sext : Bool} {ecc : Ecc} (h : MemOp d c i .load p a post) (ha : a + i.size ≤ 0x40000) {q r : List StoreEnt}
    {e : StoreEnt} (hq : d.cores[c].sbuf = q ++ e :: r) (hr : ∀ x ∈ r, x.meets a i.size = false) (he : e.addr.toNat = a)
    (hs : e.size = i.size) (hw : i.size ≠ 2 ∨ a % 2 = 0) :
    readOp c.val i sext ecc d = .ok (i.word sext e.val.toNat, setCore c (stepped d.cores[c] p i.size post) d) := by
  refine readOp_mem h ?_
  rw [loadBytes_whole hw, loadOnce_local i.size_pos ha, loadLocal_buffered hq hr he hs i.size_pos]

/-- The two byte stores of an odd half-word serve its load. -/
theorem readOp_buffered_odd {sext : Bool} {ecc : Ecc} (h : MemOp d c i .load p a post) (ha : a + i.size ≤ 0x40000) {q : List StoreEnt}
    {e f : StoreEnt} (hq : d.cores[c].sbuf = q ++ [e, f]) (hw : i.size = 2) (odd : a % 2 = 1) (he : e.addr.toNat = a) (hes : e.size = 1)
    (hf : f.addr.toNat = a + 1) (hfs : f.size = 1) :
    readOp c.val i sext ecc d =
      .ok (i.word sext (e.val.toNat + 256 * f.val.toNat), setCore c (stepped d.cores[c] p i.size post) d) := by
  have other : ∀ x ∈ [f], x.meets a 1 = false := by
    intro x hx
    rw [List.mem_singleton.1 hx]
    simp [StoreEnt.meets, hf]
  have low := loadLocal_buffered hq other he hes (le_refl 1)
  have high := loadLocal_buffered (hq.trans (List.append_assoc q [e] [f]).symm) (fun x hx => nomatch hx) hf hfs (le_refl 1)
  refine readOp_mem h ?_
  rw [hw]
  refine loadBytes_split odd _ ecc (by rw [loadOnce_local (le_refl 1) (by omega), low]) fun ecc => ?_
  rw [loadOnce_local (le_refl 1) (by omega), high]

/-- A store to a checked memory operand, into a buffer with room. -/
theorem writeOp_mem {v : Word} (h : MemOp d c i .store p a post)
    (room : d.cores[c].sbuf.length + (bufferEntries d c p a i.size v.toNat).length ≤ 4) :
    writeOp c.val i v d = .ok (setCore c
      (stepped { d.cores[c] with sbuf := d.cores[c].sbuf ++ bufferEntries d c p a i.size v.toNat } p i.size post) d) := by
  obtain ⟨o, ho, hf, rfl⟩ := h
  have store := (storeKey_passes v.toNat hf).trans (congrArg Except.ok (storeBytes_room p v.toNat room))
  simp only [writeOp, core_fin, ho, store, advance_ite, setCore_core, setCore_setCore]

theorem writeOp_reg {v : Word} (h : i.md = 7) : writeOp c.val i v d = .ok (setCore c (d.cores[c].setReg i.k v) d) := by
  have reg : i.opnd (core d c.val) = .reg i.k := by simp only [Ins.opnd, h]
  simp only [writeOp, reg, updCore_eq_setCore]

/-! ### The stack -/

/-- A push through a K7 that passes its checks, into a buffer with room. -/
theorem pushWord_room {v cur : Word} (hc : cur = BitVec.ofNat 32 (d.cores[c].key 7).cursor - 4)
    (hf : accessFault d c.val 7 (d.cores[c].key 7) cur.toNat 4 .store true = none) (room : d.cores[c].sbuf.length < 4) :
    pushWord c.val v d = .ok (setCore c (Core.setKey 7 ((d.cores[c].key 7).withCursor cur.toNat) { d.cores[c] with
      sbuf := d.cores[c].sbuf ++ bufferEntries d c 7 (((d.cores[c].key 7).base + cur.toNat) % 2 ^ 32) 4 v.toNat }) d) := by
  subst hc
  have store := (storeKey_passes v.toNat hf).trans (congrArg Except.ok (storeBytes_room 7 v.toNat room))
  simp only [pushWord, core_fin]
  rw [store]
  exact congrArg Except.ok (updCore_setCore ..)

/-- A pop from local memory through a K7 that passes its checks. -/
theorem popWord_local {ecc : Ecc} (ha : a = ((d.cores[c].key 7).base + (d.cores[c].key 7).cursor) % 2 ^ 32)
    (hf : accessFault d c.val 7 (d.cores[c].key 7) (d.cores[c].key 7).cursor 4 .load true = none) (hl : a + 4 ≤ 0x40000)
    (hq : ∀ e ∈ d.cores[c].sbuf, e.meets a 4 = false) :
    popWord c.val ecc d = .ok (BitVec.ofNat 32 (rdLE d.cores[c].mem a 4), setCore c (stepped d.cores[c] 7 4 true) d) := by
  subst ha
  have load := (loadKey_passes ecc hf).trans (loadBytes_memory (by decide) hl _ ecc hq)
  simp only [popWord, core_fin]
  rw [load]
  exact congrArg (fun d => Except.ok (_, d)) (advance_eq 7)

/-! ### STORE_DRAIN -/

theorem storeDrain_runs (hf : d.sys.fclkOn = true) (hw : d.sys.wEnd = none) (hr : d.cores[c].st ≠ .inReset) :
    storeDrain c.val d = drainOne c.val d := by
  rw [storeDrain, core_fin, hf, hw]
  exact if_neg (by simpa using hr)

theorem storeDrain_empty (h : d.cores[c].sbuf = []) : storeDrain c.val d = d := by
  rw [storeDrain, drainOne_empty h, ite_self]

theorem drainOne_cellar {e : StoreEnt} {r : List StoreEnt} (hq : d.cores[c].sbuf = e :: r) (h : inCellar e.addr.toNat = true) :
    drainOne c.val d = busError c.val 1 e.addr.toNat e.sealed (setCore c { d.cores[c] with sbuf := r } d) := by
  rw [drainOne, core_fin, hq, ← updCore_eq_setCore c d fun k => { k with sbuf := r }]
  exact (if_neg (by rw [inCellar_elsewhere h]; exact Bool.false_ne_true)).trans (if_pos h)

theorem drainOne_narrow {e : StoreEnt} {r : List StoreEnt} (hq : d.cores[c].sbuf = e :: r) (h : inRegs e.addr.toNat = true)
    (hs : e.size ≠ 4) : drainOne c.val d = busError c.val 3 e.addr.toNat e.sealed (setCore c { d.cores[c] with sbuf := r } d) := by
  rw [drainOne, core_fin, hq, ← updCore_eq_setCore c d fun k => { k with sbuf := r }]
  obtain ⟨memory, cellar⟩ := inRegs_elsewhere (n := e.size) h
  exact (if_neg (by rw [memory]; exact Bool.false_ne_true)).trans ((if_neg (by rw [cellar]; exact Bool.false_ne_true)).trans
    ((if_pos h).trans (if_pos hs)))

/-! ### PREFETCH -/

theorem prefetch_stalled (h : coreIssues d c.val = false) : prefetch c.val d = d := by
  rw [prefetch, h]
  rfl

theorem prefetch_next {b : Nat} (h : coreIssues d c.val = true)
    (hb : (aheadBlocks d.cores[c]).find? (fun b => !d.cores[c].pre.any (·.1 == b)) = some b) :
    prefetch c.val d = if mayFetch d c.val b then
      setCore c { d.cores[c] with pre := d.cores[c].pre ++ [(b, false, rdBytes d.cores[c].mem (16 * b) 16)] } d else d := by
  simp only [prefetch, h, core_fin, hb, updCore_eq_setCore, Bool.not_true, Bool.false_eq_true, if_false]

end

section
variable {c : Fin 4} {s : State} {i : Ins}

/-- FENCE with local stores: the buffer and the prefetched blocks are gone. -/
theorem fence_drains (h : Ready s.dev c .fence i)
    (hq : ∀ e ∈ (lastSlot s.dev c 1).cores[c].sbuf, e.addr.toNat + e.size ≤ 0x40000 ∧ 1 ≤ e.size) :
    ∃ k : Core, exec (.fence c) s = .next { s with dev := completed s.dev c i k } ∧ k.sbuf = [] ∧ k.pre = [] ∧ k.a = s.dev.cores[c].a := by
  let k := (lastSlot s.dev c 1).cores[c]
  obtain ⟨empty, same⟩ := drained_keeps k.sbuf rfl
  have drains := drainAll_local hq
  have row : exec (.fence c) s = .next { s with dev := completed s.dev c i (dropBlocks (drained k.sbuf k)) } := by
    have := row_completes (s := s) (fun _ _ => 1) (body := fun _ d => .ok (updCore c.val dropBlocks (drainAll c.val d))) h
      (t := s.dev) (k := dropBlocks (drained k.sbuf k)) ?_
    · exact this
    · rw [drains, updCore_setCore, lastSlot_setCore, setCore_setCore]
      rfl
  have a : k.a = s.dev.cores[c].a := by
    show (lastSlot s.dev c 1).cores[c].a = _
    rw [lastSlot_core, slots_a]
    rfl
  exact ⟨_, row, empty, rfl, same.trans a⟩

end

/-- Settles O49: the cases of an access in local memory and of the buffer, one at a time. -/
theorem stewardLoadsStoresAndTheBuffer : Obligations.StewardLoadsStoresAndTheBuffer := by
  unfold Obligations.StewardLoadsStoresAndTheBuffer
  refine ⟨fun c ecc s i o n p a post sext => ?_, fun c ecc s i b d2 => ?_, fun c s i o I => ?_, fun c s i => ?_, fun c ecc s i => ?_,
    fun c s i => ?_, fun c s => ?_, fun c s => ?_⟩
  · intro d k word d2 ready hm ha
    exact ⟨fun hq => ⟨ready, readOp_local hm ha hq⟩, fun q r e hq hr he hs hw => ⟨ready, readOp_buffered hm ha hq hr he hs hw⟩,
      fun q e f hq hw odd he hes hf hfs => ⟨ready, readOp_buffered_odd hm ha hq hw odd he hes hf hfs⟩⟩
  · intro k n
    refine ⟨fun h => ?_, fun h => ?_⟩
    · obtain ⟨only, value, fN, fZ⟩ := setA_flagsNZ b k (l := [stN, stZ]) (by simp) (by simp)
      exact ⟨_, reads_completes (fun i k => opSlots c.val k i) (sx := fun i => bit i.w 0) h fun _ v k => (k.setA v).flagsNZ v,
        only, value, fN, fZ⟩
    · have hf := select_of_ready h.1 (by simp)
      obtain ⟨only, reg⟩ := setReg_low hf b k
      refine ⟨_, reads_completes (fun i k => opSlots c.val k i) (sx := fun _ => false) h fun i v => Core.setReg i.f v,
        only, ?_, fun f hlt hne => ?_⟩
      · rw [reg i.f hf, if_pos rfl]
      · rw [reg f hlt, if_neg hne]
  · intro n d k v hI ready
    have row : ∀ {k' : Core}, writeOp c.val i v d = .ok (setCore c k' d) → exec I s = .next { s with dev := completed d c i k' } := by
      intro k' hb
      simp only [List.mem_cons, Prod.mk.injEq, List.not_mem_nil, or_false] at hI
      rcases hI with ⟨rfl, rfl⟩ | ⟨rfl, rfl⟩
      · refine row_completes (fun i k => opSlots c.val k i) (body := fun i d => writeOp c.val i (core d c.val).a32 d) ready ?_
        rw [core_fin]
        exact hb
      · refine row_completes (fun i k => opSlots c.val k i) (body := fun i d => writeOp c.val i ((core d c.val).reg i.f) d) ready ?_
        rw [core_fin]
        exact hb
    exact ⟨fun p a post hm room => row (writeOp_mem hm room), fun hmd => row (writeOp_reg hmd)⟩
  · intro d k cur v ready hf room
    refine row_completes (fun _ k => 2 + pushExtra c.val k) (body := fun i d => pushWord c.val ((core d c.val).stackReg i.f) d) ready ?_
    rw [core_fin]
    exact pushWord_room rfl hf room
  · intro d k a v k1 ready hf hl hq
    have pop := popWord_local (c := c) (ecc := ecc) rfl hf hl hq
    refine row_completes (fun _ k => 2 + popExtra c.val k) (t := d) (body := fun i d => do
      let (v, d1) ← popWord c.val ecc d
      .ok (updCore c.val (Core.setStackReg i.f v) d1)) ready ?_
    show (do
      let (v, d1) ← popWord c.val ecc d
      .ok (updCore c.val (Core.setStackReg i.f v) d1) : StRes Dev) = _
    rw [pop]
    exact congrArg Except.ok (updCore_setCore ..)
  · intro d
    refine ⟨fun h => plain_completes h id, fun h hq => ?_⟩
    obtain ⟨k, row, empty, pre, a⟩ := fence_drains h hq
    refine ⟨_, row, ?_⟩
    have core : (completed s.dev c i k).cores[c] = slots 1 (completeIns { k with pc := i.next }) := setCore_core ..
    rw [core]
    exact ⟨(slots_sbuf ..).trans empty, (slots_pre ..).trans pre, (slots_a ..).trans a, slots_pc .., rfl⟩
  · intro d k
    refine ⟨fun hq => next_eq s (storeDrain_empty hq), ?_⟩
    intro e r hq hf hw hr a d1
    have runs := storeDrain_runs (c := c) hf hw hr
    refine ⟨fun hn hl wf hc => ?_, fun h => next_eq s (runs.trans (drainOne_cellar hq h)),
      fun h hs => next_eq s (runs.trans (drainOne_narrow hq h hs))⟩
    refine ⟨_, next_eq s (runs.trans (drainOne_local hq hn hl)), rfl, fun g => ?_, fun g l hv => ?_, fun y hy => rd8_wrLE_outside wf _ _ _ _ hy⟩
    · refine (look_clearTags _ hc g).trans ?_
      simp only [mem_granules hn]
      rfl
    · have filter : (Core.stored { k with sbuf := r } a e.size e.val.toNat).resv = if g ∈ granules a e.size then none else some (g, l) := by
        show k.resv.filter _ = _
        rw [hv]
        by_cases hg : g ∈ granules a e.size <;> simp [Option.filter, hg]
      refine filter.trans ?_
      simp only [mem_granules hn]
  · intro k
    refine ⟨fun h => next_eq s (prefetch_stalled h), fun b h hb => ⟨fun hm => next_eq s ?_, fun hm => next_eq s ?_⟩⟩
    · rw [prefetch_next h hb, hm]
      rfl
    · rw [prefetch_next h hb, hm]
      rfl

end Sys2Proof.Machine
end

section
/-!
PROOFS. The obligation on atomics and block repeats (R357 to R360, R375).
-/
namespace Sys2Proof.Machine

/-! ### Reservations -/

/-- Landing multiplies change the accumulator and S alone. -/
theorem foldl_land_frame (l : List Mult) (k : Core) : l.foldl land k = { k with
    mpg := (l.foldl land k).mpg, mph := (l.foldl land k).mph, mpl := (l.foldl land k).mpl, status := (l.foldl land k).status } := by
  have acc : ∀ (k : Core) v, k.setAcc72 v = { k with
      mpg := (k.setAcc72 v).mpg, mph := (k.setAcc72 v).mph, mpl := (k.setAcc72 v).mpl, status := (k.setAcc72 v).status } := fun _ _ => rfl
  have limited : ∀ (k : Core) v, (k.setAcc72 v).setFlag stS true = { k with
      mpg := (k.setAcc72 v).mpg, mph := (k.setAcc72 v).mph, mpl := (k.setAcc72 v).mpl
      status := ((k.setAcc72 v).setFlag stS true).status } := fun _ _ => rfl
  have one : ∀ (k : Core) m, land k m = { k with
      mpg := (land k m).mpg, mph := (land k m).mph, mpl := (land k m).mpl, status := (land k m).status } := fun k m => by
    unfold land
    split
    · exact acc k _
    · exact acc k _
    · exact acc k _
    · exact acc k _
    · exact acc k _
    · dsimp only
      split
      · exact limited k _
      · split
        · exact limited k _
        · exact acc k _
  induction l generalizing k with
  | nil => rfl
  | cons m l ih =>
    rw [List.foldl_cons]
    have step := one k m
    generalize land k m = k1 at step
    have rest := ih k1
    generalize l.foldl land k1 = k2 at rest
    rw [step] at rest
    exact rest

/-- A reservation lapses with its last slot. -/
theorem slots_resv (n : Nat) {k : Core} {g l : Nat} (h : k.resv = some (g, l)) :
    (slots n k).resv = if l ≤ n then none else some (g, l - n) := by
  have kept : ((k.muls.takeWhile fun m => m.left ≤ n).foldl land k).resv = some (g, l) := by rw [foldl_land_frame, h]
  simp only [slots, kept]

section
variable {c : Fin 4} {d : Dev}

theorem reservationLapse_none (h : d.cores[c].resv = none) : reservationLapse c.val d = d := by
  simp only [reservationLapse, core_fin, h]

theorem reservationLapse_some {g l : Nat} (h : d.cores[c].resv = some (g, l)) : reservationLapse c.val d = stallSlots c.val l d := by
  simp only [reservationLapse, core_fin, h]

/-! ### Atomics -/

/-- An atomic on local memory acts on the device with the cursor stepped. -/
theorem atomic_local {i : Ins} {p a : Nat} {post : Bool} (f : Nat → Dev → Dev) (h : MemOp d c i .both p a post) (ha : a + i.size ≤ 0x40000)
    (hq : d.cores[c].sbuf = []) : atomic c.val i f d = .ok (f a (setCore c (stepped d.cores[c] p i.size post) d)) := by
  obtain ⟨o, ho, hf, rfl⟩ := h
  simp only [atomic, drainAll_empty hq, core_fin, ho, hf, inTagged_local i.size_pos ha, advance_ite, Bool.not_true, Bool.false_eq_true,
    if_false]

end

/-- A word atomic has word size. -/
theorem word_of_ready {d : Dev} {c : Fin 4} {o : StOp} {i : Ins} (h : Ready d c o i) (ho : o ∈ [StOp.lrw, .scw]) : i.size = 4 := by
  obtain ⟨-, -, -, -, legal⟩ := h
  have word : i.sz = 2 := by
    simp only [List.mem_cons, List.not_mem_nil, or_false] at ho
    by_contra hne
    rcases ho with rfl | rfl <;> simp [illegalForm, hne] at legal
  rw [Ins.size, word]
  rfl

theorem rdLE_lt (m : Bytes) (a n : Nat) : rdLE m a n < 256 ^ n := by
  induction n generalizing a with
  | zero => exact Nat.one_pos
  | succ n ih =>
    have hb := (rd8 m a).isLt
    have hr := ih (a + 1)
    rw [rdLE, Nat.pow_succ]
    omega

theorem rdLE_one (m : Bytes) (a : Nat) : rdLE m a 1 = (rd8 m a).toNat := by simp only [rdLE, Nat.mul_zero, Nat.add_zero]

/-- TAS on a core: A and Z from the byte at `a`, which becomes all ones. -/
def testedAndSet (a : Nat) (k : Core) : Core :=
  ((k.stored a 1 0xFF).setA (BitVec.ofNat 32 (rdLE k.mem a 1))).setFlag stZ (rdLE k.mem a 1 == 0)

/-- LR.W on a core. -/
def loadReserved (a : Nat) (k : Core) : Core :=
  (({ k with resv := some (a / 16, 256) } : Core).setA (BitVec.ofNat 32 (rdLE k.mem a 4))).flagsNZ (BitVec.ofNat 32 (rdLE k.mem a 4))

/-- The granule of `a` is reserved. -/
def reserved (a : Nat) (k : Core) : Bool :=
  match k.resv with
  | some (g, _) => g == a / 16
  | none => false

/-- SC.W on a core. -/
def storedIfReserved (a : Nat) (k : Core) : Core :=
  Core.setFlag stZ (reserved a k) { (if reserved a k then k.stored a 4 k.a32.toNat else { k with perfScf := satInc k.perfScf }) with resv := none }

section
variable (a : Nat) (k : Core)

theorem testedAndSet_spec (wf : Memory.wf k.mem) :
    testedAndSet a k = { k with
      a := (testedAndSet a k).a, status := (testedAndSet a k).status, mem := (testedAndSet a k).mem, tags := (testedAndSet a k).tags
      resv := (testedAndSet a k).resv } ∧
    (testedAndSet a k).a = (rd8 k.mem a).zeroExtend 40 ∧ rd8 (testedAndSet a k).mem a = 0xFF ∧
    (∀ y, y ≠ a → rd8 (testedAndSet a k).mem y = rd8 k.mem y) ∧ (testedAndSet a k).flag stZ = decide (rd8 k.mem a = 0) ∧
    ∀ j, j ≠ stZ → bit (testedAndSet a k).status j = bit k.status j := by
  have mem : ∀ y, rd8 (testedAndSet a k).mem y = if y = a then 0xFF else rd8 k.mem y := fun y => rd8_wr8 wf a y _
  refine ⟨rfl, ?_, ?_, fun y hy => ?_, ?_, fun j hj => ?_⟩
  · show (BitVec.ofNat 32 (rdLE k.mem a 1)).signExtend 40 = _
    rw [rdLE_one, BitVec.ofNat_toNat, BitVec.signExtend_eq_setWidth_of_msb_false (by simp [BitVec.msb_setWidth])]
    refine BitVec.eq_of_toNat_eq ?_
    have hv := (rd8 k.mem a).isLt
    simp only [BitVec.zeroExtend, BitVec.toNat_setWidth]
    omega
  · rw [mem, if_pos rfl]
  · rw [mem, if_neg hy]
  · rw [testedAndSet, flag_setFlag (by decide), if_pos rfl, rdLE_one, Bool.eq_iff_iff, beq_iff_eq, decide_eq_true_eq, BitVec.toNat_eq]
    rfl
  · exact (bit_setFlag (by decide) _ _ j).trans (if_neg hj.symm)

theorem loadReserved_spec :
    loadReserved a k = { k with a := (loadReserved a k).a, status := (loadReserved a k).status, resv := some (a / 16, 256) } ∧
    holds (loadReserved a k).a (BitVec.ofNat 32 (rdLE k.mem a 4)) ∧ (loadReserved a k).flag stZ = decide (rdLE k.mem a 4 = 0) ∧
    ∀ j, j ≠ stZ → j ≠ stN → bit (loadReserved a k).status j = bit k.status j := by
  have small : rdLE k.mem a 4 < 2 ^ 32 := rdLE_lt k.mem a 4
  refine ⟨by simp only [loadReserved, Core.flagsNZ, Core.setFlag, Core.setA], flagsNZ_a _ _, (flagsNZ_z _ _).trans ?_, fun j hz hn => ?_⟩
  · rw [Bool.eq_iff_iff, beq_iff_eq, decide_eq_true_eq, BitVec.toNat_eq, BitVec.toNat_ofNat, Nat.mod_eq_of_lt small]
    rfl
  · exact flagsNZ_other _ _ hn.symm hz.symm

theorem storedIfReserved_spec (wf : Memory.wf k.mem) :
    storedIfReserved a k = { k with
      status := (storedIfReserved a k).status, mem := (storedIfReserved a k).mem, tags := (storedIfReserved a k).tags
      resv := none, perfScf := (storedIfReserved a k).perfScf } ∧
    (∀ j, j ≠ stZ → bit (storedIfReserved a k).status j = bit k.status j) ∧
    (∀ l, k.resv = some (a / 16, l) → rdLE (storedIfReserved a k).mem a 4 = k.a32.toNat ∧
      (∀ y, (y < a ∨ a + 4 ≤ y) → rd8 (storedIfReserved a k).mem y = rd8 k.mem y) ∧ (storedIfReserved a k).flag stZ = true) ∧
    ((∀ l, k.resv ≠ some (a / 16, l)) → (storedIfReserved a k).mem = k.mem ∧ (storedIfReserved a k).tags = k.tags ∧
      (storedIfReserved a k).flag stZ = false ∧ (storedIfReserved a k).perfScf = satInc k.perfScf) := by
  have yes : reserved a k = true → storedIfReserved a k = Core.setFlag stZ true { k.stored a 4 k.a32.toNat with resv := none } := fun h => by
    simp only [storedIfReserved, h, if_true]
  have no : reserved a k = false →
      storedIfReserved a k = Core.setFlag stZ false { k with perfScf := satInc k.perfScf, resv := none } := fun h => by
    simp only [storedIfReserved, h, Bool.false_eq_true, if_false]
  refine ⟨?_, fun j hj => ?_, fun l hl => ?_, fun hn => ?_⟩
  · cases h : reserved a k
    · rw [no h]
      rfl
    · rw [yes h]
      rfl
  · cases h : reserved a k
    · rw [no h]
      exact (bit_setFlag (by decide) _ _ j).trans (if_neg hj.symm)
    · rw [yes h]
      exact (bit_setFlag (by decide) _ _ j).trans (if_neg hj.symm)
  · rw [yes (by simp only [reserved, hl, beq_self_eq_true])]
    refine ⟨(rdLE_wrLE wf a 4 _).trans (Nat.mod_eq_of_lt k.a32.isLt), fun y hy => rd8_wrLE_outside wf a 4 _ y hy, ?_⟩
    rw [flag_setFlag (by decide), if_pos rfl]
  · have h : reserved a k = false := by
      unfold reserved
      split
      next g l hr =>
        rw [beq_eq_false_iff_ne]
        exact fun hg => hn l (hg ▸ hr)
      · rfl
    rw [no h]
    refine ⟨rfl, rfl, ?_, rfl⟩
    rw [flag_setFlag (by decide), if_pos rfl]

end

end Sys2Proof.Machine
end

section
/-!
PROOFS. Block repeats (R357, R358), and the obligation on atomics and repeats.
-/
namespace Sys2Proof.Machine

/-! ### The frame of an element -/

theorem advanceAll_eq {c : Fin 4} (js : List Nat) (n : Nat) (k : Core) (d : Dev) :
    js.foldl (fun d j => advance c.val j n d) (setCore c k d) = setCore c (steppedAll js n k) d := by
  induction js generalizing k with
  | nil => rfl
  | cons j js ih =>
    rw [List.foldl_cons, advance_eq, setCore_core, setCore_setCore, ih]
    rfl

/-- A core on which a repeat has ended. -/
def repeatEnds (i : Ins) (k : Core) : Core := { completeIns k with pc := i.next }

theorem repeatEnds_frame (i : Ins) (k : Core) :
    repeatEnds i k = { k with status := (repeatEnds i k).status, perfIns := k.perfIns + 1, pc := i.next } := by
  simp only [repeatEnds, completeIns, Core.setFlag]

theorem repeatEnds_flag (i : Ins) (k : Core) (j : Nat) : (repeatEnds i k).flag j = if stRP = j then false else k.flag j :=
  bit_setFlag (by decide) false k j

/-- A repeat with nothing to do leaves the data of its core. -/
theorem repeatEnds_fresh (i : Ins) (k : Core) : let t := repeatEnds i (slots 1 (pruneBlocks k))
    t.pc = i.next ∧ t.a = k.a ∧ t.x = k.x ∧ t.y = k.y ∧ t.k = k.k ∧ t.mem = k.mem ∧
      ∀ j, j ≠ stS → j ≠ stRP → bit t.status j = bit k.status j := by
  have flag := repeatEnds_flag i (slots 1 (pruneBlocks k))
  have frame := repeatEnds_frame i (slots 1 (pruneBlocks k))
  generalize repeatEnds i (slots 1 (pruneBlocks k)) = t at flag frame
  rw [frame]
  refine ⟨rfl, slots_a .., slots_x .., slots_y .., slots_k .., slots_mem .., fun j hS hR => ?_⟩
  exact (flag j).trans ((if_neg hR.symm).trans (slots_bit 1 _ hS))

/-- A core on which an element that left `k` goes on: the cursors of `js` step, CNT falls; at 0 it ends with the flags that `e` sets. -/
def repeatGoes (i : Ins) (js : List Nat) (e : Core → Core) (k : Core) : Core :=
  let t := slots 1 { steppedAll js i.size k with cnt := k.cnt - 1 }
  if t.cnt = 0 then repeatEnds i (e t) else t.setFlag stRP true

/-- The device after a run of elements of a repeat. -/
def repeatRan (c : Nat) (i : Ins) : Dev × RunEnd → Dev
  | (d, .done f) => updCore c (fun k => repeatEnds i (f k)) d
  | (d, .fault f) => raiseIns c f i.pc (updCore c (fun k => k.setFlag stRP true) d)
  | (d, .open) => updCore c (fun k => k.setFlag stRP true) d

section
variable {c : Fin 4} {d : Dev} {o : StOp} {i : Ins} {r : Ins → Bool → Repeat} {n : Nat} (h : Ready d c o i)
include h

theorem repeatRow_empty (hr : d.cores[c].flag stRP = false) (h0 : d.cores[c].cnt = 0) :
    repeatRow c.val o n r d = setCore c (repeatEnds i (slots 1 (pruneBlocks d.cores[c]))) d := by
  have fresh : (pruneBlocks d.cores[c]).flag stRP = false := hr
  have none : (pruneBlocks d.cores[c]).cnt = 0 := h0
  simp only [repeatRow, withIns_ready h, core_setCore, fresh, none, Bool.not_false, and_self, if_true, updCore_setCore]
  rfl

variable (hr : d.cores[c].flag stRP = true)
include hr

/-- A repeat that goes on does its elements at once. -/
theorem repeatRow_resumed : repeatRow c.val o n r d =
    repeatRan c.val i (repElems c.val i.size (r i) n true (setCore c (pruneBlocks d.cores[c]) d)) := by
  have going : (pruneBlocks d.cores[c]).flag stRP = true := hr
  simp only [repeatRow, withIns_ready h, core_setCore, going, Bool.not_true, Bool.false_eq_true, false_and, if_false]
  rfl

variable (h0 : d.cores[c].cnt ≠ 0) (h1 : d.cores[c].cnt ≠ 0xFFFFFFFF) {k1 : Nat → Core}
include h0 h1

/-- The element ends the repeat. -/
theorem repeatRow_stops {z cf : Bool}
    (he : ∀ t, (r i true).elem (setCore c (slots t (pruneBlocks d.cores[c])) d) = .ok (setCore c (k1 t) d, .stop z cf)) :
    ∃ t, repeatRow c.val o 1 r d = setCore c (repeatEnds i (((slots 1 (k1 t)).setFlag stZ z).setFlag stC cf)) d := by
  have left : (pruneBlocks d.cores[c]).cnt ≠ 0 := h0
  have bounded : (pruneBlocks d.cores[c]).cnt ≠ 0xFFFFFFFF := h1
  rw [repeatRow_resumed h hr]
  simp only [repElems, core_setCore, if_neg left, bounded, false_and, if_false, updCore_setCore, he, repeatRan]
  exact ⟨_, rfl⟩

/-- The repeat goes on after the element. -/
theorem repeatRow_goes (he : ∀ t, (r i true).elem (setCore c (slots t (pruneBlocks d.cores[c])) d) = .ok (setCore c (k1 t) d, .more))
    (hc : ∀ t, (k1 t).cnt = d.cores[c].cnt) (hj : ∀ j ∈ (r i true).loads ++ (r i true).stores, j < 8) :
    ∃ t, repeatRow c.val o 1 r d =
      setCore c (repeatGoes i ((r i true).loads ++ (r i true).stores).eraseDups ((r i false).atEnd false) (k1 t)) d := by
  have left : (pruneBlocks d.cores[c]).cnt ≠ 0 := h0
  have bounded : (pruneBlocks d.cores[c]).cnt ≠ 0xFFFFFFFF := h1
  have cnt : ∀ t, (steppedAll ((r i true).loads ++ (r i true).stores).eraseDups i.size (k1 t)).cnt = (k1 t).cnt := fun t => by
    rw [steppedAll_congr i.size (fun j hx => hj j (List.mem_eraseDups.1 hx)) (rfl : (k1 t).k = (k1 t).k)]
  rw [repeatRow_resumed h hr]
  simp only [repElems, core_setCore, if_neg left, bounded, false_and, if_false, updCore_setCore, he, advanceAll_eq, cnt, hc, if_neg h1]
  generalize elemSlots c.val (pruneBlocks d.cores[c]) (r i true) i.size - 1 = t
  refine ⟨t, ?_⟩
  by_cases hz : (slots 1 { steppedAll ((r i true).loads ++ (r i true).stores).eraseDups i.size (k1 t) with cnt := d.cores[c].cnt - 1 }).cnt = 0
  · simp only [if_pos hz, repeatRan, updCore_setCore, repeatGoes, hc]
  · simp only [if_neg hz, repeatRan, updCore_setCore, repeatGoes, hc]

end

/-! ### What an element leaves -/

/-- The registers, memory, count and PC that an element of a repeat sees and keeps. -/
def SameData (k k1 : Core) : Prop := k1.x = k.x ∧ k1.y = k.y ∧ k1.mem = k.mem ∧ k1.k = k.k ∧ k1.cnt = k.cnt ∧ k1.pc = k.pc

theorem sameData_slots (t : Nat) (k : Core) : SameData k (slots t (pruneBlocks k)) :=
  ⟨slots_x .., slots_y .., slots_mem .., slots_k .., slots_cnt .., slots_pc ..⟩

theorem sub_one_eq_zero (v : Word) : v - 1 = 0 ↔ v = 1 := by bv_omega

section
variable {k k1 : Core} {i : Ins} (same : SameData k k1)
include same

theorem repeatEnds_spec (z cf : Bool) :
    let t := repeatEnds i (((slots 1 k1).setFlag stZ z).setFlag stC cf)
    (t.x = k.x ∧ t.y = k.y ∧ t.mem = k.mem) ∧ t.sbuf = k1.sbuf ∧ t.cnt = k.cnt ∧ t.k = k.k ∧ t.flag stRP = false ∧ t.pc = i.next ∧
      t.flag stZ = z ∧ t.flag stC = cf ∧ t.a = k1.a := by
  obtain ⟨hx, hy, hm, hk, hc, hp⟩ := same
  have ended := repeatEnds_frame i (((slots 1 k1).setFlag stZ z).setFlag stC cf)
  have flag : ∀ j, (repeatEnds i (((slots 1 k1).setFlag stZ z).setFlag stC cf)).flag j =
      if stRP = j then false else if stC = j then cf else if stZ = j then z else (slots 1 k1).flag j := fun j => by
    rw [repeatEnds_flag, flag_setFlag (by decide), flag_setFlag (by decide)]
  generalize repeatEnds i (((slots 1 k1).setFlag stZ z).setFlag stC cf) = t at ended flag
  have kept : t = { slots 1 k1 with status := t.status, perfIns := t.perfIns, pc := i.next } := by
    rw [ended]
    simp only [Core.setFlag]
  have data : (t.x = k.x ∧ t.y = k.y ∧ t.mem = k.mem) ∧ t.sbuf = k1.sbuf ∧ t.cnt = k.cnt ∧ t.k = k.k ∧ t.pc = i.next ∧ t.a = k1.a := by
    rw [kept]
    exact ⟨⟨(slots_x ..).trans hx, (slots_y ..).trans hy, (slots_mem ..).trans hm⟩, slots_sbuf .., (slots_cnt ..).trans hc,
      (slots_k ..).trans hk, rfl, slots_a ..⟩
  obtain ⟨frame, hs, hcnt, hkeys, hpc, ha⟩ := data
  exact ⟨frame, hs, hcnt, hkeys, flag stRP, hpc, flag stZ, flag stC, ha⟩

theorem repeatGoes_spec {js : List Nat} (hj : ∀ j ∈ js, j < 8) {e : Core → Core} (he : ∀ k, e k = { k with status := (e k).status }) :
    let t := repeatGoes i js e k1
    (t.x = k.x ∧ t.y = k.y ∧ t.mem = k.mem) ∧ t.a = k1.a ∧ t.sbuf = k1.sbuf ∧ t.cnt = k.cnt - 1 ∧ t.k = (steppedAll js i.size k).k ∧
      (k.cnt = 1 → t.flag stRP = false ∧ t.pc = i.next ∧ ∀ j b, j ≠ stRP → (∀ k, (e k).flag j = b) → t.flag j = b) ∧
      (k.cnt ≠ 1 → t.flag stRP = true ∧ t.pc = k.pc) := by
  obtain ⟨hx, hy, hm, hk, hc, hp⟩ := same
  obtain ⟨k2, hk2⟩ : ∃ k2, slots 1 { steppedAll js i.size k1 with cnt := k1.cnt - 1 } = k2 := ⟨_, rfl⟩
  have inner : ({ steppedAll js i.size k1 with cnt := k1.cnt - 1 } : Core) =
      { k1 with k := (steppedAll js i.size k).k, cnt := k.cnt - 1 } := by
    rw [steppedAll_congr i.size hj hk, hc]
  have kept : (k2.x = k.x ∧ k2.y = k.y ∧ k2.mem = k.mem) ∧ k2.a = k1.a ∧ k2.sbuf = k1.sbuf ∧ k2.cnt = k.cnt - 1 ∧
      k2.k = (steppedAll js i.size k).k ∧ k2.pc = k.pc := by
    rw [← hk2, inner]
    simp only [slots_x, slots_y, slots_mem, slots_a, slots_sbuf, slots_cnt, slots_k, slots_pc]
    exact ⟨⟨hx, hy, hm⟩, trivial, trivial, trivial, trivial, hp⟩
  obtain ⟨data, ha, hs, hcnt, hkeys, hpc⟩ := kept
  by_cases h1 : k.cnt = 1
  · have ended : repeatGoes i js e k1 = repeatEnds i { k2 with status := (e k2).status } := by
      rw [repeatGoes, hk2, ← he]
      exact if_pos (hcnt.trans ((sub_one_eq_zero _).2 h1))
    rw [ended]
    have flag := repeatEnds_flag i { k2 with status := (e k2).status }
    refine ⟨data, ha, hs, hcnt, hkeys, fun _ => ⟨(flag stRP).trans (if_pos rfl), rfl,
      fun j b hj hb => (flag j).trans ((if_neg hj.symm).trans (hb k2))⟩,
      fun h => absurd h1 h⟩
  · have goes : repeatGoes i js e k1 = k2.setFlag stRP true := by
      rw [repeatGoes, hk2]
      exact if_neg fun h => h1 ((sub_one_eq_zero _).1 (hcnt.symm.trans h))
    rw [goes]
    refine ⟨data, ha, hs, hcnt, hkeys, fun h => absurd h h1, fun _ => ⟨?_, hpc⟩⟩
    rw [flag_setFlag (by decide), if_pos rfl]

end

/-! ### Elements in local memory -/

/-- The operand size of a repeat is at most a word. -/
theorem size_le_of_ready {d : Dev} {c : Fin 4} {o : StOp} {i : Ins} (h : Ready d c o i) (ho : o ∈ [StOp.movs, .fils, .cmps, .scns, .crcs]) :
    i.size ≤ 4 := by
  have hs := sz_of_ready h (by simp only [List.mem_cons, List.not_mem_nil, or_false] at ho ⊢; tauto)
  have h4 : i.sz < 4 := Nat.mod_lt _ (by decide)
  exact Nat.pow_le_pow_right (by decide) (show i.sz ≤ 2 by omega)

section
variable {c : Fin 4} {d : Dev} {j n : Nat} (t : Nat) (hq : d.cores[c].sbuf = [])
include hq

theorem loadElem_local (hn : 1 ≤ n) (hf : accessFault d c.val j (d.cores[c].key j) (d.cores[c].key j).cursor n .load false = none)
    (ha : ((d.cores[c].key j).base + (d.cores[c].key j).cursor) % 2 ^ 32 + n ≤ 0x40000) (first : Bool) :
    loadElem c.val j n .ok first (setCore c (slots t (pruneBlocks d.cores[c])) d) =
      .ok (rdLE d.cores[c].mem (((d.cores[c].key j).base + (d.cores[c].key j).cursor) % 2 ^ 32) n,
        setCore c (slots t (pruneBlocks d.cores[c])) d) := by
  have key : (slots t (pruneBlocks d.cores[c])).key j = d.cores[c].key j := slots_key ..
  have mem : (slots t (pruneBlocks d.cores[c])).mem = d.cores[c].mem := slots_mem ..
  have buf : (slots t (pruneBlocks d.cores[c])).sbuf = [] := (slots_sbuf ..).trans hq
  have comp : (slots t (pruneBlocks d.cores[c])).comp = d.cores[c].comp := slots_comp ..
  rw [loadElem, core_setCore, loadKey_passes _ (by rw [setCore_core, accessFault_setCore comp, key]; exact hf), setCore_core, key,
    loadBytes_memory hn ha _ _ (by rw [setCore_core, buf]; exact fun _ h => nomatch h), setCore_core, mem]

theorem storeElem_local (hf : accessFault d c.val j (d.cores[c].key j) (d.cores[c].key j).cursor n .store false = none)
    (hw : n ≠ 2 ∨ ((d.cores[c].key j).base + (d.cores[c].key j).cursor) % 2 ^ 32 % 2 = 0) (h4 : n ≤ 4) {v : Nat} (hv : v < 256 ^ n) :
    ∃ e : StoreEnt, storeElem c.val j n v (setCore c (slots t (pruneBlocks d.cores[c])) d) =
        .ok (setCore c { slots t (pruneBlocks d.cores[c]) with sbuf := [e] } d) ∧
      e.addr.toNat = ((d.cores[c].key j).base + (d.cores[c].key j).cursor) % 2 ^ 32 ∧ e.size = n ∧ e.val.toNat = v := by
  have key : (slots t (pruneBlocks d.cores[c])).key j = d.cores[c].key j := slots_key ..
  have buf : (slots t (pruneBlocks d.cores[c])).sbuf = [] := (slots_sbuf ..).trans hq
  have comp : (slots t (pruneBlocks d.cores[c])).comp = d.cores[c].comp := slots_comp ..
  rw [storeElem, core_setCore, storeKey_passes v (by rw [setCore_core, accessFault_setCore comp, key]; exact hf), setCore_core, key,
    storeBytes, if_neg (by omega), bufferStore_room _ _ (by rw [setCore_core, buf]; decide), setCore_core, setCore_setCore, buf]
  refine ⟨_, rfl, ?_, rfl, ?_⟩
  · exact (BitVec.toNat_ofNat ..).trans (Nat.mod_eq_of_lt (Nat.mod_lt _ (by decide)))
  · have small : 256 ^ n ≤ 256 ^ 4 := Nat.pow_le_pow_right (by decide) h4
    show (BitVec.ofNat 32 (v % 256 ^ n)).toNat = v
    rw [Nat.mod_eq_of_lt hv, BitVec.toNat_ofNat]
    exact Nat.mod_eq_of_lt (Nat.lt_of_lt_of_le hv small)

end

/-! ### Whole instructions -/

section
variable {c : Fin 4} {s : State} {o : StOp} {i : Ins} {r : Ins → Bool → Repeat} {I : Instr} {k1 : Nat → Core}
  (row : exec I s = act (repeatRow c.val o 1 r) s) (h : Ready s.dev c o i) (hr : s.dev.cores[c].flag stRP = true)
  (h0 : s.dev.cores[c].cnt ≠ 0) (h1 : s.dev.cores[c].cnt ≠ 0xFFFFFFFF) (same : ∀ t, SameData s.dev.cores[c] (k1 t))
include row h hr h0 h1 same

/-- A repeat whose next element ends it. -/
theorem repeat_ends {z cf : Bool}
    (he : ∀ t, (r i true).elem (setCore c (slots t (pruneBlocks s.dev.cores[c])) s.dev) = .ok (setCore c (k1 t) s.dev, .stop z cf)) :
    let k := s.dev.cores[c]
    ∃ (u : Nat) (t : Core), exec I s = .next { s with dev := setCore c t s.dev } ∧ (t.x = k.x ∧ t.y = k.y ∧ t.mem = k.mem) ∧
      t.sbuf = (k1 u).sbuf ∧ t.cnt = k.cnt ∧ t.k = k.k ∧ t.flag stRP = false ∧ t.pc = i.next ∧ t.flag stZ = z ∧ t.flag stC = cf ∧
      t.a = (k1 u).a := by
  obtain ⟨u, run⟩ := repeatRow_stops h hr h0 h1 he
  exact ⟨u, _, row.trans (next_eq s run), repeatEnds_spec (same u) z cf⟩

/-- A repeat that goes on after its next element. -/
theorem repeat_goes
    (he : ∀ t, (r i true).elem (setCore c (slots t (pruneBlocks s.dev.cores[c])) s.dev) = .ok (setCore c (k1 t) s.dev, .more))
    (hj : ∀ j ∈ (r i true).loads ++ (r i true).stores, j < 8)
    (hf : ∀ k, (r i false).atEnd false k = { k with status := ((r i false).atEnd false k).status }) :
    let k := s.dev.cores[c]
    ∃ (u : Nat) (t : Core), exec I s = .next { s with dev := setCore c t s.dev } ∧ (t.x = k.x ∧ t.y = k.y ∧ t.mem = k.mem) ∧
      t.a = (k1 u).a ∧ t.sbuf = (k1 u).sbuf ∧ t.cnt = k.cnt - 1 ∧
      t.k = (steppedAll ((r i true).loads ++ (r i true).stores).eraseDups i.size k).k ∧
      (k.cnt = 1 → t.flag stRP = false ∧ t.pc = i.next ∧
        ∀ j b, j ≠ stRP → (∀ k, ((r i false).atEnd false k).flag j = b) → t.flag j = b) ∧
      (k.cnt ≠ 1 → t.flag stRP = true ∧ t.pc = k.pc) := by
  obtain ⟨u, run⟩ := repeatRow_goes h hr h0 h1 he (fun t => (same t).2.2.2.2.1) hj
  exact ⟨u, _, row.trans (next_eq s run), repeatGoes_spec (same u) (fun j hx => hj j (List.mem_eraseDups.1 hx)) hf⟩

end

theorem setFlag_setFlag_frame (k : Core) (i j : Nat) (b b' : Bool) :
    (k.setFlag i b).setFlag j b' = { k with status := ((k.setFlag i b).setFlag j b').status } := by
  simp only [Core.setFlag]

theorem aLow_slots (t n : Nat) (k : Core) : (slots t (pruneBlocks k)).aLow n = k.a32.toNat % 256 ^ n := by
  simp only [Core.aLow, Core.a32, slots_a]
  rfl

/-- The key registers of a repeat are general ones. -/
theorem repeatKeys_lt (i : Ins) : ∀ j ∈ [i.md, i.k], j < 8 := by
  have field : ∀ lo, fld i.w lo 3 < 8 := fun _ => Nat.mod_lt _ (by decide)
  intro j hj
  rcases List.mem_cons.1 hj with rfl | hj
  · exact field 5
  · rw [List.mem_singleton.1 hj]
    exact field 2

/-! ### Atomics as instructions -/

section
variable {c : Fin 4} {s : State} {i : Ins} {d : Dev} {p a : Nat} {post : Bool}
  (hd : d = lastSlot s.dev c (opSlots c.val s.dev.cores[c] i)) (hm : MemOp d c i .both p a post) (ha : a + i.size ≤ 0x40000)
  (hq : d.cores[c].sbuf = [])
include hd hm ha hq

theorem exec_tas (h : Ready s.dev c .tas i) :
    exec (.tas c) s = .next { s with dev := completed d c i (testedAndSet a (stepped d.cores[c] p i.size post)) } := by
  have hn := i.size_pos
  subst hd
  refine row_completes (atomicSlots c.val) h ((atomic_local _ hm ha hq).trans (congrArg Except.ok ?_))
  dsimp only
  rw [memRead_local (by omega), setCore_core, memWrite_local (le_refl 1) (by omega), setCore_core, setCore_setCore, updCore_setCore]
  rfl

theorem exec_lrW (h : Ready s.dev c .lrw i) (ecc : Ecc) :
    exec (.lrW c ecc) s = .next { s with dev := completed d c i (loadReserved a (stepped d.cores[c] p i.size post)) } := by
  have hn := i.size_pos
  subst hd
  refine row_completes (atomicSlots c.val) h ((atomic_local _ hm ha hq).trans (congrArg Except.ok ?_))
  dsimp only
  rw [memRead_local (by omega), setCore_core, updCore_setCore]
  rfl

theorem exec_scW (h : Ready s.dev c .scw i) :
    exec (.scW c) s = .next { s with dev := completed d c i (storedIfReserved a (stepped d.cores[c] p i.size post)) } := by
  have size := word_of_ready h (by simp)
  subst hd
  refine row_completes (atomicSlots c.val) h ((atomic_local _ hm ha hq).trans (congrArg Except.ok ?_))
  dsimp only
  rw [core_setCore, memWrite_local (by decide) (by omega), updCore_setCore, setCore_core, setCore_setCore, setCore_ite, updCore_setCore]
  rfl

end

/-! ### One element of each repeat -/

/-- The local address at the cursor of key register `j`. -/
def elemAddr (k : Core) (j : Nat) : Nat := ((k.key j).base + (k.key j).cursor) % 2 ^ 32

/-- The element at the cursor of key register `j` passes its checks and lies in local memory. -/
def ElemOk (d : Dev) (c : Fin 4) (i : Ins) (j : Nat) (acc : Acc) : Prop :=
  accessFault d c.val j (d.cores[c].key j) (d.cores[c].key j).cursor i.size acc false = none ∧ elemAddr d.cores[c] j + i.size ≤ 0x40000

/-- `t` is `k` after an element that goes on, `js` the key registers whose cursors step: it has ended with `Q`, or is suspended. -/
def WentOn (i : Ins) (js : List Nat) (k : Core) (Q : Core → Prop) (t : Core) : Prop :=
  t.cnt = k.cnt - 1 ∧ t.k = (steppedAll js.eraseDups i.size k).k ∧
    (k.cnt = 1 → t.flag stRP = false ∧ t.pc = i.next ∧ t.flag stC = false ∧ Q t) ∧ (k.cnt ≠ 1 → t.flag stRP = true ∧ t.pc = k.pc)

/-- `t` is `k` after an element that ended its repeat with Z and C so. -/
def Ended (i : Ins) (k : Core) (z cf : Bool) (t : Core) : Prop :=
  t.cnt = k.cnt ∧ t.k = k.k ∧ t.flag stRP = false ∧ t.pc = i.next ∧ t.flag stZ = z ∧ t.flag stC = cf ∧ t.a = k.a

theorem flag_endC (k : Core) : (k.setFlag stC false).flag stC = false := by
  rw [flag_setFlag (by decide), if_pos rfl]

theorem flag_endZ (b : Bool) (k : Core) : ((k.setFlag stZ b).setFlag stC false).flag stZ = b := by
  rw [flag_setFlag (by decide), flag_setFlag (by decide), if_neg (by decide), if_pos rfl]

section
variable {c : Fin 4} {s : State} {i : Ins} (hr : s.dev.cores[c].flag stRP = true) (hq : s.dev.cores[c].sbuf = [])
  (h0 : s.dev.cores[c].cnt ≠ 0) (h1 : s.dev.cores[c].cnt ≠ 0xFFFFFFFF)
include hr hq h0 h1

theorem movs_element (h : Ready s.dev c .movs i) (okU : ElemOk s.dev c i i.md .load) (okV : ElemOk s.dev c i i.k .store)
    (hw : i.size ≠ 2 ∨ elemAddr s.dev.cores[c] i.k % 2 = 0) :
    let k := s.dev.cores[c]
    ∃ t : Core, exec (.movs c 1 .ok) s = .next { s with dev := setCore c t s.dev } ∧ t.x = k.x ∧ t.y = k.y ∧ t.mem = k.mem ∧
      WentOn i [i.md, i.k] k (fun _ => True) t ∧ t.a = k.a ∧
      ∃ e, t.sbuf = [e] ∧ e.addr.toNat = elemAddr k i.k ∧ e.size = i.size ∧ e.val.toNat = rdLE k.mem (elemAddr k i.md) i.size := by
  intro k
  obtain ⟨fu, au⟩ := okU
  obtain ⟨fv, av⟩ := okV
  have fit : i.size ≤ 4 := size_le_of_ready h (by simp)
  choose e he ea es ev using fun t => storeElem_local t hq fv hw fit (rdLE_lt k.mem (elemAddr k i.md) i.size)
  obtain ⟨u, t, act, ⟨hx, hy, hm⟩, ka, kb, kc, kk, last, more⟩ := repeat_goes (o := .movs) (I := .movs c 1 .ok)
    (k1 := fun t => { slots t (pruneBlocks k) with sbuf := [e t] }) rfl h hr h0 h1 (fun t => sameData_slots t k) (fun t => by
      show (do
        let (v, d1) ← loadElem c.val i.md i.size .ok true (setCore c (slots t (pruneBlocks k)) s.dev)
        let d2 ← storeElem c.val i.k i.size v d1
        .ok (d2, EltEnd.more) : StRes (Dev × EltEnd)) = _
      rw [loadElem_local t hq i.size_pos fu au]
      exact congrArg (fun r => r.bind fun d2 => .ok (d2, EltEnd.more)) (he t)) (repeatKeys_lt i) (fun _ => rfl)
  exact ⟨t, act, hx, hy, hm, ⟨kc, kk, fun h => ⟨(last h).1, (last h).2.1, (last h).2.2 stC false (by decide) flag_endC, trivial⟩, more⟩,
    ka.trans (slots_a ..), e u, kb, ea u, es u, ev u⟩

theorem fils_element (h : Ready s.dev c .fils i) (okV : ElemOk s.dev c i i.k .store)
    (hw : i.size ≠ 2 ∨ elemAddr s.dev.cores[c] i.k % 2 = 0) :
    let k := s.dev.cores[c]
    ∃ t : Core, exec (.fils c 1 .ok) s = .next { s with dev := setCore c t s.dev } ∧ t.x = k.x ∧ t.y = k.y ∧ t.mem = k.mem ∧
      WentOn i [i.k] k (fun _ => True) t ∧ t.a = k.a ∧
      ∃ e, t.sbuf = [e] ∧ e.addr.toNat = elemAddr k i.k ∧ e.size = i.size ∧ e.val.toNat = k.a32.toNat % 256 ^ i.size := by
  intro k
  obtain ⟨fv, av⟩ := okV
  have fit : i.size ≤ 4 := size_le_of_ready h (by simp)
  have low : k.a32.toNat % 256 ^ i.size < 256 ^ i.size := Nat.mod_lt _ (Nat.pow_pos (by decide))
  choose e he ea es ev using fun t => storeElem_local t hq fv hw fit low
  obtain ⟨u, t, act, ⟨hx, hy, hm⟩, ka, kb, kc, kk, last, more⟩ := repeat_goes (o := .fils) (I := .fils c 1 .ok)
    (k1 := fun t => { slots t (pruneBlocks k) with sbuf := [e t] }) rfl h hr h0 h1 (fun t => sameData_slots t k) (fun t => by
      show (do
        let d1 ← storeElem c.val i.k i.size ((core (setCore c (slots t (pruneBlocks k)) s.dev) c.val).aLow i.size)
          (setCore c (slots t (pruneBlocks k)) s.dev)
        .ok (d1, EltEnd.more) : StRes (Dev × EltEnd)) = _
      rw [core_setCore, aLow_slots]
      exact congrArg (fun r => r.bind fun d1 => .ok (d1, EltEnd.more)) (he t))
    (fun j hx => repeatKeys_lt i j (List.mem_cons_of_mem _ hx)) (fun _ => rfl)
  exact ⟨t, act, hx, hy, hm, ⟨kc, kk, fun h => ⟨(last h).1, (last h).2.1, (last h).2.2 stC false (by decide) flag_endC, trivial⟩, more⟩,
    ka.trans (slots_a ..), e u, kb, ea u, es u, ev u⟩

theorem cmps_element (h : Ready s.dev c .cmps i) (okU : ElemOk s.dev c i i.md .load) (okV : ElemOk s.dev c i i.k .load) :
    let k := s.dev.cores[c]
    let x := rdLE k.mem (elemAddr k i.md) i.size
    let y := rdLE k.mem (elemAddr k i.k) i.size
    ∃ t : Core, exec (.cmps c 1 (.ok, .ok)) s = .next { s with dev := setCore c t s.dev } ∧ t.x = k.x ∧ t.y = k.y ∧ t.mem = k.mem ∧
      t.sbuf = [] ∧ (x = y → WentOn i [i.md, i.k] k (fun t => t.flag stZ = true) t) ∧ (x ≠ y → Ended i k false (decide (y ≤ x)) t) := by
  intro k x y
  obtain ⟨fu, au⟩ := okU
  obtain ⟨fv, av⟩ := okV
  have elem : ∀ t, (do
      let (a, d1) ← loadElem c.val i.md i.size .ok true (setCore c (slots t (pruneBlocks k)) s.dev)
      let (b, d2) ← loadElem c.val i.k i.size .ok true d1
      .ok (d2, if a = b then EltEnd.more else .stop false (decide (b ≤ a))) : StRes (Dev × EltEnd)) =
      .ok (setCore c (slots t (pruneBlocks k)) s.dev, if x = y then EltEnd.more else .stop false (decide (y ≤ x))) := fun t => by
    rw [loadElem_local t hq i.size_pos fu au]
    exact congrArg (fun r => r.bind fun (b, d2) => .ok (d2, if x = b then EltEnd.more else .stop false (decide (b ≤ x))))
      (loadElem_local t hq i.size_pos fv av true)
  by_cases hxy : x = y
  · obtain ⟨u, t, act, ⟨hx, hy, hm⟩, ka, kb, kc, kk, last, more⟩ := repeat_goes (o := .cmps) (I := .cmps c 1 (.ok, .ok))
      (k1 := fun t => slots t (pruneBlocks k)) rfl h hr h0 h1 (fun t => sameData_slots t k) (fun t => (elem t).trans (by rw [if_pos hxy]))
      (repeatKeys_lt i) (fun k => setFlag_setFlag_frame k ..)
    refine ⟨t, act, hx, hy, hm, kb.trans ((slots_sbuf ..).trans hq), fun _ => ⟨kc, kk, fun h => ⟨(last h).1, (last h).2.1,
      (last h).2.2 stC false (by decide) fun k => flag_endC _, (last h).2.2 stZ true (by decide) (flag_endZ true)⟩, more⟩,
      fun h => absurd hxy h⟩
  · obtain ⟨u, t, act, ⟨hx, hy, hm⟩, kb, kc, kk, fR, pc, fZ, fC, ka⟩ := repeat_ends (o := .cmps) (I := .cmps c 1 (.ok, .ok))
      (k1 := fun t => slots t (pruneBlocks k)) rfl h hr h0 h1 (fun t => sameData_slots t k) (fun t => (elem t).trans (by rw [if_neg hxy]))
    exact ⟨t, act, hx, hy, hm, kb.trans ((slots_sbuf ..).trans hq), fun h => absurd h hxy,
      fun _ => ⟨kc, kk, fR, pc, fZ, fC, ka.trans (slots_a ..)⟩⟩

theorem scns_element (h : Ready s.dev c .scns i) (okU : ElemOk s.dev c i i.md .load) :
    let k := s.dev.cores[c]
    let x := rdLE k.mem (elemAddr k i.md) i.size
    let A := k.a32.toNat % 256 ^ i.size
    let found := if bit i.w 0 then x ≠ A else x = A
    ∃ t : Core, exec (.scns c 1 .ok) s = .next { s with dev := setCore c t s.dev } ∧ t.x = k.x ∧ t.y = k.y ∧ t.mem = k.mem ∧
      t.sbuf = [] ∧ (found → Ended i k true false t) ∧ (¬ found → WentOn i [i.md] k (fun t => t.flag stZ = false) t) := by
  intro k x A found
  obtain ⟨fu, au⟩ := okU
  have elem : ∀ t, (do
      let (a, d1) ← loadElem c.val i.md i.size .ok true (setCore c (slots t (pruneBlocks k)) s.dev)
      .ok (d1, if (a == (core d1 c.val).aLow i.size) != bit i.w 0 then EltEnd.stop true false else .more) : StRes (Dev × EltEnd)) =
      .ok (setCore c (slots t (pruneBlocks k)) s.dev, if (x == A) != bit i.w 0 then EltEnd.stop true false else .more) := fun t => by
    rw [loadElem_local t hq i.size_pos fu au]
    show Except.ok (_, if (x == (core (setCore c (slots t (pruneBlocks k)) s.dev) c.val).aLow i.size) != bit i.w 0 then _ else _) = _
    rw [core_setCore, aLow_slots]
  have stops : ((x == A) != bit i.w 0) = true ↔ found := by
    show _ ↔ if bit i.w 0 then x ≠ A else x = A
    cases bit i.w 0 <;> simp
  by_cases hf : ((x == A) != bit i.w 0) = true
  · obtain ⟨u, t, act, ⟨hx, hy, hm⟩, kb, kc, kk, fR, pc, fZ, fC, ka⟩ := repeat_ends (o := .scns) (I := .scns c 1 .ok)
      (k1 := fun t => slots t (pruneBlocks k)) rfl h hr h0 h1 (fun t => sameData_slots t k) (fun t => (elem t).trans (by rw [if_pos hf]))
    exact ⟨t, act, hx, hy, hm, kb.trans ((slots_sbuf ..).trans hq), fun _ => ⟨kc, kk, fR, pc, fZ, fC, ka.trans (slots_a ..)⟩,
      fun hn => absurd (stops.1 hf) hn⟩
  · obtain ⟨u, t, act, ⟨hx, hy, hm⟩, ka, kb, kc, kk, last, more⟩ := repeat_goes (o := .scns) (I := .scns c 1 .ok)
      (k1 := fun t => slots t (pruneBlocks k)) rfl h hr h0 h1 (fun t => sameData_slots t k) (fun t => (elem t).trans (by rw [if_neg hf]))
      (fun j hx => repeatKeys_lt i j (List.mem_append_left [i.k] hx)) (fun k => setFlag_setFlag_frame k ..)
    exact ⟨t, act, hx, hy, hm, kb.trans ((slots_sbuf ..).trans hq), fun hn => absurd (stops.2 hn) hf,
      fun _ => ⟨kc, kk, fun h => ⟨(last h).1, (last h).2.1, (last h).2.2 stC false (by decide) fun k => flag_endC _,
        (last h).2.2 stZ false (by decide) (flag_endZ false)⟩, more⟩⟩

theorem crcs_element (h : Ready s.dev c .crcs i) (okU : ElemOk s.dev c i i.md .load) :
    let k := s.dev.cores[c]
    let x := rdLE k.mem (elemAddr k i.md) i.size
    ∃ t : Core, exec (.crcs c 1 .ok) s = .next { s with dev := setCore c t s.dev } ∧ t.x = k.x ∧ t.y = k.y ∧ t.mem = k.mem ∧
      t.sbuf = [] ∧ WentOn i [i.md] k (fun _ => True) t ∧
      holds t.a (BitVec.ofNat 32 (crcBytesR (if bit i.w 0 then 0xEDB88320 else 0x82F63B78) k.a32.toNat (leBytes i.size x))) := by
  intro k x
  obtain ⟨fu, au⟩ := okU
  obtain ⟨u, t, act, ⟨hx, hy, hm⟩, ka, kb, kc, kk, last, more⟩ := repeat_goes (o := .crcs) (I := .crcs c 1 .ok)
    (k1 := fun t => (slots t (pruneBlocks k)).setA (BitVec.ofNat 32 (crcBytesR (if bit i.w 0 then 0xEDB88320 else 0x82F63B78)
      k.a32.toNat (leBytes i.size x)))) rfl h hr h0 h1 (fun t => sameData_slots t k) (fun t => by
      show (do
        let (v, d1) ← loadElem c.val i.md i.size .ok true (setCore c (slots t (pruneBlocks k)) s.dev)
        .ok (updCore c.val (fun k => k.setA (BitVec.ofNat 32 (crcBytesR (if bit i.w 0 then 0xEDB88320 else 0x82F63B78)
          k.a32.toNat (leBytes i.size v)))) d1, EltEnd.more) : StRes (Dev × EltEnd)) = _
      rw [loadElem_local t hq i.size_pos fu au]
      have a32 : (slots t (pruneBlocks k)).a32 = k.a32 := congrArg (bf · 0 32) (slots_a ..)
      refine (congrArg (fun d => Except.ok (d, EltEnd.more)) (updCore_setCore ..)).trans ?_
      rw [a32]
      rfl) (fun j hx => repeatKeys_lt i j (List.mem_append_left [i.k] hx)) (fun _ => rfl)
  exact ⟨t, act, hx, hy, hm, kb.trans ((slots_sbuf ..).trans hq),
    ⟨kc, kk, fun h => ⟨(last h).1, (last h).2.1, (last h).2.2 stC false (by decide) flag_endC, trivial⟩, more⟩, ka⟩

end

/-- Settles O50: atomics and elements of local memory, by what each leaves of its core. -/
theorem stewardAtomicsAndRepeats : Obligations.StewardAtomicsAndRepeats := by
  unfold Obligations.StewardAtomicsAndRepeats
  refine ⟨fun c ecc s i p a post => ?_, fun c s => ⟨fun h => ?_, fun g l hr hz hst => ?_, fun hr hf hz hst => ?_⟩,
    fun c n ecc eccB s i o I hI h hr h0 => ?_, fun c s i u v => ?_⟩
  · intro d k done hm ha hq wf
    have tas := exec_tas (s := s) rfl hm ha hq
    have lrw := exec_lrW (s := s) rfl hm ha hq
    have scw := exec_scW (s := s) rfl hm ha hq
    have frame := stepped_frame k p i.size post
    have completes : ∀ {I : Instr} {k' : Core} {P : Core → Prop}, exec I s = .next { s with dev := completed d c i k' } →
        k' = { stepped k p i.size post with
          a := k'.a, status := k'.status, mem := k'.mem, tags := k'.tags, resv := k'.resv, perfScf := k'.perfScf } → P k' → done I P :=
      fun act same props => ⟨_, act, same, props⟩
    clear_value done
    generalize stepped k p i.size post = k1 at completes frame tas lrw scw
    have kept : k1.mem = k.mem ∧ k1.tags = k.tags ∧ k1.resv = k.resv ∧ k1.perfScf = k.perfScf ∧ k1.a = k.a ∧ k1.status = k.status := by
      rw [frame]
      exact ⟨rfl, rfl, rfl, rfl, rfl, rfl⟩
    obtain ⟨mem, tags, resv, scf, ka, status⟩ := kept
    refine ⟨fun h => ?_, fun h => ?_, fun h => ?_⟩
    · obtain ⟨same, value, here, there, fZ, bits⟩ := testedAndSet_spec a k1 (mem ▸ wf)
      rw [mem] at value there fZ
      rw [status] at bits
      exact completes (tas h) same ⟨value, here, there, fZ, bits⟩
    · obtain ⟨same, value, fZ, bits⟩ := loadReserved_spec a k1
      have resv : (loadReserved a k1).resv = some (a / 16, 256) := by rw [same]
      have kmem : (loadReserved a k1).mem = k.mem := by rw [same, ← mem]
      have ktags : (loadReserved a k1).tags = k.tags := by rw [same, ← tags]
      rw [mem] at value fZ
      rw [status] at bits
      exact completes (lrw h ecc) (by rw [same])
        ⟨value, kmem, ktags, resv, slots_resv 1 (k := completeIns (loadReserved a k1)) resv, fZ, bits⟩
    · obtain ⟨same, bits, yes, no⟩ := storedIfReserved_spec a k1 (mem ▸ wf)
      have ka' : (storedIfReserved a k1).a = k.a := by rw [same, ← ka]
      have kresv : (storedIfReserved a k1).resv = none := by rw [same]
      have a32 : k1.a32 = k.a32 := congrArg (bf · 0 32) ka
      rw [mem, resv, a32] at yes
      rw [mem, tags, resv, scf] at no
      rw [status] at bits
      exact completes (scw h) (by rw [same]) ⟨ka', kresv, bits, yes, no⟩
  · refine next_eq s (b := s.dev) ?_
    cases hr : s.dev.cores[c].resv with
    | none => exact reservationLapse_none hr
    | some r => exact (reservationLapse_some hr).trans (stallSlots_frozen _ (h.resolve_left (by rw [hr]; exact Option.some_ne_none r)))
  · exact next_eq s ((reservationLapse_some hr).trans (stallSlots_waiting _ hz hst))
  · obtain ⟨⟨g, l⟩, hr⟩ := Option.ne_none_iff_exists'.1 hr
    refine ⟨slots l s.dev.cores[c], next_eq s ((reservationLapse_some hr).trans (stallSlots_running _ hf hz hst)), ?_, slots_a .., slots_pc ..,
      slots_mem ..⟩
    rw [slots_resv l hr, if_pos (le_refl l)]
  · have act : exec I s = .next { s with dev := setCore c (repeatEnds i (slots 1 (pruneBlocks s.dev.cores[c]))) s.dev } := by
      simp only [List.mem_cons, Prod.mk.injEq, List.not_mem_nil, or_false] at hI
      rcases hI with ⟨rfl, rfl⟩ | ⟨rfl, rfl⟩ | ⟨rfl, rfl⟩ | ⟨rfl, rfl⟩ | ⟨rfl, rfl⟩
      · exact next_eq s (repeatRow_empty h hr h0)
      · exact next_eq s (repeatRow_empty h hr h0)
      · exact next_eq s (repeatRow_empty h hr h0)
      · exact next_eq s (repeatRow_empty h hr h0)
      · exact next_eq s (repeatRow_empty h hr h0)
    exact ⟨_, act, repeatEnds_fresh i s.dev.cores[c]⟩
  · intro d k at' ok step x y A goes on ends hr hq h0 h1 hu hv
    subst hu hv
    exact ⟨fun h okU okV hw => movs_element hr hq h0 h1 h okU okV hw, fun h okV hw => fils_element hr hq h0 h1 h okV hw,
      fun h okU okV => cmps_element hr hq h0 h1 h okU okV, fun h okU => scns_element hr hq h0 h1 h okU,
      fun h okU => crcs_element hr hq h0 h1 h okU⟩

end Sys2Proof.Machine
end

section
/-!
PROOFS. Steward control flow and exceptions (R357, R361 to R364, R390, R399 to R420): branches, jumps, levels, special registers.
-/
namespace Sys2Proof.Machine

/-! ### Two-bit fields of STATUS: MASK and LVL (R332) -/

theorem bit_mergeField {lo : Nat} (h : lo + 2 ≤ 15) (v : BitVec 15) (n j : Nat) :
    bit (mergeBits (BitVec.ofNat 15 (3 * 2 ^ lo)) v (BitVec.ofNat 15 (n % 4 * 2 ^ lo))) j =
      if lo ≤ j ∧ j < lo + 2 then n.testBit (j - lo) else bit v j := by
  have field : ∀ m, bit (BitVec.ofNat 15 (m * 2 ^ lo)) j = (decide (j < 15) && (decide (lo ≤ j) && m.testBit (j - lo))) := fun m => by
    rw [bit, BitVec.getLsbD_ofNat, Nat.testBit_mul_two_pow]
  have mask : ∀ i, Nat.testBit 3 i = decide (i < 2) := Nat.testBit_two_pow_sub_one 2
  have low : ∀ i, (n % 4).testBit i = (decide (i < 2) && n.testBit i) := fun i => Nat.testBit_mod_two_pow n 2 i
  by_cases hj : j < 15
  · rw [bit_mergeBits _ _ _ hj, field, field, mask, low]
    by_cases hlo : lo ≤ j
    · by_cases hhi : j < lo + 2
      · simp [hj, hlo, hhi, show j - lo < 2 by omega]
      · simp [hj, hlo, hhi, show ¬ j - lo < 2 by omega]
    · simp [hlo]
  · rw [if_neg (by omega)]
    exact (BitVec.getLsbD_of_ge _ _ (by omega)).trans (BitVec.getLsbD_of_ge _ _ (by omega)).symm

theorem fld_mergeField {lo : Nat} (h : lo + 2 ≤ 15) (v : BitVec 15) {n : Nat} (hn : n < 4) :
    fld (mergeBits (BitVec.ofNat 15 (3 * 2 ^ lo)) v (BitVec.ofNat 15 (n % 4 * 2 ^ lo))) lo 2 = n := by
  have field : bf (mergeBits (BitVec.ofNat 15 (3 * 2 ^ lo)) v (BitVec.ofNat 15 (n % 4 * 2 ^ lo))) lo 2 = BitVec.ofNat 2 n := by
    refine eq_of_bit fun j hj => ?_
    rw [bit_bf, bit_mergeField h, if_pos (by omega), Nat.add_sub_cancel_left, bit, BitVec.getLsbD_ofNat]
  rw [← toNat_bf, field, BitVec.toNat_ofNat]
  exact Nat.mod_eq_of_lt hn

section
variable (k : Core) {n : Nat} (hn : n < 4)
include hn

theorem setLvl_spec : (k.setLvl n).lvl = n ∧ ∀ j, j ≠ 12 → j ≠ 13 → bit (k.setLvl n).status j = bit k.status j := by
  have same : (k.setLvl n).status = mergeBits (BitVec.ofNat 15 (3 * 2 ^ 12)) k.status (BitVec.ofNat 15 (n % 4 * 2 ^ 12)) := by
    rw [Nat.mod_eq_of_lt hn]
    rfl
  refine ⟨?_, fun j h2 h3 => ?_⟩
  · rw [Core.lvl, same, fld_mergeField (by decide) _ hn]
  · rw [same, bit_mergeField (by decide), if_neg (by omega)]

theorem setMask_spec : (k.setMask n).mask = n ∧ ∀ j, j ≠ 10 → j ≠ 11 → bit (k.setMask n).status j = bit k.status j := by
  have same : (k.setMask n).status = mergeBits (BitVec.ofNat 15 (3 * 2 ^ 10)) k.status (BitVec.ofNat 15 (n % 4 * 2 ^ 10)) := rfl
  refine ⟨?_, fun j h0 h1 => ?_⟩
  · rw [Core.mask, same, fld_mergeField (by decide) _ hn]
  · rw [same, bit_mergeField (by decide), if_neg (by omega)]

end

/-! ### Special registers (R364, R403) -/

theorem SaveSet.word_fields (x : SaveSet) : bf x.word 0 15 = x.status ∧ bf x.word 16 8 = x.comp ∧ bf x.word 24 5 = x.gdepth := by
  have word : ∀ j, bit x.word j = (decide (j < 32) && ((decide (24 ≤ j) && bit x.gdepth (j - 24)) ||
      ((decide (16 ≤ j) && bit x.comp (j - 16)) || bit x.status j))) := fun j => by
    simp only [SaveSet.word, pack, bit, BitVec.getLsbD_or, BitVec.getLsbD_ofNat, Nat.testBit_shiftLeft, BitVec.testBit_toNat,
      Nat.sub_zero, Nat.zero_le, decide_true, Bool.true_and, ge_iff_le]
    cases decide (j < 32) <;> simp
  have comp : ∀ j, 8 ≤ j → bit x.comp j = false := fun j hj => BitVec.getLsbD_of_ge _ _ hj
  have status : ∀ j, 15 ≤ j → bit x.status j = false := fun j hj => BitVec.getLsbD_of_ge _ _ hj
  refine ⟨eq_of_bit fun j hj => ?_, eq_of_bit fun j hj => ?_, eq_of_bit fun j hj => ?_⟩
  · rw [bit_bf, word]
    simp [hj, show j < 32 by omega, show ¬ 24 ≤ j by omega, show ¬ 16 ≤ j by omega]
  · rw [bit_bf, word, status (16 + j) (by omega)]
    simp [hj, show 16 + j < 32 by omega, show ¬ 24 ≤ 16 + j by omega]
  · rw [bit_bf, word, status (24 + j) (by omega), show 24 + j - 16 = 8 + j by omega, comp (8 + j) (by omega)]
    simp [hj, show 24 + j < 32 by omega]

section
variable (k : Core) {sp : Nat}

theorem mfsVal_spec (c : Nat) :
    (sp = 0 → mfsVal k c sp = k.status.zeroExtend 32) ∧
    (sp = 1 → mfsVal k c sp = if k.lvl = 0 then 0 else (at? k.sets (k.lvl - 1) {}).cause) ∧
    (sp = 2 → mfsVal k c sp = if k.lvl = 0 then 0 else (at? k.sets (k.lvl - 1) {}).causeAddr) ∧
    (sp = 3 → mfsVal k c sp = k.busAddr) ∧ (sp = 4 → mfsVal k c sp = BitVec.ofNat 32 c) ∧
    (sp ∈ [9, 10, 11] → mfsVal k c sp = (at? k.sets (saveLevel sp - 1) {}).spc) ∧
    (sp ∈ [13, 14, 15] → mfsVal k c sp = (at? k.sets (saveLevel sp - 1) {}).word) ∧
    (sp ∈ [16, 18, 20] → mfsVal k c sp = bf (at? k.sets (saveLevel sp - 1) {}).sa 0 32) ∧
    (sp ∈ [17, 19, 21] → mfsVal k c sp = (bf (at? k.sets (saveLevel sp - 1) {}).sa 32 8).zeroExtend 32) := by
  simp only [List.mem_cons, List.not_mem_nil, or_false]
  refine ⟨?_, ?_, ?_, ?_, ?_, ?_, ?_, ?_, ?_⟩
  · rintro rfl; rfl
  · rintro rfl; rfl
  · rintro rfl; rfl
  · rintro rfl; rfl
  · rintro rfl; rfl
  · rintro (rfl | rfl | rfl) <;> rfl
  · rintro (rfl | rfl | rfl) <;> rfl
  · rintro (rfl | rfl | rfl) <;> rfl
  · rintro (rfl | rfl | rfl) <;> rfl

/-- MTS to STATUS. -/
theorem mtsWrite_status (v : Word) : mtsWrite 0 v k = { k with status := (mtsWrite 0 v k).status } ∧
    ∀ j, bit (mtsWrite 0 v k).status j = if j < 10 then bit v j else bit k.status j := by
  refine ⟨rfl, fun j => ?_⟩
  show bit (mergeBits 0x3FF k.status (bf v 0 15)) j = _
  by_cases hj : j < 15
  · rw [bit_mergeBits _ _ _ hj, show (0x3FF : BitVec 15) = BitVec.ofNat 15 (2 ^ 10 - 1) from rfl, bit_lowMask 15 10 hj, bit_bf]
    simp [hj]
  · rw [if_neg (by omega)]
    exact (BitVec.getLsbD_of_ge _ _ (by omega)).trans (BitVec.getLsbD_of_ge _ _ (by omega)).symm

/-- What MTS makes of a save set. -/
def SaveSet.withSpecial (sys : Bool) (sp : Nat) (v : Word) (x : SaveSet) : SaveSet :=
  if sp ≤ 11 then { x with spc := v }
  else if sp ≤ 15 then
    if sys then { x with status := bf v 0 15, comp := bf v 16 8, gdepth := bf v 24 5 } else { x with status := bf v 0 15 }
  else if sp % 2 = 0 then { x with sa := bf x.sa 32 8 ++ v }
  else { x with sa := bf v 0 8 ++ bf x.sa 0 32 }

/-- MTS to a save set. -/
theorem mtsWrite_set (h : sp ≠ 0) (v : Word) : mtsWrite sp v k =
    { k with sets := upd? k.sets (saveLevel sp - 1) (SaveSet.withSpecial (k.pck.may permSYS) sp v) } := by
  rw [mtsWrite, if_neg h]
  rfl

end

theorem bf_bf {n : Nat} (v : BitVec n) {lo len : Nat} (h : lo + len ≤ 32) : bf (bf v 0 32) lo len = bf v lo len := by
  refine eq_of_bit fun j hj => ?_
  rw [bit_bf, bit_bf, bit_bf]
  simp [hj, show lo + j < 32 by omega]

/-! ### Branches and jumps (R361, R362, R368) -/

/-- Bcc looks at C, V, Z, N and CNT. -/
theorem branchTaken_congr {k k' : Core} (hC : k'.flag stC = k.flag stC) (hV : k'.flag stV = k.flag stV) (hZ : k'.flag stZ = k.flag stZ)
    (hN : k'.flag stN = k.flag stN) (hc : k'.cnt = k.cnt) (cond : Nat) : branchTaken k' cond = branchTaken k cond := by
  simp only [branchTaken, hC, hV, hZ, hN, hc]

theorem branchTaken_slots (n cond : Nat) (k : Core) : branchTaken (slots n (pruneBlocks k)) cond = branchTaken k cond :=
  branchTaken_congr (slots_flag _ _ (by decide)) (slots_flag _ _ (by decide)) (slots_flag _ _ (by decide)) (slots_flag _ _ (by decide))
    (slots_cnt ..) cond

theorem two_le_count (v : Word) : (v != 0 && v != 1) = decide (2 ≤ v.toNat) := by
  rw [Bool.eq_iff_iff, Bool.and_eq_true, bne_iff_ne, bne_iff_ne, decide_eq_true_eq, ne_eq, ne_eq, BitVec.toNat_eq, BitVec.toNat_eq]
  simp only [BitVec.ofNat_eq_ofNat, BitVec.toNat_ofNat, Nat.reducePow, Nat.reduceMod]
  omega

/-- A core on which a Bcc has gone on. -/
def branched (taken : Bool) (i : Ins) (k : Core) : Core :=
  { k with pc := if taken then i.next + i.d16 else i.next, cnt := if fld i.w 6 4 = 15 ∧ k.cnt ≠ 0 then k.cnt - 1 else k.cnt }

theorem branched_eq (i : Ins) (k : Core) :
    ({ (if fld i.w 6 4 = 15 ∧ k.cnt ≠ 0 then { k with cnt := k.cnt - 1 } else k) with
      pc := if branchTaken k (fld i.w 6 4) then i.next + i.d16 else i.next } : Core) = branched (branchTaken k (fld i.w 6 4)) i k := by
  by_cases hc : fld i.w 6 4 = 15 ∧ k.cnt ≠ 0
  · simp only [branched, if_pos hc]
  · simp only [branched, if_neg hc]

section
variable {c : Fin 4} {s : State} {i : Ins}

theorem exec_bcc (h : Ready s.dev c .bcc i) {n : Nat}
    (hn : n = if branchTaken s.dev.cores[c] (fld i.w 6 4) = i.expectTaken then 1 else 3) :
    exec (.bcc c) s = .next { s with
      dev := jumped (lastSlot s.dev c n) c (branched (branchTaken s.dev.cores[c] (fld i.w 6 4)) i (lastSlot s.dev c n).cores[c]) } := by
  subst hn
  refine jump_completes (fun i k => if branchTaken k (fld i.w 6 4) = i.expectTaken then 1 else 3) h
    ((congrArg Except.ok (updCore_eq_setCore ..)).trans (congrArg (fun k => Except.ok (setCore c k _)) ?_))
  have taken : branchTaken (lastSlot s.dev c (if branchTaken s.dev.cores[c] (fld i.w 6 4) = i.expectTaken then 1 else 3)).cores[c]
      (fld i.w 6 4) = branchTaken s.dev.cores[c] (fld i.w 6 4) := by
    rw [lastSlot_core, branchTaken_slots]
  exact (branched_eq i _).trans (congrArg (branched · i _) taken)

end

section
variable {c : Fin 4} {i : Ins} {t : Word} {d d1 : Dev} {ecc : Ecc}

theorem jumpTarget_reads (call : Bool)
    (h : (i.md = 0 ∧ t = i.next + i.d16 ∧ d1 = d) ∨ (i.md ≠ 0 ∧ readOp c.val i false ecc d = .ok (t, d1))) :
    jumpTarget c.val i call ecc d = .ok (t, d1) := by
  rcases h with ⟨h0, rfl, rfl⟩ | ⟨h0, h⟩
  · rw [jumpTarget, if_pos h0]
  · rw [jumpTarget, if_neg h0, h]

/-- A call whose operand fails names the stack where it went through K7. -/
theorem jumpTarget_fails {f : StFault} (h0 : i.md ≠ 0) (h : readOp c.val i false ecc d = .error f) : jumpTarget c.val i true ecc d =
    .error ({ f with code := if i.md ≠ 7 ∧ i.k = 7 ∧ 1 ≤ f.code ∧ f.code ≤ 5 then 0x0A else f.code }) := by
  have cond : (true && i.md != 7 && i.k == 7 && decide (1 ≤ f.code) && decide (f.code ≤ 5)) = true ↔
      i.md ≠ 7 ∧ i.k = 7 ∧ 1 ≤ f.code ∧ f.code ≤ 5 := by
    simp [and_assoc]
  rw [jumpTarget, if_neg h0, h]
  refine congrArg Except.error ?_
  by_cases hc : i.md ≠ 7 ∧ i.k = 7 ∧ 1 ≤ f.code ∧ f.code ≤ 5
  · rw [if_pos (cond.2 hc), if_pos hc]
  · rw [if_neg fun h => hc (cond.1 h), if_neg hc]

theorem jumpTo_passes (h : fetchFault d c.val t.toNat = none) : jumpTo c.val t d = .ok (setCore c { d.cores[c] with pc := t } d) := by
  simp only [jumpTo, h, updCore_eq_setCore]

theorem jumpTo_fails {f : StFault} (h : fetchFault d c.val t.toNat = some f) :
    jumpTo c.val t d = .error { f with addr := some ((d.cores[c].pck.base + t.toNat) % 2 ^ 32) } := by
  simp only [jumpTo, h, core_fin]

end

end Sys2Proof.Machine
end

section
/-!
PROOFS. Levels of a Steward core (R390, R399 to R420): requests and counts that become due, entry, RTE, and the obligation on control.
-/
namespace Sys2Proof.Machine

/-! ### Entry to a level and faults (R401, R413, R416) -/

/-- Landing multiplies change the accumulator, S and the multiplies in flight alone. -/
theorem landAll_frame (k : Core) : landAll k = { k with
    mpg := (landAll k).mpg, mph := (landAll k).mph, mpl := (landAll k).mpl, status := (landAll k).status, muls := [] } := by
  have frame := foldl_land_frame k.muls k
  unfold landAll
  generalize k.muls.foldl land k = t at frame
  rw [frame]

/-- The save set that entry to level `n` fills. -/
def savedSet (n code detail source addr : Nat) (pc : Word) (k : Core) : SaveSet :=
  { spc := pc, spk := k.pck, sa := k.a, status := (landAll k).status, comp := k.comp, gdepth := BitVec.ofNat 5 k.gates.length
    cause := causeWord source detail code n, causeAddr := BitVec.ofNat 32 addr }

/-- A core at its vector, before the slots of the entry. -/
def entered (n : Fin 3) (x : SaveSet) (k : Core) : Core :=
  { Core.setFlag stRP false (Core.setLvl (n.val + 1) { landAll k with resv := none, sets := put k.sets n x }) with
    comp := k.vcomp, pck := k.vkey.unsealed, pc := BitVec.ofNat 32 k.vkey.cursor }

theorem entered_frame (n : Fin 3) (x : SaveSet) (k : Core) : entered n x k = { landAll k with
    resv := none, sets := put k.sets n x, status := (entered n x k).status, comp := k.vcomp, pck := k.vkey.unsealed
    pc := BitVec.ofNat 32 k.vkey.cursor } := by
  simp only [entered, Core.setFlag, Core.setLvl]

theorem entered_status (n : Fin 3) (x : SaveSet) (k : Core) : (entered n x k).lvl = n.val + 1 ∧ (entered n x k).flag stRP = false ∧
    ∀ j, j ∉ [12, 13, 14] → bit (entered n x k).status j = bit (landAll k).status j := by
  obtain ⟨lvl, bits⟩ := setLvl_spec { landAll k with resv := none, sets := put k.sets n x } (n := n.val + 1) (by omega)
  have flag : ∀ j, bit (entered n x k).status j = if stRP = j then false else
      bit (Core.setLvl (n.val + 1) { landAll k with resv := none, sets := put k.sets n x }).status j := bit_setFlag (by decide) _ _
  refine ⟨?_, (flag stRP).trans (if_pos rfl), fun j hj => ?_⟩
  · refine Eq.trans ?_ lvl
    rw [Core.lvl, Core.lvl, ← toNat_bf, ← toNat_bf]
    refine congrArg BitVec.toNat (eq_of_bit fun j hj => ?_)
    rw [bit_bf, bit_bf, flag, if_neg (by simp only [stRP]; omega)]
  · simp only [List.mem_cons, List.not_mem_nil, or_false, not_or] at hj
    rw [flag, if_neg fun h => hj.2.2 h.symm, bits j hj.1 hj.2.1]

section
variable {c : Fin 4} {d : Dev} (code detail source addr : Nat) (pc : Word)

/-- Entry through a usable VKEY. -/
theorem enterLevel_usable (n : Fin 3) (ht : d.cores[c].vkey.tag = true) (hs : d.cores[c].vkey.sealed = true)
    (hx : d.cores[c].vkey.may permX = true) : enterLevel c.val (n.val + 1) code detail source addr pc d =
      setCore c (slots 6 (entered n (savedSet (n.val + 1) code detail source addr pc d.cores[c]) d.cores[c])) d := by
  have frame := landAll_frame d.cores[c]
  have vkey : (landAll d.cores[c]).vkey = d.cores[c].vkey := by rw [frame]
  have vcomp : (landAll d.cores[c]).vcomp = d.cores[c].vcomp := by rw [frame]
  have saved : upd? (landAll d.cores[c]).sets (n.val + 1 - 1) (fun _ =>
      ({ spc := pc, spk := (landAll d.cores[c]).pck, sa := (landAll d.cores[c]).a, status := (landAll d.cores[c]).status
         comp := (landAll d.cores[c]).comp, gdepth := BitVec.ofNat 5 (landAll d.cores[c]).gates.length
         cause := causeWord source detail code (n.val + 1), causeAddr := BitVec.ofNat 32 addr } : SaveSet)) =
      put d.cores[c].sets n (savedSet (n.val + 1) code detail source addr pc d.cores[c]) := by
    rw [Nat.add_sub_cancel, upd?_fin, savedSet, frame]
  simp only [enterLevel, enterVector, updCore_eq_setCore, setCore_core, setCore_setCore, core_setCore, Core.gdepth, saved, Core.setFlag,
    Core.setLvl, vkey, vcomp, ht, hs, hx, Bool.not_true, Bool.false_eq_true, if_false, ne_eq, not_true_eq_false, entered]

theorem raiseFault_open (h : inSealed d c.val = false) : raiseFault c.val code detail source addr pc d =
    if d.cores[c].lvl = 3 then freezeCore c.val 0x3F code detail addr d else enterLevel c.val 3 code detail source addr pc d := by
  simp only [raiseFault, h, core_fin, Bool.false_eq_true, if_false]

/-- A core whose sealed call was aborted. -/
def aborted (k7 pck : Key) (comp : Byte) (r : List GateEnt) (k : Core) : Core :=
  slots 8 { landAll k with
    k := (Vector.replicate 8 ({} : Key)).set 7 k7, a := 0, x := 0, y := 0, cnt := 0, mpg := 0, mph := 0, mpl := 0
    status := (landAll k).status &&& 0x7FE0, pck := pck, comp := comp, gates := r, abort := true, resv := none }

theorem raiseFault_sealed (h : inSealed d c.val = true) {g : GateEnt} {r : List GateEnt} {k7 pck : Key} {ret : Word} {comp : Byte}
    (hg : d.cores[c].gates = r ++ [g]) (hf : readFrame d c.val g.frame = (k7, pck, ret, comp)) :
    raiseFault c.val code detail source addr pc d =
      if d.cores[c].lvl = 3 then freezeCore c.val 0x3F code detail addr (setCore c (aborted k7 pck comp r d.cores[c]) d)
      else enterLevel c.val 3 code detail source 0 ret (setCore c (aborted k7 pck comp r d.cores[c]) d) := by
  have gates : (landAll d.cores[c]).gates = r ++ [g] := by rw [landAll_frame, hg]
  have abort : abortSealed c.val d = (setCore c (aborted k7 pck comp r d.cores[c]) d, ret) := by
    simp only [abortSealed, core_fin, gates, List.getLast?_concat, hf, updCore_eq_setCore, List.dropLast_concat, aborted]
  simp only [raiseFault, h, core_fin, abort, if_true]

end

/-! ### Requests (R399 to R402) -/

section
variable {c : Fin 4} {d : Dev}

theorem exceptionEntry_idle (h : asyncRequest d c.val = none) : exceptionEntry c.val d = d := by
  simp only [exceptionEntry, h, ite_self]

/-- A core whose request with `code` is taken. -/
def Core.taking (code : Nat) (k : Core) : Core :=
  if code = 0x20 then { k with st := .running, busPend := false, busMore := 0 }
  else if code = 0x32 then { k with st := .running, tickPend := false, tickActive := true, tickCount := true, tbudcnt := 0 }
  else { k with st := .running }

theorem exceptionEntry_takes {l code det source addr : Nat} (h : asyncRequest d c.val = some (l, code, det, source, addr))
    (hz : d.cores[c].frozen = false) (hst : d.cores[c].st = .running ∨ d.cores[c].st = .waiting) (hd : d.cores[c].dueFault = none) :
    exceptionEntry c.val d =
      enterLevel c.val l code det source addr d.cores[c].pc (setCore c (Core.taking code d.cores[c]) d) := by
  have free : ¬ (d.cores[c].frozen = true ∨ ¬ (d.cores[c].st = .running ∨ d.cores[c].st = .waiting) ∨ d.cores[c].dueFault.isSome = true) := by
    rw [hz, hd]
    simp only [Bool.false_eq_true, Option.isSome_none, or_false, false_or, not_not]
    exact hst
  simp only [exceptionEntry, core_fin, h, updCore_eq_setCore, if_neg free]
  rfl

theorem mayTake_of (hf : d.sys.fclkOn = true) (hw : d.sys.wEnd = none) : mayTake d = true := by
  simp only [mayTake, hf, hw, Option.isNone_none, Bool.and_self]

/-! ### The fault 0x0C (R397, R420) -/

theorem dueFault_tick {k : Core} (ha : k.tickActive = true) (hc : k.tickCount = true) (hb : k.tbudget ≠ 0)
    (hl : k.tbudget.toNat ≤ k.tbudcnt.toNat) : k.dueFault = some 0 := by
  simp only [Core.dueFault, ha, hc, bne_iff_ne.2 hb, decide_eq_true hl, Bool.and_self, if_true]

theorem dueFault_gate {k : Core} (ha : k.tickActive = false) (hg : ∃ g ∈ k.gates, g.limited = true ∧ g.left = 0) : k.dueFault = some 1 := by
  have spent : (k.gates.any fun g => g.limited && g.left == 0) = true := by
    simpa using hg
  simp only [Core.dueFault, ha, spent, Bool.false_and, Bool.false_eq_true, if_false, if_true]

/-- The count whose fault 0x0C with detail `det` is raised stops. -/
def Core.countStops (det : Nat) (k : Core) : Core :=
  if det = 0 then { k with tickCount := false, tbudmax := if k.tbudmax.toNat < k.tbudcnt.toNat then k.tbudcnt else k.tbudmax }
  else { k with gates := k.gates.map fun g => if g.limited && g.left == 0 then { g with limited := false } else g }

theorem raiseDue_some {det : Nat} (h : d.cores[c].dueFault = some det) (hst : d.cores[c].st = .running ∨ d.cores[c].st = .waiting) :
    raiseDue c.val d = raiseFault c.val 0x0C det d.cores[c].gates.length d.cores[c].pc.toNat d.cores[c].pc
      (setCore c (Core.countStops det { d.cores[c] with st := .running }) d) := by
  have runs : (if d.cores[c].st = .waiting then CoreSt.running else d.cores[c].st) = .running := by
    rcases hst with h | h <;> rw [h] <;> rfl
  simp only [raiseDue, core_fin, h, updCore_eq_setCore, runs]
  rfl

/-- What is left, of the count whose fault 0x0C has detail `det`. -/
def dueLeft (det : Nat) (k : Core) : Option Nat :=
  if det = 0 then (if k.tickActive && k.tickCount && k.tbudget != 0 then some (k.tbudget.toNat - k.tbudcnt.toNat) else none)
  else (k.gates.filter (·.limited)).foldl (fun m g => some (match m with | some x => min x g.left.toNat | none => g.left.toNat)) none

theorem dueRow_none {det : Nat} (h : dueLeft det d.cores[c] = none) : dueRow c.val det d = d := by
  unfold dueRow
  rw [core_fin]
  dsimp only
  split
  · rfl
  · change (match dueLeft det d.cores[c] with | none => d | some n => _) = d
    rw [h]

theorem dueRow_now {det : Nat} (hf : d.sys.fclkOn = true) (hw : d.sys.wEnd = none) (hz : d.cores[c].frozen = false)
    (hst : d.cores[c].st = .running ∨ d.cores[c].st = .waiting) (hl : dueLeft det d.cores[c] = some 0)
    (hd : d.cores[c].dueFault = some det) : dueRow c.val det d = raiseDue c.val d := by
  have free : (!mayTake d || d.cores[c].frozen || !(d.cores[c].st == .running || d.cores[c].st == .waiting)) = false := by
    rw [mayTake_of hf hw, hz]
    rcases hst with h | h <;> rw [h] <;> rfl
  unfold dueRow
  rw [core_fin]
  dsimp only
  rw [free]
  change (match dueLeft det d.cores[c] with | none => d | some n => _) = _
  rw [hl]
  change (if 0 ≠ 0 ∧ d.cores[c].st = .running then d
    else if (core (pass 0 d) c.val).dueFault = some det then raiseDue c.val (pass 0 d) else d) = _
  rw [if_neg (fun h => h.1 rfl), pass_zero, core_fin, if_pos hd]

theorem dueRow_running {det : Nat} (hst : d.cores[c].st = .running) (hd : d.cores[c].dueFault = none) : dueRow c.val det d = d := by
  unfold dueRow
  rw [core_fin]
  dsimp only
  split
  · rfl
  · split
    · rfl
    next n _ =>
      split
      · rfl
      next h =>
        have now : n = 0 := by
          by_contra hn
          exact h ⟨hn, hst⟩
        rw [now, pass_zero, core_fin, hd]
        rfl

theorem dueLeft_tick {k : Core} (ha : k.tickActive = true) (hc : k.tickCount = true) (hb : k.tbudget ≠ 0)
    (hl : k.tbudget.toNat ≤ k.tbudcnt.toNat) : dueLeft 0 k = some 0 := by
  simp only [dueLeft, ha, hc, bne_iff_ne.2 hb, Nat.sub_eq_zero_of_le hl, Bool.and_self, if_true]

/-- The least of the counts left, once one of them is 0. -/
theorem dueLeft_gate {k : Core} (hg : ∃ g ∈ k.gates, g.limited = true ∧ g.left = 0) : dueLeft 1 k = some 0 := by
  obtain ⟨g, hg, hlim, hleft⟩ := hg
  have least : ∀ (l : List GateEnt) (m : Option Nat), m = some 0 ∨ g ∈ l →
      l.foldl (fun m g => some (match m with | some x => min x g.left.toNat | none => g.left.toNat)) m = some 0 := by
    intro l
    induction l with
    | nil => exact fun m h => h.resolve_right (by simp)
    | cons x l ih =>
      intro m h
      refine ih _ ?_
      rcases h with rfl | h
      · exact .inl (congrArg some (Nat.zero_min _))
      · rcases List.mem_cons.1 h with rfl | h
        · left
          cases m with
          | none => exact congrArg (fun w : Word => some w.toNat) hleft
          | some x => exact (congrArg (fun w : Word => some (min x w.toNat)) hleft).trans (congrArg some (Nat.min_zero x))
        · exact .inr h
  exact least _ none (.inr (List.mem_filter.2 ⟨hg, hlim⟩))

theorem dueLeft_unlimited {k : Core} (h : ∀ g ∈ k.gates, g.limited = false) : dueLeft 1 k = none := by
  have none : k.gates.filter (·.limited) = [] := List.filter_eq_nil_iff.2 fun g hg => by simp [h g hg]
  simp only [dueLeft, none, List.foldl_nil, Nat.one_ne_zero, if_false]

/-! ### RTE (R405) -/

section
variable {i : Ins} {x : SaveSet} (hx : x = at? d.cores[c].sets (d.cores[c].lvl - 1) {})
include hx

theorem rteBody_sealed (h : sealedComp d c.val x.comp = true) :
    rteBody c.val i d = .error { code := 0x03, detail := 3, source := none, addr := none } := by
  subst hx
  simp only [rteBody, core_fin, h, if_true]

theorem rteBody_depth (h : sealedComp d c.val x.comp = false) (hg : x.gdepth.toNat ≠ d.cores[c].gates.length) :
    rteBody c.val i d = .error { code := 0x0B, detail := 0x80, addr := some (d.cores[c].pck.base + i.pc.toNat) } := by
  subst hx
  simp only [rteBody, core_fin, h, Bool.false_eq_true, if_false, Core.gdepth, ne_eq, hg, not_false_eq_true, if_true]

theorem rteBody_leaves (h : sealedComp d c.val x.comp = false) (hg : x.gdepth.toNat = d.cores[c].gates.length) :
    rteBody c.val i d = .ok (setCore c { d.cores[c] with
      status := x.status, comp := x.comp, pc := x.spc, pck := x.spk, a := x.sa, abort := d.cores[c].abort && d.cores[c].lvl != 3 } d) := by
  have abort : (if d.cores[c].lvl = 3 then false else d.cores[c].abort) = (d.cores[c].abort && d.cores[c].lvl != 3) := by
    by_cases h3 : d.cores[c].lvl = 3
    · rw [if_pos h3, h3, bne_self_eq_false, Bool.and_false]
    · rw [if_neg h3, bne_iff_ne.2 h3, Bool.and_true]
  subst hx
  simp only [rteBody, core_fin, h, Bool.false_eq_true, if_false, Core.gdepth, ne_eq, hg, not_true_eq_false, updCore_eq_setCore, abort]

end

end

section
variable {c : Fin 4} {s : State} {i : Ins} (h : Ready s.dev c .rte i)
include h

theorem exec_rte_fails {f : StFault} (hb : rteBody c.val i (lastSlot s.dev c 6) = .error f) :
    exec (.rte c) s = .next { s with dev := raiseIns c.val f i.pc (failing s.dev c 6) } := by
  refine next_eq s ((withIns_ready h _).trans ?_)
  simp only [updCore_setCore]
  have body : rteBody c.val i (setCore c (slots 5 (pruneBlocks s.dev.cores[c])) s.dev) = .error f := hb
  rw [body]
  rfl

/-- RTE that leaves its level: a tick budget that ends in it is due at once. -/
theorem exec_rte_leaves {k1 : Core} (hb : rteBody c.val i (lastSlot s.dev c 6) = .ok (setCore c k1 s.dev)) :
    exec (.rte c) s = .next { s with dev :=
      (let k2 := leaveTick (slots 1 { k1 with perfIns := k1.perfIns + 1 });
      if (lastSlot s.dev c 6).cores[c].dueFault = some 0 ∧ (!k2.tickActive) = true then
        raiseFault c.val 0x0C 0 k2.gates.length k2.pc.toNat k2.pc (setCore c k2 s.dev) else setCore c k2 s.dev) } := by
  refine next_eq s ((withIns_ready h _).trans ?_)
  have body : rteBody c.val i (setCore c (slots 5 (pruneBlocks s.dev.cores[c])) s.dev) = .ok (setCore c k1 s.dev) := hb
  simp only [updCore_setCore, body, core_setCore, lastSlot_core]
  rfl

end

end Sys2Proof.Machine
end

section
/-!
PROOFS. The obligation on control, levels and special registers (R357, R361 to R364, R390, R399 to R420).
-/
namespace Sys2Proof.Machine

/-- The save set that MTS of A leaves. -/
theorem mtsSet_spec (sys : Bool) (sets : Vector SaveSet 3) (a : BitVec 40) (sp : Nat) :
    let x := at? sets (saveLevel sp - 1) {}
    let y := at? (upd? sets (saveLevel sp - 1) (SaveSet.withSpecial sys sp (bf a 0 32))) (saveLevel sp - 1) {}
    (sp ∈ [9, 10, 11] → y = { x with spc := bf a 0 32 }) ∧ (sp ∈ [16, 18, 20] → y = { x with sa := bf x.sa 32 8 ++ bf a 0 32 }) ∧
    (sp ∈ [17, 19, 21] → y = { x with sa := bf a 0 8 ++ bf x.sa 0 32 }) ∧
    (sp ∈ [13, 14, 15] → sys = false → y = { x with status := bf a 0 15 }) ∧
    (sp ∈ [13, 14, 15] → sys = true → y = { x with status := bf a 0 15, comp := bf a 16 8, gdepth := bf a 24 5 }) := by
  intro x y
  have written : saveLevel sp - 1 < 3 → y = SaveSet.withSpecial sys sp (bf a 0 32) x := fun h =>
    (at?_upd? ..).trans (if_pos ⟨rfl, h⟩)
  clear_value x y
  simp only [List.mem_cons, List.not_mem_nil, or_false]
  rw [← bf_bf a (show 0 + 8 ≤ 32 by decide), ← bf_bf a (show 0 + 15 ≤ 32 by decide), ← bf_bf a (show 16 + 8 ≤ 32 by decide),
    ← bf_bf a (show 24 + 5 ≤ 32 by decide)]
  refine ⟨?_, ?_, ?_, ?_, ?_⟩
  · rintro (rfl | rfl | rfl) <;> exact written (by decide)
  · rintro (rfl | rfl | rfl) <;> exact written (by decide)
  · rintro (rfl | rfl | rfl) <;> exact written (by decide)
  · rintro (rfl | rfl | rfl) rfl <;> exact written (by decide)
  · rintro (rfl | rfl | rfl) rfl <;> exact written (by decide)

section
variable {c : Fin 4} {s : State} {i : Ins}

/-- SIGNAL with nothing buffered. -/
theorem exec_signal (h : Ready s.dev c .signal i) (hq : (lastSlot s.dev c 1).cores[c].sbuf = []) :
    exec (.signal c) s = .next { s with
      dev := completed (raiseNext (0x400 + 32 * c.val + fld i.w 0 5) (lastSlot s.dev c 1)) c i (lastSlot s.dev c 1).cores[c] } := by
  refine row_completes (fun _ _ => 1) (body := fun i d => .ok (raiseNext (0x400 + 32 * c.val + fld i.w 0 5) (drainAll c.val d))) h ?_
  have cores : (raiseNext (0x400 + 32 * c.val + fld i.w 0 5) (lastSlot s.dev c 1)).cores = (lastSlot s.dev c 1).cores := by
    have frame : raiseIn 1 (0x400 + 32 * c.val + fld i.w 0 5) (lastSlot s.dev c 1) = _ := raiseIn_frame ..
    rw [raiseNext, frame]
  rw [drainAll_empty hq, ← cores, setCore_self]

/-- MASK within what the core may set. -/
theorem exec_mask (h : Ready s.dev c .mask i) (hm : fld i.w 0 2 ≤ (lastSlot s.dev c 1).cores[c].mask ∨
    fld i.w 0 2 ≤ (lastSlot s.dev c 1).cores[c].mgrant.toNat ∨ (lastSlot s.dev c 1).cores[c].pck.may permSYS = true) :
    exec (.mask c) s = .next { s with
      dev := completed (lastSlot s.dev c 1) c i (Core.setMask (fld i.w 0 2) (lastSlot s.dev c 1).cores[c]) } := by
  refine row_completes (fun _ _ => 1) (body := fun i d =>
    if (core d c.val).mask < fld i.w 0 2 ∧ (core d c.val).mgrant.toNat < fld i.w 0 2 ∧ (!(core d c.val).pck.may permSYS) = true then
      .error { code := 0x07, addr := some ((core d c.val).pck.base + i.pc.toNat) }
    else .ok (updCore c.val (Core.setMask (fld i.w 0 2)) d)) h ?_
  rw [core_fin, if_neg, updCore_eq_setCore]
  rintro ⟨h1, h2, h3⟩
  rw [Bool.not_eq_true'] at h3
  rcases hm with hm | hm | hm
  · omega
  · omega
  · exact Bool.false_ne_true (h3.symm.trans hm)

theorem exec_mask_fails (h : Ready s.dev c .mask i) (h1 : (lastSlot s.dev c 1).cores[c].mask < fld i.w 0 2)
    (h2 : (lastSlot s.dev c 1).cores[c].mgrant.toNat < fld i.w 0 2) (h3 : (lastSlot s.dev c 1).cores[c].pck.may permSYS = false) :
    exec (.mask c) s = .next { s with
      dev := raiseFault c.val 0x07 0 0 ((lastSlot s.dev c 1).cores[c].pck.base + i.pc.toNat) i.pc (failing s.dev c 1) } := by
  refine row_fails (fun _ _ => 1) (f := { code := 0x07, addr := some ((lastSlot s.dev c 1).cores[c].pck.base + i.pc.toNat) }) (body := fun i d =>
    if (core d c.val).mask < fld i.w 0 2 ∧ (core d c.val).mgrant.toNat < fld i.w 0 2 ∧ (!(core d c.val).pck.may permSYS) = true then
      .error { code := 0x07, addr := some ((core d c.val).pck.base + i.pc.toNat) }
    else .ok (updCore c.val (Core.setMask (fld i.w 0 2)) d)) h ?_
  rw [core_fin, if_pos ⟨h1, h2, by rw [h3]; rfl⟩]

end

/-- Settles O51: each instruction by its row, entry to a level by the save set that it fills. -/
theorem stewardControlAndExceptions : Obligations.StewardControlAndExceptions := by
  unfold Obligations.StewardControlAndExceptions
  refine ⟨fun c s i => ?_, fun c ecc s i t d0 d1 => ?_, fun c s i => ?_, fun c s i x => ?_, fun c s i => ?_, fun c s => ?_, fun c s => ?_,
    fun c n code det source addr pc d => ?_⟩
  · intro k cond z n cf v taken d h
    have ht : branchTaken k cond = taken := by
      unfold branchTaken
      simp only [two_le_count]
      rfl
    refine (exec_bcc h (n := if taken = (cond == 0 || cond == 15 || bit i.ext 15) then 1 else 3) (by rw [ht]; rfl)).trans (next_eq s ?_)
    rw [ht, branched]
    have cnt : d.cores[c].cnt = k.cnt := by
      rw [lastSlot_core, slots_cnt]
      rfl
    rw [cnt]
  · intro k target goes m n
    refine ⟨fun h ht => ⟨fun hf => ?_, fun f hf => ?_⟩, fun h hp ht hf => ?_, fun f h hp h0 hr => ?_, fun h hp hf => ?_⟩
    · refine jump_completes (fun i k => jumpSlots c.val k i) h (t := d1) (body := fun i d => do
        let (t, d1) ← jumpTarget c.val i false ecc d
        jumpTo c.val t d1) ?_
      exact (congrArg (fun r => r.bind fun (t, d1) => jumpTo c.val t d1) (jumpTarget_reads false ht)).trans (jumpTo_passes hf)
    · refine jump_fails (fun i k => jumpSlots c.val k i) h (body := fun i d => do
        let (t, d1) ← jumpTarget c.val i false ecc d
        jumpTo c.val t d1) ?_
      exact (congrArg (fun r => r.bind fun (t, d1) => jumpTo c.val t d1) (jumpTarget_reads false ht)).trans (jumpTo_fails hf)
    · refine jump_completes (fun i k => 1 + jumpSlots c.val k i + pushExtra c.val k) h (t := d1) (body := fun i d => do
        let d0 ← pushWord c.val i.next d
        let (t, d1) ← jumpTarget c.val i true ecc d0
        jumpTo c.val t d1) ?_
      refine (congrArg (fun r => r.bind fun d0 => (jumpTarget c.val i true ecc d0).bind fun (t, d1) => jumpTo c.val t d1) hp).trans ?_
      exact (congrArg (fun r => r.bind fun (t, d1) => jumpTo c.val t d1) (jumpTarget_reads true ht)).trans (jumpTo_passes hf)
    · refine jump_fails (fun i k => 1 + jumpSlots c.val k i + pushExtra c.val k) h (body := fun i d => do
        let d0 ← pushWord c.val i.next d
        let (t, d1) ← jumpTarget c.val i true ecc d0
        jumpTo c.val t d1) ?_
      refine (congrArg (fun r => r.bind fun d0 => (jumpTarget c.val i true ecc d0).bind fun (t, d1) => jumpTo c.val t d1) hp).trans ?_
      exact congrArg (fun r => r.bind fun (t, d1) => jumpTo c.val t d1) (jumpTarget_fails h0 hr)
    · refine jump_completes (fun _ k => 4 + popExtra c.val k) h (t := d1) (body := fun _ d => do
        let (t, d1) ← popWord c.val ecc d
        jumpTo c.val t d1) ?_
      exact (congrArg (fun r => r.bind fun (t, d1) => jumpTo c.val t d1) hp).trans (jumpTo_passes hf)
  · intro k n a h
    have level : (pruneBlocks k).lvl = k.lvl ∧ (pruneBlocks k).mask = k.mask := ⟨rfl, rfl⟩
    obtain ⟨hl, hm⟩ := level
    refine ⟨fun h0 h1 => next_eq s ((withIns_ready h _).trans ?_), fun hne => next_eq s ((withIns_ready h _).trans ?_)⟩
    · simp only [core_setCore, updCore_setCore]
      exact if_pos ⟨hl.trans h0, hm.trans h1⟩
    · simp only [core_setCore, updCore_setCore]
      exact if_neg fun ⟨h0, h1⟩ => hne.elim (fun h => h (hl.symm.trans h0)) fun h => h (hm.symm.trans h1)
  · intro d k k2 t h hx
    refine ⟨fun hs => exec_rte_fails h (rteBody_sealed hx hs), fun hs => ⟨fun hg hd => ?_, fun hg hd ht => ?_, fun hg => ?_⟩⟩
    · refine (exec_rte_leaves h ((rteBody_leaves hx hs hg).trans
        (congrArg Except.ok (setCore_setCore c (slots 5 (pruneBlocks s.dev.cores[c])) _ s.dev)))).trans (next_eq s ?_)
      exact if_neg fun ⟨h1, h2⟩ => hd.elim (fun h => h h1) fun h => by
        rw [Bool.not_eq_true'] at h2
        exact Bool.false_ne_true (h2.symm.trans h)
    · refine (exec_rte_leaves h ((rteBody_leaves hx hs hg).trans
        (congrArg Except.ok (setCore_setCore c (slots 5 (pruneBlocks s.dev.cores[c])) _ s.dev)))).trans (next_eq s ?_)
      exact if_pos ⟨hd, by rw [Bool.not_eq_true']; exact ht⟩
    · exact exec_rte_fails h (rteBody_depth hx hs hg)
  · intro d k goes sp set own
    refine ⟨fun h => plain_completes h _, exec_signal, fun h => ⟨fun hm => ?_, fun h1 h2 h3 => exec_mask_fails h h1 h2 h3⟩, fun h => ?_,
      fun h => ?_⟩
    · obtain ⟨value, bits⟩ := setMask_spec k (n := fld i.w 0 2) (Nat.mod_lt _ (by decide))
      exact ⟨_, exec_mask h hm, rfl, value, bits⟩
    · obtain ⟨v0, v1, v2, v3, v4, v5, v6, v7, v8⟩ := mfsVal_spec k (sp := sp) c.val
      refine ⟨mfsVal k c.val sp, row_completes (fun _ _ => 1) h (congrArg Except.ok (updCore_eq_setCore ..)), v0, v1, v2, v3, fun h => ?_, v5,
        fun h => ?_, v7, v8⟩
      · rw [v4 h, BitVec.toNat_ofNat]
        exact Nat.mod_eq_of_lt (by omega)
      · rw [v6 h]
        exact SaveSet.word_fields set
    · have act : exec (.mts c) s = .next (goes (mtsWrite sp k.a32 k)) :=
        row_completes (fun _ _ => 1) h (congrArg Except.ok (updCore_eq_setCore ..))
      by_cases h0 : sp = 0
      · obtain ⟨frame, bits⟩ := mtsWrite_status k k.a32
        rw [h0] at act ⊢
        refine ⟨_, act, ?_, fun _ => ⟨by rw [frame], fun j => ?_⟩, fun h => absurd rfl h⟩
        · rw [frame]
        · rw [bits]
          by_cases hj : j < 10
          · rw [if_pos hj, if_pos hj, Core.a32, bit_bf, Nat.zero_add, decide_eq_true (show j < 32 by omega), Bool.true_and]
          · rw [if_neg hj, if_neg hj]
      · rw [mtsWrite_set k h0] at act
        refine ⟨_, act, rfl, fun h => absurd h h0, fun _ => ⟨rfl, fun n hn => ?_, mtsSet_spec _ k.sets k.a sp⟩⟩
        exact (getElem_upd? ..).trans (if_neg fun h => hn h.symm)
  · intro k
    refine ⟨fun h => next_eq s ?_, fun l code det source addr h hf hw hz hst hd => ?_⟩
    · show (if mayTake s.dev = true then exceptionEntry c.val s.dev else s.dev) = s.dev
      rw [exceptionEntry_idle h, ite_self]
    · refine ⟨Core.taking code k, next_eq s ?_, fun h => ?_, fun h => ?_, fun h1 h2 => ?_⟩
      · exact (if_pos (mayTake_of hf hw)).trans (exceptionEntry_takes h hz hst hd)
      · rw [Core.taking, if_pos h]
      · rw [Core.taking, h]
        rfl
      · rw [Core.taking, if_neg h1, if_neg h2]
  · intro k due hf hw hz hst
    refine ⟨fun ha hc hb hl => next_eq s ?_, fun ha => next_eq s (dueRow_none ?_), fun ha hg => next_eq s ?_,
      fun hg => next_eq s (dueRow_none (dueLeft_unlimited hg)),
      fun hd hr => ⟨next_eq s (dueRow_running hr hd), next_eq s (dueRow_running hr hd)⟩⟩
    · have hd := dueFault_tick ha hc hb hl
      exact (dueRow_now hf hw hz hst (dueLeft_tick ha hc hb hl) hd).trans (raiseDue_some hd hst)
    · show (if 0 = 0 then (if k.tickActive && k.tickCount && k.tbudget != 0 then _ else none) else _) = none
      rw [ha]
      rfl
    · have hd := dueFault_gate ha hg
      exact (dueRow_now hf hw hz hst (dueLeft_gate hg) hd).trans (raiseDue_some hd hst)
  · intro k
    refine ⟨fun ht hs hx => ?_, fun ho => ⟨fun h3 => ?_, fun h3 => ?_⟩, fun g r k7 pck ret comp hc hg hf => ⟨fun h3 => ?_, fun h3 => ?_⟩⟩
    · obtain ⟨lvl, rp, bits⟩ := entered_status n (savedSet (n.val + 1) code det source addr pc k) k
      have frame := entered_frame n (savedSet (n.val + 1) code det source addr pc k) k
      have sets : (entered n (savedSet (n.val + 1) code det source addr pc k) k).sets =
          put k.sets n (savedSet (n.val + 1) code det source addr pc k) := by rw [frame]
      refine ⟨_, enterLevel_usable code det source addr pc n ht hs hx, ?_, lvl, rp, bits, sets⟩
      rw [sets]
      exact frame
    · exact (raiseFault_open code det source addr pc ho).trans (if_neg h3)
    · exact (raiseFault_open code det source addr pc ho).trans (if_pos h3)
    · exact (raiseFault_sealed code det source addr pc hc hg hf).trans (if_neg h3)
    · exact (raiseFault_sealed code det source addr pc hc hg hf).trans (if_pos h3)

end Sys2Proof.Machine
end

section
/-!
PROOFS. Key instructions (R365, R379 to R382), keys in memory (R376, R377) and the key registers that gates set (R394, R396).
-/
namespace Sys2Proof.Machine

/-! ### Checks of a key instruction -/

theorem firstFault_none {l : List (Bool × StFault)} (h : ∀ x ∈ l, x.1 = false) : firstFault l = none := by
  rw [firstFault, List.find?_eq_none.2 fun x hx => by simp [h x hx]]
  rfl

theorem firstFault_first {l r : List (Bool × StFault)} (f : StFault) (h : ∀ x ∈ l, x.1 = false) :
    firstFault (l ++ (true, f) :: r) = some f := by
  have skipped : l.find? (·.1) = none := List.find?_eq_none.2 fun x hx => by simp [h x hx]
  rw [firstFault, List.find?_append, skipped, Option.none_or, List.find?_cons_of_pos rfl]
  rfl

section
variable {c : Fin 4} {s : State} {i : Ins} {o : StOp} {n : Nat} {bad : Ins → Core → List (Bool × StFault)} {f : Ins → Core → Core}
  (h : Ready s.dev c o i)
include h

/-- A key instruction whose checks pass. -/
theorem keyRow_works (hb : ∀ x ∈ bad i (lastSlot s.dev c n).cores[c], x.1 = false) : act (keyRow c.val o n bad f) s = .next { s with
    dev := completed (lastSlot s.dev c n) c i (f i (lastSlot s.dev c n).cores[c]) } := by
  refine row_completes (fun _ _ => n) h ?_
  rw [core_fin, firstFault_none hb]
  exact congrArg Except.ok (updCore_eq_setCore ..)

/-- The first check that fails raises its fault. -/
theorem keyRow_fails {l r : List (Bool × StFault)} {x : StFault} (hb : l ++ (true, x) :: r = bad i (lastSlot s.dev c n).cores[c])
    (hl : ∀ x ∈ l, x.1 = false) : act (keyRow c.val o n bad f) s = .next { s with dev := raiseIns c.val x i.pc (failing s.dev c n) } := by
  refine row_fails (fun _ _ => n) h ?_
  rw [core_fin, ← hb, firstFault_first x hl]

end

/-- The checks of KSEAL and KUNSEAL on the sealing key, as one condition. -/
theorem decide_and_and (p q r : Prop) [Decidable p] [Decidable q] [Decidable r] :
    (decide p && decide q && decide r) = decide (p ∧ q ∧ r) := by
  simp only [Bool.decide_and, Bool.and_assoc]

/-! ### General key registers -/

section
variable (k : Core) {j : Nat} (hj : j < 8) (v : Key)
include hj

theorem setKey_low : k.setKey j v = { k with k := put? k.k j v } := by
  rw [Core.setKey, if_pos hj]

theorem key_low : k.key j = k.k[j] := by
  rw [Core.key, if_pos hj, at?, dif_pos hj]

theorem getElem_setKey {g : Nat} (hg : g < 8) : (k.setKey j v).k[g] = if j = g then v else k.k[g] := by
  simp only [setKey_low k hj, getElem_put?]

end

/-- The key registers of `js` cleared. -/
def clearKeys (js : List Nat) (k : Core) : Core := js.foldl (fun k j => k.setKey j {}) k

theorem clearKeys_frame {js : List Nat} (hj : ∀ j ∈ js, j < 8) (k : Core) : clearKeys js k = { k with k := (clearKeys js k).k } := by
  induction js generalizing k with
  | nil => rfl
  | cons j js ih =>
    have rest := ih (fun j hx => hj j (by simp [hx])) (k.setKey j {})
    have first := setKey_low k (hj j (by simp)) {}
    show clearKeys js (k.setKey j {}) = { k with k := (clearKeys js (k.setKey j {})).k }
    generalize k.setKey j {} = k1 at rest first
    rw [rest, first]

theorem getElem_clearKeys {js : List Nat} (hj : ∀ j ∈ js, j < 8) (k : Core) {g : Nat} (hg : g < 8) :
    (clearKeys js k).k[g] = if g ∈ js then {} else k.k[g] := by
  induction js generalizing k with
  | nil => rfl
  | cons j js ih =>
    have rest := ih (fun j hx => hj j (by simp [hx])) (k.setKey j {})
    rw [getElem_setKey k (hj j (by simp)) {} hg] at rest
    refine rest.trans ?_
    by_cases hm : g ∈ js
    · rw [if_pos hm, if_pos (List.mem_cons_of_mem j hm)]
    · rw [if_neg hm]
      by_cases he : j = g
      · rw [if_pos he, if_pos (by simp [he])]
      · rw [if_neg he, if_neg (by simp [hm, Ne.symm he])]

/-! ### Keys in local memory -/

/-- A little-endian read in two parts. -/
theorem rdLE_add (m : Bytes) (a i j : Nat) : rdLE m a (i + j) = rdLE m a i + 256 ^ i * rdLE m (a + i) j := by
  induction i generalizing a with
  | zero => simp [rdLE]
  | succ i ih =>
    rw [show i + 1 + j = i + j + 1 by omega, rdLE, rdLE, ih, show a + 1 + i = a + (i + 1) by omega]
    ring

/-- A core after a store of key `p` in the granule at `a` of its local memory. -/
def Core.storedKey (k : Core) (a : Nat) (p : Key) : Core :=
  { k.stored a 16 p.val.toNat with tags := store false (k.stored a 16 p.val.toNat).tags (a / 16) p.tag }

section
variable {c : Fin 4} {d : Dev} {a : Nat} (ha : a + 16 ≤ 0x40000)
include ha

theorem putKey_local (p : Key) : putKey c.val a p d = setCore c (d.cores[c].storedKey a p) d := by
  rw [putKey, memWrite_local (by decide) ha, setTag, not_inMbox (by omega), if_neg Bool.false_ne_true, updCore_setCore]
  rfl

theorem keyAt_local : keyAt d c.val a =
    { val := BitVec.ofNat 128 (rdLE d.cores[c].mem a 16), tag := look false d.cores[c].tags (a / 16) } := by
  rw [keyAt, memRead_local (by omega), tagAt, not_inMbox (by omega), if_neg Bool.false_ne_true, core_fin]

end

section
variable {k : Core} {a n : Nat} (aligned : a % 16 = 0)
include aligned

theorem mem_granules_aligned {g : Nat} : g ∈ granules a 16 ↔ g = a / 16 := by
  rw [mem_granules (by decide)]
  omega

theorem look_stored (tags : canon false k.tags = true) (v g : Nat) :
    look false (k.stored a 16 v).tags g = if g = a / 16 then false else look false k.tags g := by
  refine (look_clearTags _ tags g).trans ?_
  simp only [mem_granules_aligned aligned]

theorem look_storedKey (tags : canon false k.tags = true) (p : Key) (g : Nat) :
    look false (k.storedKey a p).tags g = if g = a / 16 then p.tag else look false k.tags g := by
  refine (look_store (canon_clearTags _ tags) (a / 16) g p.tag).trans ?_
  by_cases hg : g = a / 16
  · rw [if_pos hg, if_pos hg]
  · rw [if_neg hg, if_neg hg]
    exact (look_stored aligned tags p.val.toNat g).trans (if_neg hg)

end

section
variable {k : Core} (a : Nat) (p : Key)

theorem canon_storedKey (tags : canon false k.tags = true) : canon false (k.storedKey a p).tags = true :=
  canon_store (canon_clearTags _ tags) _ _

theorem storedKey_mem : (k.storedKey a p).mem = wrLE k.mem a 16 p.val.toNat := rfl

theorem wf_storedKey (mem : Memory.wf k.mem) : Memory.wf (k.storedKey a p).mem := by
  rw [storedKey_mem]
  exact wf_wrLE mem a 16 _

theorem rdLE_storedKey (mem : Memory.wf k.mem) : rdLE (k.storedKey a p).mem a 16 = p.val.toNat := by
  rw [storedKey_mem, rdLE_wrLE mem a 16]
  exact Nat.mod_eq_of_lt (Nat.lt_of_lt_of_eq p.val.isLt (by norm_num))

theorem rd8_storedKey_outside (mem : Memory.wf k.mem) {y : Nat} (hy : y < a ∨ a + 16 ≤ y) : rd8 (k.storedKey a p).mem y = rd8 k.mem y := by
  rw [storedKey_mem]
  exact rd8_wrLE_outside mem a 16 _ y hy

end

/-! ### KLD and KST -/

section
variable {c : Fin 4} {d : Dev} {i : Ins}

/-- A key access to local memory acts on the device with the cursor stepped. -/
theorem keyAccess_local {acc : Acc} (f : Key → Nat → Dev → Dev) {o a : Nat} (ho : o = granuleOffset i d.cores[c])
    (haddr : a = ((d.cores[c].key i.k).base + o) % 2 ^ 32) (hq : d.cores[c].sbuf = []) (ha : a + 16 ≤ 0x40000)
    (hf : accessFault d c.val i.k (d.cores[c].key i.k) o 16 acc false = none) :
    keyAccess c.val i acc f d =
      .ok (f (d.cores[c].key i.k) a (setCore c (stepped d.cores[c] i.k 16 (i.md' == 2)) d)) := by
  subst ho haddr
  have step : (if i.md' = 2 then advance c.val i.k 16 d else d) = setCore c (stepped d.cores[c] i.k 16 (i.md' == 2)) d := by
    rw [← advance_ite]
    simp only [beq_iff_eq]
  simp only [keyAccess, drainAll_empty hq, core_fin, hf, inTagged_local (show 1 ≤ 16 by decide) ha, step, Bool.not_true,
    Bool.false_eq_true, if_false]

/-- A key stored through `p` in local memory. -/
theorem keepsTag_local {a : Nat} (ha : a < 0x40000) (p g : Key) : keepsTag p g a = (g.tag && p.may permSK) := by
  rw [keepsTag, not_inMbox ha]
  simp

end

end Sys2Proof.Machine
end

section
/-!
PROOFS. Gates (R392 to R397): the frame of a call, entry and return; and the obligation on keys and gates.
-/
namespace Sys2Proof.Machine

/-! ### The frame of a call (R394) -/

theorem rdLE_wrLE_outside {m : Bytes} (h : Memory.wf m) (a n v y j : Nat) (hy : y + j ≤ a ∨ a + n ≤ y) :
    rdLE (wrLE m a n v) y j = rdLE m y j :=
  rdLE_congr y j fun i hi => rd8_wrLE_outside h a n v (y + i) (by omega)

/-- The third granule of a frame: return PC and compartment. -/
def returnWord (next : Word) (comp : Byte) : Nat := next.toNat + comp.toNat * 2 ^ 32

theorem returnWord_lt (next : Word) (comp : Byte) : returnWord next comp < 256 ^ 16 := by
  have hn := next.isLt
  have hc := comp.isLt
  have : returnWord next comp < 256 ^ 5 := by
    rw [returnWord]
    omega
  exact Nat.lt_trans this (by norm_num)

theorem rdLE_returnWord {m : Bytes} (h : Memory.wf m) (a : Nat) (next : Word) (comp : Byte) :
    rdLE (wrLE m a 16 (returnWord next comp)) a 4 = next.toNat ∧ rdLE (wrLE m a 16 (returnWord next comp)) (a + 4) 1 = comp.toNat := by
  have whole := (rdLE_wrLE h a 16 (returnWord next comp)).trans (Nat.mod_eq_of_lt (returnWord_lt next comp))
  generalize wrLE m a 16 (returnWord next comp) = w at whole
  have halves := rdLE_add w a 4 12
  have rest := rdLE_add w (a + 4) 1 11
  have low := rdLE_lt w a 4
  have byte := rdLE_lt w (a + 4) 1
  have hn := next.isLt
  have hc := comp.isLt
  rw [whole, returnWord] at halves
  norm_num at halves rest low byte
  omega

/-- A core that has written the frame of a call. -/
def Core.framed (k : Core) (f : Nat) (next : Word) : Core :=
  ((k.storedKey f (k.key 7)).storedKey (f + 16) k.pck).stored (f + 32) 16 (returnWord next k.comp)

section
variable {k : Core} {f : Nat} (next : Word)

theorem framed_frame : k.framed f next =
    { k with mem := (k.framed f next).mem, tags := (k.framed f next).tags, resv := (k.framed f next).resv } := by
  simp only [Core.framed, Core.storedKey, Core.stored]

theorem framed_mem : (k.framed f next).mem = wrLE ((k.storedKey f (k.key 7)).storedKey (f + 16) k.pck).mem (f + 32) 16 (returnWord next k.comp) := by
  rw [Core.framed, Core.stored]

section
variable (mem : Memory.wf k.mem)
include mem

theorem rd8_framed_outside {y : Nat} (hy : y < f ∨ f + 48 ≤ y) : rd8 (k.framed f next).mem y = rd8 k.mem y := by
  have m1 := wf_storedKey f (k.key 7) mem
  rw [framed_mem, rd8_wrLE_outside (wf_storedKey (f + 16) k.pck m1) _ _ _ _ (by omega), rd8_storedKey_outside _ _ m1 (by omega),
    rd8_storedKey_outside _ _ mem (by omega)]

theorem rdLE_framed : rdLE (k.framed f next).mem f 16 = (k.key 7).val.toNat ∧ rdLE (k.framed f next).mem (f + 16) 16 = k.pck.val.toNat ∧
    rdLE (k.framed f next).mem (f + 32) 4 = next.toNat ∧ rdLE (k.framed f next).mem (f + 36) 1 = k.comp.toNat := by
  have m1 := wf_storedKey f (k.key 7) mem
  have m2 := wf_storedKey (f + 16) k.pck m1
  obtain ⟨pc, comp⟩ := rdLE_returnWord m2 (f + 32) next k.comp
  rw [framed_mem]
  refine ⟨?_, ?_, pc, comp⟩
  · rw [rdLE_wrLE_outside m2 _ _ _ _ _ (by omega), storedKey_mem, rdLE_wrLE_outside m1 _ _ _ _ _ (by omega), rdLE_storedKey _ _ mem]
  · rw [rdLE_wrLE_outside m2 _ _ _ _ _ (by omega), rdLE_storedKey _ _ m1]

end

theorem look_framed (aligned : f % 16 = 0) (tags : canon false k.tags = true) :
    look false (k.framed f next).tags (f / 16) = (k.key 7).tag ∧ look false (k.framed f next).tags ((f + 16) / 16) = k.pck.tag := by
  have t1 := canon_storedKey f (k.key 7) tags
  have t2 := canon_storedKey (f + 16) k.pck t1
  have last := fun g => look_stored (a := f + 32) (by omega) t2 (returnWord next k.comp) g
  have second := look_storedKey (a := f + 16) (by omega) t1 k.pck
  have first := look_storedKey aligned tags (k.key 7)
  refine ⟨(last _).trans ?_, (last _).trans ?_⟩
  · rw [if_neg (by omega), second, if_neg (by omega), first, if_pos rfl]
  · rw [if_neg (by omega), second, if_pos rfl]

/-- The frame of a call reads back. -/
theorem readFrame_framed {c : Fin 4} {d : Dev} (hd : d.cores[c].mem = (k.framed f next).mem) (ht : d.cores[c].tags = (k.framed f next).tags)
    (aligned : f % 16 = 0) (hf : f + 48 ≤ 0x40000) (mem : Memory.wf k.mem) (tags : canon false k.tags = true) :
    readFrame d c.val (BitVec.ofNat 32 f) = (k.key 7, k.pck, next, k.comp) := by
  have addr : (BitVec.ofNat 32 f).toNat = f := by
    rw [BitVec.toNat_ofNat]
    exact Nat.mod_eq_of_lt (by omega)
  have tag : ∀ a, a < 0x40000 → tagAt d c.val a = look false (k.framed f next).tags (a / 16) := fun a ha => by
    rw [tagAt, not_inMbox ha, if_neg Bool.false_ne_true, core_fin, ht]
  obtain ⟨r7, rp, rr, rc⟩ := rdLE_framed (f := f) next mem
  obtain ⟨t7, tp⟩ := look_framed next aligned tags
  rw [readFrame, addr]
  rw [memRead_local (by omega), memRead_local (by omega), memRead_local (by omega), memRead_local (by omega), tag f (by omega),
    tag (f + 16) (by omega), hd, r7, rp, rr, rc, t7, tp]
  simp only [BitVec.ofNat_toNat, BitVec.setWidth_eq]

end

/-! ### Entry through a gate (R393, R394) -/

/-- The key registers that a call hands on: those of `clear` and K4 to K6 zero, K0 and K7 given. -/
def gateKeys (clear : Nat → Bool) (k0 k7 : Key) (k : Core) : Core :=
  ((clearKeys [4, 5, 6] (clearKeys ([1, 2, 3].filter clear) k)).setKey 0 k0).setKey 7 k7

section
variable (clear : Nat → Bool) (k0 k7 : Key) (k : Core)

theorem gateKeys_frame : gateKeys clear k0 k7 k = { k with k := (gateKeys clear k0 k7 k).k } := by
  have args : ∀ j ∈ [1, 2, 3].filter clear, j < 8 := fun j hj => by
    have := List.mem_of_mem_filter hj
    simp only [List.mem_cons, List.not_mem_nil, or_false] at this
    omega
  have f1 := clearKeys_frame args k
  have f2 := clearKeys_frame (js := [4, 5, 6]) (by decide) (clearKeys ([1, 2, 3].filter clear) k)
  rw [gateKeys, setKey_low _ (by decide), setKey_low _ (by decide), f2, f1]

theorem getElem_gateKeys {g : Nat} (hg : g < 8) : (gateKeys clear k0 k7 k).k[g] =
    if 7 = g then k7 else if 0 = g then k0 else if g ∈ [4, 5, 6] then {} else (clearKeys ([1, 2, 3].filter clear) k).k[g] := by
  rw [gateKeys, getElem_setKey _ (by decide) _ hg, getElem_setKey _ (by decide) _ hg, getElem_clearKeys (by decide) _ hg]

end

section
variable {c : Fin 4} {d : Dev}

/-- What a call that passes its checks rests on: the gate key's tag, and a frame of whole granules. -/
theorem of_gateFault {g here : Nat} (h : gateFault d c.val g here = none) : (d.cores[c].key g).tag = true ∧
    ((keyAt d c.val (((d.cores[c].key g).base + (d.cores[c].key g).cursor) % 2 ^ 32 + 16)).base +
      (keyAt d c.val (((d.cores[c].key g).base + (d.cores[c].key g).cursor) % 2 ^ 32 + 16)).cursor + 2 ^ 32 - 48) % 2 ^ 32 % 16 = 0 := by
  rw [← core_fin]
  obtain ⟨tag, h⟩ := passed_check h
  obtain ⟨-, h⟩ := passed_check h
  obtain ⟨-, h⟩ := passed_check h
  obtain ⟨-, h⟩ := passed_check h
  obtain ⟨-, h⟩ := passed_check h
  obtain ⟨-, h⟩ := passed_check h
  obtain ⟨-, h⟩ := passed_check h
  obtain ⟨-, h⟩ := passed_check h
  obtain ⟨-, h⟩ := passed_check h
  split at h
  · cases h
  split at h
  · cases h
  split at h
  · cases h
  split at h
  · cases h
  obtain ⟨frame, -⟩ := passed_check h
  simp only [Bool.or_eq_true, decide_eq_true_eq, not_or, not_not] at frame
  exact ⟨by simpa using tag, frame.1.1⟩

/-- A core that has entered its callee. -/
def calledCore (clear : Nat → Bool) (p e t : Key) (comp : Byte) (g : GateEnt) (k : Core) : Core :=
  { gateKeys clear (mkKey p.base p.len p.cursor (setBit p.perm permGATE false).toNat 0 false p.tag) (t.withCursor (t.cursor - 48)) k with
    pck := e, pc := BitVec.ofNat 32 e.cursor, comp := comp, gates := k.gates ++ [g] }

theorem calledCore_frame (clear : Nat → Bool) (p e t : Key) (comp : Byte) (g : GateEnt) (k : Core) : calledCore clear p e t comp g k =
    { k with k := (calledCore clear p e t comp g k).k, pck := e, pc := BitVec.ofNat 32 e.cursor, comp := comp, gates := k.gates ++ [g] } := by
  rw [calledCore, gateKeys_frame]

/-- The acts of R394 with a frame in local memory. -/
theorem gateEnter_local {g a frame spent limit : Nat} {p e t : Key} {comp : Byte} {next : Word} (hp : p = d.cores[c].key g)
    (ha : a = (p.base + p.cursor) % 2 ^ 32) (he : e = keyAt d c.val a) (ht : t = keyAt d c.val (a + 16))
    (hc : comp = BitVec.ofNat 8 (memRead d c.val (a + 0x38) 1)) (hl : limit = memRead d c.val (a + 0x3C) 4)
    (hf : frame = (t.base + t.cursor + 2 ^ 32 - 48) % 2 ^ 32) (hb : frame + 48 ≤ 0x40000) :
    ∃ clear, gateEnter c.val g next spent d = setCore c (calledCore clear p e t comp
      { frame := BitVec.ofNat 32 frame, caller := d.cores[c].comp, target := comp, limited := limit != 0
        left := BitVec.ofNat 32 (limit - spent) } (d.cores[c].framed frame next)) d := by
  have stored : memWrite c.val (frame + 32) 16 (next.toNat + d.cores[c].comp.toNat * 2 ^ 32)
      (putKey c.val (frame + 16) d.cores[c].pck (putKey c.val frame (d.cores[c].key 7) d)) = setCore c (d.cores[c].framed frame next) d := by
    rw [putKey_local (by omega), putKey_local (by omega), memWrite_local (by decide) (by omega), setCore_core, setCore_setCore, setCore_core,
      setCore_setCore]
    rfl
  have comp : (d.cores[c].framed frame next).comp = d.cores[c].comp := by rw [framed_frame]
  refine ⟨fun i => argMode (argWord d c.val a i) == 2 || (argMode (argWord d c.val a i) == 1 && !(d.cores[c].key i).tag), ?_⟩
  simp only [gateEnter, core_fin, ← hp, ← ha, ← he, ← ht, ← hc, ← hl, ← hf, stored, updCore_setCore]
  simp only [calledCore, gateKeys, clearKeys, List.foldl_filter, comp]

end

section
variable {c : Fin 4} {s : State} {i : Ins} (h : Ready s.dev c .gcall i) (hq : (lastSlot s.dev c 24).cores[c].sbuf = [])
include h hq

theorem exec_gcall_fails {f : StFault}
    (hf : gateFault (lastSlot s.dev c 24) c.val i.k ((lastSlot s.dev c 24).cores[c].pck.base + i.pc.toNat) = some f) :
    exec (.gcall c) s = .next { s with dev := raiseIns c.val f i.pc (failing s.dev c 24) } := by
  refine jump_fails (fun _ _ => 24) h (body := fun i d0 =>
    match gateFault (drainAll c.val d0) c.val i.k ((core (drainAll c.val d0) c.val).pck.base + i.pc.toNat) with
    | some f => .error f
    | none => .ok (gateEnter c.val i.k i.next (23 + (core d0 c.val).sbuf.length) (drainAll c.val d0))) ?_
  rw [drainAll_empty hq, core_fin, hf]

theorem exec_gcall_enters {k' : Core}
    (hf : gateFault (lastSlot s.dev c 24) c.val i.k ((lastSlot s.dev c 24).cores[c].pck.base + i.pc.toNat) = none)
    (he : gateEnter c.val i.k i.next 23 (lastSlot s.dev c 24) = setCore c k' (lastSlot s.dev c 24)) :
    exec (.gcall c) s = .next { s with dev := jumped (lastSlot s.dev c 24) c k' } := by
  refine jump_completes (fun _ _ => 24) h (body := fun i d0 =>
    match gateFault (drainAll c.val d0) c.val i.k ((core (drainAll c.val d0) c.val).pck.base + i.pc.toNat) with
    | some f => .error f
    | none => .ok (gateEnter c.val i.k i.next (23 + (core d0 c.val).sbuf.length) (drainAll c.val d0))) ?_
  rw [drainAll_empty hq, core_fin, hf, hq]
  exact congrArg Except.ok he

end

/-! ### Return through a gate (R396, R397) -/

theorem slots_gates (n : Nat) (k : Core) : (slots n k).gates =
    k.gates.map (fun g : GateEnt => if g.limited then { g with left := BitVec.ofNat 32 (g.left.toNat - n) } else g) := by
  have kept : ((k.muls.takeWhile fun m => m.left ≤ n).foldl land k).gates = k.gates := by rw [foldl_land_frame]
  simp only [slots, kept]

/-- A core that has returned to its caller. -/
def returnedCore (k7 pck : Key) (ret : Word) (comp : Byte) (k : Core) : Core :=
  { (clearKeys [0, 4, 5, 6] k).setKey 7 k7 with pck := pck, pc := ret, comp := comp, gates := k.gates.dropLast }

theorem returnedCore_frame (k7 pck : Key) (ret : Word) (comp : Byte) (k : Core) : returnedCore k7 pck ret comp k =
    { k with k := (returnedCore k7 pck ret comp k).k, pck := pck, pc := ret, comp := comp, gates := k.gates.dropLast } := by
  rw [returnedCore, setKey_low _ (by decide), clearKeys_frame (js := [0, 4, 5, 6]) (by decide) k]

theorem getElem_returnedCore (k7 pck : Key) (ret : Word) (comp : Byte) (k : Core) {g : Nat} (hg : g < 8) :
    (returnedCore k7 pck ret comp k).k[g] = if g = 7 then k7 else if g = 0 ∨ 4 ≤ g then {} else k.k[g] := by
  show ((clearKeys [0, 4, 5, 6] k).setKey 7 k7).k[g] = _
  rw [getElem_setKey _ (by decide) _ hg, getElem_clearKeys (by decide) _ hg]
  simp only [List.mem_cons, List.not_mem_nil, or_false, eq_comm (a := 7)]
  by_cases h7 : g = 7
  · rw [if_pos h7, if_pos h7]
  · rw [if_neg h7, if_neg h7]
    by_cases h0 : g = 0 ∨ 4 ≤ g
    · rw [if_pos h0, if_pos (by omega)]
    · rw [if_neg h0, if_neg (by omega)]

section
variable {c : Fin 4} {d : Dev} {g : GateEnt} {r : List GateEnt} {k7 pck : Key} {ret : Word} {comp : Byte}

theorem gateReturn_empty (h : d.cores[c].gates = []) :
    gateReturn c.val d = .error { code := 0x0A, detail := 2, source := some 10, addr := none } := by
  simp only [gateReturn, core_fin, h, List.getLast?_nil]

variable (hg : d.cores[c].gates = r ++ [g]) (hf : readFrame d c.val g.frame = (k7, pck, ret, comp))
include hg hf

theorem gateReturn_untagged (h : k7.tag = false ∨ pck.tag = false) :
    gateReturn c.val d = .error { code := 0x0A, detail := 3, source := some 10, addr := some g.frame.toNat } := by
  have bad : (!k7.tag || !pck.tag) = true := by
    rcases h with h | h <;> simp [h]
  simp only [gateReturn, core_fin, hg, List.getLast?_concat, hf, bad, if_true]

theorem gateReturn_returns (h7 : k7.tag = true) (hp : pck.tag = true) :
    gateReturn c.val d = .ok (setCore c (returnedCore k7 pck ret comp d.cores[c]) d) := by
  simp only [gateReturn, core_fin, hg, List.getLast?_concat, hf, h7, hp, Bool.not_true, Bool.or_self, Bool.false_eq_true, if_false,
    updCore_eq_setCore, returnedCore, clearKeys]

end

section
variable {c : Fin 4} {s : State} {i : Ins} (h : Ready s.dev c .gret i) (hq : (lastSlot s.dev c 22).cores[c].sbuf = [])
include h hq

theorem exec_gret_fails {f : StFault} (hb : gateReturn c.val (lastSlot s.dev c 22) = .error f) :
    exec (.gret c) s = .next { s with dev := raiseIns c.val f i.pc (failing s.dev c 22) } := by
  refine next_eq s ((withIns_ready h _).trans ?_)
  have slot : updCore c.val (slots 21) (setCore c (pruneBlocks s.dev.cores[c]) s.dev) = lastSlot s.dev c 22 := updCore_setCore ..
  simp only [slot, drainAll_empty hq, hb]
  exact congrArg (raiseIns c.val f i.pc) (updCore_setCore ..)

/-- GRET that returns: a LIMIT that its call has reached is due at once. -/
theorem exec_gret_returns {k' : Core} (hb : gateReturn c.val (lastSlot s.dev c 22) = .ok (setCore c k' (lastSlot s.dev c 22))) :
    exec (.gret c) s = .next { s with
      dev := if limitHit (lastSlot s.dev c 22).cores[c] = true then
        raiseFault c.val 0x0C 1 k'.gates.length k'.pc.toNat k'.pc (jumped (lastSlot s.dev c 22) c k')
      else jumped (lastSlot s.dev c 22) c k' } := by
  refine next_eq s ((withIns_ready h _).trans ?_)
  have slot : updCore c.val (slots 21) (setCore c (pruneBlocks s.dev.cores[c]) s.dev) = lastSlot s.dev c 22 := updCore_setCore ..
  have depth : (slots 1 (completeIns k')).gates.length = k'.gates.length := by
    rw [slots_gates, List.length_map]
    rfl
  have pc : (slots 1 (completeIns k')).pc = k'.pc := slots_pc ..
  simp only [slot, drainAll_empty hq, hb, updCore_setCore, core_fin, setCore_core, Core.gdepth, depth, pc]
  rfl

end

end Sys2Proof.Machine
end

section
/-!
PROOFS. The obligation on keys and gates (R365, R373, R376 to R381, R393 to R397).
-/
namespace Sys2Proof.Machine

theorem not_of_true {b : Bool} (h : b = true) : (!b) = false := by
  rw [h]
  rfl

/-- A check that passes before others that pass. -/
theorem passes_cons {l : List (Bool × StFault)} {b : Bool} {x : StFault} (hb : b = false) (hl : ∀ y ∈ l, y.1 = false) :
    ∀ y ∈ (b, x) :: l, y.1 = false := List.forall_mem_cons.2 ⟨hb, hl⟩

/-- KMTS to VKEY is special key 1. -/
theorem specialKey_vkey (i : Ins) : (specialKey i == 9) = (fld i.ext 0 4 == 1) := by
  rw [Bool.eq_iff_iff, beq_iff_eq, beq_iff_eq, specialKey]
  omega

/-- The check of KUNSEAL on the sealed key, as one condition. -/
theorem unseal_check (p q : Key) : (p.sealed && decide (q.cursor < q.len) && q.base + q.cursor == p.otype) =
    decide (p.sealed = true ∧ q.cursor < q.len ∧ q.base + q.cursor = p.otype) := by
  rw [← decide_and_and, Bool.decide_eq_true]
  rfl

section
variable {c : Fin 4} {s : State} {i : Ins}

/-- KLD of a granule of local memory. -/
theorem exec_kld {a o : Nat} (h : Ready s.dev c .kld i) (hq : (lastSlot s.dev c (keySlots c.val i s.dev.cores[c])).cores[c].sbuf = [])
    (ho : o = granuleOffset i (lastSlot s.dev c (keySlots c.val i s.dev.cores[c])).cores[c])
    (haddr : a = (((lastSlot s.dev c (keySlots c.val i s.dev.cores[c])).cores[c].key i.k).base + o) % 2 ^ 32) (ha : a + 16 ≤ 0x40000)
    (hf : accessFault (lastSlot s.dev c (keySlots c.val i s.dev.cores[c])) c.val i.k
      ((lastSlot s.dev c (keySlots c.val i s.dev.cores[c])).cores[c].key i.k) o 16 .load false = none) :
    let k := (lastSlot s.dev c (keySlots c.val i s.dev.cores[c])).cores[c]
    exec (.kld c) s = .next { s with
      dev := completed (lastSlot s.dev c (keySlots c.val i s.dev.cores[c])) c i ((stepped k i.k 16 (i.md' == 2)).setKey i.kd
        { val := BitVec.ofNat 128 (rdLE k.mem a 16), tag := look false k.tags (a / 16) && (k.key i.k).may permLK }) } := by
  intro k
  refine row_completes (keySlots c.val) h ((keyAccess_local _ ho haddr hq ha hf).trans (congrArg Except.ok ?_))
  have frame := stepped_frame k i.k 16 (i.md' == 2)
  have mem : (stepped k i.k 16 (i.md' == 2)).mem = k.mem := by rw [frame]
  have tags : (stepped k i.k 16 (i.md' == 2)).tags = k.tags := by rw [frame]
  rw [keyAt_local ha, setCore_core, mem, tags, updCore_setCore]

/-- KST to a granule of local memory. -/
theorem exec_kst {a o : Nat} (h : Ready s.dev c .kst i) (hq : (lastSlot s.dev c (keySlots c.val i s.dev.cores[c])).cores[c].sbuf = [])
    (ho : o = granuleOffset i (lastSlot s.dev c (keySlots c.val i s.dev.cores[c])).cores[c])
    (haddr : a = (((lastSlot s.dev c (keySlots c.val i s.dev.cores[c])).cores[c].key i.k).base + o) % 2 ^ 32) (ha : a + 16 ≤ 0x40000)
    (hf : accessFault (lastSlot s.dev c (keySlots c.val i s.dev.cores[c])) c.val i.k
      ((lastSlot s.dev c (keySlots c.val i s.dev.cores[c])).cores[c].key i.k) o 16 .store false = none) :
    let k := (lastSlot s.dev c (keySlots c.val i s.dev.cores[c])).cores[c]
    exec (.kst c) s = .next { s with
      dev := completed (lastSlot s.dev c (keySlots c.val i s.dev.cores[c])) c i ((stepped k i.k 16 (i.md' == 2)).storedKey a
        { k.key i.kd with tag := (k.key i.kd).tag && (k.key i.k).may permSK }) } := by
  intro k
  refine row_completes (keySlots c.val) h (body := fun i d => keyAccess c.val i .store (fun p a d' =>
    putKey c.val a { (core d c.val).key i.kd with tag := keepsTag p ((core d c.val).key i.kd) a } d') d) ?_
  rw [core_fin]
  refine (keyAccess_local _ ho haddr hq ha hf).trans (congrArg Except.ok ?_)
  rw [putKey_local ha, keepsTag_local (by omega), setCore_core, setCore_setCore]
  rfl

end

/-- A key in memory reads as what was stored, the rest as before. -/
theorem storedKey_spec {k k1 : Core} (frame : k1 = { k with k := k1.k, pck := k1.pck, vkey := k1.vkey, sets := k1.sets }) {a : Nat} (p : Key)
    (aligned : a % 16 = 0) (mem : Memory.wf k.mem) (tags : canon false k.tags = true) :
    k1.storedKey a p = { k1 with mem := (k1.storedKey a p).mem, tags := (k1.storedKey a p).tags, resv := (k1.storedKey a p).resv } ∧
    rdLE (k1.storedKey a p).mem a 16 = p.val.toNat ∧ look false (k1.storedKey a p).tags (a / 16) = p.tag ∧
    (∀ g, g ≠ a / 16 → look false (k1.storedKey a p).tags g = look false k.tags g) ∧
    ∀ y, (y < a ∨ a + 16 ≤ y) → rd8 (k1.storedKey a p).mem y = rd8 k.mem y := by
  have hm : k1.mem = k.mem := by rw [frame]
  have ht : k1.tags = k.tags := by rw [frame]
  rw [← hm] at mem
  rw [← ht] at tags
  refine ⟨by simp only [Core.storedKey, Core.stored], rdLE_storedKey a p mem, ?_, fun g hg => ?_, fun y hy => ?_⟩
  · rw [look_storedKey aligned tags, if_pos rfl]
  · rw [look_storedKey aligned tags, if_neg hg, ht]
  · rw [rd8_storedKey_outside a p mem hy, hm]

theorem calledCore_key (clear : Nat → Bool) (p e t : Key) (comp : Byte) (g : GateEnt) (k : Core) {j : Nat} (hj : j < 8) :
    (calledCore clear p e t comp g k).key j = if 7 = j then t.withCursor (t.cursor - 48) else if 0 = j then
      mkKey p.base p.len p.cursor (setBit p.perm permGATE false).toNat 0 false p.tag else if j ∈ [4, 5, 6] then {} else
      (clearKeys ([1, 2, 3].filter clear) k).k[j] := by
  rw [key_low _ hj, ← getElem_gateKeys clear _ _ k hj]
  rfl

/-- A cursor is a word. -/
theorem toNat_cursor (p : Key) : (BitVec.ofNat 32 p.cursor).toNat = p.cursor := by
  have lt : p.cursor < 2 ^ 32 := Nat.mod_lt _ (Nat.two_pow_pos 32)
  rw [BitVec.toNat_ofNat, Nat.mod_eq_of_lt lt]

/-- What a core that has entered its callee holds. -/
theorem calledCore_spec (clear : Nat → Bool) (p e t : Key) (comp : Byte) {k : Core} {f : Nat} (next : Word) (mem : Memory.wf k.mem)
    (tag : p.tag = true) (g : GateEnt) :
    let k' := calledCore clear p e t comp g (k.framed f next)
    k'.mem = (k.framed f next).mem ∧ k'.tags = (k.framed f next).tags ∧
      (∀ y, (y < f ∨ f + 48 ≤ y) → rd8 k'.mem y = rd8 k.mem y) ∧
      k'.pck = e ∧ k'.pc.toNat = e.cursor ∧ k'.comp = comp ∧ k'.key 7 = t.withCursor (t.cursor - 48) ∧ k'.key 4 = {} ∧ k'.key 5 = {} ∧
      k'.key 6 = {} ∧ k'.key 0 = mkKey p.base p.len p.cursor (setBit p.perm permGATE false).toNat 0 false true ∧
      k'.a = k.a ∧ k'.x = k.x ∧ k'.y = k.y ∧ k'.status = k.status ∧ k'.gates = k.gates ++ [g] := by
  intro k'
  have keys : ∀ {j : Nat} (hj : j < 8), k'.key j = if 7 = j then t.withCursor (t.cursor - 48) else if 0 = j then
      mkKey p.base p.len p.cursor (setBit p.perm permGATE false).toNat 0 false p.tag else if j ∈ [4, 5, 6] then {} else
      (clearKeys ([1, 2, 3].filter clear) (k.framed f next)).k[j] :=
    fun hj => calledCore_key clear p e t comp g _ hj
  have frame : k' = _ := calledCore_frame clear p e t comp g (k.framed f next)
  clear_value k'
  have outside : ∀ y, (y < f ∨ f + 48 ≤ y) → rd8 (k.framed f next).mem y = rd8 k.mem y := fun y hy => rd8_framed_outside next mem hy
  have kept := framed_frame (k := k) (f := f) next
  generalize k.framed f next = k1 at frame outside kept keys
  have data : k1.a = k.a ∧ k1.x = k.x ∧ k1.y = k.y ∧ k1.status = k.status ∧ k1.gates = k.gates := by
    rw [kept]
    exact ⟨rfl, rfl, rfl, rfl, rfl⟩
  obtain ⟨ha, hx, hy, hs, hg⟩ := data
  rw [tag] at keys
  have cleared : ∀ {j : Nat}, j ∈ [4, 5, 6] → k'.key j = {} := fun {j} hj => by
    have range : 4 ≤ j ∧ j ≤ 6 := by
      simp only [List.mem_cons, List.not_mem_nil, or_false] at hj
      omega
    rw [keys (show j < 8 by omega), if_neg (by omega), if_neg (by omega), if_pos hj]
  refine ⟨?_, ?_, fun y hy => ?_, ?_, ?_, ?_, (keys (by decide)).trans (if_pos rfl), cleared (by decide), cleared (by decide),
    cleared (by decide), (keys (by decide)).trans ((if_neg (by decide)).trans (if_pos rfl)), ?_, ?_, ?_, ?_, ?_⟩
  · rw [frame]
  · rw [frame]
  · rw [frame]
    exact outside y hy
  · rw [frame]
  · rw [frame]
    exact toNat_cursor e
  · rw [frame]
  · rw [frame, ← ha]
  · rw [frame, ← hx]
  · rw [frame, ← hy]
  · rw [frame, ← hs]
  · rw [frame, ← hg]

/-- Settles O52: key instructions by their checks, KLD and KST by the granule, gates by the frame of the call. -/
theorem stewardKeysAndGates : Obligations.StewardKeysAndGates := by
  unfold Obligations.StewardKeysAndGates
  refine ⟨fun c s i o I n k' => ?_, fun c s i o I n f pass fail => ?_, fun c s i => ?_, fun c s i => ?_, fun c s i => ?_⟩
  · intro k src kc A derived sealable unsealable movable sk hI h
    have none : ∀ x ∈ ([] : List (Bool × StFault)), x.1 = false := fun _ h => nomatch h
    rcases hI with ⟨rfl, rfl, rfl, rfl⟩ | ⟨rfl, rfl, rfl, rfl⟩ | ⟨rfl, rfl, rfl, ⟨tag, unsealed, len⟩, rfl⟩ |
      ⟨rfl, rfl, rfl, ⟨tag, unsealed, tag', unsealed', may, checks⟩, rfl⟩ |
      ⟨rfl, rfl, rfl, ⟨tag, tag', unsealed', may, checks⟩, rfl⟩ | ⟨rfl, rfl, rfl, rfl⟩ | ⟨rfl, rfl, rfl, rfl⟩ |
      ⟨rfl, rfl, rfl, rfl⟩ | ⟨rfl, rfl, rfl, rfl⟩ | ⟨rfl, rfl, rfl, ⟨tag, unsealed⟩, rfl⟩ |
      ⟨rfl, rfl, rfl, ⟨tag, unsealed⟩, rfl⟩ | ⟨rfl, rfl, rfl, unsealed, rfl⟩ |
      ⟨rfl, rfl, rfl, may, rfl⟩ | ⟨rfl, rfl, rfl, rfl⟩
    · exact keyRow_works h none
    · exact keyRow_works h none
    · exact keyRow_works h (passes_cons (not_of_true tag) (passes_cons unsealed (passes_cons (decide_eq_false (Nat.not_lt.2 len)) none)))
    · exact keyRow_works h (passes_cons (not_of_true tag) (passes_cons unsealed (passes_cons (not_of_true tag') (passes_cons unsealed'
        (passes_cons (not_of_true may) (passes_cons (not_of_true ((decide_and_and ..).trans (decide_eq_true checks))) none))))))
    · have same : mkKey src.base src.len src.cursor src.perm.toNat 0 false true = src.unsealed := by rw [Key.unsealed, tag]
      rw [same]
      exact keyRow_works h (passes_cons (not_of_true tag) (passes_cons (not_of_true tag') (passes_cons unsealed'
        (passes_cons (not_of_true may) (passes_cons (not_of_true ((unseal_check ..).trans (decide_eq_true checks))) none)))))
    · exact (keyRow_works h none).trans (next_eq s (congrArg (fun v => completed _ c i (k.setA v)) (ofNat_fld ..)))
    · exact (keyRow_works h none).trans (next_eq s (congrArg (fun v => completed _ c i (k.setA v)) (ofNat_fld ..)))
    · exact (keyRow_works h none).trans (next_eq s (congrArg (fun v => completed _ c i (k.setA v)) (ofNat_fld ..)))
    · exact keyRow_works h none
    · exact keyRow_works h (passes_cons (not_of_true tag) (passes_cons unsealed none))
    · exact keyRow_works h (passes_cons (not_of_true tag) (passes_cons unsealed none))
    · exact keyRow_works h (passes_cons (Bool.and_eq_false_iff.2 unsealed) none)
    · exact keyRow_works h (passes_cons (Bool.and_eq_false_iff.2 (may.imp beq_eq_false_iff_ne.2 not_of_true)) none)
    · exact keyRow_works h none
  · intro k ks kc kd untagged shut otype sk hI hp h
    simp only [List.mem_cons, Prod.mk.injEq, List.not_mem_nil, or_false] at hI
    rcases hI with ⟨rfl, rfl, rfl, hL⟩ | ⟨rfl, rfl, rfl, hL⟩ | ⟨rfl, rfl, rfl, hL⟩ | ⟨rfl, rfl, rfl, hL⟩ | ⟨rfl, rfl, rfl, hL⟩ |
      ⟨rfl, rfl, rfl, hL⟩ | ⟨rfl, rfl, rfl, hL⟩
    · exact keyRow_fails h hL hp
    · rw [← decide_and_and] at hL
      exact keyRow_fails h hL hp
    · rw [← unseal_check] at hL
      exact keyRow_fails h hL hp
    · exact keyRow_fails h hL hp
    · exact keyRow_fails h hL hp
    · rw [← specialKey_vkey] at hL
      exact keyRow_fails h hL hp
    · exact keyRow_fails h hL hp
  · intro d k p o a post kd hq ha
    refine ⟨fun h hf => exec_kld h hq rfl rfl ha hf, fun h hf mem tags => ?_⟩
    obtain ⟨-, -, -, aligned⟩ := of_accessFault hf
    exact ⟨_, exec_kst h hq rfl rfl ha hf, storedKey_spec (stepped_frame k i.k 16 post) _ (aligned (by decide)) mem tags⟩
  · intro d k p a e t comp limit frame h hq
    refine ⟨fun f hf => exec_gcall_fails h hq hf, fun hf hb mem tags => ?_⟩
    obtain ⟨tag, aligned⟩ := of_gateFault hf
    obtain ⟨clear, enters⟩ := gateEnter_local (d := d) (g := i.k) (next := i.next) (spent := 23) rfl rfl rfl rfl rfl rfl rfl hb
    have act := exec_gcall_enters h hq hf enters
    obtain ⟨hm, ht, rest⟩ := calledCore_spec clear p e t comp (f := frame) (k := k) i.next mem tag
      { frame := BitVec.ofNat 32 frame, caller := k.comp, target := comp, limited := limit != 0, left := BitVec.ofNat 32 (limit - 23) }
    refine ⟨setCore c _ d, _, act.trans (next_eq s (jumped_setCore ..).symm), rfl, ?_, rest⟩
    exact readFrame_framed i.next ((congrArg Core.mem (setCore_core ..)).trans hm) ((congrArg Core.tags (setCore_core ..)).trans ht) aligned hb
      mem tags
  · intro d k h hq
    refine ⟨fun hg => exec_gret_fails h hq (gateReturn_empty ?_), fun g r k7 pck x hg hf ht => exec_gret_fails h hq (gateReturn_untagged hg hf ht),
      fun g r k7 pck ret comp hg hf h7 hp => ?_⟩
    · rw [lastSlot_core, slots_gates]
      exact congrArg (List.map _) hg
    · have frame := returnedCore_frame k7 pck ret comp k
      have gates : k.gates.dropLast = r := by rw [hg, List.dropLast_concat]
      rw [gates] at frame
      refine ⟨returnedCore k7 pck ret comp k, (exec_gret_returns h hq (gateReturn_returns hg hf h7 hp)).trans (next_eq s ?_), frame, ?_,
        fun j => getElem_returnedCore k7 pck ret comp k j.isLt⟩
      · have hit : limitHit k = true ↔ g.limited = true ∧ g.left = 0 := by
          rw [limitHit, hg, List.getLast?_concat]
          simp
        have depth : (returnedCore k7 pck ret comp k).gates.length = r.length := by rw [frame]
        have pc : (returnedCore k7 pck ret comp k).pc = ret := by rw [frame]
        rw [depth, pc]
        by_cases hl : g.limited = true ∧ g.left = 0
        · rw [if_pos hl, if_pos (hit.2 hl)]
        · rw [if_neg hl, if_neg fun h => hl (hit.1 h)]
      · rw [key_low _ (by decide), getElem_returnedCore _ _ _ _ _ (by decide)]
        rfl

end Sys2Proof.Machine
end
